-- ==== Sys2Proof/Word.lean ====
section
/-! DEFINITION. The words and plain numbers of the hub: register words, addresses, bytes, slots, instants. -/

namespace Sys2Proof

/-- A register word (R3). -/
abbrev Word := BitVec 32

/-- A register byte address in the 24-bit address space (R3). -/
abbrev Addr := BitVec 24

/-- One byte of a frame, a record or the Shared Buffer. -/
abbrev Byte := BitVec 8

/-- The slot an access carries (R550, R604): 0 to 15 for the hosts H0 to H15, 16 for the Steward. -/
abbrev Slot := Fin 17

/-- An SPI or I2C host port: 0 to 3 are HS0 to HS3, 4 and 5 are HI0 and HI1 (R550, HST_PSTAT). -/
abbrev Port := Fin 6

/-- A stamp: Hub Time in units of 2⁻⁴ ns since the epoch (R340). -/
abbrev Stamp := Nat

end Sys2Proof
end

