-- ==== Sys2Proof/Syntax.lean ====
section
/-! DEFINITION. The commands of the hub: one constructor of `Instr` for each row of spec/opcode_table.json,
with the operands the spec gives the row. Every index is a bounded number, so no command can name a register,
a rail or a ring that the hub does not have. -/

namespace Sys2Proof

/-- What a member saw on the step lines during its 20 µs watch (R149). -/
inductive LineView where
  | offRest   -- SEQSTEP high and SEQDOWN_N low
  | allHigh   -- all three lines high
  | other     -- anything else
  deriving DecidableEq, Repr

/-- What a host puts on a port's wires beside the opcode's operands (R561 to R564, R575): the SCK level at the CS_N fall, whether CS_N had
been high for less than 300 ns, the address bits that the opcode reserves, LEN where the opcode fixes it, and the CRC byte. -/
structure Wire where
  high : Bool
  soon : Bool
  rsv  : BitVec 24
  len  : Byte
  crc  : Byte
  deriving DecidableEq, Repr

/-- A slot's operation and how it comes: as a frame with these wires, or without one by register writes, over CAN or from the Steward. -/
structure Way where
  slot : Slot
  wire : Option Wire
  deriving DecidableEq, Repr

/-- A frame on a port that has nothing but its wires, or nothing that the hub takes. -/
structure OnPort where
  p    : Port
  wire : Wire
  deriving DecidableEq, Repr

/-- A bank that is lost, VIOHn or VIORD (4), and the frame that the loss of a host's bank cut short. -/
structure BankCut where
  n   : Fin 5
  cut : Option Wire
  deriving DecidableEq, Repr

/-- A raw keep tick's edge, and VMAIN and VBAT as it finds them, in mV. -/
structure KeepEdge where
  edge    : Stamp
  vmainMv : Nat
  vbatMv  : Nat
  deriving DecidableEq, Repr

/-- A rail whose SHORT_T expires, and the rails that stand beyond a fault level then. -/
structure RailShort where
  n      : Fin 24
  beyond : BitVec 24
  deriving DecidableEq, Repr

/-- A received CAN frame (R626, R631, R646). `ext` is a 29-bit identifier, `rtr` a remote frame. -/
structure CanFrame where
  ext  : Bool
  rtr  : Bool
  fdf  : Bool
  brs  : Bool
  esi  : Bool
  id   : BitVec 29
  data : List Byte
  sof  : Stamp
  deriving DecidableEq, Repr

/-- A JOIN_REQ as it reaches the engine (R664): header depth, body fields, and the stamp of its SFD. -/
structure JoinReq where
  eui    : BitVec 64
  depth  : BitVec 3
  parent : BitVec 12
  caps   : BitVec 8
  lqi    : Byte
  cls    : BitVec 16
  nonce  : BitVec 16
  rx     : Stamp
  deriving DecidableEq, Repr

/-- The body of a SYNC_REPORT (R669) and the stamp of its SFD at the hub's antenna reference. -/
structure SyncBody where
  bseq  : BitVec 16
  flags : BitVec 8
  lqi   : Byte
  rB    : BitVec 64
  tR    : BitVec 64
  ofs   : BitVec 32
  rate  : BitVec 32
  temp  : BitVec 16
  batt  : BitVec 16
  rx    : Stamp
  deriving DecidableEq, Repr

/-- The body of a SAMPLE_REPORT (the sample frame table of spec/15) and the stamp of its SFD. -/
structure SampleBody where
  sweep  : Fin 64
  status : BitVec 8
  run    : BitVec 16
  seg    : Byte
  last   : Bool
  t0     : BitVec 64
  data   : List Byte
  rx     : Stamp
  deriving DecidableEq, Repr

/-- The commands and events of the hub: one constructor per row of spec/opcode_table.json. -/
inductive Instr where
  | registerWrite (slot : Slot) (addr : Addr) (value : Word)
  | set (slot : Slot)
  | cancelSet (slot : Slot)
  | step (slot : Slot)
  | slewStart (slot : Slot)
  | slewAbort (slot : Slot)
  | slewDone
  | selfCapture (slot : Slot)
  | planSwitch (slot : Slot)
  | planFail
  | htmIncrHiWrite (slot : Slot) (value : Word)
  | htmIncrLoWrite (slot : Slot) (value : Word)
  | pllLock
  | islandToMclk
  | pllUnlock
  | pllRetry
  | keepPowerOn (vmainMv vbatMv : Nat)
  | keepReset
  | keepTick (tick : KeepEdge)
  | keepTempSample (temp : BitVec 12) (vbatMv : Nat)
  | keepAgeDay
  | keepAlarmFire (n : Fin 4)
  | kstampEdge (n : Fin 4) (rising : Bool)
  | koscFail
  | oscRunning
  | switchToVbat
  | switchToVmain
  | switchRecordEmit
  | collapseOrder
  | keepWindowWrite (slot : Slot) (addr : Addr) (value : Word)
  | keepWriteApply
  | keepChgWrite (slot : Slot) (value : Word)
  | chargerLimit
  | fifoFlush (slot : Slot)
  | ageRestart (slot : Slot)
  | shelfArm (slot : Slot)
  | shelfDisarm (slot : Slot)
  | keepAlmHiWrite (slot : Slot) (n : Fin 4) (value : Word)
  | scanConversion (code : BitVec 12) (pg : Bool)
  | railNotUp (n : Fin 24)
  | railShort (short : RailShort)
  | railNotDown (n : Fin 24)
  | minOffEnd (n : Fin 24)
  | railFault (n : Fin 24) (ov : Bool) (beyond : BitVec 24)
  | seqstepRise (downHigh : Bool)
  | stageStart
  | stageDone
  | seqdownChange (high : Bool)
  | remoteAllOff (beyond : BitVec 24)
  | remoteAllOffEnd
  | lineWatchEnd (saw : LineView)
  | pbShort
  | pbLong (beyond : BitVec 24)
  | mrAssert (beyond : BitVec 24)
  | mrRelease
  | faultRetry
  | autoStart
  | vinWarn
  | vinRecover
  | vinFault (beyond : BitVec 24)
  | brownOut
  | groupUp (slot : Slot) (g : Fin 8)
  | groupDown (slot : Slot) (g : Fin 8)
  | wakein (k : Fin 4)
  | groupDemandServe (g : Fin 8)
  | hrstRelease (k : Fin 4)
  | wakeOutputTimeout (k : Fin 16)
  | release (slot : Slot) (stage : Fin 16)
  | gateTimeout
  | commit (slot : Slot)
  | planDiscard (slot : Slot)
  | forceOff (slot : Slot) (beyond : BitVec 24)
  | up (slot : Slot)
  | down (slot : Slot)
  | vmainArrival (boot : BitVec 3)
  | adcRefConversion (deviation : Nat)
  | scanNow (slot : Slot)
  | snap (slot : Slot)
  | periodicSnap
  | mortarEntryWrite
  | clear (slot : Slot)
  | clearDone
  | logScan
  | hostItemTake
  | nap (slot : Slot)
  | serviceEnter (slot : Slot)
  | serviceExit (slot : Slot)
  | freeze
  | thaw (phi : BitVec 6)
  | stewardReady
  | stewardHalt
  | hostCsWake (n : Fin 4)
  | i2cStartWake (n : Fin 2)
  | canRxdWake (n : Fin 2)
  | stinWakeEdge (n : Fin 64) (rising : Bool)
  | asleepFrame (n : Fin 4)
  | trimUpdate
  | ppsinEdge (stamp : Stamp)
  | missingSecond
  | zdaSentence (text : List Byte)
  | declareLock (slot : Slot)
  | declareUnlock (slot : Slot)
  | integClear (slot : Slot)
  | holdoverSecond
  | glearnSample
  | glearnWindowEnd
  | glRestart (slot : Slot)
  | fold (slot : Slot)
  | kcalMeasure (slot : Slot)
  | kcalDone
  | kcalAuto
  | keepGUpdate
  | calSecondBoundary
  | leapWrite (slot : Slot) (k : Fin 32) (value : Word)
  | localArm (slot : Slot) (value : Word)
  | localChange
  | cancelLocal (slot : Slot)
  | calAlmCtrlWrite (slot : Slot) (n : Fin 8) (value : Word)
  | alarmSearchDone (n : Fin 8)
  | calAlarmFire (n : Fin 8)
  | ppsoutPulse
  | ppsoutPulseEnd
  | irigoutElement
  | iriginElement (lead : Stamp) (widthNs : Nat)
  | clkoutEdge (n : Fin 4)
  | hpNsWrite (slot : Slot) (n : Fin 4) (value : Word)
  | clkResync (slot : Slot)
  | stinEdge (n : Fin 64) (rising : Bool) (stamp : Stamp)
  | stampDrain
  | interpCal (n : Fin 154) (pass : Bool)
  | touEntryWrite (slot : Slot) (n : Fin 32) (e : Fin 8) (w : Fin 8) (value : Word)
  | touArm (slot : Slot) (n : Fin 32) (mask : BitVec 8)
  | touCancel (slot : Slot) (n : Fin 32) (mask : BitVec 8)
  | touCommit (n : Fin 32) (e : Fin 8)
  | touTrailingEdge (n : Fin 32)
  | touLock (n : Fin 32) (e : Fin 8)
  | touCtrlWrite (slot : Slot) (n : Fin 32) (value : Word)
  | millEdge (m : Fin 16) (a b z : Bool) (stamp : Stamp)
  | millStall (m : Fin 16)
  | millApply (slot : Slot) (m : Fin 16)
  | millDiscard (slot : Slot) (m : Fin 16)
  | eval (slot : Slot) (m : Fin 16)
  | inject (slot : Slot) (m : Fin 16)
  | injHoldExpiry (m : Fin 16)
  | millRingOffer
  | gtStart (slot : Slot) (n : Fin 16)
  | gtStop (slot : Slot) (n : Fin 16)
  | gtLoad (slot : Slot) (n : Fin 16)
  | gtApply (slot : Slot) (n : Fin 16)
  | gtDiscard (slot : Slot) (n : Fin 16)
  | capFlush (slot : Slot) (n : Fin 16)
  | gtTick (n : Fin 16) (rising : Bool) (at_ : Stamp)
  | gtCompareMatch (n : Fin 16) (k : Fin 4) (rising : Bool) (at_ : Stamp)
  | gtExpiry (n : Fin 16) (rising : Bool) (at_ : Stamp)
  | gtPulseEnd (n : Fin 16) (pin : Fin 2)
  | gtTrigger (n : Fin 16)
  | gtPinGate (n : Fin 16) (high : Bool)
  | gtCapture (n : Fin 16) (c : Fin 2) (rising : Bool) (stamp : Stamp)
  | gtCapPop (slot : Slot) (n : Fin 16) (c : Fin 2)
  | gtCmpHiWrite (slot : Slot) (n : Fin 16) (k : Fin 4) (value : Word)
  | icuRound
  | icuRecordPublish (t : Fin 8)
  | eventClaim (way : Way)
  | eventEoi (way : Way) (source : BitVec 10)
  | latchClear (slot : Slot) (w : Fin 16) (value : Word)
  | lbrkClear (slot : Slot) (value : Word)
  | targetReset (slot : Slot) (t : Fin 8)
  | prigrpWrite (slot : Slot) (value : Word)
  | srccfgWrite (slot : Slot) (src : Fin 512) (value : Word)
  | tgtcfgWrite (slot : Slot) (t : Fin 8) (value : Word)
  | ringRead (way : Way) (r : Fin 64) (peek : Bool) (words : Nat) (complete : Bool)
  | ringWrite (slot : Slot) (r : Fin 64) (payload : List Word) (wire : Option Wire)
  | widxWrite (slot : Slot) (r : Fin 48) (value : Word)
  | ridxWrite (slot : Slot) (r : Fin 48) (value : Word)
  | flush (slot : Slot) (r : Fin 48)
  | rngCfgWrite (slot : Slot) (r : Fin 48) (value : Word)
  | pinchPost (way : Way) (c : Fin 64) (word : Word)
  | sachetPost (way : Way) (c : Fin 64) (tx0 tx1 : Word)
  | pinchTake (way : Way) (c : Fin 64)
  | sachetTake (way : Way) (c : Fin 64)
  | mbxAck (way : Way) (c : Fin 64) (code : BitVec 16)
  | retract (slot : Slot) (c : Fin 64)
  | ackedClear (slot : Slot) (c : Fin 64)
  | mbxBindWrite (slot : Slot) (c : Fin 64) (value : Word)
  | readReg (p : Port) (addr : Addr) (words : Nat) (wire : Wire)
  | writeReg (p : Port) (addr : Addr) (payload : List Word) (wire : Wire)
  | readSame (p : Port) (addr : Addr) (words : Nat) (wire : Wire)
  | dictReq (p : Port) (field : BitVec 24) (body : List Word) (wire : Wire)
  | dictResp (p : Port) (words : Nat) (wire : Wire)
  | status (p : Port) (wire : Wire)
  | nop (f : OnPort)
  | badOpcode (f : OnPort) (opcode : Byte)
  | shortFrame (f : OnPort) (sck : Bool)
  | i2cStatusRead (n : Fin 2)
  | hostReset (p : Port)
  | nodeSilence (k : Fin 16)
  | leaseClaim (slot : Slot) (id : Fin 160) (duration : Word)
  | leaseRelease (slot : Slot) (id : Fin 160)
  | leaseBreak (slot : Slot) (id : Fin 160)
  | leaseExpiry (id : Fin 160)
  | pinClaim (slot : Slot) (p : Fin 176) (value : Word)
  | pinRelease (slot : Slot) (p : Fin 176) (value : Word)
  | slotWrite (slot : Slot) (k : Fin 16) (value : Word)
  | keyhashWrite (slot : Slot) (i : Fin 8) (value : Word)
  | lock (slot : Slot) (value : Word)
  | verify (slot : Slot)
  | install (slot : Slot)
  | activate (slot : Slot)
  | fwOpDone (row : Unit)
  | trialRevert
  | seclockSample (high : Bool)
  | bankRise (b : Fin 5) (is33 : Bool)
  | dtpRead (slot : Slot) (index : BitVec 16) (sub : Byte)
  | dtpWrite (slot : Slot) (index : BitVec 16) (sub : Byte) (value : List Byte)
  | segWriteInit (slot : Slot) (index : BitVec 16) (sub : Byte) (total : Nat)
  | segWriteData (slot : Slot) (toggle : Bool) (index : BitVec 16) (sub : Byte) (segment : List Byte)
  | segReadInit (slot : Slot) (index : BitVec 16) (sub : Byte)
  | segReadData (slot : Slot) (toggle : Bool) (index : BitVec 16) (sub : Byte)
  | dtpAbort (slot : Slot) (code : BitVec 16)
  | dtpUndefinedCmd (slot : Slot) (q0 : Word)
  | transferLeaseExpiry (slot : Slot)
  | store (slot : Slot)
  | storeComplete
  | restore (slot : Slot)
  | canEnable (slot : Slot) (p : Fin 2) (value : Word)
  | recover (slot : Slot) (p : Fin 2)
  | tmNow (slot : Slot) (p : Fin 2)
  | busOff (p : Fin 2)
  | busOffRecovery (p : Fin 2)
  | canFrameReceive (p : Fin 2) (frame : CanFrame)
  | timemark (p : Fin 2)
  | timemarkFu (p : Fin 2) (sof : Stamp)
  | heartbeat (p : Fin 2)
  | canTxItem (p : Fin 2) (sof : Stamp)
  | beacon (canSend : BitVec 8)
  | layoutApply (slot : Slot)
  | layoutDiscard (slot : Slot)
  | approve (slot : Slot) (ticket : Byte)
  | deny (slot : Slot) (ticket : Byte) (retry : Byte)
  | evict (slot : Slot) (addr : BitVec 12) (retry : Byte)
  | quarClear (slot : Slot)
  | joinReq (port : Fin 8) (req : JoinReq)
  | joinAnswer (port : Fin 8)
  | ticketTimeout (ticket : Byte)
  | syncReport (port : Fin 8) (addr : BitVec 12) (body : SyncBody)
  | keepalive (port : Fin 8) (addr : BitVec 12) (flags lqi : Byte) (batt : BitVec 16) (rx : Stamp)
  | leave (port : Fin 8) (addr : BitVec 12) (reason : Byte)
  | ptlUndefinedType (port : Fin 8) (type : Byte)
  | reportJudgement (addr : BitVec 12)
  | absentTimeout (addr : BitVec 12)
  | quarantineEnd (addr : BitVec 12)
  | sweepArm (slot : Slot) (s : Fin 64)
  | sweepDisarm (slot : Slot) (s : Fin 64)
  | sweepAbort (slot : Slot) (s : Fin 64)
  | sweepApply (slot : Slot) (s : Fin 64)
  | sweepDiscard (slot : Slot) (s : Fin 64)
  | sweepRequestWindow (s : Fin 64)
  | sampleReport (port : Fin 8) (addr : BitVec 12) (body : SampleBody)
  | sweepDeadline (s : Fin 64)
  | radioRestart (slot : Slot) (p : Fin 8)
  | radioApply (slot : Slot) (p : Fin 8)
  | radioDiscard (slot : Slot) (p : Fin 8)
  | runSlot (slot : Slot) (p : Fin 8) (k : Fin 8)
  | radioIrq (p : Fin 8)
  | radioTxLoad (p : Fin 8)
  | radioTick (p : Fin 8)
  | radioSfd (p : Fin 8) (stamp : Stamp)
  | radioTxCommit (p : Fin 8)
  | sfdMiss (p : Fin 8)
  | radioTxItem (p : Fin 8)
  | scriptEnd (p : Fin 8)
  | scriptXfer (p : Fin 8) (miso : Byte)
  | scriptXferA (p : Fin 8) (miso : Byte)
  | scriptSendFrame (p : Fin 8)
  | scriptRecvFrame (p : Fin 8) (bytes : List Byte) (lqi rssi : Byte)
  | scriptPost (p : Fin 8)
  | scriptLoada (p : Fin 8)
  | scriptAnda (p : Fin 8)
  | scriptJump (p : Fin 8)
  | scriptWaitIrq (p : Fin 8)
  | scriptWaitEnd (p : Fin 8) (irq : Bool)
  | scriptDelay (p : Fin 8)
  | scriptDelayEnd (p : Fin 8)
  | scriptReset (p : Fin 8)
  | scriptArmTxt (p : Fin 8)
  | scriptHalt (p : Fin 8)
  | scriptBadOp (p : Fin 8)
  | seqLineStall
  | hostBankLost (b : BankCut)
  | restoreComplete
  | estateChg (p : Fin 2) (tec rec_ : Byte) (estate : Fin 3)
  | debugHaltEnd
  deriving DecidableEq, Repr

end Sys2Proof
end

