-- ==== Sys2Proof/Decode.lean ====
section
/-! DEFINITION. The command that a word spells by the bits of spec/opcode_table.json. The table gives its rows no bits: a command of the
hub comes as a frame, a register access or an event, each with its own operands. -/

namespace Sys2Proof

/-- No row of the table has bits, so no word spells a command. (DESIGN CHOICE, log 9.) -/
def decodeTableWord (_nbits _w : Nat) : Option Instr := none

end Sys2Proof
end

