-- ==== Sys2Proof/Machine/Sig.lean ====
section
/-! DEFINITION. SHA-256 (FIPS 180-4) and the verification of an ECDSA P-256 signature (FIPS 186-5), by which the boot path authenticates a
firmware image (spec/13, R593, R595). The constants are those of the standards that R593 and R595 name. (PRESUMED, log 200.) -/

namespace Sys2Proof.Machine

/-! ### SHA-256 -/

/-- The round constants. -/
def shaK : List (BitVec 32) :=
  [0x428a2f98, 0x71374491, 0xb5c0fbcf, 0xe9b5dba5, 0x3956c25b, 0x59f111f1, 0x923f82a4, 0xab1c5ed5] ++
  [0xd807aa98, 0x12835b01, 0x243185be, 0x550c7dc3, 0x72be5d74, 0x80deb1fe, 0x9bdc06a7, 0xc19bf174] ++
  [0xe49b69c1, 0xefbe4786, 0x0fc19dc6, 0x240ca1cc, 0x2de92c6f, 0x4a7484aa, 0x5cb0a9dc, 0x76f988da] ++
  [0x983e5152, 0xa831c66d, 0xb00327c8, 0xbf597fc7, 0xc6e00bf3, 0xd5a79147, 0x06ca6351, 0x14292967] ++
  [0x27b70a85, 0x2e1b2138, 0x4d2c6dfc, 0x53380d13, 0x650a7354, 0x766a0abb, 0x81c2c92e, 0x92722c85] ++
  [0xa2bfe8a1, 0xa81a664b, 0xc24b8b70, 0xc76c51a3, 0xd192e819, 0xd6990624, 0xf40e3585, 0x106aa070] ++
  [0x19a4c116, 0x1e376c08, 0x2748774c, 0x34b0bcb5, 0x391c0cb3, 0x4ed8aa4a, 0x5b9cca4f, 0x682e6ff3] ++
  [0x748f82ee, 0x78a5636f, 0x84c87814, 0x8cc70208, 0x90befffa, 0xa4506ceb, 0xbef9a3f7, 0xc67178f2]

/-- The eight working variables. -/
structure ShaRegs where
  a : BitVec 32
  b : BitVec 32
  c : BitVec 32
  d : BitVec 32
  e : BitVec 32
  f : BitVec 32
  g : BitVec 32
  h : BitVec 32
  deriving DecidableEq, Repr

def shaInit : ShaRegs :=
  { a := 0x6a09e667, b := 0xbb67ae85, c := 0x3c6ef372, d := 0xa54ff53a, e := 0x510e527f, f := 0x9b05688c, g := 0x1f83d9ab, h := 0x5be0cd19 }

/-- One round with its message word and constant. -/
def shaRound (r : ShaRegs) (w k : BitVec 32) : ShaRegs :=
  let s1 := r.e.rotateRight 6 ^^^ r.e.rotateRight 11 ^^^ r.e.rotateRight 25
  let t1 := r.h + s1 + (r.e &&& r.f ^^^ ~~~r.e &&& r.g) + k + w
  let s0 := r.a.rotateRight 2 ^^^ r.a.rotateRight 13 ^^^ r.a.rotateRight 22
  { a := t1 + s0 + (r.a &&& r.b ^^^ r.a &&& r.c ^^^ r.b &&& r.c), b := r.a, c := r.b, d := r.c, e := r.d + t1, f := r.e, g := r.f, h := r.g }

/-- The message schedule goes on by `n` words; `l` holds those so far, the newest first. -/
def shaSchedule : Nat → List (BitVec 32) → List (BitVec 32)
  | 0, l => l
  | n + 1, l =>
    let x := l.getD 1 0
    let y := l.getD 14 0
    shaSchedule n ((l.getD 15 0 + (y.rotateRight 7 ^^^ y.rotateRight 18 ^^^ y >>> 3) + l.getD 6 0 +
      (x.rotateRight 17 ^^^ x.rotateRight 19 ^^^ x >>> 10)) :: l)

/-- One block of sixteen words. -/
def shaBlock (h : ShaRegs) (ws : List (BitVec 32)) : ShaRegs :=
  let r := ((shaSchedule 48 ws.reverse).reverse.zip shaK).foldl (fun r wk => shaRound r wk.1 wk.2) h
  { a := h.a + r.a, b := h.b + r.b, c := h.c + r.c, d := h.d + r.d, e := h.e + r.e, f := h.f + r.f, g := h.g + r.g, h := h.h + r.h }

/-- `n` blocks. -/
def shaBlocks (h : ShaRegs) : Nat → List (BitVec 32) → ShaRegs
  | 0, _ => h
  | n + 1, ws => shaBlocks (shaBlock h (ws.take 16)) n (ws.drop 16)

/-- Big-endian bytes as a number, and as 32-bit words. -/
def beNat (l : List Nat) : Nat := l.foldl (fun v b => v * 256 + b % 256) 0
def beWords : Nat → List Nat → List (BitVec 32)
  | 0, _ => []
  | n + 1, l => BitVec.ofNat 32 (beNat (l.take 4)) :: beWords n (l.drop 4)

/-- The digest of a list of bytes, as a 256-bit number: padded with 0x80, zeros and the length in bits. -/
def sha256 (bytes : List Nat) : Nat :=
  let n := bytes.length
  let blocks := (n + 9 + 63) / 64
  let padded := bytes ++ [0x80] ++ List.replicate (blocks * 64 - n - 9) 0 ++ (List.range 8).map fun i => n * 8 / 256 ^ (7 - i) % 256
  let r := shaBlocks shaInit blocks (beWords (blocks * 16) padded)
  [r.a, r.b, r.c, r.d, r.e, r.f, r.g, r.h].foldl (fun v w => v * 2 ^ 32 + w.toNat) 0

/-! ### P-256 -/

def ecP : Nat := 2 ^ 256 - 2 ^ 224 + 2 ^ 192 + 2 ^ 96 - 1
def ecN : Nat := 0xffffffff00000000ffffffffffffffffbce6faada7179e84f3b9cac2fc632551
def ecB : Nat := 0x5ac635d8aa3a93e7b3ebbd55769886bc651d06b0cc53b0f63bce3c3e27d2604b

/-- A point in Jacobian coordinates; z = 0 is the point at infinity. -/
structure EcPoint where
  x : Nat
  y : Nat
  z : Nat
  deriving DecidableEq, Repr

def ecG : EcPoint :=
  { x := 0x6b17d1f2e12c4247f8bce6e563a440f277037d812deb33a0f4a13945d898c296
    y := 0x4fe342e2fe1a7f9b8ee7eb4a7c0f9e162bce33576b315ececbb6406837bf51f5
    z := 1 }

/-- Subtraction modulo p, of reduced values. -/
def ecSub (a b : Nat) : Nat := (a + ecP - b) % ecP

/-- `b ^ e mod m` for an exponent of `n` bits. -/
def powMod (b e m : Nat) : Nat → Nat
  | 0 => 1 % m
  | n + 1 =>
    let h := powMod b e m n
    let q := h * h % m
    if e.testBit (255 - n) then q * b % m else q

/-- 2 P, with the curve's a = −3. -/
def ecDouble (u : EcPoint) : EcPoint :=
  let yy := u.y * u.y % ecP
  let s := 4 * u.x * yy % ecP
  let zz := u.z * u.z % ecP
  let m := 3 * ecSub u.x zz * (u.x + zz) % ecP
  let x := ecSub (m * m % ecP) (2 * s % ecP)
  { x := x, y := ecSub (m * ecSub s x % ecP) (8 * yy * yy % ecP), z := 2 * u.y * u.z % ecP }

/-- P + Q. -/
def ecAdd (u v : EcPoint) : EcPoint :=
  if u.z = 0 then v
  else if v.z = 0 then u
  else
    let zu := u.z * u.z % ecP
    let zv := v.z * v.z % ecP
    let u1 := u.x * zv % ecP
    let u2 := v.x * zu % ecP
    let s1 := u.y * zv % ecP * v.z % ecP
    let s2 := v.y * zu % ecP * u.z % ecP
    if u1 = u2 then if s1 = s2 then ecDouble u else { x := 1, y := 1, z := 0 }
    else
      let h := ecSub u2 u1
      let r := ecSub s2 s1
      let hh := h * h % ecP
      let hhh := h * hh % ecP
      let w := u1 * hh % ecP
      let x := ecSub (r * r % ecP) ((hhh + 2 * w) % ecP)
      { x := x, y := ecSub (r * ecSub w x % ecP) (s1 * hhh % ecP), z := h * u.z % ecP * v.z % ecP }

/-- k P, over the low `n` bits of k. -/
def ecMul (k : Nat) (u : EcPoint) : Nat → EcPoint
  | 0 => { x := 1, y := 1, z := 0 }
  | n + 1 =>
    let d := ecDouble (ecMul (k / 2) u n)
    if k % 2 = 1 then ecAdd d u else d

/-- A public key is a point of the curve other than infinity. -/
def ecOnCurve (x y : Nat) : Bool :=
  decide (x < ecP) && decide (y < ecP) && y * y % ecP == (x * x % ecP * x + (ecP - 3) * x + ecB) % ecP

/-- The signature (r, s) of the digest e verifies under the key (x, y). -/
def ecdsaOk (x y e r s : Nat) : Bool :=
  ecOnCurve x y && decide (1 ≤ r) && decide (r < ecN) && decide (1 ≤ s) && decide (s < ecN) &&
    let w := powMod s (ecN - 2) ecN 256
    let q := ecAdd (ecMul (e * w % ecN) ecG 256) (ecMul (r * w % ecN) { x := x, y := y, z := 1 } 256)
    q.z != 0 && q.x * powMod (q.z * q.z % ecP) (ecP - 2) ecP 256 % ecP % ecN == r

end Sys2Proof.Machine
end

