-- ==== Sys2Proof/Config.lean ====
section
/-! DEFINITION. What the spec leaves open: constants without a body, so that nothing can be proved of their values. Each is
applied to the counter `State.fresh` (a new value at every use) or to the operands it depends on, and has an entry in the
assumption log. -/

namespace Sys2Proof.Config

/-- A value the spec does not state, fresh at each use. (DESIGN CHOICE, log 10.) -/
opaque freeNat : Nat → Nat

/-- The part's serial number (the spec gives no value). -/
opaque serial : Nat

/-- The part's EUI-64 (the spec gives no value). -/
opaque eui : Nat

/-- The time a frame of n bytes takes on the air, in 2⁻⁴ ns: the transceiver's rate is not the hub's. -/
opaque airTime : Nat → Nat

/-- The level of CANnSTB where R629 gives none: VIO33 is powered, the controller does not run, and the mode is not M2, M3, M7 or M9. -/
opaque canStbIdle : Nat → Bool

/-- The active level of RDpTXT for a value of TXT_POL (the spec gives none). -/
opaque txtActive : Nat → Bool

/-- The level of RDpMOSI of a port where no bit stands on it (the spec gives none). -/
opaque mosiIdle : Nat → Bool

/-- The SHA-256 digest of the key that the firmware the part ships with is signed by (the spec gives none). -/
opaque factoryKeyHash : Nat

end Sys2Proof.Config
end

