-- ==== Sys2Proof/Machine/Code.lean ====
section
/-! DEFINITION. The result codes of R14 and their classes (R15). -/

namespace Sys2Proof.Machine

/-- The 22 result codes of R14. -/
inductive Code where
  | done | accepted | noSuchIndex | noSuchSub | noSuchAddress | readOnly | writeOnly | secureOnly | badLength | outOfRange
  | reservedEncoding | badOpcode | badCrc | ownedElsewhere | leaseLost | busy | notInMode | alreadyDone | aborted | asleep
  | full | empty
  deriving DecidableEq, Repr

/-- The 16-bit value of a code (R14). -/
def Code.val : Code → Nat
  | .done => 0x0000
  | .accepted => 0x0001
  | .noSuchIndex => 0x0101
  | .noSuchSub => 0x0102
  | .noSuchAddress => 0x0103
  | .readOnly => 0x0201
  | .writeOnly => 0x0202
  | .secureOnly => 0x0203
  | .badLength => 0x0301
  | .outOfRange => 0x0302
  | .reservedEncoding => 0x0303
  | .badOpcode => 0x0304
  | .badCrc => 0x0305
  | .ownedElsewhere => 0x0401
  | .leaseLost => 0x0402
  | .busy => 0x0501
  | .notInMode => 0x0502
  | .alreadyDone => 0x0601
  | .aborted => 0x0602
  | .asleep => 0x0701
  | .full => 0x0801
  | .empty => 0x0802

/-- All codes, to look a value up (R538). -/
def Code.all : List Code :=
  [.done, .accepted, .noSuchIndex, .noSuchSub, .noSuchAddress, .readOnly, .writeOnly, .secureOnly, .badLength, .outOfRange,
   .reservedEncoding, .badOpcode, .badCrc, .ownedElsewhere, .leaseLost, .busy, .notInMode, .alreadyDone, .aborted, .asleep,
   .full, .empty]

/-- The class of a result code: its high byte, truncated to 4 bits (R15). -/
def Code.cls (c : Code) : Nat := c.val / 256 % 16

/-- Class 0x0 alone means success (R15). -/
def Code.ok (c : Code) : Bool := c.cls == 0

end Sys2Proof.Machine
end

