-- ==== Sys2Proof/Machine/Parts.lean ====
section
/-! DEFINITION. What each block holds beside its registers: one structure per block, plain data. -/

namespace Sys2Proof.Machine

/-- What the hub returned for the last command: the result code and the data words of a read. -/
structure Answer where
  code : Code
  data : List Nat
  deriving DecidableEq, Repr

/-- Who asked for the down direction (R772: only DOWN and a PB_N press can be withdrawn by UP). -/
inductive DownReq where
  | host | gate | holdup
  deriving DecidableEq, Repr

/-! ### HTM (spec/01) and the modes (spec/05) -/

/-- A SET that waits for its edge (R40): the latched value in 2⁻³² ns, and SET_APPLY. -/
structure PendSet where
  time  : Nat
  apply : Nat
  deriving DecidableEq, Repr

/-- Where a PLAN_SWITCH stands (R32, R34). -/
inductive PlanPhase where
  | idle        -- no switch
  | freezing    -- waiting for the freeze edge
  | locking     -- reprogrammed from the staged plan, waiting for lock
  | fallback  -- reprogrammed from the previous plan, waiting for lock
  deriving DecidableEq, Repr

structure HtmS where
  time      : Nat            -- Hub Time in 2⁻³² ns (R21, R23)
  incr      : Nat            -- HTM_INCR in force
  incrHeld  : Option Nat     -- a write of INCR_LO waiting for INCR_HI (R49)
  pend      : Option PendSet
  slewLeft  : Int            -- 2⁻³² ns still to absorb (R45)
  slewRate  : Nat            -- the rate read at SLEW_START
  phase     : PlanPhase
  mclk      : Bool           -- MCLK runs (ungated)
  pll       : Bool           -- the PLL reports lock
  frozen    : Bool           -- Hub Time is frozen
  first     : Bool           -- the next thaw is the first after a cold start, a VMAIN arrival (R37)
  cold      : Nat × Nat      -- the plan the island holds for the first thaw: REF code, HTM_INCR (R37)
  deriving DecidableEq, Repr

/-- A tick pair (R237): keep count and F after the tick, the Hub Time of the edge in 2⁻³² ns, TIME_SET, and where the edge lies in the
present timeline, which a SET or STEP moves. -/
structure TickPair where
  n   : Nat
  f   : Nat
  h   : Nat
  set : Bool
  at_ : Int
  deriving DecidableEq, Repr

/-- Why a planned freeze was requested (R238). -/
inductive FreezeFor where
  | nap | plan | fall
  deriving DecidableEq, Repr

structure GlbS where
  freezeReq  : Option FreezeFor
  thawTick   : Bool              -- a raw keep tick has come since the island went over to MCLK: the thaw edge (R243)
  freezeTick : Bool              -- a raw keep tick has come since the request: the freeze edge (R238)
  frz        : Option TickPair   -- the freeze pair (R18); none for a freeze without an edge (R71)
  phiF       : Nat               -- φ code of the freeze edge
  unplanned  : Bool              -- the freeze was unplanned (R239)
  back       : Nat               -- the mode a thaw out of M3 or M7 enters
  m8From     : Nat               -- the mode M8 was entered from
  lostLock   : Nat               -- the mode a PLL loss of lock left (0: none), R232
  pend503    : Bool              -- a mode change to be raised at the next thaw
  loaded     : Bool              -- the Steward has loaded the stored configuration since the main domain started (R613)
  pendLatch  : List Nat          -- sources of island or keep origin to be latched at the next thaw (R469)
  mainUp     : Bool              -- the main domain is powered and out of reset
  waking     : Bool              -- a wake out of M7 is under way
  deriving DecidableEq, Repr

/-! ### The keep domain (spec/02) -/

inductive Supply where
  | none | vmain | vbat
  deriving DecidableEq, Repr

/-- An entry of the keep FIFO (R102). -/
structure KeepEnt where
  input : Nat
  count : Nat
  sleep : Bool
  deriving DecidableEq, Repr

/-- A keep record waiting for the main domain to run (R99, R115): KIND, DETAIL, count. -/
structure KeepRec where
  kind   : Nat
  detail : Nat
  count  : Nat
  deriving DecidableEq, Repr

structure KeepS where
  powered  : Bool               -- VKEEP above 1.50 V
  oscOn    : Bool               -- the keep oscillator delivers ticks
  supply   : Supply
  judged   : Bool               -- the first tick's supply choice has been made (R769)
  vmain    : Nat                -- mV, as last seen
  vbat     : Nat                -- mV, as last seen
  rawTicks : Nat                -- raw ticks since the last oscillator start or failure (R70, R78)
  upRun    : Nat                -- consecutive ticks, up to 2, at which VMAIN stood above the threshold of R82
  dayEnd   : Nat                -- the keep count that ends the present day of R80
  count    : Nat                -- the 64-bit keep count
  f        : Nat                -- F, 42 bits
  fifo     : List KeepEnt
  ovf      : Nat                -- inputs whose next quill carries OVF_BEFORE, a bit mask
  kstamp   : Nat                -- KSTAMP pin levels, a bit mask
  almHeld  : List (Nat × Nat)   -- a KEEP_ALM_LO write held for KEEP_ALM_HI
  swNext   : Nat                -- the switch log's next place
  swPend   : Option Nat         -- DETAIL of a switch whose record the next tick writes (R87)
  win      : Option (Nat × Nat) -- the pending keep-window write: address and value (R108)
  mirror   : List (Nat × Nat)   -- the read mirror of the KEEP fields (R106)
  mCount   : Nat                -- the mirror of the count, F and the FIFO count
  mF       : Nat
  mFifo    : Nat
  batLow   : Bool               -- comparator states (R88)
  batCrit  : Bool
  shelf    : Bool               -- in M0 (R113)
  recQ     : List KeepRec
  pair     : Option TickPair    -- the newest tick pair, and the one before (R237, R239)
  pair0    : Option TickPair
  deriving DecidableEq, Repr

/-! ### Events, mailboxes and hosts (spec/11, spec/12, spec/13) -/

/-- A record of the event queues (R479). -/
structure IcuRec where
  seq  : Nat
  prio : Nat
  src  : Nat
  ns   : Nat
  deriving DecidableEq, Repr

/-- An assignment whose record is not yet published. -/
structure IcuAsg where
  tgt  : Nat
  src  : Nat
  prio : Nat
  deriving DecidableEq, Repr

/-- (DESIGN CHOICE, log 85.) -/
structure TgtS where
  rseq  : Nat
  queue : List IcuRec
  stack : List IcuRec      -- the top first; the PRIO of each is the pushed one (R487)
  deriving DecidableEq, Repr

/-- A ring item of a hub producer that waits for the ring write port: its block's base address by its bits from 16 on, and the words
that the port has moved. -/
structure PortItem where
  blk   : Nat
  ring  : Nat
  words : List Nat
  moved : Nat
  deriving DecidableEq, Repr

/-- The ring write port (R724). -/
structure PortS where
  last : Nat                -- the producer served last, the ICU aside, by its block
  run  : Nat                -- words that it has moved in the present grant; 0: none is given
  wait : List PortItem      -- items that wait, the oldest first
  deriving DecidableEq, Repr

structure IcuS where
  tgts  : List (Nat × TgtS)
  asg   : List IcuAsg
  last  : List (Nat × Nat)    -- the target each source was last assigned to; unlisted T7 (R477)
  ringOff : List Nat          -- rings 0 to 7 whose EN is to clear after publication (R480)
  irqKept : Nat               -- the IRQ levels of T0 to T7 as the main domain stopped, a mask (R494)
  deriving DecidableEq, Repr

structure MbxS where
  held : List (Nat × Nat)   -- MBX_TX0 held on a Sachet channel (R543)
  w0   : List (Nat × Nat)   -- the message: the Pinch word, or TX0
  w1   : List (Nat × Nat)   -- TX1
  deriving DecidableEq, Repr

/-- The CAN node that a request came from, with its SEQ and whether the frame was classical (R633 to R635). -/
structure CanNodeRef where
  port    : Nat
  node    : Nat
  seq     : Nat
  classic : Bool
  deriving DecidableEq, Repr

/-- A dictionary request and its response (R570, R634): the slot, the request body, the response once the Steward has served it,
the CAN node it came from, its place in the order of acceptance (R606), and whether it is the STORE or RESTORE that runs (R611, R614). -/
structure DictJob where
  slot  : Nat
  req   : List Nat
  resp  : Option (List Nat)
  can   : Option CanNodeRef
  turn  : Nat
  begun : Bool := false
  deriving DecidableEq, Repr

/-- A frame the hub has put on a CAN bus: identifier, FD format, bit-rate switch, data bytes. -/
structure CanOut where
  id   : Nat
  esi  : Bool
  fdf  : Bool
  brs  : Bool
  data : List Nat
  deriving DecidableEq, Repr

structure CanPort where
  tmSeq  : Nat            -- SEQ of the next TIMEMARK (R636), and of the next heartbeat (R640)
  hbSeq  : Nat
  tmWait : List Nat       -- SEQ of the TIMEMARKs that wait for their end, the oldest first (R638)
  recov  : Bool           -- RECOVER was given at bus-off (R630)
  sent   : List CanOut    -- the frames the hub has sent since the last cycle without a command, the oldest first
  deriving DecidableEq, Repr

/-- The last request served for a node (R633): FN, SEQ, Hub Time, and the response. -/
structure CanDone where
  fn   : Nat
  seq  : Nat
  t    : Nat
  resp : CanOut
  deriving DecidableEq, Repr

structure CanNode where
  last : Option CanDone
  note : Nat              -- the note count of R643
  irq  : Bool             -- the IRQ of the slot's target as last announced (R643)
  attn : Bool             -- the slot's MBX_ATTN view as last announced (R645)
  due  : Bool             -- a PENDING note is sent with the end of the cycle (R643)
  deriving DecidableEq, Repr

structure CanS where
  ports : List (Nat × CanPort)
  nodes : List (Nat × CanNode)   -- by port × 256 + node
  deriving DecidableEq, Repr

/-- What a firmware bank holds: the image that the part ships with, the bytes of an installed one, or one that an INSTALL broken off has
left half written. -/
inductive BankImg where
  | factory
  | image (bytes : List Nat)
  | torn
  deriving DecidableEq, Repr

/-- An advance of RIDX that waits for the rise of CS_N (R524): the port, the ring, and the index past the items returned. -/
structure RingAdv where
  port : Nat
  ring : Nat
  upTo : Nat
  deriving DecidableEq, Repr

structure HstS where
  portLast : List (Nat × Nat)    -- last result of each SPI or I2C port (R566)
  failIdx  : List (Nat × Nat)    -- FAILIDX by slot (R569)
  leaseDur : List (Nat × Nat)    -- the duration of each lease (R585)
  jobs     : List (Nat × DictJob)  -- by slot; 32 + port × 256 + node for a CAN node
  bind     : List (Nat × Nat)    -- HST_SLOT words that apply at the port's next frame start (R557)
  reads    : List RingAdv        -- RING_READ frames whose CS_N is still low
  status   : Nat                 -- the status byte of the last frame on an SPI or I2C port (R566)
  sdo      : List Nat            -- the bytes the hub sent in that frame; 0xFF on every later one (R562, R578)
  acks     : Nat                 -- the bytes it acknowledged in that frame's write transaction on I2C (R577)
  sync1    : List (Nat × Bool)   -- the levels of the balls that the hub knows, one cycle ago (R592); unlisted low
  sync2    : List (Nat × Bool)   -- and two cycles ago (R592)
  seclock  : Nat                 -- consecutive high samples of SECLOCK (R759)
  keyMask  : Nat                 -- SEC_KEYHASH words written (R593)
  fwOp     : Nat                 -- the firmware operation running (R596)
  trialNext : Bool               -- ACTIVATE: the inactive bank is trial at the next main-domain start (R596)
  banks    : List (Nat × BankImg)  -- what each firmware bank holds (R595, R596); unlisted the factory's image
  bank33   : List (Nat × Nat)    -- class of each bank: 1 at 1.8 V, 2 at 3.3 V; unlisted lost (R733, R734)
  boot     : Nat                 -- BOOT2 to BOOT0 as sampled (R757)
  deriving DecidableEq, Repr

/-- A segmented transfer (R620 to R623). -/
structure Transfer where
  port   : Option Nat         -- the port that carries it; none: the Steward's own
  write  : Bool
  index  : Nat
  sub    : Nat
  total  : Nat
  bytes  : List Nat           -- staged so far, or still to return
  toggle : Bool               -- TOGGLE the next segment must carry
  last   : Option (List Nat)  -- the answer to the last accepted segment
  deriving DecidableEq, Repr

/-- A copy of the NV configuration area (R609, R611). -/
structure NvCopy where
  gen   : Nat
  regs  : List (Nat × Nat)
  integ : List (Nat × Nat)
  deriving DecidableEq, Repr

structure DictS where
  xfers  : List (Nat × Transfer)  -- by slot
  integ  : List (Nat × Nat)       -- entries 0x7000 to 0x73FF (R608)
  copyA  : Option NvCopy
  copyB  : Option NvCopy
  store  : Option Nat             -- the slot whose STORE runs (R611)
  restore : Option Nat            -- the slot whose RESTORE runs (R614)
  stepArg : Nat                   -- sub 2 of entry 0x2802: the step that a release names
  deriving DecidableEq, Repr

/-! ### The sequencer (spec/03) -/

/-- A group operation at on-rest (R167, R171). -/
structure GroupOp where
  group : Nat
  up    : Bool
  stop  : Bool      -- a direction change ends it once its current rails are done (R172)
  deriving DecidableEq, Repr

/-- What of an enabled rail's plan a commit leaves in force until its next transition (R182). -/
structure RailKept where
  step  : Nat
  group : Nat
  dep   : Nat
  deriving DecidableEq, Repr

structure SeqS where
  pullStep : Bool              -- this member holds SEQSTEP low
  pullDown : Bool              -- SEQDOWN_N
  pullFlt  : Bool              -- SEQFLT_N
  joined   : Bool              -- takes part in the set (R149)
  down     : List DownReq      -- who of this member asks for the down direction
  next     : Option (Bool × Nat)  -- the stage to start: direction down, step (R144)
  want     : Nat               -- rails the stage or group operation raises
  drop     : Nat               -- rails it lowers
  shortSeen : Nat              -- rails with a reading at SHORT_PCT since their enable (R127)
  shortHold : Nat              -- shorted rails that R130 keeps off
  demands  : Nat               -- groups demanded and waiting (R168)
  op       : Option GroupOp
  emptyUp  : Nat               -- groups without rails that are up (R169)
  toWake   : Nat               -- groups brought up by a demand whose slots are to be woken (R170)
  hrstLow  : Nat               -- HRSTk_N held low
  own      : Bool              -- this member caused the present all-off (R158)
  mrLow    : Bool              -- MR_N is low (R155)
  vinLow   : Bool              -- VINSNS below VIN_WARN (R163)
  holdup   : Bool              -- a holdup down runs (R163)
  freed    : Bool              -- the stage's gate has been released (R147, R177)
  kept     : List (Nat × RailKept)  -- enabled rails whose plan changes wait for their next transition (R182)
  offNow   : Nat               -- CAUSE bits of the all-off of the present cycle (R161, R210)
  offUp    : Nat               -- the rails that ran when it came
  offRamp  : Nat               -- the rails that ramped
  retries  : Nat               -- retries since the last ordered off-rest (R160)
  pgLow    : Nat               -- rails whose RAILn_PG read low at their last conversion
  deriving DecidableEq, Repr

/-! ### The monitor and the Mortar log (spec/04) -/

/-- A queued Mortar entry: its TYPE and words W1 to W29; SEQ comes at the write (R208, R214). -/
structure LogEnt where
  type  : Nat
  words : List Nat
  waits : Bool      -- triggered with the scan stopped: it waits for the first complete scan (R189)
  now   : Bool      -- triggered in the present cycle: a further cause of it joins its CAUSE (R210)
  deriving DecidableEq, Repr

structure MonS where
  slot    : Nat               -- the channel the next conversion reads (R187)
  start   : Nat               -- Hub Time at the start of slot 0 (R201)
  next0   : Option Nat        -- Hub Time at the end of the last conversion, where the next scan starts
  divCnt  : Nat               -- scans since the last periodic record (R199)
  scanReq : Bool              -- SCAN_NOW outstanding
  scanArm : Bool              -- the scan that answers it has started
  warnRun : List (Nat × Nat)  -- consecutive readings beyond a warn level, by rail (R198)
  xtSecond : Bool             -- slot 28's next conversion is at the second current (R195)
  xtRead  : Bool              -- slot 28 has given a reading in this run
  xtBad   : Bool              -- the last XTEMP reading was faulty
  log     : List (Nat × Nat)  -- the Mortar log's words by slot × 32 + word; unlisted 0 (R202)
  head    : Nat               -- next slot
  seq     : Nat               -- next SEQ (R207)
  queue   : List LogEnt       -- in trigger order (R214)
  writing : Option LogEnt     -- the entry being written into the next slot (R211, R223)
  scanWait : Bool             -- the scan runs in M2 for an entry that waits (R189)
  scanned : Bool              -- it has been complete once
  burnt   : Bool              -- the SEQ of an entry abandoned before its step 1 is spent (R213)
  clearing : Bool             -- a CLEAR runs (R219)
  collapse : Nat              -- the collapse count kept in the NV area (R216)
  causes  : Nat               -- CAUSE bits present in the present cycle (R210)
  scanDue : Bool              -- the log is still to be read after VMAIN arrival, before any entry is written (R216)
  deriving DecidableEq, Repr

/-! ### Trim and discipline (spec/06) -/

/-- A second of the holdover window: S, and θ of its accepted sample if any (R299, R300). -/
structure SecLog where
  s  : Int
  th : Option Int
  deriving DecidableEq, Repr

/-- A learning window (R274 to R276) as its sums: x in 2⁻²⁰ g, y of the main and of the keep learner in 2⁻⁴². -/
structure GlWin where
  n    : Nat
  sx   : Nat
  sxx  : Nat
  sym  : Int
  sxym : Int
  syk  : Int
  sxyk : Int
  wMax : Nat               -- largest and smallest one-second mean of |speed|, 2⁻⁴⁸ rev/s
  wMin : Nat
  acq  : Bool              -- the mill reported acquisition in every second
  deriving DecidableEq, Repr

/-- A discipline sample (R281, R287): KIND, edge, N, θ in 2⁻¹⁶ ns, and its marks. -/
structure Sample where
  kind    : Nat
  t       : Nat
  n       : Nat
  theta   : Int
  outlier : Bool
  discard : Bool
  deriving DecidableEq, Repr

structure TrmS where
  dieT   : List Int        -- the last 16 readings, newest first (R265)
  xT     : List Int
  xGood  : Nat             -- good XTEMP readings since a fault (R266)
  kcal   : Option TickPair -- a measurement: its first tick pair, the sum and number of keep temperatures
  kcalT  : Int
  kcalN  : Nat
  auto   : Option TickPair -- the first pair of an automatic keep calibration (R272)
  win    : Option GlWin    -- the learning window in progress
  gSum   : Nat             -- G, |speed| and the number of trim updates of the learner's second
  wSum   : Nat
  gN     : Nat
  gAcq   : Bool
  gPair  : Option TickPair -- the pair at the end of the last learner second
  base   : Nat             -- INCR_BASE (R259)
  gSent  : Int             -- the last KEEP_TRIM_G value written (R270)
  prev   : Option (Sample × Option Nat)  -- the last judged sample and its label, for R291
  label  : Option Nat      -- a label waiting for the edge after it (R286), TAI seconds
  due    : Option Sample   -- an edge's sample whose servo update falls into the next cycle (R288, R290)
  held   : Option Sample   -- a sample whose label comes after it
  lastEdge : Option Nat    -- the last accepted edge, 2⁻³² ns
  okRun  : Nat             -- consecutive accepted samples within LOCK_THR with TOD_OK
  bigRun : Nat             -- consecutive accepted samples with |θ| > UNLOCK_THR
  todRun : Nat             -- consecutive TOD_MISMATCH samples
  missRun : Nat            -- consecutive seconds without an accepted sample
  secs   : List SecLog     -- per-second S and θ, newest first
  u0     : Nat             -- U0 and Y at the entry to M6 (R300): 2⁻¹⁶ ns, 2⁻¹⁶ ppb
  y0     : Nat
  deriving DecidableEq, Repr

/-! ### Stamp inputs and timed outputs (spec/08) -/

/-- A stamped edge in an input's FIFO (R342): the stamp less the skew, polarity, OVF_BEFORE and UNCAL. -/
structure StEdge where
  t     : Nat
  pol   : Bool
  ovf   : Bool
  uncal : Bool
  deriving DecidableEq, Repr

structure StIn where
  fifo   : List StEdge
  last   : Option Nat    -- the crossing of the last accepted edge (R341)
  ovf    : Bool          -- the next quill carries OVF_BEFORE (R343)
  unread : Bool          -- STP_LAST holds a stamp not yet read (R352)
  fails  : Nat           -- consecutive failed calibrations (R347)
  filt   : List (Nat × Bool)  -- edges in the deglitch filter or past it and not yet decided: crossing and polarity, oldest first (R338, R768)
  deriving DecidableEq, Repr

/-- A wake edge kept through the sleep (R256): input, polarity, and the keep count at the next raw tick once that has come. -/
structure WakeEdge where
  input : Nat
  pol   : Bool
  count : Option Nat
  deriving DecidableEq, Repr

structure StpS where
  ins     : List (Nat × StIn)
  nextGrp : Nat                -- round robin of the drain (R344)
  nextIn  : List (Nat × Nat)
  wake    : Option WakeEdge
  uncal   : Nat                -- uncalibrated interpolators beside STP_UNCAL: mill m input k at 3m + k, PPSIN 48, IRIGIN 49 (R346, R384)
  fails   : List (Nat × Nat)   -- their failed calibrations in a row (R347)
  deriving DecidableEq, Repr

/-- A KIND 1 entry's prediction (R366), and whether the mill is not moving toward the target (R369). -/
structure TouEnt where
  pred : Option Nat      -- 2⁻³² ns
  wait : Bool
  deriving DecidableEq, Repr

/-- An edge in an output's delay line (R360, R361): its instant in 2⁻³² ns, ACTION, and WIDTH in ns. -/
structure TouEdge where
  t      : Nat
  action : Nat
  width  : Nat
  timer  : Option Nat := none  -- the timer whose action it is
  rank   : Nat := 0      -- among edges of one instant: an entry's 0, a compare's its timer × 4 + its index (R439, R440)
  deriving DecidableEq, Repr

structure TouOut where
  line  : List TouEdge   -- committed edges that have not come yet, in the order of their commits
  trail : Option Nat     -- the pending trailing edge (R365), 2⁻³² ns
  trailOf : Option Nat   -- the timer whose pulse it ends (R439)
  last  : Option Nat     -- where the last edge was placed (R364)
  came  : Option Nat     -- where the newest edge stood that has come
  want  : Option Nat     -- where the last routed action wanted it (R440)
  level : Nat            -- the level the schedule or a routed timer drives, which FORCE hides in MODE 1 (R375)
  deriving DecidableEq, Repr

structure TouS where
  ents : List (Nat × TouEnt)   -- by output × 8 + entry
  outs : List (Nat × TouOut)
  deriving DecidableEq, Repr

/-! ### Mills (spec/09) -/

/-- A kept state (R402): its time in 2⁻³² ns, phase in 2⁻⁴⁸ rev, speed in 2⁻⁴⁸ rev/s, acceleration in 2⁻⁴⁸ rev/s². -/
structure MillSt where
  t  : Nat
  th : Nat
  w  : Int
  a  : Int
  deriving DecidableEq, Repr

/-- A counted edge on its way to the estimator: stamp, ANGLE64 from counting, and whether it re-indexed the mill. -/
structure MillEdge where
  t   : Nat
  pos : Nat
  isRef : Bool
  deriving DecidableEq, Repr

/-- A mill record that waits for ring 36 (R418, R419): KIND, DETAIL, its instant and revolution count. -/
structure MillRec where
  kind   : Nat
  detail : Nat
  t      : Nat
  rev    : Nat
  deriving DecidableEq, Repr

/-- An edge quill that waits for ring 36 (R417). -/
structure MillQuill where
  input : Nat
  pol   : Bool
  ovf   : Bool
  uncal : Bool
  t     : Nat
  deriving DecidableEq, Repr

structure MillS where
  ball    : Nat               -- the levels at balls A, B and Z, a mask
  a       : Bool              -- the levels that the mill sees past its filters
  b       : Bool
  z       : Bool
  filt    : List (Nat × Nat)  -- transitions in the deglitch filter, or past it and not yet decided: input and instant, oldest first (R384, R768)
  anchor  : Nat               -- ANGLE64 of count 0
  cnt     : Int               -- counted edges since the anchor
  started : Bool              -- a counted edge has come since APPLY
  refs    : Bool              -- a reference has come since APPLY
  lastT   : Option Nat        -- the last counted edge
  since   : Nat               -- that edge, or the restart or thaw after it: STALL_T runs from here (R399)
  lastIv  : Option Nat        -- the interval before it
  dirNeg  : Option Bool       -- direction of the last counted edge
  seed    : Nat               -- edges taken since the last seed (R396), up to 2
  kept    : List MillSt       -- newest first, at most 4 (R402)
  froz    : Option MillSt     -- the state a thaw extrapolates for its next reference (R412)
  inj     : Option MillSt     -- the injected state (R409)
  injAt   : Nat               -- Hub Time at the last INJECT (R411)
  ready   : Nat               -- when the estimator may take its next edge (R395)
  held    : Option MillEdge   -- an edge waiting for it
  taken   : Option Nat        -- ANGLE64 of the last taken edge
  run     : Nat               -- consecutive edges within ACQ_TOL
  fast    : Bool              -- |ω| has exceeded 2,000 rev/s and not fallen below 1,990
  qcnt    : List (Nat × Nat)  -- QDIV counts by input
  recs    : List MillRec
  quill   : Option MillQuill
  ovf     : Bool
  deriving DecidableEq, Repr

structure MilS where
  mills : List (Nat × MillS)
  next  : Nat                 -- round robin of the offers to ring 36 (R418)
  gap   : Nat                 -- cycles until the next offer (R418)
  deriving DecidableEq, Repr

/-! ### Calendar and reference outputs (spec/07) -/

/-- A calendar alarm beside its registers: the date and time words in force (R323), the second a running search starts at
(R319), and whether a passed second is still to fire late (R320). -/
structure AlmS where
  date : Nat
  time : Nat
  search : Option Nat
  owed : Bool
  deriving DecidableEq, Repr

/-- A running CLKOUT (R333, R334), times in 2⁻¹⁶ ns: its next edge, its level, the half-period in force, and one written that
applies at the next rising edge. -/
structure ClkS where
  next  : Nat
  level : Bool
  hp    : Nat
  pend  : Option Nat
  last  : Nat          -- where the last edge was placed, 2⁻⁴ ns
  restart : Option Nat -- where ALIGN restarts the sequence next, 2⁻¹⁶ ns (R334)
  deriving DecidableEq, Repr

structure CalS where
  sec    : Option Nat          -- the last second whose boundary has been taken, or passed by a SET, STEP or thaw
  alms   : List (Nat × AlmS)
  on     : Nat                 -- outputs that run: bit 0 PPSOUT, 1 IRIGOUT, 2 + n CLKOUTn (R324)
  pps    : Bool                -- PPSOUT is active
  ppsNext : Nat                -- the second of its next pulse (R326)
  ppsEnd : Int                 -- where the present pulse ends, 2⁻³² ns
  irig   : Option (Nat × Nat × Nat)  -- IRIGOUT: the second described, the element sent last, its symbol
  irigNext : Nat               -- the second that its first frame describes
  clk    : List (Nat × ClkS)
  resync : Bool                -- CLK_RESYNC waits for the next boundary
  inMark : Bool                -- the last IRIGIN element was a marker
  inFrame : Option (Nat × List Nat)  -- the open IRIGIN frame: its on-time edge (2⁻⁴ ns), its elements so far, newest first
  deriving DecidableEq, Repr

/-! ### General timers (spec/10) -/

/-- A queued capture (R447): Hub Time, QUAL and the count. -/
structure CapEnt where
  t     : Nat
  qual  : Nat
  count : Nat
  deriving DecidableEq, Repr

/-- An edge in a deglitch filter of a timer: its crossing in 2⁻⁴ ns, its polarity, and the count at it (R447). -/
structure PinEdge where
  t      : Nat
  rising : Bool
  count  : Nat
  deriving DecidableEq, Repr

structure GtS where
  count  : Nat
  cmp    : List (Nat × Nat)    -- compare values
  held   : List (Nat × Nat)    -- GT_CMP_LO words that wait for GT_CMP_HI (R436)
  tickAt : Nat                 -- the last aligned tick, or the start, opening or thaw after it (R425)
  resid  : Nat                 -- the part below one cycle kept from the last sleep (R248)
  line   : List (Nat × TouEdge) -- placed edges by output that have not come yet (R438)
  trail  : List (Nat × Nat)    -- pending trailing edges by output (R439)
  last   : List (Nat × Nat)    -- where the last edge of each output was placed
  came   : List (Nat × Nat)    -- where the newest edge stood that has come
  want   : List (Nat × Nat)    -- where its action wanted it
  lvl    : List (Nat × Nat)    -- the level the actions leave on each output
  clk    : List PinEdge        -- edges in the filter of the clock input, or past it and not yet decided, oldest first (R427, R768)
  clkAt  : Option Nat          -- the last edge past it, 2⁻⁴ ns
  capIn  : List (Nat × PinEdge) -- those of the capture channels (R446)
  caps   : List (Nat × List CapEnt)  -- capture queues by channel
  capAt  : List (Nat × Nat)    -- the last edge of each channel, 2⁻⁴ ns
  pin0   : Bool                -- GTnP0 reads high (R453)
  trig   : Option Nat          -- a pulse of the master that this timer has still to act on: its instant
  deriving DecidableEq, Repr

/-! ### Partner link (spec/15) -/

/-- The last offset of a partner (R671): OFFSET's ns, H64 of its beacon, STEP_GEN, the port, LOCAL_STEP of its report. -/
structure PtnSync where
  ofs   : Int
  tb    : Nat
  gen   : Nat
  port  : Nat
  jump  : Bool
  deriving DecidableEq, Repr

/-- An entry of the partner table. -/
structure Partner where
  state  : Nat           -- R674's table: 0 FREE to 5 UNREACHABLE
  eui    : Nat
  port   : Nat
  depth  : Nat
  parent : Nat
  relay  : Option Nat    -- its relay slot
  phase  : Nat
  slot   : Nat
  lqi    : Nat
  miss   : Nat
  flags  : Nat           -- W0 bits 15:12: HOLDOVER, UNSYNC, OFS_ALERT, RATE_ALERT
  offset : Int
  rate   : Int
  delay  : Int
  last   : List Nat      -- the last frame, TIME96
  reports : Nat
  missed : Nat
  fwd    : Nat
  bad    : Nat
  batt   : Nat
  temp   : Nat
  cls    : Nat
  sync   : Option PtnSync
  acc    : Nat           -- the serial number of its last accepted frame
  heard  : Bool          -- a frame was accepted since its last judgement (R674)
  grace  : Nat           -- opportunities still to pass (R674)
  judged : Option Nat    -- the beacon instant of its last judgement
  deriving DecidableEq, Repr

/-- A pending join request (R668). -/
structure Ticket where
  ticket : Nat
  port   : Nat
  req    : JoinReq
  deriving DecidableEq, Repr

/-- A frame that the engine sends on a port: PTL payload, and the superframe of the decision (R667). -/
structure PtlOut where
  port : Nat
  data : List Nat
  sf   : Int
  deriving DecidableEq, Repr

/-- A beacon instant (R657): its SEQ, H64 and TIME of tb, the ports it was sent on, STEP_GEN. -/
structure BeaconRec where
  seq   : Nat
  tb    : Nat
  ports : Nat
  gen   : Nat
  deriving DecidableEq, Repr

structure PtnS where
  table   : List (Nat × Partner)
  tickets : List Ticket
  nextTkt : Nat
  granted : List Nat           -- EUI-64s granted in this discovery window (R665)
  answers : List PtlOut        -- grants and denials to send (R667)
  beacons : List BeaconRec     -- newest first, the last 2^15 superframes
  layout  : Option (List Nat)  -- an accepted layout that waits for the next beacon (R656)
  acc     : Nat                -- accepted frames so far
  wins    : List (Nat × List Nat)  -- each slot's window (PTN_WSEL)
  wsel    : List (Nat × Nat)       -- PTN_WSEL as each slot wrote it
  deriving DecidableEq, Repr

/-! ### Sweeps and radio ports (spec/16) -/

/-- A listed partner of a run (R697, R700). -/
structure Member where
  addr   : Nat
  next   : Nat         -- its next expected SEG
  gap    : Bool
  got    : Bool        -- at least one segment accepted
  last   : Option Nat  -- STATUS of its accepted LAST
  deriving DecidableEq, Repr

/-- An open run: waiting, or requested. -/
structure Run where
  requested : Bool
  t        : Nat             -- T in 2⁻³² ns
  deadline : Nat
  members  : List Member
  toSend   : List Nat        -- unicast requests still to send (R691)
  win      : Int             -- the superframe of those last sent
  acc      : Nat             -- accepted frames when the request was sent
  skipped  : Nat
  stray    : Nat
  deriving DecidableEq, Repr

structure SweepS where
  trig : Nat               -- this run's TRIG: 2⁻³² ns, or ANGLE64
  run  : Option Run
  again : Bool              -- ARM came while the last run was still open: the next run is RUN 0 at TRIG
  deriving DecidableEq, Repr

/-- A frame a port is to send: a beacon, a frame of the hub's own, or a host's; its antenna instant (2⁻⁴ ns) if timed. -/
inductive TxKind where
  | beacon | link | host | hostTimed
  deriving DecidableEq, Repr

structure TxFrame where
  kind : TxKind
  inst : Option Nat
  data : List Nat
  deriving DecidableEq, Repr

/-- A receive item under construction (R716). -/
structure RxItem where
  psdu : List Nat
  lqi  : Nat
  rssi : Nat
  deriving DecidableEq, Repr

structure RadS where
  a       : Nat              -- register A, and the flag T
  t       : Bool
  starts  : Nat              -- slots that wait to start, a mask
  wait    : Bool             -- a WAIT_IRQ runs
  delay   : Bool             -- a DELAY runs
  cs      : Bool             -- RDpCS_N is held low
  rst     : Bool             -- RDpRST_N as the RESET opcode left it
  mosi    : List Nat         -- the bytes that the last SPI instruction sent (R716)
  bytes   : Nat              -- the bytes that it clocked
  rx      : Option RxItem
  sfd     : Option (Nat × Nat)  -- the last receive SFD since RX_ON: an antenna instant and its QUAL
  recv    : Bool             -- receiving: RX_ON has started since the last transmission
  queue   : List TxFrame
  due     : Option TxFrame   -- the frame being loaded or sent
  armed   : Bool
  await   : Bool             -- an RDpTXT edge waits for its SFD
  sent    : Bool             -- an RDpTXT edge has come since the frame was loaded
  txt     : Option Nat       -- when the last RDpTXT edge that was placed comes (2⁻⁴ ns)
  placed  : Option Nat       -- the instant of the last beacon whose RDpTXT edge was placed (2⁻⁴ ns)
  missed  : Option Nat       -- the instant of the last beacon that was abandoned as TX_LATE (R711)
  deriving DecidableEq, Repr

/-! ### The present cycle (R13) -/

/-- An operation that has completed in the present MCLK cycle: an abort of it that comes in the same cycle loses (R13). -/
inductive Ended where
  | timer (n : Nat)     -- a one-shot run at its expiry tick (R432)
  | entry (n e : Nat)   -- a timed-output entry at its commit (R360)
  | lock (n e : Nat)    -- a timed-output entry's lock (R367)
  | due (n e : Nat)     -- a timed-output entry became due, or may have (R362)
  | alarm (n : Nat)     -- a calendar alarm at its firing (R320)
  | load (n : Nat)      -- a LOAD or reset of a timer, which discards a tick of its cycle (R433)
  | pulse (n : Nat)     -- a trigger pulse to a timer, on which it acts in the next cycle (R452)
  | flush (r : Nat)     -- a FLUSH of a ring, which a RING_WRITE of its cycle meets (R521)
  | write (r slot widx dropped drop : Nat)  -- a RING_WRITE frame's publication, and what the ring held before it (R521)
  | asked               -- a dictionary request was accepted (R606)
  | moved (was : Nat) (step : Bool)  -- a SET, or a STEP, which took Hub Time from this value
  | layout              -- a LAYOUT_APPLY, which waits for the beacon after its cycle's (R656)
  | swept (n run : Nat)  -- the close of run `run` of sweep n (R699, R703)
  | riseUp              -- the rise that ends up 15 (R152)
  | riseDown            -- the rise that ends down 0
  | lost (served sec : Nat) (ports : List (Nat × Nat))  -- that rise took the main domain down, which let these slots write registers, the latter secure; and the slot of each port (R152)
  | cancelled (slot : Slot) (time apply : Nat)  -- a CANCEL_SET, and the SET it dropped (spec/01)
  | napped (slot : Slot)  -- a NAP (R722)
  | replied (key q0 : Nat)  -- the command before this entry came by a dictionary request, answered at this key
  | milled (m : Nat) (was : MillS) (regs : List Nat) (units : List (Nat × Nat)) (l : List (Nat × Nat))  -- transitions of mill m came in rows of this cycle, and what the mill and the phases of the timers on it were before, and are (R387)
  | turn (slot : Slot) (down : List DownReq) (pullStep pullDown : Bool)  -- a DOWN or UP, and the lines and requests it found (R152)
  deriving DecidableEq, Repr

end Sys2Proof.Machine
end

