-- ==== Sys2Proof/Machine/Assoc.lean ====
section
/-! DEFINITION. Sparse data by key: a list of key and value pairs in one canonical form (keys strictly rising, no entry
equal to what an unlisted key reads as). Register fields, the Shared Buffer and the logs are held this way. -/

namespace Sys2Proof.Machine.Assoc

/-- The value listed for `k`, if any. -/
def find {V : Type} (k : Nat) : List (Nat × V) → Option V
  | [] => none
  | (b, v) :: t => if b = k then some v else find k t

/-- `l` without any entry for `k`. -/
def erase {V : Type} (k : Nat) : List (Nat × V) → List (Nat × V)
  | [] => []
  | (b, v) :: t => if b = k then erase k t else (b, v) :: erase k t

/-- `l` with `(k, v)` placed before the first larger key. -/
def place {V : Type} (k : Nat) (v : V) : List (Nat × V) → List (Nat × V)
  | [] => [(k, v)]
  | (b, w) :: t => if k < b then (k, v) :: (b, w) :: t else (b, w) :: place k v t

/-- `l` with `k` reading as `v`, where an unlisted `k` reads as `dflt`. -/
def put {V : Type} [DecidableEq V] (dflt : V) (k : Nat) (v : V) (l : List (Nat × V)) : List (Nat × V) :=
  if v = dflt then erase k l else place k v (erase k l)

/-- What `k` reads as, where an unlisted `k` reads as `dflt`. -/
def get {V : Type} (dflt : V) (k : Nat) (l : List (Nat × V)) : V :=
  (find k l).getD dflt

/-- Every key of `l` is above `k`. -/
def allAbove {V : Type} (k : Nat) : List (Nat × V) → Bool
  | [] => true
  | (b, _) :: t => decide (k < b) && allAbove k t

/-- The canonical form: keys strictly rising, and no entry equal to what an unlisted key reads as. -/
def wf {V : Type} [DecidableEq V] (dflt : V) : List (Nat × V) → Bool
  | [] => true
  | (b, v) :: t => allAbove b t && decide (v ≠ dflt) && wf dflt t

end Sys2Proof.Machine.Assoc
end

