-- ==== Sys2Proof/Machine/Fld.lean ====
section
/-! DEFINITION. Register fields (R11): where a field stands, its type code, its reset value and what it accepts. -/

namespace Sys2Proof.Machine

/-- The type codes of R11. -/
inductive FTy where
  | ro | rw | rws | w1c | w1s | wo | rc
  deriving DecidableEq, Repr

/-- What a field accepts. A value outside is a reserved encoding (R8) or out of range (R767). -/
inductive Legal where
  | any
  | enc (lo hi : Nat)          -- outside lo..hi: reserved encoding
  | encOr (lo hi x : Nat)      -- outside lo..hi and other than x: reserved encoding
  | gap (lo hi : Nat)          -- lo..hi: reserved encoding
  | gapTo (lo hi top : Nat)    -- lo..hi: reserved encoding; above top: out of range
  | rng (lo hi : Nat)          -- outside lo..hi: out of range
  | srng (mag : Nat)           -- signed, outside ±mag: out of range
  | senc (mag : Nat)           -- signed, outside ±mag: reserved encoding
  deriving DecidableEq, Repr

/-- A register field: its register's byte address, its bits, type code, reset value and accepted values. -/
structure Fld where
  addr  : Nat
  hi    : Nat
  lo    : Nat
  ty    : FTy
  reset : Nat
  legal : Legal
  deriving DecidableEq, Repr

/-- The field's width in bits. -/
def Fld.width (f : Fld) : Nat := f.hi + 1 - f.lo

/-- The field's key in the register file: one key per register and lowest bit. -/
def Fld.key (f : Fld) : Nat := f.addr * 32 + f.lo

/-- The field's part of a word. -/
def Fld.ofWord (f : Fld) (w : Nat) : Nat := (w >>> f.lo) % 2 ^ f.width

/-- The two's complement reading of a `w`-bit value. -/
def signedOf (w v : Nat) : Int := if v < 2 ^ (w - 1) then (v : Int) else (v : Int) - (2 ^ w : Nat)

/-- The `w`-bit two's complement form of `i`. -/
def toBits (w : Nat) (i : Int) : Nat := (i % (2 ^ w : Nat)).toNat

/-- `i` saturated to the signed `w`-bit range. -/
def satS (w : Nat) (i : Int) : Int := max (-(2 ^ (w - 1) : Nat)) (min i ((2 ^ (w - 1) : Nat) - 1))

/-- What the field's accepted set says of a value: whether it is a reserved encoding, or out of range. -/
def Fld.isReserved (f : Fld) (v : Nat) : Bool :=
  match f.legal with
  | .enc lo hi => decide (v < lo) || decide (hi < v)
  | .encOr lo hi x => (decide (v < lo) || decide (hi < v)) && decide (v ≠ x)
  | .gap lo hi | .gapTo lo hi _ => decide (lo ≤ v) && decide (v ≤ hi)
  | .senc m => decide ((m : Int) < (signedOf f.width v).natAbs)
  | _ => false

/-- (DEDUCED, log 13.) -/
def Fld.isOutOfRange (f : Fld) (v : Nat) : Bool :=
  match f.legal with
  | .rng lo hi => decide (v < lo) || decide (hi < v)
  | .srng m => decide ((m : Int) < (signedOf f.width v).natAbs)
  | .gapTo _ _ top => decide (top < v)
  | _ => false

namespace F
def ro (a hi lo : Nat) (r : Nat := 0) : Fld := ⟨a, hi, lo, .ro, r, .any⟩
def rw (a hi lo : Nat) (r : Nat := 0) (l : Legal := .any) : Fld := ⟨a, hi, lo, .rw, r, l⟩
def rws (a hi lo : Nat) (r : Nat := 0) (l : Legal := .any) : Fld := ⟨a, hi, lo, .rws, r, l⟩
def w1c (a hi lo : Nat) (r : Nat := 0) : Fld := ⟨a, hi, lo, .w1c, r, .any⟩
def rc (a hi lo : Nat) (r : Nat := 0) : Fld := ⟨a, hi, lo, .rc, r, .any⟩
/-- A staged field's read-only active copy, `off` bytes above it. -/
def active (off : Nat) (f : Fld) : Fld := { f with addr := f.addr + off, ty := .ro }
end F

end Sys2Proof.Machine
end

