-- ==== Sys2Proof/Machine/Regs1.lean ====
section
/-! DEFINITION. The register fields of chapters 01 to 07 and 14 (identity): GLB, KEEP, HTM, CAL, TRM, SEQ, MON. -/

namespace Sys2Proof.Machine.F

/-! GLB (spec/05, spec/14) -/
def glbDnotice : Fld := w1c 0x40 3 0
def glbDstatRes : Fld := ro 0x44 31 16
def glbDstatGen : Fld := ro 0x44 15 0
def glbWakeHeld : Fld := ro 0x100 9 9
def glbStewardReady : Fld := ro 0x100 8 8
def glbPrev : Fld := ro 0x100 7 4 2
def glbMode : Fld := ro 0x100 3 0 3
def glbNapPll : Fld := rws 0x108 0 0
def glbWakeEn : Fld := rws 0x10C 7 0 0x0F
def glbWakeCause : Fld := w1c 0x110 13 0
def glbHalted : Fld := ro 0x154 0 0
/-- The thaw registers 0x00_0120 to 0x00_0150, word by word (spec/05). -/
def glbFrz (i : Nat) : Fld := ro (0x120 + i * 4) 31 0

/-! HTM (spec/01) -/
def htmSetApply : Fld := rw 0x020000 1 0 0 (.enc 0 2)
def htmStepGen : Fld := ro 0x020004 15 8
def htmIslandOnMclk : Fld := ro 0x020004 7 7
def htmPlanBusy : Fld := ro 0x020004 6 6
def htmSlewClamped : Fld := w1c 0x020004 5 5
def htmSlewActive : Fld := ro 0x020004 4 4
def htmSetPending : Fld := ro 0x020004 3 3
def htmPlanFail : Fld := w1c 0x020004 2 2
def htmTimeSet : Fld := ro 0x020004 0 0
def htmSetSecLo : Fld := rws 0x020010 31 0
def htmSetSecHi : Fld := rws 0x020014 15 0
def htmSetNs : Fld := rws 0x020018 29 0 0 (.rng 0 999999999)
def htmSetFrac : Fld := rws 0x02001C 15 0
def htmStepNs : Fld := rws 0x020024 31 0 0 (.srng 999999999)
def htmStepSec : Fld := rws 0x020028 31 0
def htmSlewOfs : Fld := rws 0x02002C 31 0
def htmSlewRate : Fld := rws 0x020030 9 0 100 (.rng 1 1000)
def htmPlanStage : Fld := rws 0x020060 2 0 0b110
def htmPlanIncrLo : Fld := rws 0x020064 31 0
def htmPlanIncrHi : Fld := rws 0x020068 7 0 0x04
def htmPlanActive : Fld := ro 0x02006C 2 0 0b110

/-! HTM discipline (spec/06) -/
def dTodBaud : Fld := rws 0x020100 10 8 1 (.enc 0 4)
def dZdaRel : Fld := rws 0x020100 6 6
def dPpsPol : Fld := rws 0x020100 5 5
def dAutoAcq : Fld := rws 0x020100 4 4 1
def dMode : Fld := rws 0x020100 3 3
def dSrc : Fld := rws 0x020100 2 0 0 (.enc 0 4)
def dLockRun : Fld := ro 0x020104 15 8
def dLastUnlock : Fld := ro 0x020104 7 4
def dPpsPresent : Fld := ro 0x020104 3 3
def dTodOk : Fld := ro 0x020104 2 2
def dState : Fld := ro 0x020104 1 0
def dEvt : Fld := w1c 0x02010C 5 0
def dKp : Fld := rws 0x020110 15 0 0x2000
def dKi : Fld := rws 0x020114 15 0 0x0200
def dPpsDelay : Fld := rws 0x020118 31 0
def dLockN : Fld := rws 0x02011C 31 24 16 (.enc 1 255)
def dLossN : Fld := rws 0x02011C 23 16 3 (.enc 1 255)
def dLockThr : Fld := rws 0x02011C 15 0 100
def dUnlockThr : Fld := rws 0x020120 31 16 1000
def dPpsWin : Fld := rws 0x020120 15 0 2000
def dStepThr : Fld := rws 0x020124 31 0 1000000
def dServoMax : Fld := rws 0x020128 18 0 100000 (.rng 1 488000)
def dPhase : Fld := ro 0x02012C 31 0
def dServo : Fld := ro 0x020130 31 0
def dInteg : Fld := ro 0x020134 31 0
def dHoldAvg : Fld := rws 0x020138 31 16 64 (.enc 16 1024)
def dHoldDrift : Fld := rws 0x020138 15 0 10
def dHoldMax : Fld := rws 0x02013C 31 0 86400
def dHoldLimit : Fld := rws 0x020140 31 0 10000
def dHoldFreq : Fld := ro 0x020144 31 0
def dHoldUnc : Fld := ro 0x020148 31 0
def dHoldTime : Fld := ro 0x02014C 31 0
def dOutliers : Fld := rc 0x020150 31 16
def dTodBad : Fld := rc 0x020150 15 0

/-! KEEP (spec/02): the registers of the keep window, as the keep domain holds them -/
def kGAtFreeze : Fld := rws 0x010000 5 5
def kSwMode : Fld := rws 0x010000 4 4
def kMode : Fld := rws 0x010000 0 0
def kKovf : Fld := w1c 0x010004 7 7
def kChgActive : Fld := ro 0x010004 6 6
def kShelfArmed : Fld := ro 0x010004 5 5
def kTrimClamped : Fld := w1c 0x010004 4 4
def kVbatCrit : Fld := w1c 0x010004 3 3
def kVbatLow : Fld := w1c 0x010004 2 2
def kOnVbat : Fld := ro 0x010004 1 1
def kTimeValid : Fld := ro 0x010004 0 0
def kOscFail : Fld := w1c 0x010008 2 2
def kOscRunning : Fld := ro 0x010008 1 1
def kBusy : Fld := ro 0x010008 0 0
def kTrimBase : Fld := rws 0x010024 31 0
def kTrimG : Fld := rws 0x010028 31 0
def kTrimTotal : Fld := ro 0x01002C 31 0
def kParaK : Fld := rws 0x010030 31 16
def kParaT0 : Fld := rws 0x010030 11 0 400
def kAgeRate : Fld := rws 0x010034 31 0
def kAgeDays : Fld := ro 0x010038 15 0
def kParaTerm : Fld := ro 0x01003C 31 0
def kAgeTerm : Fld := ro 0x010040 31 0
def kTemp : Fld := ro 0x010044 11 0
def kCl : Fld := rws 0x010048 1 0 1 (.enc 0 2)
def kChgEn : Fld := rws 0x01004C 3 3
def kChgVlim : Fld := rws 0x01004C 2 2
def kChgRser : Fld := rws 0x01004C 1 0 1 (.enc 0 2)
def kAlmLo (n : Nat) : Fld := rw (0x010100 + n * 0x10) 31 0
def kAlmHi (n : Nat) : Fld := rw (0x010104 + n * 0x10) 31 0
def kAlmPer (n : Nat) : Fld := rw (0x010108 + n * 0x10) 31 0 0 (.encOr 2 0xFFFFFFFF 0)
def kAlmFired (n : Nat) : Fld := w1c (0x01010C + n * 0x10) 4 4
def kAlmWakePin (n : Nat) : Fld := rw (0x01010C + n * 0x10) 3 3
def kAlmWakeHub (n : Nat) : Fld := rw (0x01010C + n * 0x10) 2 2
def kAlmEvent (n : Nat) : Fld := rw (0x01010C + n * 0x10) 1 1
def kAlmEn (n : Nat) : Fld := rw (0x01010C + n * 0x10) 0 0
def kKscfg (n : Nat) : Fld := rw 0x010200 (2 * n + 1) (2 * n) 0 (.enc 0 2)
def kKslost (n : Nat) : Fld := rc 0x010204 (8 * n + 7) (8 * n)
def kSwrecLo (n : Nat) : Fld := ro (0x010300 + n * 0x10) 31 0
def kSwrecHi (n : Nat) : Fld := ro (0x010304 + n * 0x10) 31 0
def kSwrecEmitted (n : Nat) : Fld := ro (0x010308 + n * 0x10) 12 12
def kSwrecInfo (n : Nat) : Fld := ro (0x010308 + n * 0x10) 11 0
def kBkp (n : Nat) : Fld := if n < 8 then rw (0x010400 + n * 4) 31 0 else rws (0x010400 + n * 4) 31 0

/-! CAL (spec/07) -/
def cAlmBusy : Fld := ro 0x030000 23 16
def cTaiUtc : Fld := ro 0x030000 15 8
def cLocalPending : Fld := ro 0x030000 3 3
def cLeapSoon : Fld := ro 0x030000 2 2
def cLeapNow : Fld := ro 0x030000 1 1
def cViewValid : Fld := ro 0x030000 0 0
def cEvt : Fld := w1c 0x030004 4 0
/-- The view words CAL_VSEC to CAL_LOC_TIME (R312). -/
def cView (i : Nat) : Fld := ro (0x030010 + i * 4) 31 0
def cLocalOfs : Fld := rws 0x030030 11 0 0 (.srng 900)
def cLocalNext : Fld := rws 0x030034 11 0 0 (.srng 900)
def cLocalAtLo : Fld := rws 0x030038 31 0
def cLocalAtHi : Fld := rws 0x03003C 15 0
def cLeapNextLo : Fld := ro 0x030040 31 0
def cLeapNextHi : Fld := ro 0x030044 15 0
/-- The 28 historical leap entries of R316, as MJD, with OFS 10 + k. (PRESUMED, log 58.) -/
def leapMjd : List Nat := [41317, 41499, 41683, 42048, 42413, 42778, 43144, 43509, 43874, 44239, 44786, 45151, 45516, 46247,
  47161, 47892, 48257, 48804, 49169, 49534, 50083, 50630, 51179, 53736, 54832, 56109, 57204, 57754]
def cLeapOfs (k : Nat) : Fld := rws (0x030100 + k * 4) 31 24 (if k < 28 then 10 + k else 0)
def cLeapMjd (k : Nat) : Fld := rws (0x030100 + k * 4) 17 0 (leapMjd.getD k 0)
def cAlmDate (n : Nat) : Fld := rw (0x030200 + n * 0x20) 31 4
def cAlmTime (n : Nat) : Fld := rw (0x030204 + n * 0x20) 31 5
def cAlmNever (n : Nat) : Fld := ro (0x030208 + n * 0x20) 15 15
def cAlmLate (n : Nat) : Fld := w1c (0x030208 + n * 0x20) 14 14
def cAlmFired (n : Nat) : Fld := w1c (0x030208 + n * 0x20) 13 13
def cAlmMask (n : Nat) : Fld := rw (0x030208 + n * 0x20) 12 6
def cAlmScale (n : Nat) : Fld := rw (0x030208 + n * 0x20) 5 4 0 (.enc 0 2)
def cAlmOneshot (n : Nat) : Fld := rw (0x030208 + n * 0x20) 1 1
def cAlmEn (n : Nat) : Fld := rw (0x030208 + n * 0x20) 0 0
def cAlmNextLo (n : Nat) : Fld := ro (0x03020C + n * 0x20) 31 0
def cAlmNextHi (n : Nat) : Fld := ro (0x030210 + n * 0x20) 15 0
def cPpsGate : Fld := rws 0x030400 31 30
def cPpsPol : Fld := rws 0x030400 29 29
def cPpsEn : Fld := rws 0x030400 28 28
def cPpsWidth : Fld := rws 0x030400 18 0 100 (.enc 1 500000)
def cPpsOfs : Fld := rws 0x030404 31 0 0 (.senc 1600000000)
def cIrigGate : Fld := rws 0x030408 31 30
def cIrigPol : Fld := rws 0x030408 29 29
def cIrigEn : Fld := rws 0x030408 28 28
def cIrigScale : Fld := rws 0x030408 5 4 0 (.enc 0 2)
def cIrigFmt : Fld := rws 0x030408 1 0
def cIrigOfs : Fld := rws 0x03040C 31 0 0 (.senc 1600000000)
def cInPol : Fld := rws 0x030410 5 5
def cInScale : Fld := rws 0x030410 4 3 0 (.enc 0 2)
def cInFmt : Fld := rws 0x030410 0 0
def cInGood : Fld := rc 0x030414 31 16
def cInBad : Fld := rc 0x030414 15 0
def cInLast : Fld := ro 0x030418 31 0
def cClkGate (n : Nat) : Fld := rws (0x030440 + n * 0x10) 31 30
def cClkPol (n : Nat) : Fld := rws (0x030440 + n * 0x10) 29 29
def cClkEn (n : Nat) : Fld := rws (0x030440 + n * 0x10) 28 28
def cClkAlign (n : Nat) : Fld := rws (0x030440 + n * 0x10) 0 0
def cClkHpNs (n : Nat) : Fld := rws (0x030444 + n * 0x10) 28 0 50 (.enc 8 500000000)
def cClkHpFrac (n : Nat) : Fld := rws (0x030448 + n * 0x10) 15 0
def cClkPhase (n : Nat) : Fld := rws (0x03044C + n * 0x10) 31 0 0 (.senc 1600000000)

/-! TRM (spec/06) -/
def tGain : Fld := rws 0x040000 6 5 1
def tKcalAuto : Fld := rws 0x040000 4 4
def tGlKeep : Fld := rws 0x040000 3 3
def tGlMain : Fld := rws 0x040000 2 2
def tTsrc : Fld := rws 0x040000 1 1 1
def tMode : Fld := rws 0x040000 0 0
def tKcalBusy : Fld := ro 0x040004 5 5
def tLearning : Fld := ro 0x040004 4 4
def tFallback : Fld := ro 0x040004 3 3
def tGStale : Fld := ro 0x040004 2 2
def tUnobsKeep : Fld := ro 0x040004 1 1
def tUnobsMain : Fld := ro 0x040004 0 0
def tEvt : Fld := w1c 0x04000C 4 0
def tMainBase : Fld := rws 0x040010 31 0
def tT0 : Fld := rws 0x040014 11 0 400
def tA (i : Nat) : Fld := rws (0x040014 + i * 4) 31 0
def tAgeRate : Fld := rws 0x040024 31 0
def tGmill : Fld := rws 0x040028 4 0 0x1F (.encOr 0 15 0x1F)
def tGradius : Fld := rws 0x04002C 31 0 0 (.rng 0 2000000)
def tGsensMain : Fld := rws 0x040030 31 0
def tGsensKeep : Fld := rws 0x040034 31 0
def tGlWin : Fld := rws 0x040038 15 0 600 (.enc 60 65535)
def tKcalWin : Fld := rws 0x04003C 12 0 64 (.enc 16 4096)
def tTemp : Fld := ro 0x040040 11 0
def tG : Fld := ro 0x040044 31 0
def tTermT : Fld := ro 0x040048 31 0
def tTermA : Fld := ro 0x04004C 31 0
def tTermG : Fld := ro 0x040050 31 0
def tMainTotal : Fld := ro 0x040054 31 0
def tKmeas : Fld := ro 0x040058 31 0
def tKmeasTemp : Fld := ro 0x04005C 11 0
def tSlopeMain : Fld := ro 0x040060 31 0
def tSlopeKeep : Fld := ro 0x040064 31 0
def tGlExc : Fld := ro 0x040068 9 0

/-! SEQ (spec/03): staged plan fields and status -/
def qRetry : Fld := rws 0x090000 6 4
def qHoldupEn : Fld := rws 0x090000 3 3
def qAutoStart : Fld := rws 0x090000 2 2 1
def qMaster : Fld := rws 0x090000 1 1 1
def qMode : Fld := rws 0x090000 0 0
def qGateWait : Fld := ro 0x090004 10 10
/-- (DESIGN CHOICE, log 5.) -/
def qLineFlt : Fld := ro 0x090004 9 9
def qLineDown : Fld := ro 0x090004 8 8
def qLineStep : Fld := ro 0x090004 7 7
def qKind : Fld := ro 0x090004 6 5
def qDir : Fld := ro 0x090004 4 4 1
def qStep : Fld := ro 0x090004 3 0
def qOffCause : Fld := ro 0x09000C 31 28
def qOffStep : Fld := ro 0x09000C 27 24
def qOffDir : Fld := ro 0x09000C 23 23
def qOffKind : Fld := ro 0x09000C 22 21
def qOffOv : Fld := ro 0x09000C 20 20
def qOffRail : Fld := ro 0x09000C 4 0 0x1F
def qGateTo : Fld := rws 0x090010 31 24
def qRetryDelay : Fld := rws 0x090010 23 16 10
def qPbLong : Fld := rws 0x090010 12 8 8 (.enc 2 30)
def qStartDelay : Fld := rws 0x090010 7 0 10
def qVinWarn : Fld := rws 0x090014 27 16
def qVinFault : Fld := rws 0x090014 11 0
def qVinHyst : Fld := rws 0x090018 7 0 40
def qGrpAuto : Fld := rws 0x09001C 7 0 1
def qDegraded : Fld := ro 0x090020 23 16
def qRising : Fld := ro 0x090020 15 8
def qGrpUp : Fld := ro 0x090020 7 0
def qUpMask : Fld := ro 0x090024 23 0
def qNotUp : Fld := w1c 0x090028 23 0
def qShort : Fld := w1c 0x09002C 23 0
def qNotDown : Fld := w1c 0x090030 23 0
def qWarn : Fld := w1c 0x090034 23 0
def qGate (k : Nat) : Fld := rws (0x090040 + k * 4) 8 8
def qDwell (k : Nat) : Fld := rws (0x090040 + k * 4) 7 0
def qHrstDelay (k : Nat) : Fld := rws (0x090080 + k * 4) 15 8 10
def qHrstGroup (k : Nat) : Fld := rws (0x090080 + k * 4) 6 4
def qHrstEn (k : Nat) : Fld := rws (0x090080 + k * 4) 0 0
def qWakeGroup (k : Nat) : Fld := rws (0x090090 + k * 4) 6 4
def qWakeEn (k : Nat) : Fld := rws (0x090090 + k * 4) 0 0
def own (n : Nat) : Nat := if n < 3 then 1 else 0
def qFilt (n : Nat) : Fld := rws (0x090100 + n * 0x20) 15 13 2
def qPgMode (n : Nat) : Fld := rws (0x090100 + n * 0x20) 12 11 0 (.enc 0 2)
def qAbortShort (n : Nat) : Fld := rws (0x090100 + n * 0x20) 10 10 (own n)
def qDisEn (n : Nat) : Fld := rws (0x090100 + n * 0x20) 9 9 (own n)
def qHubOwn (n : Nat) : Fld := rws (0x090100 + n * 0x20) 8 8 (own n)
def qGroup (n : Nat) : Fld := rws (0x090100 + n * 0x20) 7 5
def qRailStep (n : Nat) : Fld := rws (0x090100 + n * 0x20) 4 0 (if n < 3 then 1 else 0x1F) (.encOr 0 15 0x1F)
def qDep (n : Nat) : Fld := rws (0x090104 + n * 0x20) 23 0 (if n = 1 ∨ n = 2 then 1 else 0)
def qShortPct (n : Nat) : Fld := rws (0x090108 + n * 0x20) 25 19 10 (.enc 0 100)
def qUpPct (n : Nat) : Fld := rws (0x090108 + n * 0x20) 18 12 90 (.enc 0 100)
def qTarget (n : Nat) : Fld := rws (0x090108 + n * 0x20) 11 0 ([1600, 3300, 3600].getD n 0)
def qMinOff (n : Nat) : Fld := rws (0x09010C + n * 0x20) 25 16 10
def qShortT (n : Nat) : Fld := rws (0x09010C + n * 0x20) 15 8 10 (.enc 1 255)
def qRampTo (n : Nat) : Fld := rws (0x09010C + n * 0x20) 7 0 10 (.enc 1 255)
def qDownTo (n : Nat) : Fld := rws (0x090110 + n * 0x20) 15 8 20 (.enc 1 255)
def qDisPct (n : Nat) : Fld := rws (0x090110 + n * 0x20) 6 0 5 (.enc 0 100)
def qUvWarn (n : Nat) : Fld := rws (0x090114 + n * 0x20) 27 16 ([1536, 3168, 3456].getD n 0)
def qUvFault (n : Nat) : Fld := rws (0x090114 + n * 0x20) 11 0 ([1472, 3036, 3312].getD n 0)
def qOvWarn (n : Nat) : Fld := rws (0x090118 + n * 0x20) 27 16 ([1664, 3432, 3744].getD n 0)
def qOvFault (n : Nat) : Fld := rws (0x090118 + n * 0x20) 11 0 ([1728, 3564, 3888].getD n 0)
def qState (n : Nat) : Fld := ro (0x09011C + n * 0x20) 2 0
/-- The plan's active copies stand 0x800 above the staged ones (R179). -/
def qa (f : Fld) : Fld := active 0x800 f

/-! MON (spec/04) -/
def mVcoreRail : Fld := rws 0x0A0000 20 16 0 (.encOr 0 23 0x1F)
def mWarnN : Fld := rws 0x0A0000 15 12 2 (.enc 1 15)
def mPolicy : Fld := rws 0x0A0000 1 1
def mLogMode : Fld := rws 0x0A0000 0 0
def mFull : Fld := ro 0x0A0004 2 2
def mTornFound : Fld := w1c 0x0A0004 1 1
def mAdcUncal : Fld := ro 0x0A0004 0 0
def mDropCnt : Fld := rc 0x0A0018 31 0
def mHostBad : Fld := rc 0x0A001C 15 0
def mLogMask : Fld := rws 0x0A0020 3 0 0b0111
def mSnapPer : Fld := rws 0x0A0024 15 0
def mScanDiv : Fld := rws 0x0A0028 15 0
def mVinFilt : Fld := rws 0x0A002C 18 16 2
def mVinScale : Fld := rws 0x0A002C 15 0 4096 (.enc 4096 65535)
def mXtEn : Fld := rws 0x0A0030 16 16
def mEta : Fld := rws 0x0A0030 15 0 16515
def mScanCnt : Fld := ro 0x0A0034 31 0
def mEvt : Fld := w1c 0x0A0038 7 0
def mReadValid (k : Nat) : Fld := ro (0x0A0100 + k * 4) 12 12
def mRead (k : Nat) : Fld := ro (0x0A0100 + k * 4) 11 0
def mRailScale (n : Nat) : Fld := rws (0x0A0200 + n * 4) 15 0 (if n = 1 then 8192 else 4096) (.enc 4096 65535)

end Sys2Proof.Machine.F
end

