-- ==== Sys2Proof/Machine/Regs2.lean ====
section
/-! DEFINITION. The register fields of chapters 08 to 16: STP, TOU, GTM, MIL, ICU, MBX, RNG, PTN, RAD, SWP, HST, CAN, PIN, SEC. -/

namespace Sys2Proof.Machine.F

/-! STP (spec/08) -/
def sWake (n : Nat) : Fld := rw (0x050000 + n * 0x10) 31 31
def sMode (n : Nat) : Fld := rw (0x050000 + n * 0x10) 29 29
def sAngle (n : Nat) : Fld := rw (0x050000 + n * 0x10) 28 28
def sMill (n : Nat) : Fld := rw (0x050000 + n * 0x10) 27 24
def sDgl (n : Nat) : Fld := rw (0x050000 + n * 0x10) 19 16
def sEdge (n : Nat) : Fld := rw (0x050000 + n * 0x10) 1 0
def sSkew (n : Nat) : Fld := rw (0x050004 + n * 0x10) 15 0
def sEvtEn (n : Nat) : Fld := rw (0x050008 + n * 0x10) 11 8 7
def sEvt (n : Nat) : Fld := w1c (0x050008 + n * 0x10) 3 0
def sDropped (n : Nat) : Fld := rc (0x05000C + n * 0x10) 31 16
def sNoacq (n : Nat) : Fld := rc (0x05000C + n * 0x10) 15 0
def sNapLost (n : Nat) : Fld := rc (0x050400 + n * 4) 15 0
/-- STP_LAST[n] words 0 to 2, as quill W1 to W3. -/
def sLast (n i : Nat) : Fld := ro (0x050800 + n * 0x10 + i * 4) 31 0
def sLastOverrun (n : Nat) : Fld := rc (0x05080C + n * 0x10) 31 31
def sLastPol (n : Nat) : Fld := ro (0x05080C + n * 0x10) 27 27
def sLastCnt (n : Nat) : Fld := ro (0x05080C + n * 0x10) 15 0
def sCalCnt : Fld := ro 0x050C00 31 16
def sUncal (w : Nat) : Fld := ro (0x050C04 + w * 4) 31 0 0xFFFFFFFF

/-! TOU (spec/08) -/
def oEn (n : Nat) : Fld := rw (0x060000 + n * 0x10) 31 31
def oMode (n : Nat) : Fld := rw (0x060000 + n * 0x10) 30 30
def oSrc (n : Nat) : Fld := rw (0x060000 + n * 0x10) 29 29
def oIdle (n : Nat) : Fld := rw (0x060000 + n * 0x10) 28 28
def oDropLate (n : Nat) : Fld := rw (0x060000 + n * 0x10) 27 27
def oForce (n : Nat) : Fld := rw (0x060000 + n * 0x10) 26 26
def oEvtDone (n : Nat) : Fld := rw (0x060000 + n * 0x10) 25 25
def oLevel (n : Nat) : Fld := ro (0x060004 + n * 0x10) 31 31
def oTrail (n : Nat) : Fld := ro (0x060004 + n * 0x10) 30 30
/-- The state of entry e (R356), shown in TOU_STAT and in the entry's word 0. -/
def oState (n e : Nat) : Fld := ro (0x060004 + n * 0x10) (3 * e + 2) (3 * e)
def oEvt (n : Nat) : Fld := w1c (0x06000C + n * 0x10) 2 0
def oSkew (n : Nat) : Fld := rw (0x060200 + n * 4) 15 0
def oEntBase (n e : Nat) : Nat := 0x061000 + n * 0x100 + e * 0x20
def oAction (n e : Nat) : Fld := rw (oEntBase n e) 7 6
def oKind (n e : Nat) : Fld := rw (oEntBase n e) 4 4
def oMill (n e : Nat) : Fld := rw (oEntBase n e) 3 0
def oW1 (n e : Nat) : Fld := rw (oEntBase n e + 4) 31 0
def oW2 (n e : Nat) : Fld := rw (oEntBase n e + 8) 31 0
def oNs (n e : Nat) : Fld := rw (oEntBase n e + 0xC) 29 0
def oFrac (n e : Nat) : Fld := rw (oEntBase n e + 0x10) 3 0
def oWidth (n e : Nat) : Fld := rw (oEntBase n e + 0x14) 29 0

/-! GTM (spec/10) -/
def gBase (n : Nat) : Nat := 0x070000 + n * 0x100
def gMode (n : Nat) : Fld := rw (gBase n) 31 31
def gRun (n : Nat) : Fld := rw (gBase n) 30 30
def gReload (n : Nat) : Fld := rw (gBase n) 29 29
def gRearm (n : Nat) : Fld := rw (gBase n) 28 28
def gSrc (n : Nat) : Fld := rw (gBase n + 4) 31 30
def gMakeup (n : Nat) : Fld := rw (gBase n + 4) 29 29
def gEpin (n : Nat) : Fld := rw (gBase n + 4) 28 28
def gEedge (n : Nat) : Fld := rw (gBase n + 4) 27 26 1 (.enc 1 3)
def gMill (n : Nat) : Fld := rw (gBase n + 4) 25 22
def gDgl (n : Nat) : Fld := rw (gBase n + 4) 19 16
def gDiv (n : Nat) : Fld := rw (gBase n + 8) 29 0 1 (.enc 1 0x3FFFFFFF)
def gSlave (n : Nat) : Fld := rw (gBase n + 0xC) 31 29 0 (.enc 0 5)
def gTrgSel (n : Nat) : Fld := rw (gBase n + 0xC) 27 24
def gTrgoSel (n : Nat) : Fld := rw (gBase n + 0xC) 19 16 0 (.enc 0 7)
def gIdle (n c : Nat) : Fld := rw (gBase n + 0x10) (8 + c) (8 + c)
def gPdir (n c : Nat) : Fld := rw (gBase n + 0x10) c c
def gLimLo (n : Nat) : Fld := rw (gBase n + 0x14) 31 0
def gLimHi (n : Nat) : Fld := rw (gBase n + 0x18) 31 0
def gState (n : Nat) : Fld := ro (gBase n + 0x20) 1 0
def gPin (n c : Nat) : Fld := ro (gBase n + 0x20) (4 + c) (4 + c)
def gEvtEn (n : Nat) : Fld := rw (gBase n + 0x24) 27 16 0xFF
def gEvt (n : Nat) : Fld := w1c (gBase n + 0x24) 11 0
def gPhase (n : Nat) : Fld := ro (gBase n + 0x28) 29 0
def gForce (n c : Nat) : Fld := rw (gBase n + 0x2C) c c
def gCmpBase (n k : Nat) : Nat := gBase n + 0x40 + k * 0x10
def gCmpEn (n k : Nat) : Fld := rw (gCmpBase n k) 31 31
def gCmpAct (n k : Nat) : Fld := rw (gCmpBase n k) 30 28 0 (.enc 0 4)
def gCmpOut (n k : Nat) : Fld := rw (gCmpBase n k) 27 26
def gCmpTout (n k : Nat) : Fld := rw (gCmpBase n k) 25 21
def gCmpPw (n k : Nat) : Fld := rw (gCmpBase n k) 15 0
/-- The held low word of a compare value (R436); the value itself is the timer's `cmp`. -/
def gCmpLo (n k : Nat) : Fld := rw (gCmpBase n k + 4) 31 0
def gCmpPer (n k : Nat) : Fld := rw (gCmpBase n k + 0xC) 31 0
def gCapBase (n c : Nat) : Nat := gBase n + 0x80 + c * 0x20
def gCapEn (n c : Nat) : Fld := rw (gCapBase n c) 31 31
def gCapSrc (n c : Nat) : Fld := rw (gCapBase n c) 29 28 0 (.enc 0 1)
def gCapEdge (n c : Nat) : Fld := rw (gCapBase n c) 25 24 0
def gCapDgl (n c : Nat) : Fld := rw (gCapBase n c) 19 16
def gCapSpill (n c : Nat) : Fld := rw (gCapBase n c) 1 0 0 (.enc 0 2)
def gLoadLo (n : Nat) : Fld := rw (gBase n + 0xC0) 31 0
def gLoadHi (n : Nat) : Fld := rw (gBase n + 0xC4) 31 0
/-- The active copies stand 0x1000 above the staged ones (R461). -/
def ga (f : Fld) : Fld := active 0x1000 f

/-! MIL (spec/09) -/
def lBase (m : Nat) : Nat := 0x080000 + m * 0x100
def lEn (m : Nat) : Fld := rw (lBase m) 31 31
def lMode (m : Nat) : Fld := rw (lBase m) 30 30
def lSrc (m : Nat) : Fld := rw (lBase m) 29 28 0 (.enc 0 2)
def lEdges (m : Nat) : Fld := rw (lBase m) 27 26 2 (.enc 0 2)
def lDirSrc (m : Nat) : Fld := rw (lBase m) 25 24 0 (.enc 0 2)
def lReverse (m : Nat) : Fld := rw (lBase m) 23 23
def lZref (m : Nat) : Fld := rw (lBase m) 22 22
def lMissing (m : Nat) : Fld := rw (lBase m) 21 20 0 (.enc 0 2)
def lDgl (m : Nat) : Fld := rw (lBase m) 19 16
def lZpol (m : Nat) : Fld := rw (lBase m) 11 11
def lTpol (m : Nat) : Fld := rw (lBase m) 10 10
def lN (m : Nat) : Fld := rw (lBase m + 4) 24 0 1024
def lBw (m : Nat) : Fld := rw (lBase m + 8) 10 0 50 (.enc 1 2000)
def lAcqTol (m : Nat) : Fld := rw (lBase m + 0xC) 31 16 0x0100
def lAcqN (m : Nat) : Fld := rw (lBase m + 0xC) 7 0 16 (.enc 1 255)
def lZero (m : Nat) : Fld := rw (lBase m + 0x10) 31 0
def lStallT (m : Nat) : Fld := rw (lBase m + 0x14) 15 0 100 (.enc 1 65535)
def lMarkAng (m : Nat) : Fld := rw (lBase m + 0x18) 31 0
def lQen (m i : Nat) : Fld := rw (lBase m + 0x1C) (16 + i) (16 + i)
def lQdiv (m : Nat) : Fld := rw (lBase m + 0x1C) 15 0 1 (.enc 1 65535)
def lEffBw (m : Nat) : Fld := ro (lBase m + 0x24) 31 21
def lEvalValid (m : Nat) : Fld := ro (lBase m + 0x24) 8 8
def lEvalDone (m : Nat) : Fld := ro (lBase m + 0x24) 7 7
def lUncal (m : Nat) : Fld := ro (lBase m + 0x24) 6 6
def lDir (m : Nat) : Fld := ro (lBase m + 0x24) 5 5
def lIndexed (m : Nat) : Fld := ro (lBase m + 0x24) 4 4
def lAcq (m : Nat) : Fld := ro (lBase m + 0x24) 3 3
def lState (m : Nat) : Fld := ro (lBase m + 0x24) 2 0
def lEvtEn (m : Nat) : Fld := rw (lBase m + 0x28) 26 16 7
def lEvt (m : Nat) : Fld := w1c (lBase m + 0x28) 10 0
def lRdrop (m : Nat) : Fld := rc (lBase m + 0x2C) 31 24
def lSlips (m : Nat) : Fld := rc (lBase m + 0x2C) 23 16
def lQdrop (m : Nat) : Fld := rc (lBase m + 0x2C) 15 0
def lQerr (m : Nat) : Fld := rc (lBase m + 0x30) 15 0
/-- The state window words HDR, SEC, NS, FRAC, REV, ANG, SPD, ACC (offsets 0x40 to 0x5C). -/
def lSt (m i : Nat) : Fld := ro (lBase m + 0x40 + i * 4) 31 0
def lEvalSecLo (m : Nat) : Fld := rw (lBase m + 0x70) 31 0
def lEvalSecHi (m : Nat) : Fld := rw (lBase m + 0x74) 15 0
def lEvalNs (m : Nat) : Fld := rw (lBase m + 0x78) 29 0 0 (.rng 0 999999999)
def lEval (m i : Nat) : Fld := ro (lBase m + 0x80 + i * 4) 31 0
def lInjSecLo (m : Nat) : Fld := rw (lBase m + 0xA0) 31 0
def lInjSecHi (m : Nat) : Fld := rw (lBase m + 0xA4) 15 0
def lInjNs (m : Nat) : Fld := rw (lBase m + 0xA8) 29 0 0 (.rng 0 999999999)
/-- MIL_INJ words revolution count, angle, speed, acceleration (offsets 0xAC to 0xB8). -/
def lInj (m i : Nat) : Fld := rw (lBase m + 0xAC + i * 4) 31 0
def lInjHold (m : Nat) : Fld := rw (lBase m + 0xBC) 15 0
/-- The active configuration of mill m stands at 0x08_1000 + m×0x20 (R415). -/
def la (m : Nat) (f : Fld) : Fld := { f with addr := f.addr - lBase m + 0x081000 + m * 0x20, ty := .ro }

/-! ICU (spec/11) -/
def iPrigrp : Fld := rws 0x0B0000 2 0 4
def iLbrk : Fld := w1c 0x0B0004 7 0
def iNotice : Fld := w1c 0x0B0008 2 0
def iTgt (t : Nat) : Nat := 0x0B0100 + t * 0x20
def iSecure (t : Nat) : Fld := rws (iTgt t) 31 31
def iWakeEn (t : Nat) : Fld := rw (iTgt t) 24 24
def iWakePrio (t : Nat) : Fld := rw (iTgt t) 23 16 0xFF
def iQlimit (t : Nat) : Fld := rw (iTgt t) 15 8
def iMode (t : Nat) : Fld := rw (iTgt t) 1 1
def iGdis (t : Nat) : Fld := rw (iTgt t) 0 0
def iClaimNs (t : Nat) : Fld := ro (iTgt t + 0xC) 31 0
def iSpur (t : Nat) : Fld := rc (iTgt t + 0x18) 15 0
def iLatch (w : Nat) : Fld := w1c (0x0B0500 + w * 4) 31 0
def iPrio (s : Nat) : Fld := rws (0x0B1000 + s * 4) 23 16
def iTmask (s : Nat) : Fld := rw (0x0B1000 + s * 4) 7 0

/-! MBX (spec/12) -/
def bBase (c : Nat) : Nat := 0x0C0000 + c * 0x20
def bEn (c : Nat) : Fld := rws (bBase c) 31 31
def bForm (c : Nat) : Fld := rws (bBase c) 30 30
def bWake (c : Nat) : Fld := rws (bBase c) 29 29
def bMailIe (c : Nat) : Fld := rws (bBase c) 28 28
def bSpaceIe (c : Nat) : Fld := rws (bBase c) 27 27
def bAckIe (c : Nat) : Fld := rws (bBase c) 26 26
def bRecv (c : Nat) : Fld := rws (bBase c) 12 8 0 (.enc 0 16)
def bSend (c : Nat) : Fld := rws (bBase c) 4 0 0 (.enc 0 16)
def bRet (c : Nat) : Fld := ro (bBase c + 4) 31 16
def bId (c : Nat) : Fld := ro (bBase c + 4) 15 8
def bSpace (c : Nat) : Fld := w1c (bBase c + 4) 7 7
def bAcked (c : Nat) : Fld := w1c (bBase c + 4) 6 6
def bMail (c : Nat) : Fld := ro (bBase c + 4) 5 5
def bState (c : Nat) : Fld := ro (bBase c + 4) 2 0
def bRefused (c : Nat) : Fld := rc (bBase c + 0x10) 31 16
def bPseq (c : Nat) : Fld := ro (bBase c + 0x10) 15 8

/-! RNG (spec/12), with the default Rack of the ring table as the Steward loads it -/
def sbufSecure (k : Nat) : Fld := rws (0x0D0400 + k * 8) 31 31
def sbufRd (k : Nat) : Fld := rws (0x0D0400 + k * 8) 16 0 0x1FFFF
def sbufWr (k : Nat) : Fld := rws (0x0D0404 + k * 8) 16 0 0x1FFFF
def rBase (r : Nat) : Nat := 0x0D1000 + r * 0x20
/-- Whether ring r holds variable items by its fixed layout (the ring table of spec/12). -/
def rVarOf (r : Nat) : Nat := if (16 ≤ r ∧ r ≤ 35) ∨ r = 37 ∨ r = 38 ∨ 44 ≤ r then 1 else 0
/-- ISZ of the ring's fixed items: 4 × 2^ISZ bytes (R511). -/
def rIszOf (r : Nat) : Nat :=
  if r < 8 then 1 else if r < 16 ∨ r = 36 ∨ r = 39 then 2 else if r = 40 then 4 else if r = 41 ∨ r = 42 ∨ r = 43 then 3 else 0
/-- Rings whose producer is a hub engine: PROD reads 0x1E (R508). -/
def rHubProd (r : Nat) : Bool :=
  r < 24 || r = 32 || r = 34 || (36 ≤ r && r ≤ 42)
/-- Rings whose consumer is a hub engine: CONS reads 0x1E (R508). -/
def rHubCons (r : Nat) : Bool := r < 8 || (24 ≤ r && r ≤ 31) || r = 33 || r = 35 || r = 43
def rEn (r : Nat) : Fld := rws (rBase r) 31 31
def rSecure (r : Nat) : Fld := rws (rBase r) 30 30
def rPolicy (r : Nat) : Fld := rws (rBase r) 29 29
def rSize (r : Nat) : Fld := rws (rBase r) 28 24 6 (.enc 6 18)
def rVar (r : Nat) : Fld := if 44 ≤ r then rws (rBase r) 23 23 1 else ro (rBase r) 23 23 (rVarOf r)
def rIsz (r : Nat) : Fld := if 44 ≤ r then rws (rBase r) 22 20 0 (.enc 0 6) else ro (rBase r) 22 20 (rIszOf r)
def rProd (r : Nat) : Fld := if rHubProd r then ro (rBase r) 19 15 0x1E else rws (rBase r) 19 15 0x1F (.gap 17 29)
def rCons (r : Nat) : Fld := if rHubCons r then ro (rBase r) 14 10 0x1E else rws (rBase r) 14 10 0x1F (.gap 17 29)
def rOfs (r : Nat) : Fld := rws (rBase r + 4) 19 6
def rWidx (r : Nat) : Fld := rw (rBase r + 8) 31 0
def rRidx (r : Nat) : Fld := rw (rBase r + 0xC) 31 0
def rDropped (r : Nat) : Fld := rc (rBase r + 0x10) 31 0
def rThr (r : Nat) : Fld := rw (rBase r + 0x14) 18 0
def rEvtEn (r : Nat) : Fld := rw (rBase r + 0x18) 18 16
def rPartial (r : Nat) : Fld := w1c (rBase r + 0x18) 2 2
def rDrop (r : Nat) : Fld := w1c (rBase r + 0x18) 1 1
def rPcount (r : Nat) : Fld := ro (rBase r + 0x1C) 31 16

/-! PTN (spec/15) -/
def pEn : Fld := rws 0x0E0000 31 31
def pJoinMode : Fld := rws 0x0E0000 30 30
def pOfsMode : Fld := rws 0x0E0000 29 29
def pJoinOpen : Fld := rws 0x0E0000 28 28
def pPorts : Fld := rws 0x0E0000 7 0
def pPan : Fld := rws 0x0E0004 15 0 0x4C4B (.enc 0 0xFFFE)
def pBp : Fld := rws 0x0E0008 15 0 100 (.enc 1 65535)
def pBofs : Fld := rws 0x0E000C 19 0 0 (.rng 0 999999)
def pMill (i : Nat) : Fld := rws 0x0E0010 (8 * i + 4) (8 * i) 0x1F (.encOr 0 15 0x1F)
def pRptSlots : Fld := rws 0x0E0020 15 8 32
def pRptDiv : Fld := rws 0x0E0020 7 0 8
def pRptLen : Fld := rws 0x0E0024 31 16 18
def pRptStart : Fld := rws 0x0E0024 15 0 200
def pRbLen : Fld := rws 0x0E0028 31 16 15
def pRbStart : Fld := rws 0x0E0028 15 0 50
def pRbCount : Fld := rws 0x0E002C 6 0 8 (.rng 0 64)
def pFwdLen : Fld := rws 0x0E0030 31 16 15
def pFwdStart : Fld := rws 0x0E0030 15 0 780
def pDiscLen : Fld := rws 0x0E0034 31 16 90
def pDiscStart : Fld := rws 0x0E0034 15 0 900
def pGrace : Fld := rws 0x0E0038 23 16 2
def pAbsentN : Fld := rws 0x0E0038 15 8 3 (.enc 1 255)
def pDiscDiv : Fld := rws 0x0E0038 7 0 4
/-- The active layout stands 0x20 above the staged one. -/
def pa (f : Fld) : Fld := active 0x20 f
def pAbsTo : Fld := rws 0x0E0060 15 0 600 (.rng 10 65535)
def pQuar : Fld := rws 0x0E0064 15 0 900
def pAppTo : Fld := rws 0x0E0068 15 0 5000 (.rng 100 60000)
def pMax : Fld := rws 0x0E006C 11 0 4094 (.rng 1 4094)
def pRgain : Fld := rws 0x0E0070 3 0 2 (.rng 0 8)
def pHopDly : Fld := rws 0x0E0074 15 0
def pOfsLim : Fld := rws 0x0E0078 31 0
def pRateLim : Fld := rws 0x0E007C 31 0
def pLgen : Fld := ro 0x0E0080 31 24
def pEvtEn (p : Nat) : Fld := rw (0x0E0100 + p * 0x10) 31 16
def pEvt (p : Nat) : Fld := w1c (0x0E0100 + p * 0x10) 15 0
def pUndef (p : Nat) : Fld := rc (0x0E0104 + p * 0x10) 31 16
def pBadHdr (p : Nat) : Fld := rc (0x0E0104 + p * 0x10) 15 0
def pSeq (p : Nat) : Fld := ro (0x0E0108 + p * 0x10) 15 0
def pSkips (p : Nat) : Fld := rc (0x0E010C + p * 0x10) 15 0

/-! RAD (spec/16) -/
def aBase (p : Nat) : Nat := 0x0F0000 + p * 0x1000
def aEn (p : Nat) : Fld := rw (aBase p) 31 31
def aMode (p : Nat) : Fld := rw (aBase p) 30 30
def aRaw (p : Nat) : Fld := rw (aBase p) 29 29
def aCpol (p : Nat) : Fld := rw (aBase p) 28 28
def aCpha (p : Nat) : Fld := rw (aBase p) 27 27
def aIrqPol (p : Nat) : Fld := rw (aBase p) 26 26
def aSfdPol (p : Nat) : Fld := rw (aBase p) 25 25
def aTxtPol (p : Nat) : Fld := rw (aBase p) 24 24
def aSckDiv (p : Nat) : Fld := rw (aBase p) 22 16 5 (.enc 2 125)
def aCsSetup (p : Nat) : Fld := rw (aBase p) 15 8 4
def aCsHold (p : Nat) : Fld := rw (aBase p) 7 0 4
def aHaltCode (p : Nat) : Fld := ro (aBase p + 4) 31 24
def aPc (p : Nat) : Fld := ro (aBase p + 4) 23 16
def aSlot (p : Nat) : Fld := ro (aBase p + 4) 10 8
def aState (p : Nat) : Fld := ro (aBase p + 4) 1 0
def aEvtEn (p : Nat) : Fld := rw (aBase p + 0xC) 24 16 0x1F8
def aEvt (p : Nat) : Fld := w1c (aBase p + 0xC) 8 0
def aTxLat (p : Nat) : Fld := rw (aBase p + 0x10) 31 0
def aRxLat (p : Nat) : Fld := rw (aBase p + 0x14) 31 0
def aTickMs (p : Nat) : Fld := rw (aBase p + 0x18) 31 16
def aLoadLead (p : Nat) : Fld := rw (aBase p + 0x18) 15 0 2000
def aEntry (p k : Nat) : Fld := rw (aBase p + 0x20 + (k / 4) * 4) (8 * (k % 4) + 7) (8 * (k % 4))
def aLastRx (p i : Nat) : Fld := ro (aBase p + 0x40 + i * 4) 31 0
def aLastTx (p i : Nat) : Fld := ro (aBase p + 0x50 + i * 4) 31 0
def aNosfd (p : Nat) : Fld := rc (aBase p + 0x60) 31 16
def aTxBad (p : Nat) : Fld := rc (aBase p + 0x60) 15 0
def aTxLate (p : Nat) : Fld := rc (aBase p + 0x64) 31 16
def aTxConflict (p : Nat) : Fld := rc (aBase p + 0x64) 15 0
def aScript (p i : Nat) : Fld := rw (aBase p + 0x800 + i * 4) 31 0
/-- Active copies stand 0x400 above the staged ones, the script's too. -/
def aa (f : Fld) : Fld := active 0x400 f

/-! SWP (spec/16) -/
def wBase (s : Nat) : Nat := 0x0F8000 + s * 0x40
def wMode (s : Nat) : Fld := rw (wBase s) 30 30
def wForm (s : Nat) : Fld := rw (wBase s) 29 29
def wListSrc (s : Nat) : Fld := rw (wBase s) 28 28
def wPort (s : Nat) : Fld := rw (wBase s) 26 24
def wMill (s : Nat) : Fld := rw (wBase s) 23 20
def wChmask (s : Nat) : Fld := rw (wBase s) 15 0
def wTrig (s i : Nat) : Fld :=
  if i = 2 then rw (wBase s + 0xC) 29 0 0 (.rng 0 999999999) else rw (wBase s + 4 + i * 4) 31 0
def wPerLo (s : Nat) : Fld := rw (wBase s + 0x10) 31 0
def wPerHi (s : Nat) : Fld := rw (wBase s + 0x14) 31 0
def wCount (s : Nat) : Fld := rw (wBase s + 0x18) 31 16
def wInterval (s : Nat) : Fld := rw (wBase s + 0x1C) 31 0
def wDlMs (s : Nat) : Fld := rw (wBase s + 0x20) 31 16
def wLead (s : Nat) : Fld := rw (wBase s + 0x20) 15 0 1000
def wNlist (s : Nat) : Fld := rw (wBase s + 0x24) 31 20
def wListOfs (s : Nat) : Fld := rw (wBase s + 0x24) 19 0
def wReqWin (s : Nat) : Fld := rw (wBase s + 0x28) 7 0 2
def wRun (s : Nat) : Fld := ro (wBase s + 0x30) 31 16
def wArmed (s : Nat) : Fld := ro (wBase s + 0x30) 3 3
def wPhase (s : Nat) : Fld := ro (wBase s + 0x30) 2 0
def wStray (s : Nat) : Fld := rc (wBase s + 0x34) 31 16
def wSkipped (s : Nat) : Fld := rc (wBase s + 0x34) 15 0
/-- The active definition stands 0x2000 above the staged one. -/
def wa (f : Fld) : Fld := active 0x2000 f

/-! HST (spec/13), with the factory slot table of R558 as reset -/
def hBase (k : Nat) : Nat := 0x100000 + k * 0x10
def hEn (k : Nat) : Fld := rws (hBase k) 31 31 (if k < 6 ∨ k = 15 then 1 else 0)
def hSecure (k : Nat) : Fld := rws (hBase k) 30 30 (if k = 0 then 1 else 0)
def hClass (k : Nat) : Fld := rws (hBase k) 29 28 (if k < 4 then 0 else if k < 6 then 1 else if k = 15 then 2 else 0) (.enc 0 2)
def hPort (k : Nat) : Fld := rws (hBase k) 27 26 (if k < 4 then k else if k < 6 then k - 4 else 0)
def hNode (k : Nat) : Fld := rws (hBase k) 25 18
def hTarget (k : Nat) : Fld := rws (hBase k) 17 15 (if k < 6 then k else if k = 15 then 7 else 0)
def hGrpEn (k : Nat) : Fld := rws (hBase k) 14 14
def hGroup (k : Nat) : Fld := rws (hBase k) 13 11
def hStgrp (k : Nat) : Fld := rws (hBase k) 10 8 (if k < 6 then k else if k = 15 then 7 else 0)
def hReach (k : Nat) : Fld := rws (hBase k) 7 6 (if k = 15 then 3 else 0)
def hWake (k : Nat) : Fld := rws (hBase k) 5 4 (if k < 4 then 1 else 0) (.enc 0 2)
def hWgpio (k : Nat) : Fld := rws (hBase k + 4) 31 26
def hWakeHold (k : Nat) : Fld := rws (hBase k + 4) 23 16 100 (.enc 1 255)
def hHbMs (k : Nat) : Fld := rws (hBase k + 4) 15 0 1000 (.enc 10 10000)
def hPresent (k : Nat) : Fld := ro (hBase k + 8) 31 31
def hWaking (k : Nat) : Fld := ro (hBase k + 8) 30 30
def hLast (k : Nat) : Fld := ro (hBase k + 8) 15 0
def hReject (p : Nat) : Fld := rc (0x100200 + p * 0x10) 31 16
def hCrcErr (p : Nat) : Fld := rc (0x100200 + p * 0x10) 15 0
def hPevtEn (p : Nat) : Fld := rw (0x100204 + p * 0x10) 19 16
def hPevt (p : Nat) : Fld := w1c (0x100204 + p * 0x10) 3 0
def hMode3 (p : Nat) : Fld := ro (0x100208 + p * 0x10) 8 8
def hI2cAddr (p : Nat) : Fld := ro (0x100208 + p * 0x10) 6 0
def hUnbound (p : Nat) : Fld := rc (0x10020C + p * 0x10) 15 0
def hSeen (c w : Nat) : Fld := w1c (0x100300 + c * 0x20 + w * 4) 31 0
def hEvtEn : Fld := rw 0x100380 23 16
def hEvt : Fld := w1c 0x100380 7 0
def hOwner (id : Nat) : Fld := ro (0x100400 + id * 4) 31 27 0x1F
def hLeft (id : Nat) : Fld := ro (0x100400 + id * 4) 15 0

/-! CAN (spec/14) -/
def nBase (p : Nat) : Nat := 0x110000 + p * 0x100
def nEn (p : Nat) : Fld := rws (nBase p) 31 31
def nMode (p : Nat) : Fld := rws (nBase p) 30 30
def nFdEn (p : Nat) : Fld := rws (nBase p) 29 29 1
def nBrsEn (p : Nat) : Fld := rws (nBase p) 28 28 1
def nAutoRecov (p : Nat) : Fld := rws (nBase p) 27 27 1
def nMonitor (p : Nat) : Fld := rws (nBase p) 26 26
def nTdcEn (p : Nat) : Fld := rws (nBase p) 25 25
def nNode (p : Nat) : Fld := rws (nBase p) 7 0 1 (.enc 1 254)
def nNTseg2 (p : Nat) : Fld := rws (nBase p + 4) 31 25 0x31
def nNTseg1 (p : Nat) : Fld := rws (nBase p + 4) 24 17 0xC6
def nNSjw (p : Nat) : Fld := rws (nBase p + 4) 16 10 0x31
def nNBrp (p : Nat) : Fld := rws (nBase p + 4) 9 0 1
def nDTseg2 (p : Nat) : Fld := rws (nBase p + 8) 23 19 4
def nDTseg1 (p : Nat) : Fld := rws (nBase p + 8) 18 13 0x12
def nDSjw (p : Nat) : Fld := rws (nBase p + 8) 12 8 4
def nDBrp (p : Nat) : Fld := rws (nBase p + 8) 4 0 4
def nTdco (p : Nat) : Fld := rws (nBase p + 0xC) 7 0 100
def nTec (p : Nat) : Fld := ro (nBase p + 0x10) 31 24
def nRec (p : Nat) : Fld := ro (nBase p + 0x10) 23 16
def nEstate (p : Nat) : Fld := ro (nBase p + 0x10) 2 0 4
def nEvtEn (p : Nat) : Fld := rw (nBase p + 0x14) 23 16 7
def nEvt (p : Nat) : Fld := w1c (nBase p + 0x14) 7 0
def nUndef (p : Nat) : Fld := rc (nBase p + 0x18) 31 16
def nIgnored (p : Nat) : Fld := rc (nBase p + 0x18) 15 0
def nDtpBad (p : Nat) : Fld := rc (nBase p + 0x1C) 31 16
def nTxBad (p : Nat) : Fld := rc (nBase p + 0x1C) 15 0
def nTmEn (p : Nat) : Fld := rws (nBase p + 0x20) 31 31
def nTmPeriod (p : Nat) : Fld := rws (nBase p + 0x20) 15 0 1000 (.rng 10 10000)
def nTmOfs (p : Nat) : Fld := rws (nBase p + 0x24) 19 0 10000 (.rng 0 999999)
def nRxDly (p : Nat) : Fld := rws (nBase p + 0x28) 15 0
def nHb (p : Nat) : Fld := rws (nBase p + 0x2C) 15 0 1000 (.gapTo 1 9 10000)
def nLastSof (p i : Nat) : Fld := ro (nBase p + 0x30 + i * 4) 31 0
def nLastSeq (p : Nat) : Fld := ro (nBase p + 0x3C) 8 0

/-! PIN and SEC (spec/13) -/
def pinBase (p : Nat) : Nat := 0x120000 + p * 4
def pinOwner (p : Nat) : Fld := ro (pinBase p) 31 27 0x1F
def pinIn (p : Nat) : Fld := ro (pinBase p) 26 26
def pinPull (p : Nat) : Fld := rw (pinBase p) 25 24 0 (.enc 0 2)
def pinFunc (p : Nat) : Fld := rw (pinBase p) 23 22
def pinDir (p : Nat) : Fld := rw (pinBase p) 21 21
def pinOut (p : Nat) : Fld := rw (pinBase p) 20 20
def xNoFw : Fld := ro 0x130000 6 6
def xTrial : Fld := ro 0x130000 4 4
def xBank : Fld := ro 0x130000 3 3
def xSeclock : Fld := ro 0x130000 2 2
def xState : Fld := ro 0x130000 1 0
def xEvt : Fld := w1c 0x130004 3 0
def xKeyHash (i : Nat) : Fld := rws (0x130010 + i * 4) 31 0
def xFwOfs : Fld := rws 0x130050 19 0
def xFwResult : Fld := ro 0x13005C 31 16
def xFwDone : Fld := w1c 0x13005C 2 2
def xFwBusy : Fld := ro 0x13005C 1 1
def xVer : Fld := ro 0x130060 31 0
def xMinVer : Fld := ro 0x130064 31 0
def xAdvance : Fld := rws 0x130068 0 0

end Sys2Proof.Machine.F
end

