-- ==== Sys2Proof/Machine/State.lean ====
section
/-! DEFINITION. The state of the hub as plain data: one home for every register field (`regs`), and one structure per block for
what the block holds beside its registers. `State.reset` is the hub right after reset. -/

namespace Sys2Proof.Machine

/-- Reasons the hub stops with a fault. The spec gives the hub no such stop: every command has an answer (R14). -/
inductive Fault where
  /-- Raised by nothing: kept so that the type is not empty. Safe. -/
  | none
  deriving DecidableEq, Repr

/-- Reasons the model has no meaning for a command. -/
inductive Refusal where
  /-- Raised by `exec` for a command that has no meaning yet, by its mnemonic. Safe: the model stops. -/
  | notModelled (mnemonic : String)
  deriving DecidableEq, Repr

/-- The state of the hub. (DESIGN CHOICE, log 8.) -/
structure State where
  /-- Every register field, by `Fld.key`; an unlisted field holds its reset value. -/
  regs    : List (Nat × Nat)
  /-- The Shared Buffer (R501), by byte offset; an unlisted byte is 0. -/
  sbuf    : List Host.Cell
  /-- What the hub returned for the last command. -/
  answer  : Answer
  /-- The model's own counter behind the free values of Config. -/
  fresh   : Nat
  /-- What has completed in the present MCLK cycle (R13). -/
  ended   : List Ended
  /-- SEQ of each ring's quills and records (R62), by ring. -/
  ringSeq : List (Nat × Nat)
  /-- The ring write port (R724). -/
  port    : PortS
  htm     : HtmS
  glb     : GlbS
  keep    : KeepS
  icu     : IcuS
  mbx     : MbxS
  hst     : HstS
  dict    : DictS
  can     : CanS
  seq     : SeqS
  mon     : MonS
  trm     : TrmS
  stp     : StpS
  tou     : TouS
  mil     : MilS
  cal     : CalS
  /-- The 16 timers (spec/10), by number. -/
  gtm     : List (Nat × GtS)
  ptn     : PtnS
  /-- The 64 sweeps and the eight radio ports (spec/16), by number. -/
  swp     : List (Nat × SweepS)
  rad     : List (Nat × RadS)
  /-- Commands waiting, first in, first out. -/
  pending : List Instr
  deriving DecidableEq, Repr

/-- Hub Time and MCLK right after reset: frozen, MCLK not yet running (M3, R227). -/
def HtmS.init : HtmS :=
  { time := 0, incr := 0x0400000000, incrHeld := none, pend := none, slewLeft := 0, slewRate := 100, phase := .idle,
    mclk := false, pll := false, frozen := true, first := true, cold := (6, 0x0400000000) }

def GlbS.init : GlbS :=
  { freezeReq := none, thawTick := false, freezeTick := false, frz := none, phiF := 0, unplanned := false, back := 4, m8From := 4, lostLock := 0, pend503 := false,
    loaded := false, pendLatch := [], mainUp := true, waking := false }

def KeepS.init : KeepS :=
  { powered := true, oscOn := true, supply := .vmain, judged := true, vmain := 3300, vbat := 3000, rawTicks := 0,
    upRun := 0, dayEnd := 2831155200,
    count := 0, f := 0, fifo := [], ovf := 0, kstamp := 0, almHeld := [], swNext := 0, swPend := none,
    win := none, mirror := [], mCount := 0, mF := 0, mFifo := 0, batLow := false, batCrit := false, shelf := false,
    recQ := [], pair := none, pair0 := none }

def IcuS.init : IcuS := { tgts := [], asg := [], last := [], ringOff := [], irqKept := 0 }

def PortS.init : PortS := { last := 0, run := 0, wait := [] }

def MbxS.init : MbxS := { held := [], w0 := [], w1 := [] }

def HstS.init : HstS :=
  { portLast := [], failIdx := [], leaseDur := [], jobs := [], bind := [], reads := [], status := 0, sdo := [], acks := 0, sync1 := [], sync2 := [], seclock := 0, keyMask := 0, fwOp := 0,
    trialNext := false, banks := [], bank33 := [], boot := 0 }

def DictS.init : DictS := { xfers := [], integ := [], copyA := none, copyB := none, store := none, restore := none, stepArg := 0 }

def CanPort.init : CanPort := { tmSeq := 0, hbSeq := 0, tmWait := [], recov := false, sent := [] }
def CanNode.init : CanNode := { last := none, note := 0, irq := false, attn := false, due := false }
def CanS.init : CanS := { ports := [], nodes := [] }

/-- The sequencer after an island reset: off-rest, every rail off (SEQ_STATUS). -/
def SeqS.init : SeqS :=
  { pullStep := false, pullDown := true, pullFlt := false, joined := true, down := [], next := none, want := 0, drop := 0,
    shortSeen := 0, shortHold := 0, demands := 0, op := none, emptyUp := 0, toWake := 0, hrstLow := 0, own := false,
    mrLow := false, vinLow := false, holdup := false, freed := false, kept := [], offNow := 0, offUp := 0, offRamp := 0, retries := 0,
    pgLow := 0 }

/-- The monitor after an island start, with an empty Mortar log. -/
def MonS.init : MonS :=
  { slot := 0, start := 0, next0 := none, divCnt := 0, scanReq := false, scanArm := false, warnRun := [], xtSecond := false,
    xtRead := false, xtBad := false, log := [], head := 0, seq := 1, queue := [], writing := none, scanWait := false, scanned := false,
    burnt := false, clearing := false, collapse := 0, causes := 0, scanDue := false }

def TrmS.init : TrmS :=
  { dieT := [], xT := [], xGood := 0, kcal := none, kcalT := 0, kcalN := 0, auto := none, win := none, gSum := 0, wSum := 0, gN := 0,
    gAcq := true, gPair := none, base := 0x0400000000, gSent := 0, prev := none, label := none, due := none, held := none, lastEdge := none,
    okRun := 0, bigRun := 0, todRun := 0, missRun := 0, secs := [], u0 := 0, y0 := 0 }

def StIn.init : StIn := { fifo := [], last := none, ovf := false, unread := false, fails := 0, filt := [] }
def StpS.init : StpS := { ins := [], nextGrp := 0, nextIn := [], wake := none, uncal := 0, fails := [] }
def TouEnt.init : TouEnt := { pred := none, wait := false }
def TouOut.init : TouOut := { line := [], trail := none, trailOf := none, last := none, came := none, want := none, level := 0 }
def TouS.init : TouS := { ents := [], outs := [] }
def MillS.init : MillS :=
  { ball := 0, a := false, b := false, z := false, filt := [], since := 0, injAt := 0, anchor := 0, cnt := 0, started := false, refs := false, lastT := none,
    lastIv := none, dirNeg := none, seed := 0, kept := [], froz := none, inj := none, ready := 0, held := none, taken := none, run := 0,
    fast := false, qcnt := [], recs := [], quill := none, ovf := false }
def AlmS.init : AlmS := { date := 0, time := 0, search := none, owed := false }
def ClkS.init : ClkS := { next := 0, level := false, hp := 50 * 2 ^ 16, pend := none, last := 0, restart := none }
def CalS.init : CalS :=
  { sec := none, alms := [], on := 0, pps := false, ppsNext := 0, ppsEnd := 0, irig := none, irigNext := 0, clk := [], resync := false, inMark := false, inFrame := none }
def GtS.init : GtS :=
  { count := 0, cmp := [], held := [], tickAt := 0, resid := 0, line := [], trail := [], last := [], came := [], want := [], lvl := [], clk := [],
    clkAt := none, capIn := [], caps := [], capAt := [], pin0 := false, trig := none }
def MilS.init : MilS := { mills := [], next := 0, gap := 0 }

/-- A FREE entry of the partner table. -/
def Partner.init : Partner :=
  { state := 0, eui := 0, port := 0, depth := 0, parent := 0, relay := none, phase := 0, slot := 0, lqi := 0, miss := 0, flags := 0,
    offset := 0, rate := 0, delay := 0, last := [0, 0, 0], reports := 0, missed := 0, fwd := 0, bad := 0, batt := 0, temp := 0, cls := 0,
    sync := none, acc := 0, heard := false, grace := 0, judged := none }
def PtnS.init : PtnS :=
  { table := [], tickets := [], nextTkt := 0, granted := [], answers := [], beacons := [], layout := none, acc := 0, wins := [],
    wsel := [] }
def SweepS.init : SweepS := { trig := 0, run := none, again := false }
def RadS.init : RadS :=
  { a := 0, t := false, starts := 0, wait := false, delay := false, cs := false, rst := false, mosi := [], bytes := 0, rx := none, sfd := none, recv := false,
    queue := [], due := none, armed := false, await := false, sent := false, txt := none, placed := none, missed := none }

/-- The hub right after reset. (DESIGN CHOICE, log 7.) -/
def State.reset : State :=
  { regs := [], sbuf := [], answer := { code := .done, data := [] }, fresh := 0, ended := [], ringSeq := [], port := .init, htm := .init,
    glb := .init, keep := .init, icu := .init, mbx := .init, hst := .init, dict := .init, can := .init, seq := .init, mon := .init, trm := .init, stp := .init,
    tou := .init, mil := .init, cal := .init, gtm := [], ptn := .init, swp := [], rad := [], pending := [] }

end Sys2Proof.Machine
end

