-- ==== Sys2Proof/Machine/Ops.lean ====
section
/-! DEFINITION. The operations every block shares: reading and writing a register field, answering a command, latching an event
source, the Shared Buffer, and the arithmetic of Hub Time. -/

namespace Sys2Proof.Machine

/-- A result code and the state after. -/
abbrev Res := Code × State

/-- What a command answers. -/
abbrev Out := Host.Outcome State Fault Refusal

/-! ### Register fields -/

/-- The value of a register field. -/
def State.rd (s : State) (f : Fld) : Nat := Assoc.get f.reset f.key s.regs

/-- A register field takes a value, truncated to its width. -/
def State.wr (s : State) (f : Fld) (v : Nat) : State :=
  { s with regs := Assoc.put f.reset f.key (v % 2 ^ f.width) s.regs }

/-- A one-bit field is 1 (a wider field is not 0). -/
def State.on (s : State) (f : Fld) : Bool := s.rd f != 0

/-- The field as a two's complement number. -/
def State.rdS (s : State) (f : Fld) : Int := signedOf f.width (s.rd f)

/-- A signed value into a field. -/
def State.wrS (s : State) (f : Fld) (i : Int) : State := s.wr f (toBits f.width i)

/-- A counter field rises by `k` and saturates. -/
def State.bump (s : State) (f : Fld) (k : Nat := 1) : State := s.wr f (min (s.rd f + k) (2 ^ f.width - 1))

/-- Bits of a field are set, or cleared. -/
def State.setBits (s : State) (f : Fld) (m : Nat) : State := s.wr f (s.rd f ||| m)
def State.clrBits (s : State) (f : Fld) (m : Nat) : State := s.wr f (s.rd f &&& (2 ^ f.width - 1 - m % 2 ^ f.width))

/-- Bit `i` of a field. -/
def State.bit (s : State) (f : Fld) (i : Nat) : Bool := (s.rd f).testBit i

/-- The fields of a word are written; those that may not be keep their value. -/
def State.wrWord (s : State) (w : Nat) : List Fld → State
  | [] => s
  | f :: t => State.wrWord (if f.ty == .rw || f.ty == .rws then s.wr f (f.ofWord w) else s) w t

/-- The word that fields make up, each read by `rd`. -/
def packWord (rd : Fld → Nat) (l : List Fld) : Nat := l.foldl (fun w f => if f.ty == .wo then w else w + rd f * 2 ^ f.lo) 0

/-- A field takes another field's value. -/
def State.cp (s : State) (dst src : Fld) : State := s.wr dst (s.rd src)

/-! ### Answers -/

/-- The hub's answer to a command. -/
def State.say (s : State) (c : Code) (d : List Nat := []) : State := { s with answer := { code := c, data := d } }

/-- An event, which answers nobody. (DESIGN CHOICE, log 3.) -/
def event (s : State) : Out := .next s

/-- A fresh value the spec does not state. -/
def State.draw (s : State) : Nat × State := (Config.freeNat s.fresh, { s with fresh := s.fresh + 1 })


/-- A masked bit field of a condition. -/
def bitIf (b : Bool) (i : Nat) : Nat := if b then 2 ^ i else 0

/-- Bytes to little-endian words, the last padded with zero. -/
def wordsOf : List Nat → List Nat
  | a :: b :: c :: d :: t => (a + b * 2 ^ 8 + c * 2 ^ 16 + d * 2 ^ 24) :: wordsOf t
  | [a, b, c] => [a + b * 2 ^ 8 + c * 2 ^ 16]
  | [a, b] => [a + b * 2 ^ 8]
  | [a] => [a]
  | [] => []

/-- Words to little-endian bytes. -/
def bytesOf : List Nat → List Nat
  | [] => []
  | w :: t => w % 256 :: (w / 2 ^ 8) % 256 :: (w / 2 ^ 16) % 256 :: (w / 2 ^ 24) % 256 :: bytesOf t

/-! ### Slots -/

/-- Whether a slot is secure: its SECURE bit, or the Steward (slot 16). -/
def State.secure (s : State) (k : Nat) : Bool := if k = 16 then true else s.on (F.hSecure k)

/-- The port that carries a slot's commands: 0 to 3 HS, 4 and 5 HI, 6 and 7 CAN; none for the Steward. -/
def State.portOf (s : State) (k : Nat) : Option Nat :=
  if k = 16 then none
  else match s.rd (F.hClass k) with
    | 0 => some (s.rd (F.hPort k))
    | 1 => some (4 + s.rd (F.hPort k) % 2)
    | _ => some (6 + s.rd (F.hPort k) % 2)

/-- A port counts a result of class 0x3 in REJECT, and BAD_CRC in CRCERR (R8, R574), and sets its flags. -/
def State.countPort (s : State) (p : Nat) (c : Code) : State :=
  let s := if c.cls = 3 then (s.bump (F.hReject p)).setBits (F.hPevt p) 1 else s
  if c = .badCrc then (s.bump (F.hCrcErr p)).setBits (F.hPevt p) 2 else s

/-- The last result of an SPI or I2C port, as the next status byte shows it (R566). -/
def State.lastOf (s : State) (p : Nat) : Nat := Assoc.get 0 p s.hst.portLast
def State.setLast (s : State) (p : Nat) (c : Code) : State :=
  if p < 6 then { s with hst := { s.hst with portLast := Assoc.put 0 p c.val s.hst.portLast } } else s

/-- A slot's command ends with a code: the answer, the last result of the slot and of its port (R566), and the port's counts (R574). -/
def State.finish (slot : Slot) (r : Res) (d : List Nat := []) : State :=
  let s := r.2.say r.1 d
  let s := if slot.val < 16 then s.wr (F.hLast slot.val) r.1.val else s
  match s.portOf slot.val with
  | some p => (s.setLast p r.1).countPort p r.1
  | none => s

/-- A command that only a secure slot may give (R38 and its like). -/
def secureOnly (slot : Slot) (s : State) (k : Res) : Res := if s.secure slot.val then k else (.secureOnly, s)

/-! ### Commands that a completion of their cycle overtakes (R13, R722) -/

/-- What has completed in the cycle, the newest first, each with the dictionary request that carried it. -/
def withReply : List Ended → List (Ended × Option (Nat × Nat))
  | .replied k q :: e :: t => (e, some (k, q)) :: withReply t
  | e :: t => (e, none) :: withReply t
  | [] => []

/-- What has completed in the cycle, but for some, each with its reply. -/
def unended (p : Ended → Bool) : List Ended → List Ended
  | .replied k q :: e :: t => if p e then unended p t else .replied k q :: e :: unended p t
  | e :: t => if p e then unended p t else e :: unended p t
  | [] => []

/-- A response DONE of the request `q0` shows another code. -/
def CanOut.recode (q0 : Nat) (c : Code) (f : CanOut) : CanOut :=
  if f.data.take 8 == bytesOf [q0, 0] then { f with data := bytesOf [q0, c.val * 2 ^ 16] ++ f.data.drop 8 } else f

/-- A command of the present cycle that had been answered loses to what completes in the cycle: its result becomes `c`, where it came by the
dictionary in the response that waits or is being sent. -/
def State.lateCode (s : State) (slot : Slot) (c : Code) (via : Option (Nat × Nat)) : State :=
  match via with
  | none => State.finish slot (c, s)
  | some (key, q0) =>
    if s.hst.jobs.any fun kj => kj.1 == key then { s with
      answer := { code := c, data := [] }
      hst := { s.hst with jobs := s.hst.jobs.map fun kj => if kj.1 = key then (kj.1, { kj.2 with resp := some [q0, c.val * 2 ^ 16] }) else kj } }
    else
      let s := State.finish slot (c, s)
      { s with can := { s.can with
        ports := s.can.ports.map fun kp => (kp.1, { kp.2 with sent := kp.2.sent.map (CanOut.recode q0 c) })
        nodes := s.can.nodes.map fun kn => (kn.1, { kn.2 with last := kn.2.last.map fun d => { d with resp := d.resp.recode q0 c } }) } }

/-! ### Modes and event sources -/

/-- The mode (R226). -/
def State.mode (s : State) : Nat := s.rd F.glbMode

/-- The main domain runs: MCLK ungated and Hub Time not frozen. -/
def State.running (s : State) : Bool := s.htm.mclk && !s.htm.frozen && s.glb.mainUp

/-- A happening of a latched source sets its ICU_LATCH bit (R468); while the main domain is stopped the bit waits for the thaw
(R469). -/
def State.latch (s : State) (n : Nat) : State :=
  if s.running then s.setBits (F.iLatch (n / 32)) (2 ^ (n % 32))
  else { s with glb := { s.glb with pendLatch := s.glb.pendLatch ++ [n] } }

/-- M5 is left: the learning window in progress and the span of an automatic keep calibration end (R272, R279). -/
def State.leaveM5 (s : State) : State :=
  if s.mode = 5 then
    State.wr { s with trm := { s.trm with win := none, gPair := none, gSum := 0, wSum := 0, gN := 0, gAcq := true, auto := none } }
      F.tLearning 0
  else s

/-- The hub changes mode; a change between M3 and M10 raises 503 (R226, and the events of spec/05). -/
def State.setMode (s : State) (m : Nat) : State :=
  if s.mode = m then s
  else
    let s' := (s.leaveM5.wr F.glbPrev s.mode).wr F.glbMode m
    if 3 ≤ s.mode ∧ s.mode ≤ 10 ∧ 3 ≤ m ∧ m ≤ 10 then
      if s.running then s'.latch 503 else { s' with glb := { s'.glb with pend503 := true } }
    else s'

/-! ### Hub Time -/

/-- One second, and one nanosecond, in 2⁻³² ns. -/
def nsU : Nat := 2 ^ 32
def secU : Nat := 1000000000 * 2 ^ 32
/-- Hub Time wraps after 2⁴⁸ s (R21). -/
def timeMod : Nat := 2 ^ 48 * secU

/-- A stamp (2⁻⁴ ns) in 2⁻³² ns. -/
def ofStamp (t : Stamp) : Nat := t * 2 ^ 28

def secOf (t : Nat) : Nat := t / secU % 2 ^ 48
def nsOf (t : Nat) : Nat := t / nsU % 1000000000
/-- The visible 16-bit fraction (R21). -/
def fracOf (t : Nat) : Nat := t / 2 ^ 16 % 2 ^ 16
/-- A time from its fields: seconds, nanoseconds and the 16-bit fraction. -/
def mkTime (sec ns frac : Nat) : Nat := (sec * secU + ns * nsU + frac * 2 ^ 16) % timeMod

/-- Quotient rounded to nearest, halves up. (DEDUCED, log 21.) -/
def roundDiv (a b : Nat) : Nat := (2 * a + b) / (2 * b)
def roundDivI (a : Int) (b : Nat) : Int := (2 * a + b) / (2 * b : Nat)

/-- QUAL of a stamp: time not set, uncalibrated, holdover, valid, in that order (R61). Holdover is mode M6 (R302), and no other mode, so
that a stamp in M8 after M6 or in M10 with STATE 3 is not marked holdover. (DEDUCED, log 146.) -/
def State.qual (s : State) (uncal : Bool) : Nat :=
  if !s.on F.htmTimeSet then 2 else if uncal then 1 else if s.mode = 6 then 3 else 0

/-- Quill words W1 to W3, the TIME96 of R64. -/
def time96 (t qual : Nat) : List Nat :=
  [secOf t % 2 ^ 32, secOf t / 2 ^ 32 * 2 ^ 16 + fracOf t, qual * 2 ^ 30 + nsOf t]

/-- Quill word W0 (R58). -/
def quillW0 (ty : Nat) (pol ovf uncal late : Bool) (src seq : Nat) : Nat :=
  ty * 2 ^ 28 + pol.toNat * 2 ^ 27 + ovf.toNat * 2 ^ 26 + uncal.toNat * 2 ^ 25 + late.toNat * 2 ^ 24 + src % 256 * 2 ^ 16 + seq % 2 ^ 16

/-- The next SEQ of a ring (R62): every offer counts. The first after a main-domain start is 0. (DESIGN CHOICE, log 147.) -/
def State.nextSeq (s : State) (r : Nat) : Nat × State :=
  let n := Assoc.get 0 r s.ringSeq
  (n, { s with ringSeq := Assoc.put 0 r ((n + 1) % 2 ^ 16) s.ringSeq })

/-! ### The Shared Buffer (R501) -/

/-- The Shared Buffer keeps its canonical form: addresses rising, no zero byte listed. -/
def Memory.wf (m : List Host.Cell) : Bool := Assoc.wf 0#8 m

/-- (DESIGN CHOICE, log 6.) -/
def State.sbyte (s : State) (off : Nat) : BitVec 8 := Assoc.get 0#8 (off % 2 ^ 20) s.sbuf
def State.setByte (s : State) (off : Nat) (b : BitVec 8) : State :=
  { s with sbuf := Assoc.put 0#8 (off % 2 ^ 20) b s.sbuf }

/-- A little-endian 32-bit word of the Shared Buffer (R5). -/
def State.sword (s : State) (off : Nat) : Nat :=
  (s.sbyte off).toNat + (s.sbyte (off + 1)).toNat * 2 ^ 8 + (s.sbyte (off + 2)).toNat * 2 ^ 16 + (s.sbyte (off + 3)).toNat * 2 ^ 24
def State.setWord (s : State) (off w : Nat) : State :=
  (((s.setByte off (.ofNat 8 w)).setByte (off + 1) (.ofNat 8 (w / 2 ^ 8))).setByte (off + 2) (.ofNat 8 (w / 2 ^ 16))).setByte
    (off + 3) (.ofNat 8 (w / 2 ^ 24))

end Sys2Proof.Machine
end

