-- ==== Sys2Proof/Machine/RingOps.lean ====
section
/-! DEFINITION. Rings (spec/12): storage, fill, the offer of an item by a hub producer under the two full policies, and the ring write port
(spec/17, R724). -/

namespace Sys2Proof.Machine

/-- SIZE in bytes (R506). -/
def State.ringSize (s : State) (r : Nat) : Nat := 2 ^ s.rd (F.rSize r)
/-- BASE as a Shared Buffer offset (R506). -/
def State.ringBase (s : State) (r : Nat) : Nat := s.rd (F.rOfs r) * 64
/-- The fill, (WIDX − RIDX) mod 2³² (R507). -/
def State.fill (s : State) (r : Nat) : Nat := (s.rd (F.rWidx r) + 2 ^ 32 - s.rd (F.rRidx r)) % 2 ^ 32
/-- Where the byte at index `i` lies (R506). -/
def State.ringAt (s : State) (r i : Nat) : Nat := s.ringBase r + i % s.ringSize r

/-- A word at index `i` lies in one piece; else it continues at BASE (R507). -/
def State.ringWhole (s : State) (r i : Nat) : Bool := decide (i % s.ringSize r + 4 ≤ s.ringSize r)

/-- The word at index `i` of ring storage, byte by byte where the end of storage cuts it (R506). -/
def State.ringWord (s : State) (r i : Nat) : Nat :=
  if s.ringWhole r i then s.sword (s.ringAt r i)
  else (s.sbyte (s.ringAt r i)).toNat + (s.sbyte (s.ringAt r (i + 1))).toNat * 2 ^ 8 + (s.sbyte (s.ringAt r (i + 2))).toNat * 2 ^ 16 +
    (s.sbyte (s.ringAt r (i + 3))).toNat * 2 ^ 24
def State.ringSetWord (s : State) (r i w : Nat) : State :=
  if s.ringWhole r i then s.setWord (s.ringAt r i) w
  else (((s.setByte (s.ringAt r i) (.ofNat 8 w)).setByte (s.ringAt r (i + 1)) (.ofNat 8 (w / 2 ^ 8))).setByte (s.ringAt r (i + 2))
    (.ofNat 8 (w / 2 ^ 16))).setByte (s.ringAt r (i + 3)) (.ofNat 8 (w / 2 ^ 24))

/-- Words into ring storage from index `i` on; an item continues across the end of storage at BASE (R507). -/
def State.ringPut (s : State) (r i : Nat) : List Nat → State
  | [] => s
  | w :: t => State.ringPut (s.ringSetWord r i w) r (i + 4) t

/-- `n` words of ring storage from index `i` on. -/
def State.ringGet (s : State) (r i : Nat) : Nat → List Nat
  | 0 => []
  | n + 1 => s.ringWord r i :: State.ringGet s r (i + 4) n

/-- The bytes of the item at index `i`: the fixed size, or the size its length word gives (R511, R512). -/
def State.itemSize (s : State) (r i : Nat) : Nat :=
  if s.on (F.rVar r) then 4 + 4 * ((s.ringWord r i % 2 ^ 16 + 3) / 4) else 4 * 2 ^ s.rd (F.rIsz r)

/-- An advance is a whole number of items of a fixed ring. -/
def State.wholeItems (s : State) (r adv : Nat) : Bool := s.on (F.rVar r) || adv % (4 * 2 ^ s.rd (F.rIsz r)) == 0

/-- What R515 says of moving RIDX to `v`: none where the advance is accepted. -/
def State.ridxRefused (s : State) (r v : Nat) : Option Code :=
  let adv := (v % 2 ^ 32 + 2 ^ 32 - s.rd (F.rRidx r)) % 2 ^ 32
  if 2 ^ 31 ≤ adv then some .alreadyDone
  else if s.fill r < adv || !s.wholeItems r adv then some .outOfRange
  else none

/-- CS_N rises behind a RING_READ: RIDX moves past the items returned, under the checks of R515 (R524). (DEDUCED, log 191.) -/
def State.ringRise (s : State) (a : RingAdv) : State :=
  if s.on (F.rEn a.ring) && (s.ridxRefused a.ring a.upTo).isNone then s.wr (F.rRidx a.ring) a.upTo else s

/-- The RING_READ frames in which `p` holds end. -/
def State.ringRises (s : State) (p : RingAdv → Bool) : State :=
  (s.hst.reads.filter p).foldl State.ringRise { s with hst := { s.hst with reads := s.hst.reads.filter fun a => !p a } }

/-- WIDX advances by `n`: what was written is published (R513). -/
def State.publish (s : State) (r n : Nat) : State := s.wr (F.rWidx r) (s.rd (F.rWidx r) + n)

/-- A lost item: DROPPED rises and DROP sets (R516). -/
def State.ringLose (s : State) (r : Nat) (k : Nat := 1) : State := (s.bump (F.rDropped r) k).wr (F.rDrop r) 1

/-- Under OVERWRITE_OLD the producer advances RIDX past whole oldest items until `n` bytes fit (R517). -/
def State.makeRoom (s : State) (r n : Nat) : Nat → State
  | 0 => s
  | fuel + 1 =>
    if s.fill r + n ≤ s.ringSize r then s
    else State.makeRoom ((s.wr (F.rRidx r) (s.rd (F.rRidx r) + min (s.itemSize r (s.rd (F.rRidx r))) (s.fill r))).ringLose r) r n fuel

/-- The ring takes an item of `ws` at WIDX and publishes it. -/
def State.ringAppend (s : State) (r : Nat) (ws : List Nat) : State :=
  (s.ringPut r (s.rd (F.rWidx r)) ws).publish r (4 * ws.length)

/-- A hub producer offers one item (R510, R516, R517): whether the ring took it, and the state. (DESIGN CHOICE, log 87.) -/
def State.offer (s : State) (r : Nat) (ws : List Nat) : Bool × State :=
  let n := 4 * ws.length
  if !s.on (F.rEn r) then (false, s.bump (F.rDropped r))
  else if s.ringSize r < n then (false, s.ringLose r)
  else if s.fill r + n ≤ s.ringSize r then (true, s.ringAppend r ws)
  else if s.on (F.rPolicy r) then (true, (s.makeRoom r n (s.ringSize r / 4)).ringAppend r ws)
  else (false, s.ringLose r)

/-! ### The ring write port (R724) -/

/-- The block that writes a ring of hub producers, by the bits of its base address from 16 on. (DESIGN CHOICE, log 171.) -/
def ringBlock (r : Nat) : Nat :=
  if r < 16 then 0x05 else if r < 32 then 0x0F else if r < 36 then 0x11
  else match r with
    | 36 => 0x08 | 37 => 0x0F | 38 => 0x0E | 39 => 0x01 | 40 => 0x0A | 41 => 0x02 | 42 => 0x07 | _ => 0x0D

/-- The port is idle: no record of the ICU waits for it, and no item. -/
def State.portIdle (s : State) : Bool := s.icu.asg.isEmpty && s.port.wait.isEmpty

/-- A hub producer's item at the port: on an idle port it is served at once; else it waits. (DESIGN CHOICE, log 171.) -/
def State.give (s : State) (r : Nat) (ws : List Nat) : State :=
  if s.portIdle then (State.offer { s with port := { s.port with last := ringBlock r } } r ws).2
  else { s with port := { s.port with wait := s.port.wait ++ [{ blk := ringBlock r, ring := r, words := ws, moved := 0 }] } }

/-- A burst is under way: the producer served last goes on to hold the port, for 32 cycles at most. -/
def State.portHeld (s : State) : Bool :=
  decide (0 < s.port.run) && decide (s.port.run < 32) && s.port.wait.any (·.blk == s.port.last)

/-- The waiting producer whose turn it is: the next base address after that of the producer served last, which comes last. -/
def State.portNext (s : State) : Option Nat :=
  ((List.range 256).map fun i => (s.port.last + 1 + i) % 256).find? fun b => s.port.wait.any (·.blk == b)

/-- The item whose word the port moves for block b: its oldest. The item is offered to its ring with its last word. -/
def State.portMove (s : State) (b run : Nat) : State :=
  match s.port.wait.find? (·.blk == b) with
  | none => s
  | some it =>
    let rest := s.port.wait.erase it
    if it.moved + 1 < it.words.length then
      { s with port := { last := b, run := run, wait := s.port.wait.replace it { it with moved := it.moved + 1 } } }
    else (State.offer { s with port := { last := b, run := run, wait := rest } } it.ring it.words).2

/-- One cycle of the port (R724): a burst goes on; else, with no record of the ICU waiting, the port serves the producer whose turn it is.
A producer that has moved 32 words lets one grant pass. -/
def State.portCycle (s : State) : State :=
  if s.portHeld then s.portMove s.port.last (s.port.run + 1)
  else
    let idle := { s with port := { s.port with run := 0 } }
    if !s.icu.asg.isEmpty then idle
    else match s.portNext with
      | none => idle
      | some b => if b = s.port.last && decide (0 < s.port.run) && s.port.wait.any (·.blk == b) then idle else s.portMove b 1

/-- Every item that the port has begun, a burst's and one that it interrupted, is completed (R723), and of scan records that wait none is
kept (R200). -/
def State.portFinish (s : State) : State :=
  let begun := s.port.wait.filter fun it => decide (0 < it.moved)
  let rest := s.port.wait.filter fun it => !decide (0 < it.moved) && it.ring != 40
  begun.foldl (fun s it => (s.offer it.ring it.words).2) { s with port := { s.port with run := 0, wait := rest } }

/-- A variable item: the length word with TAG and byte length, then the payload bytes, padded with zero (R512). -/
def varItem (tag : Nat) (payload : List Nat) : List Nat := (tag * 2 ^ 24 + payload.length) :: wordsOf payload

end Sys2Proof.Machine
end

