-- ==== Sys2Proof/Machine/MonOps.lean ====
section
/-! DEFINITION. The Mortar log (spec/04): the entry and its CRC, the pending queue, and the trigger every block uses. -/

namespace Sys2Proof.Machine

/-! ### CRC-32 (R206) -/

/-- One bit of the reflected CRC-32. -/
def crcBit (c : Nat) : Nat := if c % 2 = 1 then (c / 2) ^^^ 0xEDB88320 else c / 2

/-- One byte of the reflected CRC-32. -/
def crcByte (c b : Nat) : Nat :=
  crcBit (crcBit (crcBit (crcBit (crcBit (crcBit (crcBit (crcBit (c ^^^ (b % 256)))))))))

/-- The CRC-32 of IEEE 802.3 over bytes (R206). -/
def crc32 (bs : List Nat) : Nat := bs.foldl crcByte 0xFFFFFFFF ^^^ 0xFFFFFFFF

/-- The COMMIT word (R204). -/
def commitWord : Nat := 0x4D4F5254

/-! ### The scan (R187, R189) -/

/-- The scan runs by the mode and the rails: in M3 to M10, and in M2 while a rail is enabled or discharging. -/
def State.scanBase (s : State) : Bool :=
  (decide (3 ≤ s.mode) && decide (s.mode ≤ 10)) ||
    (s.mode == 2 && (List.range 24).any fun n => let st := s.rd (F.qState n); st == 2 || st == 3 || st == 4 || st == 6)

/-- The scan runs (R189): also in M2 for a Mortar entry that waits. -/
def State.scanRuns (s : State) : Bool := s.scanBase || (s.mode == 2 && s.mon.scanWait)

/-- Where the scan has stopped, the next run begins with slot 0, and XTEMP with 10 µA and no reading (R187, R195). -/
def State.scanCheck (s : State) : State :=
  if s.scanRuns then s
  else { s with mon := { s.mon with slot := 0, next0 := none, scanArm := false, xtSecond := false, xtRead := false } }

/-- A field as the mirror shows it. -/
def State.mrd (s : State) (f : Fld) : Nat := Assoc.get f.reset f.key s.keep.mirror

/-! ### Slots -/

/-- A word of the log: slot × 32 + word (R202). -/
def State.logWord (s : State) (k : Nat) : Nat := Assoc.get 0 k s.mon.log
def State.setLogWord (s : State) (k v : Nat) : State :=
  { s with mon := { s.mon with log := Assoc.put 0 k (v % 2 ^ 32) s.mon.log } }
/-- A word as a reader finds it: of the slot being written, W30 reads 0 until step 3 (R223). -/
def State.logRead (s : State) (k : Nat) : Nat := if s.mon.writing.isSome && k == s.mon.head * 32 + 30 then 0 else s.logWord k
/-- The 32 words of a slot. -/
def State.logSlot (s : State) (n : Nat) : List Nat := (List.range 32).map fun i => s.logWord (n * 32 + i)
/-- A slot whose 32 words are all zero is empty (R207). -/
def State.logEmpty (s : State) (n : Nat) : Bool := (s.logSlot n).all (· == 0)
/-- An entry is committed when W30 is the commit word and W31 its CRC (R212). -/
def committed (ws : List Nat) : Bool := ws.getD 30 0 == commitWord && ws.getD 31 0 == crc32 (bytesOf (ws.take 31))
/-- A slot neither empty nor committed is torn (R212). -/
def State.logTorn (s : State) (n : Nat) : Bool := !s.logEmpty n && !committed (s.logSlot n)

/-- The numbers of the slots that hold any word. -/
def usedSlots : List (Nat × Nat) → List Nat
  | [] => []
  | (k, _) :: t => let r := usedSlots t; if r.contains (k / 32) then r else k / 32 :: r

/-- Empty slots from the next one on (R218): 0 once the next slot is not empty. (DESIGN CHOICE, log 182.) -/
def State.logFree (s : State) : Nat := (usedSlots s.mon.log).foldl (fun m n => min m ((n + 2048 - s.mon.head) % 2048)) 2048

/-! ### The entry (R204, R205, R208) -/

def State.railWord (s : State) (n : Nat) : Nat :=
  s.rd (F.qState n) * 2 ^ 13 + (s.bit F.qWarn n).toNat * 2 ^ 12 + s.rd (F.mRead n)

/-- The state word W7. -/
def State.stateWord (s : State) : Nat :=
  s.mode * 2 ^ 28 + s.rd F.qStep * 2 ^ 24 + s.rd F.qDir * 2 ^ 23 + s.rd F.qKind * 2 ^ 21 + s.rd F.htmIslandOnMclk * 2 ^ 20 +
    s.mrd F.kTimeValid * 2 ^ 19 + s.rd F.kOnVbat * 2 ^ 18

/-- A signed 12-bit reading in 16 bits. -/
def State.temp16 (s : State) (k : Nat) : Nat := toBits 16 (s.rdS (F.mRead k))

/-- VCORE: the code of the rail VCORE_RAIL names (R205). -/
def State.vcore (s : State) : Nat := if s.rd F.mVcoreRail = 0x1F then 0 else s.rd (F.mRead (s.rd F.mVcoreRail))

/-- Words W20 to W22: the other readings. -/
def State.otherReadings (s : State) : List Nat :=
  [s.rd (F.mRead 24) + s.rd (F.mRead 25) * 2 ^ 16, s.rd (F.mRead 26) + s.vcore * 2 ^ 16, s.temp16 27 + s.temp16 28 * 2 ^ 16]

/-- Words W1 to W29 of an entry at its trigger (R204, R208): the keep count and KT_VALID from the mirror, Hub Time while MCLK clocks
the island. -/
def State.logWords (s : State) (type source cause : Nat) (detail : List Nat) : List Nat :=
  let ht := if s.on F.htmIslandOnMclk then time96 s.htm.time (s.qual false) else [0, 0, 0]
  [type * 2 ^ 24 + source * 2 ^ 16 + cause, s.keep.mCount % 2 ^ 32, s.keep.mCount / 2 ^ 32] ++ ht ++ [s.stateWord] ++
    (List.range 12).map (fun m => s.railWord (2 * m) + s.railWord (2 * m + 1) * 2 ^ 16) ++
    s.otherReadings ++ (detail ++ [0, 0, 0, 0, 0, 0, 0]).take 7

/-- An entry takes the present readings; the state of its trigger stays. -/
def LogEnt.readings (s : State) (e : LogEnt) : LogEnt :=
  { e with
    words := e.words.take 7 ++ (List.range 12).map (fun m =>
        let w := e.words.getD (7 + m) 0
        w % 2 ^ 16 / 2 ^ 12 * 2 ^ 12 + s.rd (F.mRead (2 * m)) + w / 2 ^ 28 * 2 ^ 28 + s.rd (F.mRead (2 * m + 1)) * 2 ^ 16) ++
      s.otherReadings ++ e.words.drop 22 }

/-- An entry that waited for a complete scan takes its readings. (DEDUCED, log 158.) -/
def LogEnt.read (s : State) (e : LogEnt) : LogEnt := if e.waits then { e.readings s with waits := false } else e

/-- The trigger's cycle ends (R208): an entry of it that waits for no scan has the readings as they then stand. -/
def LogEnt.atEnd (s : State) (e : LogEnt) : LogEnt :=
  if e.now then { (if e.waits then e else e.readings s) with now := false } else e

/-- A trigger in M2 with the scan stopped starts it, and its entry waits for the first complete scan (R189). -/
def State.entryWaits (s : State) : Bool := s.mode == 2 && !s.scanBase && !(s.mon.scanWait && s.mon.scanned)

/-- The rank of an entry TYPE, 0 the highest (R214). -/
def logRank (type : Nat) : Nat :=
  if type ≤ 2 then 0 else if type ≤ 6 then 1 else if type ≤ 9 then 2 else 3

/-- An event flag of MON_EVT sets: bit i is source 480 + i. -/
def State.monEvt (s : State) (i : Nat) : State := s.setBits F.mEvt (2 ^ i)

/-- A dropped entry (R215). -/
def State.logDrop (s : State) : State := (s.bump F.mDropCnt).monEvt 1

/-- FULL sets once only 8 empty slots remain under stop-when-full (R218). -/
def State.fullCheck (s : State) : State :=
  if s.on F.mPolicy && decide (s.logFree ≤ 8) && !s.on F.mFull then (s.wr F.mFull 1).monEvt 2 else s

/-- A list without the first entry of a rank below `r`. -/
def dropFirstLower (r : Nat) : List LogEnt → Option (List LogEnt)
  | [] => none
  | e :: t => if r < logRank e.type then some t else (dropFirstLower r t).map (e :: ·)

/-- The queue without its newest entry of a lower rank (R215). -/
def dropLower (r : Nat) (q : List LogEnt) : Option (List LogEnt) := (dropFirstLower r q.reverse).map List.reverse

/-- Whether stop-when-full keeps an entry of this TYPE out (R218). -/
def State.logFullFor (s : State) (type : Nat) : Bool :=
  s.on F.mPolicy && (decide (s.logFree = 0) || (decide (s.logFree ≤ 8) && decide (logRank type ≠ 0)))

/-- The mask bit that lets types 0x03 to 0x06 be written (R209). -/
def State.logMasked (s : State) (type : Nat) : Bool := decide (3 ≤ type) && decide (type ≤ 6) && !s.bit F.mLogMask (type - 3)

/-- A waiting entry of the present cycle takes further CAUSE bits (R210); a HOST entry carries its item's. -/
def LogEnt.join (bits : Nat) (e : LogEnt) : LogEnt :=
  if e.now && decide (e.type < 0x10) then { e with words := e.words.set 0 (e.words.headD 0 ||| bits) } else e

/-- Causes present in the present cycle: they join every entry triggered in it, whichever came first (R210). -/
def State.cause (s : State) (bits : Nat) : State :=
  { s with mon := { s.mon with causes := s.mon.causes ||| bits, queue := s.mon.queue.map (LogEnt.join bits) } }

/-- A cycle ends: its causes have met, and its entries have their readings. -/
def State.causesEnd (s : State) : State :=
  { s with mon := { s.mon with causes := 0, queue := s.mon.queue.map (LogEnt.atEnd s), writing := s.mon.writing.map (LogEnt.atEnd s) } }

/-- A Mortar trigger with its CAUSE bits, or those of a HOST item (R209, R210, R214, R215, R218). A HOST item that the last 8 slots keep
out is dropped like every other entry. (DEDUCED, log 208.) -/
def State.mortar (s : State) (type source cause : Nat) (detail : List Nat) : State :=
  let s := if type < 0x10 then s.cause cause else s
  let bits := if type < 0x10 then s.mon.causes else cause
  let e : LogEnt := { type := type, words := s.logWords type source bits detail, waits := s.entryWaits, now := true }
  if s.logMasked type then s
  else if s.logFullFor type then s.logDrop
  else
  let s := if s.entryWaits && !s.mon.scanWait then { s with mon := { s.mon with scanWait := true, scanned := false } } else s
  if s.mon.queue.length < 4 then { s with mon := { s.mon with queue := s.mon.queue ++ [e] } }
  else match dropLower (logRank type) s.mon.queue with
    | some q => State.logDrop { s with mon := { s.mon with queue := q ++ [e] } }
    | none => s.logDrop

end Sys2Proof.Machine
end

