-- ==== Sys2Proof/Machine/Plans.lean ====
section
/-! DEFINITION. The staged configurations: which fields each has, and the two copies between staged and active. -/

namespace Sys2Proof.Machine

open F

/-- The plan registers of the sequencer (R179). -/
def planFlds : List Fld :=
  [qRetry, qHoldupEn, qAutoStart, qMaster, qMode, qGateTo, qRetryDelay, qPbLong, qStartDelay, qVinWarn, qVinFault, qVinHyst, qGrpAuto]
  ++ (List.range 16).flatMap (fun k => [qGate k, qDwell k])
  ++ (List.range 4).flatMap (fun k => [qHrstDelay k, qHrstGroup k, qHrstEn k, qWakeGroup k, qWakeEn k])
  ++ (List.range 24).flatMap (fun n => [qFilt n, qPgMode n, qAbortShort n, qDisEn n, qHubOwn n, qGroup n, qRailStep n, qDep n,
      qShortPct n, qUpPct n, qTarget n, qMinOff n, qShortT n, qRampTo n, qDownTo n, qDisPct n, qUvWarn n, qUvFault n, qOvWarn n,
      qOvFault n])

/-- The staged registers of timer n (R461). -/
def timerFlds (n : Nat) : List Fld :=
  [gMode n, gRun n, gReload n, gRearm n, gSrc n, gMakeup n, gEpin n, gEedge n, gMill n, gDgl n, gDiv n, gSlave n, gTrgSel n,
   gTrgoSel n, gIdle n 0, gIdle n 1, gPdir n 0, gPdir n 1, gLimLo n, gLimHi n]
  ++ (List.range 4).flatMap (fun k => [gCmpEn n k, gCmpAct n k, gCmpOut n k, gCmpTout n k, gCmpPw n k])
  ++ (List.range 2).flatMap (fun c => [gCapEn n c, gCapSrc n c, gCapEdge n c, gCapDgl n c, gCapSpill n c])

/-- The configuration registers of mill m (R415). -/
def millFlds (m : Nat) : List Fld :=
  [lEn m, lMode m, lSrc m, lEdges m, lDirSrc m, lReverse m, lZref m, lMissing m, lDgl m, lZpol m, lTpol m, lN m, lBw m, lAcqTol m,
   lAcqN m, lZero m, lStallT m, lMarkAng m, lQen m 0, lQen m 1, lQen m 2, lQdiv m]

/-- The staged configuration of radio port p, its script too (R718). -/
def radioFlds (p : Nat) : List Fld :=
  [aEn p, aMode p, aRaw p, aCpol p, aCpha p, aIrqPol p, aSfdPol p, aTxtPol p, aSckDiv p, aCsSetup p, aCsHold p, aTxLat p, aRxLat p,
   aTickMs p, aLoadLead p]
  ++ (List.range 8).map (aEntry p) ++ (List.range 256).map (aScript p)

/-- The staged definition of sweep s (R684). -/
def sweepFlds (s : Nat) : List Fld :=
  [wMode s, wForm s, wListSrc s, wPort s, wMill s, wChmask s, wTrig s 0, wTrig s 1, wTrig s 2, wPerLo s, wPerHi s, wCount s,
   wInterval s, wDlMs s, wLead s, wNlist s, wListOfs s, wReqWin s]

/-- The staged beacon layout (R656). -/
def layoutFlds : List Fld :=
  [pRptSlots, pRptDiv, pRptLen, pRptStart, pRbLen, pRbStart, pRbCount, pFwdLen, pFwdStart, pDiscLen, pDiscStart, pGrace, pAbsentN,
   pDiscDiv]

/-- Every field of a list takes its image's value. (DEDUCED, log 36.) -/
def State.copyTo (s : State) (act : Fld → Fld) : List Fld → State
  | [] => s
  | f :: t => State.copyTo (s.cp (act f) f) act t
def State.copyFrom (s : State) (act : Fld → Fld) : List Fld → State
  | [] => s
  | f :: t => State.copyFrom (s.cp f (act f)) act t

/-- Whether some staged field differs from its active copy. -/
def State.differs (s : State) (act : Fld → Fld) (l : List Fld) : Bool := l.any fun f => s.rd f != s.rd (act f)

end Sys2Proof.Machine
end

