-- ==== Sys2Proof/Machine/HostOps.lean ====
section
/-! DEFINITION. Ownership (spec/13): leases and their rollback, pins, the reset of an event target, and a host reset. -/

namespace Sys2Proof.Machine

open F

/-! ### Resource ids (the lease table of spec/13) -/
def idPlan : Nat := 0x00
def idTimer (n : Nat) : Nat := 0x10 + n
def idMill (m : Nat) : Nat := 0x20 + m
def idRadio (p : Nat) : Nat := 0x30 + p
def idSweep (s : Nat) : Nat := 0x40 + s
def idTou (n : Nat) : Nat := 0x80 + n

/-- The resources that a lease can name. -/
def leaseIds : List Nat :=
  [0x00] ++ (List.range 16).map idTimer ++ (List.range 16).map idMill ++ (List.range 8).map idRadio ++ (List.range 64).map idSweep
    ++ (List.range 32).map idTou

/-- Whether an id names a resource. -/
def isLeaseId (id : Nat) : Bool := leaseIds.contains id

/-- The owner of a lease; 0x1F none. -/
def State.owner (s : State) (id : Nat) : Nat := s.rd (hOwner id)

/-- The STAGED entries of output n become EMPTY (R378). -/
def State.dropStaged (s : State) (n : Nat) : Nat → State
  | 0 => s
  | e + 1 =>
    let s' := State.dropStaged s n e
    if s'.rd (oState n e) = 1 then s'.wr (oState n e) 0 else s'

/-- The resource of a lease rolls back under its own chapter (R588: R183, R378, R416, R462, R686, R719). -/
def State.rollback (s : State) (id : Nat) : State :=
  if id = idPlan then (s.copyFrom qa planFlds).latch 255
  else if id < 0x20 then s.copyFrom ga (timerFlds (id - 0x10))
  else if id < 0x30 then s.copyFrom (la (id - 0x20)) (millFlds (id - 0x20))
  else if id < 0x40 then s.copyFrom aa (radioFlds (id - 0x30))
  else if id < 0x80 then s.copyFrom wa (sweepFlds (id - 0x40))
  else s.dropStaged (id - 0x80) 8

/-- The mask of secure targets (R470). -/
def State.secureTgts (s : State) : Nat := (List.range 8).foldl (fun m t => if s.on (iSecure t) then m + 2 ^ t else m) 0

/-- LEASE_BROKEN: the bit of every secure target sets (R470). -/
def State.leaseBroken (s : State) : State := s.setBits iLbrk s.secureTgts

/-- A lease ends: no owner, the resource rolls back, LEASE_BROKEN (R588). -/
def State.endLease (s : State) (id : Nat) : State :=
  if s.owner id = 0x1F then s else (((s.wr (hOwner id) 0x1F).wr (hLeft id) 0).rollback id).leaseBroken

/-- A sleep of `ms` passes for a lease: one whose time ran out ends at the first step after the thaw (R586). (DEDUCED, log 44.) -/
def State.leaseThaw (ms : Nat) (s : State) (id : Nat) : State :=
  if s.owner id = 0x1F then s else s.wr (hLeft id) (max 1 (s.rd (hLeft id) - ms))

/-- The leases of a slot end. -/
def State.endLeasesOf (s : State) (slot : Nat) : List Nat → State
  | [] => s
  | id :: t => State.endLeasesOf (if s.owner id = slot then s.endLease id else s) slot t

/-- An access from the owner restarts the lease at its duration (R586). -/
def State.touch (s : State) (slot id : Nat) : State :=
  if s.owner id = slot then s.wr (hLeft id) (Assoc.get 0 id s.hst.leaseDur) else s

/-- Access to a leased resource: the owner's acts and renews the lease; another slot's gets OWNED_ELSEWHERE, and LEASE_LOST when
nobody holds it (R414, R462, R686, R719). -/
def leased (slot : Slot) (id : Nat) (s : State) (k : State → Res) : Res :=
  if s.owner id = slot.val then k (s.touch slot.val id)
  else if s.owner id = 0x1F then (.leaseLost, s)
  else (.ownedElsewhere, s)

/-- An event flag of HST_EVT: flag i serves source 440 + i. -/
def State.hostEvt (s : State) (i : Nat) : State := s.setBits hEvt (2 ^ i)

/-- A slot loses its pins: FUNC 0, PULL at its reset value, source 444 (R591). (DEDUCED, log 97.) -/
def State.losePins (s : State) (slot : Nat) : List Nat → State
  | [] => s
  | p :: t =>
    State.losePins
      (if s.rd (pinOwner p) = slot then (((s.wr (pinOwner p) 0x1F).wr (pinFunc p) 0).wr (pinPull p) 0).hostEvt 4 else s) slot t

/-! ### Event targets (spec/11) -/

def TgtS.empty : TgtS := { rseq := 0, queue := [], stack := [] }
def State.tgt (s : State) (t : Nat) : TgtS := Assoc.get TgtS.empty t s.icu.tgts
def State.setTgt (s : State) (t : Nat) (x : TgtS) : State :=
  { s with icu := { s.icu with tgts := Assoc.put TgtS.empty t x s.icu.tgts } }

/-- The slots bound to target t. -/
def State.slotsOf (s : State) (t : Nat) : List Nat :=
  (List.range 16).filter fun k => s.on (hEn k) && s.rd (hTarget k) == t

/-- Group g rises. -/
def State.rising (s : State) (g : Nat) : Bool :=
  match s.seq.op with | some o => o.up && o.group == g | none => false

/-- A demand for group g waits for the sequencer (R166). -/
def State.demandSet (s : State) (g : Nat) : State := { s with seq := { s.seq with demands := s.seq.demands ||| 2 ^ g } }

/-- A wake-capable record demands the groups of the slots bound to t that are neither up nor rising (R493). The ICU writes no record in
M2, where a demand would start the set too (R494). -/
def State.icuWake (s : State) (t prio : Nat) : State :=
  if s.on (iWakeEn t) && decide (s.rd (iWakePrio t) ≤ prio) then
    ((s.slotsOf t).filter fun k => s.on (hGrpEn k)).foldl (fun s k =>
      if s.bit qGrpUp (s.rd (hGroup k)) || s.rising (s.rd (hGroup k)) then s else s.demandSet (s.rd (hGroup k))) s
  else s

/-- A record's words. -/
def IcuRec.words (r : IcuRec) : List Nat := [r.seq * 2 ^ 24 + r.prio * 2 ^ 16 + r.src, r.ns]

/-- The record of an assignment is written to ring t and published, counted by RSEQ, and may wake (R479, R480, R493). -/
def State.icuRecord (s : State) (t : Nat) (a : IcuAsg) : State :=
  let x := s.tgt t
  let r : IcuRec := { seq := x.rseq, prio := a.prio, src := a.src, ns := nsOf s.htm.time }
  let s := { s with icu := { s.icu with asg := s.icu.asg.erase a } }
  let s := (s.ringAppend t r.words).setTgt t { x with rseq := (x.rseq + 1) % 256, queue := x.queue ++ [r] }
  s.icuWake t a.prio

/-- RESET of target t (R491): a record still being written is published first and counted by RSEQ; every queued record is
discarded and the stack emptied. A ring that waits to be disabled goes down with it (R480). -/
def State.resetTgt (s : State) (t : Nat) : State :=
  let s := (s.icu.asg.filter (·.tgt == t)).foldl (fun s a => s.icuRecord t a) s
  let s := (s.setTgt t { s.tgt t with queue := [], stack := [] }).wr (rRidx t) (s.rd (rWidx t))
  if s.icu.ringOff.contains t then
    State.wr { s with icu := { s.icu with ringOff := s.icu.ringOff.filter (· != t) } } (rEn t) 0
  else s

/-- The ICU completes the round it is in (R723): every assigned record is written and published. -/
def State.icuFinish (s : State) : State :=
  let s := s.icu.asg.foldl (fun s a => s.icuRecord a.tgt a) s
  s.icu.ringOff.foldl State.resetTgt s

/-- Whether a slot is bound to target t; the Steward is bound to none. -/
def State.boundTo (s : State) (slot t : Nat) : Bool := decide (slot < 16) && s.rd (hTarget slot) == t

/-! ### Host reset (R582) -/

/-- The TAKEN Sachets that a slot holds as receiver are acknowledged with ABORTED (R541). -/
def State.abortTaken (s : State) (slot : Nat) : List Nat → State
  | [] => s
  | c :: t =>
    State.abortTaken
      (if s.on (bEn c) && s.rd (bRecv c) == slot && s.rd (bState c) == 3 then
        ((s.wr (bRet c) Code.aborted.val).wr (bState c) 4).wr (bAcked c) 1
       else s) slot t

/-- A slot's open transfer ends (R620). -/
def State.endXfer (s : State) (slot : Nat) : State :=
  { s with dict := { s.dict with xfers := Assoc.erase slot s.dict.xfers } }

/-- A transfer ended early sets DTP_ABORT of the CAN port that carries it (R620, R624, R649). -/
def State.abortXfer (s : State) (slot : Nat) : State :=
  match Assoc.find slot s.dict.xfers with
  | some x =>
    match x.port with
    | some p => if 6 ≤ p then (s.endXfer slot).setBits (nEvt (p - 6)) (2 ^ 5) else s.endXfer slot
    | none => s.endXfer slot
  | none => s

/-- What ends with the hold of a slot: its leases and its pins (R557, R582). -/
def State.endHold (s : State) (slot : Nat) : State := (s.endLeasesOf slot leaseIds).losePins slot (List.range 176)

/-- A host reset of slot k (R582): the outstanding request and transfer, the leases and pins, PRESENT, the target it alone is
bound to (R492), the TAKEN Sachets (R541); the source is 440, or 447 for CAN silence. -/
def State.hostReset (s : State) (k : Nat) (silence : Bool) : State :=
  let s := { s with hst := { s.hst with jobs := s.hst.jobs.filter fun kj => kj.2.slot != k } }
  let s := s.abortXfer k
  let s := (s.endHold k).wr (hPresent k) 0
  let s := if s.slotsOf (s.rd (hTarget k)) = [k] then s.resetTgt (s.rd (hTarget k)) else s
  (s.abortTaken k (List.range 64)).hostEvt (if silence then 7 else 0)

/-- The slots bound to rail group g (R166). -/
def State.slotsOfGroup (s : State) (g : Nat) : List Nat :=
  (List.range 16).filter fun k => s.on (hEn k) && s.on (hGrpEn k) && s.rd (hGroup k) == g

/-- Host resets of a list of slots. -/
def State.hostResets (s : State) : List Nat → State
  | [] => s
  | k :: t => State.hostResets (s.hostReset k false) t

/-! ### The slot table (R550 to R557) -/

/-- The fields of HST_SLOT[k] and of HST_SLOTX[k]. -/
def slotWordFlds (k : Nat) : List Fld :=
  [hEn k, hSecure k, hClass k, hPort k, hNode k, hTarget k, hGrpEn k, hGroup k, hStgrp k, hReach k, hWake k]
def slotXFlds (k : Nat) : List Fld := [hWgpio k, hWakeHold k, hHbMs k]

/-- The fields that a write of HST_SLOT[k] sets: the guest's security, class, port and node are fixed (R553). -/
def slotWrFlds (k : Nat) : List Fld :=
  if k = 15 then [hEn k, hTarget k, hGrpEn k, hGroup k, hStgrp k, hReach k, hWake k] else slotWordFlds k

/-- HST_SLOT[k] and HST_SLOTX[k] as they read: a word that waits for the port's next frame start, or the one in force (R557). -/
def State.slotWord (s : State) (k : Nat) : Nat := (Assoc.find k s.hst.bind).getD (packWord s.rd (slotWordFlds k))
def State.slotXWord (s : State) (k : Nat) : Nat := (Assoc.find (16 + k) s.hst.bind).getD (packWord s.rd (slotXFlds k))

/-- The port a slot word binds to, if it is enabled: 0 to 3 HS, 4 and 5 HI, 6 and 7 CAN. -/
def wordPort (w : Nat) : Option Nat :=
  if w / 2 ^ 31 % 2 = 0 then none
  else match w / 2 ^ 28 % 4 with
    | 0 => some (w / 2 ^ 26 % 4)
    | 1 => some (4 + w / 2 ^ 26 % 4)
    | _ => some (6 + w / 2 ^ 26 % 4)

/-- The bits of EN, CLASS, PORT and NODE. -/
def bindMask : Nat := 0xBFFC0000

/-- A slot word that waits takes effect (R557): a changed binding ends the slot's leases and pins, clears PRESENT, source 445.
(DEDUCED, log 94.) -/
def State.applySlot (s : State) (k : Nat) : State :=
  let old := packWord s.rd (slotWordFlds k)
  let new := s.slotWord k
  let x := Assoc.find (16 + k) s.hst.bind
  let w := Assoc.find k s.hst.bind
  let s := { s with hst := { s.hst with bind := Assoc.erase (16 + k) (Assoc.erase k s.hst.bind) } }
  let s := match w with | some w => s.wrWord w (slotWrFlds k) | none => s
  let s := match x with | some x => s.wrWord x (slotXFlds k) | none => s
  if old &&& bindMask = new &&& bindMask then s else (((s.endHold k).abortXfer k).wr (hPresent k) 0).hostEvt 5

/-- The ports whose frame start applies what waits for slot k: the old and the new port; the guest's are both CAN ports. -/
def State.slotPorts (s : State) (k : Nat) : List Nat :=
  if k = 15 then [6, 7] else (wordPort (packWord s.rd (slotWordFlds k))).toList ++ (wordPort (s.slotWord k)).toList

/-- A frame starts on port p, the one before it having ended (R524): the slot words that wait for it apply (R557). -/
def State.frameStart (s : State) (p : Nat) : State :=
  (List.range 16).foldl (fun s k =>
    if ((Assoc.find k s.hst.bind).isSome || (Assoc.find (16 + k) s.hst.bind).isSome) && (s.slotPorts k).contains p then s.applySlot k
    else s) (s.ringRises fun a => a.port == p)

/-- The port by which a slot's rows come: that of the slot word that waits for it, at whose next frame it applies, or its own (R557). -/
def State.sendPort (s : State) (k : Nat) : Option Nat :=
  match Assoc.find k s.hst.bind with
  | some w => if k = 15 then s.portOf k else (wordPort w).orElse fun _ => s.portOf k
  | none => s.portOf k

/-- The enabled slot bound to an SPI or I2C port (R550). -/
def State.portSlot (s : State) (p : Nat) : Option Slot :=
  ((List.range 15).find? fun k => s.on (hEn k) && s.portOf k == some p).map (Fin.ofNat 17 ·)

end Sys2Proof.Machine
end

