-- ==== Sys2Proof/Machine/Serve.lean ====
section
/-! DEFINITION. How a slot's command is served: whether its port answers in the present mode (R234 to R236), what a frame does to the
slot before it acts (R556, R557, R560), and how its result is kept (R566, R574). -/

namespace Sys2Proof.Machine

open F

/-- The Steward serves requests (R230, R257). -/
def State.stewardUp (s : State) : Bool := s.on glbStewardReady && !s.on glbHalted

/-- The banks of the host pins hold power (R734). (DEDUCED, log 102.) -/
def State.bankUp (s : State) (b : Nat) : Bool := Assoc.get 0 b s.hst.bank33 != 0

/-- The hub answers ASLEEP: while it sleeps, and while a plan switch runs (R36, R234). -/
def State.asleep (s : State) : Bool :=
  s.mode == 2 || s.mode == 3 || s.mode == 7 || s.mode == 9 || (s.mode == 8 && s.htm.frozen) || s.htm.phase != .idle

/-- In M0, M1 and M11 no port answers (R234). -/
def State.deaf (s : State) : Bool := s.mode == 0 || s.mode == 1 || s.mode == 11

/-- The controller of CAN port p runs and is not at bus-off. -/
def State.canRuns (s : State) (p : Nat) : Bool := s.on (nEn p) && s.rd (nEstate p) != 4
def State.canSends (s : State) (p : Nat) : Bool := s.canRuns p && s.rd (nEstate p) != 3
/-- The port speaks the hub's protocol (R648). -/
def State.canTalks (s : State) (p : Nat) : Bool := s.canSends p && !s.on (nMode p)

/-- A port can serve frames: the bank of an SPI port holds power, and a CAN port speaks the hub's protocol (R648); the I2C ports stand on
VIO33. -/
def State.portUp (s : State) (p : Nat) : Bool := if p < 4 then s.bankUp p else decide (p < 6) || s.canTalks (p - 6)

/-- A frame while asleep (R235): its result is ASLEEP, and nothing else happens; 0x87 goes out on SDO, and 0xFF on every later byte. -/
def State.asleepFrame (s : State) (p : Nat) : State :=
  State.setLast { s.say .asleep with hst := { s.hst with status := 0x87, sdo := [0x87] } } p .asleep

/-- A frame that the mode does not serve (R234): an ASLEEP frame on SPI, no acknowledge and no byte on I2C, lost on CAN. -/
def State.turnedAway (s : State) (p : Option Nat) : State :=
  match p with
  | some p =>
    if p < 4 && !s.deaf && s.bankUp p then s.asleepFrame p
    else if p = 4 ∨ p = 5 then { s with hst := { s.hst with sdo := [], acks := 0 } }
    else s
  | none => s

/-- The port of a slot serves frames now, one of the two CAN ports for the guest (R553); the Steward runs while the main domain does.
(DESIGN CHOICE, log 14.) -/
def State.serves (s : State) (slot : Nat) : Bool :=
  !s.asleep && !s.deaf &&
    if slot = 15 then s.canTalks 0 || s.canTalks 1 else match s.sendPort slot with | some p => s.portUp p | none => true

/-- A frame is served from a slot: PRESENT sets (R556), and the wake output releases (R560). -/
def State.marked (s : State) (slot : Nat) : State :=
  if slot < 16 && s.on (hEn slot) then (s.wr (hPresent slot) 1).wr (hWaking slot) 0 else s

/-- A frame from a slot starts: what waits for the port applies (R557), and the slot is present if it is still enabled. -/
def State.frameIn (s : State) (slot : Nat) : State :=
  (match s.sendPort slot with | some p => s.frameStart p | none => s).marked slot

/-- A frame that ends before its last byte (R565): it acts on nothing and leaves the last result; BAD_LENGTH, SHORT. -/
def State.cutShort (s : State) (p : Nat) : State := ((s.say .badLength).setBits (hPevt p) 4).countPort p .badLength

/-- In M10 a non-secure slot is served nothing but reads (R236). -/
def State.m10Refuses (s : State) (slot : Nat) : Bool := s.mode == 10 && !s.secure slot

/-- A frame belongs to the slot (R550): it is enabled once the frame has started. -/
def State.bound (s : State) (slot : Nat) : Bool := decide (16 ≤ slot) || s.on (hEn slot)

/-- A row of a slot that is not enabled: a frame that no enabled slot sends, NOT_IN_MODE on an SPI or I2C port (R552), unless the port is
another slot's; a CAN frame is no such slot's (R550). (DEDUCED, log 187.) -/
def State.stranger (s : State) (p : Option Nat) : State :=
  match p with
  | some p => if p < 6 && (s.portSlot p).isNone then ((s.say .notInMode).setLast p .notInMode).countPort p .notInMode else s
  | none => s

/-- What REACH refuses a slot's write of a register, or with `dict` of a dictionary entry (R584). (DEDUCED, log 139.) -/
def State.outOfReach (s : State) (slot : Nat) (dict : Bool) : Option Code :=
  if slot = 16 then none
  else if s.rd (hReach slot) = 2 then some .readOnly
  else if s.rd (hReach slot) = 3 then some (if dict then .noSuchIndex else .noSuchAddress)
  else none

/-- A slot's command: turned away by the mode, of no enabled slot, refused, or served as a frame with the operation's result; `renew` is
what the access does to the slot's lease where it is refused (R586). (DEDUCED, log 12.) -/
def served (slot : Slot) (s : State) (refuse : State → Option Code) (op : State → Code × State × List Nat)
    (renew : State → State := id) : State :=
  if s.serves slot.val then
    let t := s.frameIn slot.val
    if t.bound slot.val then
      match refuse t with
      | some c => State.finish slot (c, renew t)
      | none => State.finish slot ((op t).1, (op t).2.1) (op t).2.2
    else t.stranger (s.sendPort slot.val)
  else s.turnedAway (s.sendPort slot.val)

/-- What M10 (R236), then REACH (R584), refuse. -/
def State.refused (s : State) (slot : Slot) (dict : Bool) : Option Code :=
  if s.m10Refuses slot.val then some .notInMode else s.outOfReach slot.val dict

/-- What M10 alone refuses: the commands on rings, mailboxes and events, which follow their own rules (R584), and those that judge REACH
by their address. -/
def State.m10Only (s : State) (slot : Slot) : Option Code := if s.m10Refuses slot.val then some .notInMode else none

/-- The meaning of a slot's command on the hub's registers. -/
def host (slot : Slot) (s : State) (op : State → Res) : Out :=
  .next (served slot s (fun t => t.refused slot false) fun t => ((op t).1, (op t).2, []))

/-- The same of a register of the resource `id`: refused too, the owner's access renews its lease (R586). -/
def hostOwned (slot : Slot) (id : Nat) (s : State) (op : State → Res) : Out :=
  .next (served slot s (fun t => t.refused slot false) (fun t => ((op t).1, (op t).2, [])) fun t => t.touch slot.val id)

/-- What M10, then REACH, refuse of a register that no dictionary entry stands for: outside the Shared Buffer a slot of REACH 0b01 finds
none (R584). (DEDUCED, log 139.) -/
def State.refusedReg (s : State) (slot : Slot) : Option Code :=
  match s.refused slot false with
  | some c => some c
  | none => if slot.val < 16 ∧ s.rd (hReach slot.val) = 1 then some .noSuchAddress else none

/-- The meaning of a slot's command on such a register. -/
def hostReg (slot : Slot) (s : State) (op : State → Res) (renew : State → State := id) : Out :=
  .next (served slot s (fun t => t.refusedReg slot) (fun t => ((op t).1, (op t).2, [])) renew)

/-- The same of a dictionary entry, which the Steward serves (R230, R257). -/
def hostDict (slot : Slot) (s : State) (op : State → Res) : Out :=
  .next (served slot s (fun t => if t.stewardUp then t.refused slot true else some .busy) fun t => ((op t).1, (op t).2, []))

/-- The same where REACH is none of it, or judged by the operation. -/
def hostFree (slot : Slot) (s : State) (op : State → Res) : Out :=
  .next (served slot s (fun t => t.m10Only slot) fun t => ((op t).1, (op t).2, []))

/-- A slot's command on a ring, a mailbox or an event that returns data words. -/
def hostData (slot : Slot) (s : State) (op : State → Code × State × List Nat) : Out := .next (served slot s (fun t => t.m10Only slot) op)

/-- A read of a register, which M10 serves every slot (R236); the operation judges REACH. -/
def hostRead (slot : Slot) (s : State) (op : State → Code × State × List Nat) : Out := .next (served slot s (fun _ => none) op)

end Sys2Proof.Machine
end

