-- ==== Sys2Proof/Machine/Sources.lean ====
section
/-! DEFINITION. Event sources (spec/11): which of the 512 sources is raised, and the state of each source at each target. -/

namespace Sys2Proof.Machine

open F

/-- Some flag under `m` is set with its enable. -/
def State.evtOn (s : State) (flags en : Fld) (m : Nat) : Bool := (s.rd flags &&& s.rd en &&& m) != 0

/-- LEVEL of ring r (R526). -/
def State.ringLevel (s : State) (r : Nat) : Bool :=
  let thr := s.rd (rThr r)
  thr != 0 && (if s.rd (rCons r) = 0x1E then decide (thr ≤ s.ringSize r - s.fill r) else decide (thr ≤ s.fill r))

/-- The flags of RNG_EVT[r]. -/
def State.ringFlags (s : State) (r : Nat) : Nat :=
  (s.ringLevel r).toNat + s.rd (rDrop r) * 2 + s.rd (rPartial r) * 4

/-- MAIL, the receiver's side of channel c, and SPACE or ACKED, the sender's (R545), with their enables. -/
def State.mailSide (s : State) (c : Nat) : Bool := s.on (bMail c) && s.on (bMailIe c)
def State.sendSide (s : State) (c : Nat) : Bool :=
  (s.on (bSpace c) && s.on (bSpaceIe c)) || (s.on (bAcked c) && s.on (bAckIe c))

/-- Sources whose block gives them no flag have a latch bit (R468). -/
def isLatched (n : Nat) : Bool :=
  (decide (192 ≤ n) && decide (n < 240) && n % 2 == 1) || (decide (240 ≤ n) && decide (n ≤ 255)) ||
    (decide (456 ≤ n) && decide (n ≤ 463)) || (decide (472 ≤ n) && decide (n ≤ 477)) || n == 498 ||
    (decide (500 ≤ n) && decide (n ≤ 503)) || n == 505

/-- The partner engine's groups of R681. -/
def ptnGroup (g : Nat) : Nat := [0x0007, 0x0038, 0x0FC0, 0x3000].getD g 0
/-- A radio port's groups. -/
def radGroup (g : Nat) : Nat := [0x003, 0x03C, 0x0C0, 0x100].getD g 0
/-- A timer's groups of R463. -/
def gtGroup (g : Nat) : Nat := [0x00F, 0x010, 0x0E0, 0xF00].getD g 0
/-- A CAN port's groups. -/
def canGroup (g : Nat) : Nat := [0x03, 0x04, 0x38, 0xC0].getD g 0

/-- Source n is raised (R467, R496); source 496 is judged for each target by `raisedFor`. -/
def State.raised (s : State) (n : Nat) : Bool :=
  if isLatched n then s.bit (iLatch (n / 32)) (n % 32)
  else if n < 64 then s.evtOn (sEvt n) (sEvtEn n) 0xF
  else if n < 96 then
    let o := n - 64
    (s.rd (oEvt o) &&& 6) != 0 || (s.bit (oEvt o) 0 && s.on (oEvtDone o))
  else if n < 160 then s.evtOn (gEvt ((n - 96) / 4)) (gEvtEn ((n - 96) / 4)) (gtGroup (n % 4))
  else if n < 192 then s.evtOn (lEvt ((n - 160) / 2)) (lEvtEn ((n - 160) / 2)) (if n % 2 = 0 then 0x1FF else 0x600)
  else if n < 240 then s.bit qWarn ((n - 192) / 2)
  else if n < 256 then false
  else if n < 304 then (s.ringFlags (n - 256) &&& s.rd (rEvtEn (n - 256))) != 0
  else if n < 368 then s.mailSide (n - 304) || s.sendSide (n - 304)
  else if n < 400 then s.evtOn (pEvt (n % 8)) (pEvtEn (n % 8)) (ptnGroup ((n - 368) / 8))
  else if n < 432 then s.evtOn (aEvt ((n - 400) / 4)) (aEvtEn ((n - 400) / 4)) (radGroup (n % 4))
  else if n < 440 then s.evtOn (hPevt (n - 432)) (hPevtEn (n - 432)) 0xF
  else if n < 448 then s.evtOn hEvt hEvtEn (2 ^ (n - 440))
  else if n < 456 then s.evtOn (nEvt ((n - 448) / 4)) (nEvtEn ((n - 448) / 4)) (canGroup (n % 4))
  else if n < 464 then false
  else if n < 472 then s.on (cAlmFired (n - 464))
  else if n = 478 then s.rd dEvt != 0
  else if n = 479 then s.rd tEvt != 0
  else if 480 ≤ n ∧ n < 488 then s.bit mEvt (n - 480)
  else if n = 496 then s.rd iLbrk != 0
  else if n = 497 then s.rd xEvt != 0
  else if n = 499 then s.rd iNotice != 0
  else if n = 504 then s.rd cEvt != 0
  else if n = 506 then s.rd glbDnotice != 0
  else false

/-- Some slot bound to target t is slot `k`; the Steward is bound to none. -/
def State.servesSlot (s : State) (t k : Nat) : Bool := (s.slotsOf t).contains k

/-- Source n is raised for target t: LEASE_BROKEN by its own bit (R470), a mailbox channel only for the side that a slot bound to t
is on (R545). -/
def State.raisedFor (s : State) (t n : Nat) : Bool :=
  if n = 496 then s.bit iLbrk t
  else if 304 ≤ n ∧ n < 368 then
    let c := n - 304
    (s.mailSide c && s.servesSlot t (s.rd (bRecv c))) || (s.sendSide c && s.servesSlot t (s.rd (bSend c)))
  else s.raised n

/-! ### States of a source (R473) -/

def targets : List Nat := List.range 8

/-- A record for n waits at t, or is being written. -/
def State.queuedAt (s : State) (t n : Nat) : Bool :=
  (s.tgt t).queue.any (·.src == n) || s.icu.asg.any fun a => a.tgt == t && a.src == n
/-- n's record at t has been claimed and not ended. -/
def State.activeAt (s : State) (t n : Nat) : Bool := (s.tgt t).stack.any (·.src == n)

def State.queued (s : State) (n : Nat) : Bool := targets.any fun t => s.queuedAt t n
def State.active (s : State) (n : Nat) : Bool := targets.any fun t => s.activeAt t n

/-- Raised and not yet assigned, as target t sees it. -/
def State.pendingFor (s : State) (t n : Nat) : Bool :=
  s.raisedFor t n && (if n = 496 then !s.queuedAt t n && !s.activeAt t n else !s.queued n && !s.active n)

/-- ICU_PEND's bit of n. -/
def State.pendingAny (s : State) (n : Nat) : Bool :=
  if n = 496 then targets.any fun t => s.pendingFor t n else s.raised n && !s.queued n && !s.active n

def State.tmask (s : State) (n t : Nat) : Bool := s.bit (iTmask n) t
def State.srcPrio (s : State) (n : Nat) : Nat := s.rd (iPrio n)
/-- The group of a priority (R471). -/
def State.prioGroup (s : State) (p : Nat) : Nat := p / 2 ^ s.rd iPrigrp

/-- The running priority of t, when its stack holds a record (R487). -/
def State.runPrio (s : State) (t : Nat) : Option Nat := (s.tgt t).stack.head?.map (·.prio)

/-- The limit of t's queue (R475). -/
def State.qLimit (s : State) (t : Nat) : Nat :=
  let cap := s.ringSize t / 8
  let q := s.rd (iQlimit t)
  if q = 0 ∨ cap < q then cap else q

/-- Records in t's queue, those being written included. -/
def State.qCount (s : State) (t : Nat) : Nat := (s.tgt t).queue.length + (s.icu.asg.filter (·.tgt == t)).length

/-- Target t is accepting for source n (R475, R490, R495); no record is assigned to a ring that waits to be disabled (R480). -/
def State.accepting (s : State) (t n : Nat) : Bool :=
  s.tmask n t && !s.icu.ringOff.contains t && !s.on (iGdis t) && !s.on (iMode t) && decide (s.qCount t < s.qLimit t) && s.on (rEn t) &&
    (match s.runPrio t with | none => true | some p => decide (s.prioGroup p < s.prioGroup (s.srcPrio n)))

/-- The IRQ that the ICU gives target t while it runs: in MODE 0 a record is queued (R482); in MODE 1 a source enabled for t is pending,
source 496 for t itself (R470, R495). -/
def State.irqNow (s : State) (t : Nat) : Bool :=
  if s.on (iMode t) then (List.range 512).any fun n => s.tmask n t && (if n = 496 then s.pendingFor t n else s.pendingAny n)
  else !(s.tgt t).queue.isEmpty

/-- The IRQ of target t; its level is kept while the main domain is stopped (R494). -/
def State.irq (s : State) (t : Nat) : Bool := if s.running then s.irqNow t else s.icu.irqKept.testBit t

/-- The IRQ levels are kept as they stand. -/
def State.irqKeep (s : State) : State :=
  { s with icu := { s.icu with irqKept := targets.foldl (fun m t => if s.irq t then m + 2 ^ t else m) 0 } }

/-- ICU_TGTSTAT[t]: QCOUNT in its 8 bits. (DESIGN CHOICE, log 190.) -/
def State.tgtStat (s : State) (t : Nat) : Nat :=
  let x := s.tgt t
  x.rseq * 2 ^ 24 + x.queue.length % 2 ^ 8 * 2 ^ 16 + x.stack.length * 2 ^ 12 + (x.stack.head?.map (·.src)).getD 0x3FF

/-- ICU_RUNPRIO[t]. -/
def State.runPrioWord (s : State) (t : Nat) : Nat := match s.runPrio t with | some p => 2 ^ 8 + p | none => 0

/-- Word w of ICU_RAW, ICU_PEND, ICU_QUEUED or ICU_ACTIVE. -/
def sourceWord (p : Nat → Bool) (w : Nat) : Nat :=
  (List.range 32).foldl (fun x b => if p (32 * w + b) then x + 2 ^ b else x) 0

end Sys2Proof.Machine
end

