-- ==== Sys2Proof/Machine/Calendar.lean ====
section
/-! DEFINITION. The calendar (spec/07): the Gregorian calendar, the leap table, the UTC, local and TAI fields of a TAI second,
and the next-match search. -/

namespace Sys2Proof.Machine

open F

/-! ### The Gregorian calendar -/

/-- Days from 1970-01-01 to a date, counted with years that start in March. -/
def daysOf (y m d : Nat) : Int :=
  let y' : Int := if m ≤ 2 then (y : Int) - 1 else y
  let era := y' / 400
  let yoe := y' - era * 400
  let doy : Int := (153 * ((m : Int) + (if m ≤ 2 then 9 else -3)) + 2) / 5 + d - 1
  era * 146097 + (yoe * 365 + yoe / 4 - yoe / 100 + doy) - 719468

/-- The date of a day number from 0000-03-01: year, month, day. -/
def civil (z : Nat) : Nat × Nat × Nat :=
  let era := z / 146097
  let doe := z % 146097
  let yoe := (doe - doe / 1460 + doe / 36524 - doe / 146096) / 365
  let doy := doe - (365 * yoe + yoe / 4 - yoe / 100)
  let mp := (5 * doy + 2) / 153
  let m := if mp < 10 then mp + 3 else mp - 9
  (yoe + era * 400 + (if m ≤ 2 then 1 else 0), m, doy - (153 * mp + 2) / 5 + 1)

/-- The date of a day number from 1970-01-01. -/
def dateOf (days : Nat) : Nat × Nat × Nat := civil (days + 719468)

/-- The MJD of 1970-01-01. -/
def mjdEpoch : Nat := 40587

/-- The calendar fields of a second. -/
structure CalFields where
  year  : Nat
  month : Nat
  day   : Nat
  wday  : Nat      -- 1 Monday to 7 Sunday
  doy   : Nat
  hour  : Nat
  min   : Nat
  sec   : Nat
  leap  : Bool
  deriving DecidableEq, Repr

/-- The fields of a POSIX second from 1970-01-01; `leap` shows its second 59 as 60. -/
def fieldsOf (u : Nat) (leap : Bool) : CalFields :=
  let days := u / 86400
  let tod := u % 86400
  let d := dateOf days
  { year := d.1, month := d.2.1, day := d.2.2, wday := (days + 3) % 7 + 1, doy := ((days : Int) - daysOf d.1 1 1 + 1).toNat,
    hour := tod / 3600, min := tod / 60 % 60, sec := if leap then 60 else tod % 60, leap := leap }

/-- The date and time words of the view. -/
def CalFields.dateWord (f : CalFields) : Nat := f.year * 2 ^ 16 + f.month * 2 ^ 12 + f.day * 2 ^ 7 + f.wday * 2 ^ 4
def CalFields.timeWord (f : CalFields) : Nat :=
  f.doy * 2 ^ 23 + f.leap.toNat * 2 ^ 22 + f.hour * 2 ^ 17 + f.min * 2 ^ 11 + f.sec * 2 ^ 5

/-! ### The leap table (R308, R309, R314) -/

/-- The valid entries, lowest index first: MJD and OFS. -/
def State.leaps (s : State) : List (Nat × Nat) :=
  ((List.range 32).map fun k => (s.rd (cLeapMjd k), s.rd (cLeapOfs k))).takeWhile fun e => e.1 != 0

/-- The change instant T_k of an entry (R308). -/
def leapInstant (e : Nat × Nat) : Int := ((e.1 : Int) - mjdEpoch) * 86400 + e.2

/-- The entry in force at TAI second `t`, and the one after it. -/
def leapAt (t : Nat) : List (Nat × Nat) → Option (Nat × Nat) → Option (Nat × Nat) × Option (Nat × Nat)
  | [], cur => (cur, none)
  | e :: r, cur => if leapInstant e ≤ t then leapAt t r (some e) else (cur, some e)

/-- The offset in force at a TAI second (R308); none before the first entry. -/
def State.taiUtc (s : State) (t : Nat) : Option Nat := (leapAt t s.leaps none).1.map (·.2)

/-- The next change instant after a TAI second. -/
def State.leapNext (s : State) (t : Nat) : Option Nat := (leapAt t s.leaps none).2.map fun e => (leapInstant e).toNat

/-- LEAP_NOW: `t` is the inserted second before a positive change (R309). -/
def State.leapNow (s : State) (t : Nat) : Bool :=
  match leapAt t s.leaps none with
  | (some a, some b) => b.2 == a.2 + 1 && t + 1 == leapInstant b
  | _ => false

/-- The TAI second `t` is a change instant. -/
def State.leapHere (s : State) (t : Nat) : Bool := s.leaps.any fun e => leapInstant e == t

/-- The fields of TAI second `t` in a scale: 0 UTC, 1 local, 2 TAI (R308 to R310, R319). In a leap second the second before it
gives the date and time, shown as second 60. -/
def State.fields (s : State) (scale t : Nat) : Option CalFields :=
  if scale = 2 then some (fieldsOf t false)
  else
    match s.taiUtc t with
    | none => none
    | some ofs =>
      let leap := s.leapNow t
      let u : Int := (t : Int) - ofs - (if leap then 1 else 0)
      let u := if scale = 1 then u + s.rdS cLocalOfs * 60 else u
      if u < 0 then none else some (fieldsOf u.toNat leap)

/-- The first and the last year of the view (R311). -/
def viewFirst : Nat := 1972
def viewLast : Nat := 2399

/-- VIEW_VALID at TAI second `t` (R311). -/
def State.viewOk (s : State) (t : Nat) : Bool :=
  s.on htmTimeSet && match s.fields 0 t with
    | some f => decide (viewFirst ≤ f.year) && decide (f.year ≤ viewLast)
    | none => false

def State.nowSec (s : State) : Nat := secOf s.htm.time
def State.viewValid (s : State) : Bool := s.viewOk s.nowSec

/-! ### The view and its status -/

/-- The status fields follow Hub Time and the table, and outside the view's range its words read 0 (R308 to R311, R316).
(DEDUCED, log 62.) -/
def State.calStatus (s : State) : State :=
  let t := s.nowSec
  let s := s.wr cViewValid s.viewValid.toNat
  let s := s.wr cLeapNow (s.leapNow t).toNat
  -- within the second that stands 86,400 s before it, a change lies less than that ahead
  let s := s.wr cLeapSoon (match s.leapNext t with | some n => decide (n ≤ t + 86400) | none => false).toNat
  let s := s.wr cTaiUtc ((s.taiUtc t).getD 0)
  let n := (s.leapNext t).getD 0
  let s := (s.wr cLeapNextLo n).wr cLeapNextHi (n / 2 ^ 32)
  if s.viewValid then s else (List.range 6).foldl (fun s i => s.wr (cView i) 0) s

/-- The view words of TAI second `t` (R312); outside the range of R311 they read 0. -/
def State.viewWords (s : State) (t : Nat) : List Nat :=
  if s.viewOk t then
    let u := s.fields 0 t
    let l := s.fields 1 t
    let d := fun (f : Option CalFields) => (f.map CalFields.dateWord).getD 0
    let w := fun (f : Option CalFields) => (f.map CalFields.timeWord).getD 0
    [t % 2 ^ 32, d u, w u, d l, w l, t % 2 ^ 32]
  else [0, 0, 0, 0, 0, 0]

/-! ### The next-match search (R319, R321) -/

/-- What an alarm compares. -/
structure AlmSpec where
  date  : Nat
  time  : Nat
  mask  : Nat
  scale : Nat
  deriving DecidableEq, Repr

def AlmSpec.want (a : AlmSpec) : CalFields :=
  { year := a.date / 2 ^ 16, month := a.date / 2 ^ 12 % 16, day := a.date / 2 ^ 7 % 32, wday := a.date / 2 ^ 4 % 8, doy := 0,
    hour := a.time / 2 ^ 17 % 32, min := a.time / 2 ^ 11 % 64, sec := a.time / 2 ^ 5 % 64, leap := false }

/-- A field agrees, or its MASK bit is 0. -/
def AlmSpec.ok (a : AlmSpec) (bit x y : Nat) : Bool := !a.mask.testBit bit || x == y

/-- Every compared field agrees. -/
def AlmSpec.all (a : AlmSpec) (f : CalFields) : Bool :=
  let w := a.want
  a.ok 6 f.year w.year && a.ok 5 f.month w.month && a.ok 4 f.day w.day && a.ok 3 f.wday w.wday && a.ok 2 f.hour w.hour &&
    a.ok 1 f.min w.min && a.ok 0 f.sec w.sec

/-- How far a search may move on from a second whose fields are `f` without passing a match; none at a match. A step stops one
second short of where the next field value begins (13 for a year), since a negative leap second shortens a day. -/
def AlmSpec.skip (a : AlmSpec) (f : CalFields) : Option Nat :=
  let w := a.want
  let tod := f.hour * 3600 + f.min * 60 + f.sec
  let toDay := 86400 - tod - 1
  if !a.ok 6 f.year w.year then some (max 1 (((daysOf (f.year + 1) 1 1 - daysOf f.year f.month f.day).toNat * 86400) - tod - 13))
  else if !a.ok 5 f.month w.month then
    let nm := if f.month = 12 then daysOf (f.year + 1) 1 1 else daysOf f.year (f.month + 1) 1
    some (max 1 ((nm - daysOf f.year f.month f.day).toNat * 86400 - tod - 1))
  else if !a.ok 4 f.day w.day || !a.ok 3 f.wday w.wday then some (max 1 toDay)
  else if !a.ok 2 f.hour w.hour then some (max 1 (3600 - (f.min * 60 + f.sec) - 1))
  else if !a.ok 1 f.min w.min then some (max 1 (60 - f.sec - 1))
  else if !a.ok 0 f.sec w.sec then some (if f.sec < w.sec then w.sec - f.sec else max 1 (60 - f.sec - 1))
  else none

/-- The first TAI second from `t` on that matches, up to the end of the view's range. (DEDUCED, log 59.) -/
def State.almSearch (s : State) (a : AlmSpec) (t : Nat) : Nat → Option Nat
  | 0 => none
  | fuel + 1 =>
    match s.fields a.scale t with
    | none => none
    | some f =>
      if viewLast < f.year then none
      else match a.skip f with
        | none => some t
        | some d => State.almSearch s a (t + d) fuel

/-- More steps than any search takes: at most 130 for each of the 431 years. -/
def searchFuel : Nat := 200000

/-- The inserted seconds of the table from TAI second `t` on (R309). -/
def State.leapSecs (s : State) (t : Nat) : List Nat :=
  (s.leaps.map fun e => (leapInstant e).toNat - 1).filter fun x => decide (t ≤ x) && s.leapNow x

/-- The first TAI second from `t` on that matches (R319, R321). Second 60 stands only in the table's inserted seconds. -/
def State.almFirst (s : State) (a : AlmSpec) (t : Nat) : Option Nat :=
  if a.mask.testBit 0 && a.want.sec == 60 then
    (s.leapSecs t).find? fun x => match s.fields a.scale x with | some f => decide (f.year ≤ viewLast) && a.all f | none => false
  else s.almSearch a t searchFuel

end Sys2Proof.Machine
end

