-- ==== Sys2Proof/Machine/Steps.lean ====
section
/-! DEFINITION. What a SET or STEP does in every block (spec/17, One set or step), and the accessors of the blocks it touches. -/

namespace Sys2Proof.Machine

open F

/-! ### Accessors -/

def State.mill (s : State) (m : Nat) : MillS := Assoc.get MillS.init m s.mil.mills
def State.setMill (s : State) (m : Nat) (x : MillS) : State :=
  { s with mil := { s.mil with mills := Assoc.put MillS.init m x s.mil.mills } }

def State.touEnt (s : State) (n e : Nat) : TouEnt := Assoc.get TouEnt.init (n * 8 + e) s.tou.ents
def State.setTouEnt (s : State) (n e : Nat) (x : TouEnt) : State :=
  { s with tou := { s.tou with ents := Assoc.put TouEnt.init (n * 8 + e) x s.tou.ents } }

def State.touOut (s : State) (n : Nat) : TouOut := Assoc.get TouOut.init n s.tou.outs
def State.setTouOut (s : State) (n : Nat) (x : TouOut) : State :=
  { s with tou := { s.tou with outs := Assoc.put TouOut.init n x s.tou.outs } }

def State.gt (s : State) (n : Nat) : GtS := Assoc.get GtS.init n s.gtm
def State.setGt (s : State) (n : Nat) (x : GtS) : State := { s with gtm := Assoc.put GtS.init n x s.gtm }

/-- A field of the timer's active configuration (R461). -/
def State.g (s : State) (f : Fld) : Nat := s.rd (ga f)
def State.gon (s : State) (f : Fld) : Bool := s.on (ga f)

def State.alm (s : State) (n : Nat) : AlmS := Assoc.get AlmS.init n s.cal.alms
def State.setAlm (s : State) (n : Nat) (x : AlmS) : State :=
  { s with cal := { s.cal with alms := Assoc.put AlmS.init n x s.cal.alms } }

/-- A time of the old timeline, moved by `d`; one that falls before Hub Time 0 stands at 0, or is forgotten. -/
def timeMoved (d : Int) (t : Nat) : Nat := ((t : Int) + d).toNat % timeMod
def timeKept (d : Int) (t : Nat) : Option Nat := if (t : Int) + d < 0 then none else some (timeMoved d t)

/-! ### Mills (R413) -/

/-- One revolution in 2⁻⁴⁸ rev, and the modulus of a phase carried to 2⁻⁴⁸ rev (ANGLE64 is its upper 64 bits). -/
def revU : Nat := 2 ^ 48
def phaseMod : Nat := 2 ^ 80

/-- The signed difference of two phases modulo 2⁸⁰. -/
def phaseDiff (a b : Nat) : Int := signedOf 80 ((a + phaseMod - b % phaseMod) % phaseMod)

/-- A phase moved by a signed amount. -/
def addPhase (a : Nat) (d : Int) : Nat := ((a + d) % phaseMod).toNat

/-- A product `x × d`, where `d` is in 2⁻³² ns and `x` per second, rounded to nearest. -/
def perSec (x d : Int) : Int := roundDivI (x * d) secU

/-- A state extrapolated to Hub Time `t` (R402). -/
def MillSt.at_ (k : MillSt) (t : Nat) : MillSt :=
  let d : Int := (t : Int) - k.t
  { t := t, th := addPhase k.th (perSec k.w d + roundDivI (k.a * d * d) (2 * secU * secU)), w := k.w + perSec k.a d, a := k.a }

/-- A mill's state moves with the timeline; one of before Hub Time 0 goes on to 0. -/
def MillSt.moved (d : Int) (k : MillSt) : MillSt :=
  if (k.t : Int) + d < 0 then { k.at_ (-d).toNat with t := 0 } else { k with t := timeMoved d k.t }

/-- A mill's kept times and injection epoch move with the timeline. -/
def MillS.moved (d : Int) (x : MillS) : MillS :=
  { x with
    kept := x.kept.map (MillSt.moved d)
    froz := x.froz.map (MillSt.moved d)
    inj := x.inj.map (MillSt.moved d)
    lastT := x.lastT.map (timeMoved d)
    filt := x.filt.map fun p => (p.1, ((p.2 + d) % timeMod).toNat)
    since := timeMoved d x.since
    injAt := timeMoved d x.injAt
    held := x.held.map fun g => { g with t := timeMoved d g.t }
    ready := timeMoved d x.ready }

/-- The state window shows its edge at the moved time (R407). -/
def State.millWindow (s : State) (m : Nat) : State :=
  match (s.mill m).kept with
  | k :: _ =>
    let hdr := s.rd (lSt m 0) / 2 ^ 16 * 2 ^ 16 + secOf k.t / 2 ^ 32
    (((s.wr (lSt m 0) hdr).wr (lSt m 1) (secOf k.t)).wr (lSt m 2) (nsOf k.t)).wr (lSt m 3) (fracOf k.t)
  | [] => s

def State.millsMoved (s : State) (d : Int) : State :=
  let t : State := { s with mil := { s.mil with mills := s.mil.mills.map fun kx => (kx.1, kx.2.moved d) } }
  (t.mil.mills.map (·.1)).foldl State.millWindow t

/-! ### Balls of the blocks -/

/-- Input `i` is seen at level `v`, without a transition. -/
def MillS.see (x : MillS) (i : Nat) (v : Bool) : MillS :=
  let x := { x with filt := x.filt.filter fun p => p.1 != i }
  match i with
  | 0 => { x with a := v }
  | 1 => { x with b := v }
  | _ => { x with z := v }

/-- A ball newly assigned to its mill or timer is seen at the level at which it stands: the block saw no transition of it before
(R383, R427). -/
def State.pinSees (s : State) (p : Nat) : State :=
  if 32 ≤ p ∧ p < 80 then
    let m := (p - 32) / 3
    let i := (p - 32) % 3
    s.setMill m ((s.mill m).see i ((s.mill m).ball.testBit i))
  else if 80 ≤ p ∧ p < 112 ∧ p % 2 = 0 then s.setGt ((p - 80) / 2) { s.gt ((p - 80) / 2) with pin0 := s.on (gPin ((p - 80) / 2) 0) }
  else s

/-! ### Timed outputs (R371) -/

/-- Every output and entry. -/
def touAll : List (Nat × Nat) := (List.range 32).flatMap fun n => (List.range 8).map fun e => (n, e)

/-- An entry scheduled by mill angle waits for a new prediction after a SET or STEP (R371) or a thaw (R253); a locked one gives its lock up. (DEDUCED, log 72.) -/
def State.touWaits (s : State) (n e : Nat) : State :=
  if s.on (oKind n e) && (s.rd (oState n e) == 2 || s.rd (oState n e) == 3) then
    (s.wr (oState n e) 2).setTouEnt n e { s.touEnt n e with wait := true }
  else s

/-- TRAIL_PENDING follows the output's trailing edge. -/
def State.setTrail (s : State) (n : Nat) (t : Option Nat) : State :=
  (s.setTouOut n { s.touOut n with trail := t }).wr (oTrail n) t.isSome.toNat

/-- The schedule, or a routed timer, drives the output: the pin shows it unless it follows FORCE (R375). -/
def State.touDrive (s : State) (n v : Nat) : State :=
  let s := s.setTouOut n { s.touOut n with level := v }
  if s.on (oMode n) then s else s.wr (oLevel n) v

/-- A trailing edge due at `t` comes 8 ns after the edge that came before it, where that stands nearer (R364, R439). -/
def trailPlace (came : Option Nat) (t : Nat) : Nat :=
  match came with
  | some l => if l < t then max t (l + 8 * nsU) else t
  | none => t

/-- The pending trailing edge due at `t` comes (R365): the pin returns to IDLE; one that an edge has moved is a collision of the timer
whose pulse it ends (R439). -/
def State.touTrailAt (s : State) (n t : Nat) : State :=
  let x := s.touOut n
  let p := trailPlace x.came t
  let s := (s.setTrail n none).touDrive n (s.rd (oIdle n))
  let s := s.setTouOut n { s.touOut n with last := some (max p (x.last.getD 0)), came := some p, trailOf := none }
  match (if p = t then none else x.trailOf) with
  | some m => s.setBits (gEvt m) (2 ^ 10)
  | none => s

/-- A committed edge comes (R356's table, R361, R365): a trailing edge at or before its instant comes first. -/
def State.touShow (n : Nat) (s : State) (g : TouEdge) : State :=
  let s := match (s.touOut n).trail with
    | some t => if trailPlace (s.touOut n).came t ≤ g.t then s.touTrailAt n t else s
    | none => s
  let s := s.setTouOut n { s.touOut n with came := some g.t }
  match g.action with
  | 0 => s.touDrive n 0
  | 1 => s.touDrive n 1
  | 2 => s.touDrive n (1 - (s.touOut n).level)
  | _ =>
    let s := (s.touDrive n (1 - s.rd (oIdle n))).setTrail n (some (g.t + g.width * nsU))
    s.setTouOut n { s.touOut n with trailOf := g.timer }

/-- The edges of output n whose instant Hub Time has reached come, in the order of their commits (R363). -/
def State.touArrive (s : State) (n : Nat) : State :=
  let due := (s.touOut n).line.filter fun g => decide (g.t ≤ s.htm.time)
  if due.isEmpty then s
  else due.foldl (State.touShow n)
    (s.setTouOut n { s.touOut n with line := (s.touOut n).line.filter fun g => !decide (g.t ≤ s.htm.time) })

/-- Every committed edge of output n comes (R372, R376). -/
def State.touFlush (s : State) (n : Nat) : State :=
  (s.touOut n).line.foldl (State.touShow n) (s.setTouOut n { s.touOut n with line := [] })

/-! ### Outputs of timers (R437, R439) -/

/-- The actions leave a level on an output. -/
def State.gtDrive (s : State) (n c v : Nat) : State := s.setGt n { s.gt n with lvl := Assoc.put 0 c v (s.gt n).lvl }

/-- A pending trailing edge comes: the output returns to IDLE. -/
def State.gtIdle (s : State) (n c : Nat) : State :=
  (s.setGt n { s.gt n with trail := Assoc.erase c (s.gt n).trail }).gtDrive n c (s.g (gIdle n c))

/-- The pending trailing edge due at `t` comes; one that an edge has moved is a collision (R439). -/
def State.gtTrailAt (s : State) (n c t : Nat) : State :=
  let p := trailPlace (Assoc.find c (s.gt n).came) t
  let s := s.gtIdle n c
  let x := s.gt n
  let s := s.setGt n { x with last := Assoc.place c (max p ((Assoc.find c x.last).getD 0)) (Assoc.erase c x.last)
                              came := Assoc.place c p (Assoc.erase c x.came) }
  if p = t then s else s.setBits (gEvt n) (2 ^ 10)

/-- A placed edge comes (R437); a trailing edge at or before its instant comes first (R439). -/
def State.gtShow (s : State) (n c : Nat) (g : TouEdge) : State :=
  let s := match Assoc.find c (s.gt n).trail with
    | some t => if trailPlace (Assoc.find c (s.gt n).came) t ≤ g.t then s.gtTrailAt n c t else s
    | none => s
  let s := s.setGt n { s.gt n with came := Assoc.place c g.t (Assoc.erase c (s.gt n).came) }
  match g.action with
  | 0 => s.gtDrive n c 0
  | 1 => s.gtDrive n c 1
  | 2 => s.gtDrive n c (1 - Assoc.get 0 c (s.gt n).lvl)
  | _ =>
    let s := s.gtDrive n c (1 - s.g (gIdle n c))
    s.setGt n { s.gt n with trail := Assoc.place c (g.t + g.width * nsU) (Assoc.erase c (s.gt n).trail) }

/-- Every placed edge of timer n comes. -/
def State.gtFlush (s : State) (n : Nat) : State :=
  (s.gt n).line.foldl (fun s p => s.gtShow n p.1 p.2) (s.setGt n { s.gt n with line := [] })

/-- The outputs that hold something. -/
def State.touHeld (s : State) : List Nat := s.tou.outs.map (·.1)

def TouEdge.moved (d : Int) (g : TouEdge) : TouEdge := { g with t := timeMoved d g.t }

/-- Committed edges complete (R371): what is placed keeps its distance from now. Locked entries go back to ARMED, and no prediction of
the old time locks. (DEDUCED, log 72.) -/
def State.touMoved (s : State) (d : Int) : State :=
  let s := { s with tou := { s.tou with outs := s.tou.outs.map fun p =>
    (p.1, { p.2 with line := p.2.line.map (TouEdge.moved d), trail := p.2.trail.map (timeMoved d), last := p.2.last.bind (timeKept d)
                     came := p.2.came.bind (timeKept d), want := p.2.want.bind (timeKept d) }) } }
  touAll.foldl (fun s p => s.touWaits p.1 p.2) s

/-! ### Calendar (R319, R320, R325) -/

/-- An enabled alarm starts a search at the whole second after now, while the view is valid (R319, R322). -/
def State.almStart (s : State) (n : Nat) : State :=
  if s.on (cAlmEn n) && s.viewValid then
    (s.setAlm n { s.alm n with search := some (s.nowSec + 1), owed := false }).setBits cAlmBusy (2 ^ n)
  else (s.setAlm n { s.alm n with search := none, owed := false }).clrBits cAlmBusy (2 ^ n)

def State.almNext (s : State) (n : Nat) : Nat := s.rd (cAlmNextLo n) + s.rd (cAlmNextHi n) * 2 ^ 32

/-- An enabled alarm has a second to wait for. -/
def State.almSet (s : State) (n : Nat) : Bool :=
  s.on (cAlmEn n) && (s.alm n).search.isNone && !s.on (cAlmNever n) && s.almNext n != 0

/-- Hub Time has jumped from second `was`: an alarm whose second it passed fires once, late; the others search again. -/
def State.almMoved (s : State) (was n : Nat) : State :=
  if s.almSet n && decide (was < s.almNext n) && decide (s.almNext n ≤ s.nowSec) then s.setAlm n { s.alm n with owed := true }
  else s.almStart n

/-- Every reference output drops to its inactive level and waits for a second boundary (R325). -/
def State.refsDrop (s : State) : State :=
  { s with cal := { s.cal with on := 0, pps := false, irig := none,
                               clk := s.cal.clk.map fun kx => (kx.1, { kx.2 with level := false, restart := none }) } }

/-- Hub Time has jumped from second `was`: no edge belongs to the boundary it lands on, and the outputs wait for the next (R325). -/
def State.calMoved (s : State) (was : Nat) : State :=
  let s := ((List.range 8).foldl (fun s n => s.almMoved was n) s.calStatus).refsDrop
  { s with cal := { s.cal with sec := some s.nowSec } }

/-! ### Discipline (R290) -/

/-- A sample whose servo update is still to come is discarded, and no earlier sample agrees with a later one; the last edge keeps its
distance from now (R290, R726). -/
def State.discMoved (s : State) (d : Int) : State :=
  { s with trm := { s.trm with prev := none, due := s.trm.due.map fun x => { x with discard := true },
                               lastEdge := s.trm.lastEdge.map fun t => ((t + d) % timeMod).toNat } }

/-! ### Edges of the old time -/

/-- A stamp of the old time, moved by `d` (2⁻³² ns) so that it keeps its distance from now. -/
def stampMoved (d : Int) (t : Nat) : Nat := (((t : Int) + d / 2 ^ 28) % (timeMod / 2 ^ 28 : Nat)).toNat

/-- The time from the stamp `t` to the stamp `crossing`, around the wrap of Hub Time. -/
def sinceStamp (t crossing : Nat) : Nat := (crossing + (timeMod / 2 ^ 28 - t % (timeMod / 2 ^ 28))) % (timeMod / 2 ^ 28)

/-- A crossing less than 8 ns after an earlier edge (R341, R427, R446), in 2⁻⁴ ns. -/
def nearStamp (last : Option Nat) (crossing : Nat) : Bool :=
  match last with
  | some l => decide (sinceStamp l crossing < 128)
  | none => false

/-- The 8 ns between two edges of an input or capture channel are real time (R341): the last accepted edge moves with the timeline. -/
def State.stpMoved (s : State) (d : Int) : State :=
  { s with stp := { s.stp with ins := s.stp.ins.map fun kx => 
    (kx.1, { kx.2 with last := kx.2.last.map (stampMoved d), filt := kx.2.filt.map fun p => (stampMoved d p.1, p.2) }) } }

def PinEdge.moved (d : Int) (e : PinEdge) : PinEdge := { e with t := stampMoved d e.t }

/-- A timer's placed edges and its last edges and captures keep their distance from now; an aligned tick is the first after the step (R458). -/
def State.gtsMoved (s : State) (d : Int) : State :=
  let mv := fun (kx : Nat × Nat) => (timeKept d kx.2).map fun t => (kx.1, t)
  { s with gtm := s.gtm.map fun kx =>
    (kx.1, { kx.2 with tickAt := s.htm.time, trail := kx.2.trail.map fun p => (p.1, timeMoved d p.2), last := kx.2.last.filterMap mv
                       came := kx.2.came.filterMap mv, want := kx.2.want.filterMap mv
                       line := kx.2.line.map fun p => (p.1, p.2.moved d)
                       clk := kx.2.clk.map (PinEdge.moved d), clkAt := kx.2.clkAt.map (stampMoved d)
                       capIn := kx.2.capIn.map fun p => (p.1, p.2.moved d)
                       capAt := kx.2.capAt.map fun p => (p.1, stampMoved d p.2) }) }

/-- The edges of the tick pairs keep their distance from now (R239). -/
def TickPair.moved (d : Int) (p : TickPair) : TickPair := { p with at_ := p.at_ + d }
def State.pairsMoved (s : State) (d : Int) : State :=
  { s with keep := { s.keep with pair := s.keep.pair.map (TickPair.moved d), pair0 := s.keep.pair0.map (TickPair.moved d) } }

/-- The RDpTXT edges that were placed keep their distance from now. -/
def State.radsMoved (s : State) (d : Int) : State :=
  { s with rad := s.rad.map fun kx => (kx.1, { kx.2 with txt := kx.2.txt.map (stampMoved d) }) }

/-- The 1,000 ms in which a node's request may come again run on (R633, R726). -/
def CanDone.moved (d : Int) (x : CanDone) : CanDone := { x with t := ((x.t + d) % timeMod).toNat }
def State.cansMoved (s : State) (d : Int) : State :=
  { s with can := { s.can with nodes := s.can.nodes.map fun kx => (kx.1, { kx.2 with last := kx.2.last.map (CanDone.moved d) }) } }

/-- Every block takes the move of Hub Time from `was` by `d`. -/
def State.stepBlocks (s : State) (was : Nat) (d : Int) : State :=
  ((((((((s.millsMoved d).touMoved d).calMoved (secOf was)).discMoved d).stpMoved d).gtsMoved d).pairsMoved d).radsMoved d).cansMoved d

end Sys2Proof.Machine
end

