-- ==== Sys2Proof/Machine/Time.lean ====
section
/-! DEFINITION. Hub Time (spec/01): its advance, SET, STEP and slew, self-capture, the clock-plan switch request, and HTM_INCR. -/

namespace Sys2Proof.Machine

/-- The range of HTM_INCR (R24). -/
def incrMin : Nat := 0x03FEF9DB23
def incrMax : Nat := 0x04010624DD

/-- An increment clamped to the range of R24 (R25). -/
def clampIncr (i : Int) : Nat := (max (incrMin : Int) (min i incrMax)).toNat

/-- Hub Time moved by a signed amount, modulo 2⁴⁸ s. -/
def addTime (t : Nat) (d : Int) : Nat := ((t + d) % timeMod).toNat

/-- The slew component of the next cycle: HTM_SLEW_RATE ppm of HTM_INCR, signed as the remainder, at most the remainder
(R45, R46). (DESIGN CHOICE, log 16.) -/
def State.slewPart (s : State) : Int :=
  let full : Int := roundDiv (s.htm.incr * s.htm.slewRate) 1000000
  if s.htm.slewLeft < 0 then max s.htm.slewLeft (-full) else min s.htm.slewLeft full

/-- The effective increment of the next cycle: HTM_INCR plus the slew component while a slew is active, clamped (R23, R25). -/
def State.effIncr (s : State) : Nat :=
  clampIncr (s.htm.incr + (if s.on F.htmSlewActive then s.slewPart else 0))

/-- An edge that passes its filter at `pass` is decided in the MCLK cycle that starts at the third rising edge after it (R768): whether
that is the present cycle, or an earlier one. Times before now and after are told apart around the wrap of Hub Time. -/
def State.decided (s : State) (pass : Nat) : Bool :=
  let age := (s.htm.time + timeMod - pass % timeMod) % timeMod
  decide (2 * s.effIncr < age) && decide (age < timeMod / 2)

/-- What the next cycle's slew absorbs: nothing where the increment alone stands at the limit (R25). -/
def State.slewAbsorbed (s : State) : Int := if s.on F.htmSlewActive then (s.effIncr : Int) - clampIncr s.htm.incr else 0

/-- The clamp of R25 acts in the next cycle, also where no slew is active. -/
def State.slewClamps (s : State) : Bool := decide ((s.effIncr : Int) ≠ s.htm.incr + (if s.on F.htmSlewActive then s.slewPart else 0))

/-- The slew ends: SLEW_ACTIVE clears and source 473 is raised (R45). -/
def State.endSlew (s : State) : State := (s.wr F.htmSlewActive 0).latch 473

/-- One MCLK cycle of Hub Time (R23): the effective increment is added, and the slew absorbs its part (R45, R46). -/
def State.timeCycle (s : State) : State :=
  let left := s.htm.slewLeft - s.slewAbsorbed
  let s1 := if s.slewClamps then s.wr F.htmSlewClamped 1 else s
  let s2 := { s1 with htm := { s1.htm with time := addTime s.htm.time s.effIncr, slewLeft := left } }
  if s.on F.htmSlewActive && decide (left = 0) then s2.endSlew else s2

/-- HTM_SLEW_LEFT: the remainder rounded away from zero to whole nanoseconds (R45). -/
def State.slewLeftNs (s : State) : Int :=
  if s.htm.slewLeft < 0 then -(((-s.htm.slewLeft).toNat + nsU - 1) / nsU : Nat)
  else ((s.htm.slewLeft.toNat + nsU - 1) / nsU : Nat)

/-- The timeline moves to `t` by a SET or STEP: every block takes the move (spec/17), STEP_GEN rises, source 472 is raised, an
active slew is cancelled without 473 (R43, R44), and SLEW_LEFT reads 0, whatever SLEW_ABORT left there. (DESIGN CHOICE, log 201.) -/
def State.moveTime (s : State) (t : Nat) (step : Bool) : State :=
  let was := s.htm.time
  let s := { s with htm := { s.htm with time := t % timeMod, slewLeft := 0 }, ended := .moved was step :: s.ended }
  let s := ((s.wr F.htmSlewActive 0).wr F.htmStepGen (s.rd F.htmStepGen + 1)).latch 472
  s.stepBlocks was ((t % timeMod : Nat) - was)

/-- A SET applies: Hub Time takes the staged value plus the time elapsed since the edge, and TIME_SET sets (R40, R41). -/
def State.applySet (s : State) (staged elapsed : Nat) : State := (s.wr F.htmTimeSet 1).moveTime (staged + elapsed) false

/-- A SET that a CANCEL_SET of the present cycle dropped and that this edge applies is pending again: the CANCEL_SET is ALREADY_DONE
(R13). -/
def State.uncancelled (s : State) (how : Nat) : State :=
  match (withReply s.ended).findSome? fun x => match x.1 with
      | .cancelled k time apply => if apply = how ∧ s.htm.pend.isNone then some (k, time, x.2) else none
      | _ => none with
  | some (k, time, via) =>
    let s := { s with htm := { s.htm with pend := some { time := time, apply := how } }
                      ended := unended (fun e => match e with | .cancelled .. => true | _ => false) s.ended }
    (s.wr F.htmSetPending 1).lateCode k .alreadyDone via
  | none => s

/-- A pending SET meets its edge at `edge`, `how` being 1 for PPSIN and 2 for a keep tick (R40); source 474. -/
def State.pendSetEdge (s : State) (how edge : Nat) : State :=
  let s := s.uncancelled how
  match s.htm.pend with
  | some p =>
    if p.apply = how then
      let s1 := { s with htm := { s.htm with pend := none } }
      (((s1.wr F.htmSetPending 0).applySet p.time (s.htm.time - edge)).latch 474)
    else s
  | none => s

/-- The modes in which SET, STEP, SLEW_START and PLAN_SWITCH are accepted (R35, R39, R47). -/
def State.timeMode (s : State) : Bool := s.mode == 4 || s.mode == 6 || s.mode == 10

/-- The staged time of the SET registers (R40). -/
def State.stagedTime (s : State) : Nat :=
  mkTime (s.rd F.htmSetSecLo + s.rd F.htmSetSecHi * 2 ^ 32) (s.rd F.htmSetNs) (s.rd F.htmSetFrac)

def opSet (slot : Slot) (s : State) : Res :=
  secureOnly slot s <|
  if !s.timeMode then (.notInMode, s)
  else if s.rd F.htmSetApply = 0 then
    (.done, ((State.wr { s with htm := { s.htm with pend := none } } F.htmSetPending 0).applySet s.stagedTime 0))
  else
    (.done, State.wr { s with htm := { s.htm with pend := some { time := s.stagedTime, apply := s.rd F.htmSetApply } } }
      F.htmSetPending 1)

def opCancelSet (slot : Slot) (s : State) : Res :=
  secureOnly slot s <|
  match s.htm.pend with
  | some p => (.done, State.wr { s with htm := { s.htm with pend := none }, ended := .cancelled slot p.time p.apply :: s.ended }
      F.htmSetPending 0)
  | none => (.alreadyDone, s)

/-- The signed step of HTM_STEP_SEC and HTM_STEP_NS, in 2⁻³² ns (R42). -/
def State.stepAmount (s : State) : Int := s.rdS F.htmStepSec * secU + s.rdS F.htmStepNs * nsU

def opStep (slot : Slot) (s : State) : Res :=
  secureOnly slot s <|
  if !s.timeMode then (.notInMode, s) else (.done, s.moveTime (addTime s.htm.time s.stepAmount) true)

def opSlewStart (slot : Slot) (s : State) : Res :=
  secureOnly slot s <|
  if !s.timeMode then (.notInMode, s)
  else
    let s1 := { s with htm := { s.htm with slewLeft := s.rdS F.htmSlewOfs * nsU, slewRate := s.rd F.htmSlewRate } }
    (.done, (s1.wr F.htmSlewActive 1).wr F.dLockRun 0)

def opSlewAbort (slot : Slot) (s : State) : Res :=
  secureOnly slot s <| if s.on F.htmSlewActive then (.done, s.wr F.htmSlewActive 0) else (.alreadyDone, s)

/-- The stamp ring of a slot: ring 8 + STGRP, ring 15 for the Steward (R53, R55). -/
def State.stampRing (s : State) (slot : Nat) : Nat := if slot = 16 then 15 else 8 + s.rd (F.hStgrp slot)

/-- Hub Time as a capture of the present cycle takes it: that before a STEP of the cycle (spec/01). -/
def State.captureTime (s : State) : Nat :=
  (s.ended.findSome? fun e => match e with | .moved was true => some was | _ => none).getD s.htm.time

/-- SELF_CAPTURE: a type 0x5 quill of Hub Time, fraction included (R53, R54, R56). -/
def opSelfCapture (slot : Slot) (s : State) : Res :=
  let r := s.stampRing slot.val
  let (seq, s1) := s.nextSeq r
  (.done, s1.give r (quillW0 5 false false false false slot.val seq :: time96 s.captureTime (s.qual false)))

/-- HTM_PLAN_INCR (R66). -/
def State.planIncr (s : State) : Nat := s.rd F.htmPlanIncrLo + s.rd F.htmPlanIncrHi * 2 ^ 32

/-- PLAN_SWITCH: the checks of R38, R35, R71 and R66, then a planned freeze is requested and PLAN_BUSY sets (R32). (DEDUCED, log 17.) -/
def opPlanSwitch (slot : Slot) (s : State) : Res :=
  secureOnly slot s <|
  if !s.timeMode || s.on F.htmPlanBusy || s.glb.freezeReq.isSome || !s.on F.kOscRunning then (.notInMode, s)
  else if s.planIncr < incrMin || incrMax < s.planIncr then (.outOfRange, s)
  else
    let s1 := { s with htm := { s.htm with phase := .freezing }, glb := { s.glb with freezeReq := some .plan, freezeTick := false } }
    (.done, s1.wr F.htmPlanBusy 1)

/-- Discipline runs in hardware mode (R48, R259). -/
def State.hwDiscipline (s : State) : Bool := !s.on F.dMode

def opIncrLoWrite (v : Nat) (s : State) : Res :=
  if s.hwDiscipline then (.notInMode, s)
  else (.done, { s with htm := { s.htm with incrHeld := some (v % 2 ^ 32) } })

/-- A write of HTM_INCR_HI applies with the held low word (R49), within R24; with none held the low word in force stays. (DESIGN CHOICE,
log 175.) -/
def opIncrHiWrite (v : Nat) (s : State) : Res :=
  let i := v % 2 ^ 8 * 2 ^ 32 + s.htm.incrHeld.getD (s.htm.incr % 2 ^ 32)
  if s.hwDiscipline then (.notInMode, s)
  else if i < incrMin || incrMax < i then (.outOfRange, s)
  else (.done, { s with htm := { s.htm with incr := i, incrHeld := none } })

end Sys2Proof.Machine
end

