-- ==== Sys2Proof/Machine/Power.lean ====
section
/-! DEFINITION. Power and mode (spec/03, spec/05): the loss of the main domain, the freeze, waking, all-off, and the engine that
moves rails, steps and groups. -/

namespace Sys2Proof.Machine

open F

/-- A plan field as the sequencer sees it: the active copy (R179). -/
def State.q (s : State) (f : Fld) : Nat := s.rd (qa f)
def State.qon (s : State) (f : Fld) : Bool := s.on (qa f)

/-! ### The main domain -/

/-- The registers that the loss of the main domain does not reset: the GLB mode registers, KEEP (R90), SEQ, MON and SEC.
(DEDUCED, log 47.) -/
def survivesMain (addr : Nat) : Bool :=
  (0x100 ≤ addr && addr < 0x160) || (0x010000 ≤ addr && addr < 0x020000) || (0x090000 ≤ addr && addr < 0x0B0000) ||
    (0x130000 ≤ addr && addr < 0x140000)

/-- The banks after the main domain is lost: an INSTALL under way leaves its bank half written (R596). -/
def State.banksLeft (s : State) : List (Nat × BankImg) :=
  if s.hst.fwOp = 2 then Assoc.put .factory (1 - s.rd F.xBank) .torn s.hst.banks else s.hst.banks

/-- What is left of a mill without its domain: the levels at its balls, which it sees when it starts again. -/
def MillS.off (x : MillS) : MillS :=
  { MillS.init with ball := x.ball, a := x.ball.testBit 0, b := x.ball.testBit 1, z := x.ball.testBit 2 }
def MilS.off (x : MilS) : MilS :=
  { MilS.init with mills := x.mills.foldl (fun l kx => Assoc.put MillS.init kx.1 kx.2.off l) [] }

/-- What the main domain holds is lost with its supply, and the Steward is held in reset (R227, R230), but for the plan that the PLL is
programmed with and HTM_INCR with its frequency base (R37, R247); a STORE in progress leaves its copy invalid (R612), which STORE has
already made so; the leases end with it, and the sequencer plan's, whose registers stay, rolls back (R183). (DEDUCED, log 19.) -/
def State.mainOff (s : State) : State :=
  let s := if s.owner idPlan = 0x1F then s else s.rollback idPlan
  let t := State.wr { s with
    regs := s.regs.filter fun kv => survivesMain (kv.1 / 32) || kv.1 == htmPlanActive.key
    sbuf := []
    ringSeq := []
    port := .init
    htm := { HtmS.init with cold := s.htm.cold, incr := s.htm.incr, first := s.htm.first }
    glb := { s.glb with mainUp := false, freezeReq := none, loaded := false }
    icu := .init
    mbx := .init
    can := .init
    trm := { TrmS.init with base := s.trm.base }
    stp := .init
    tou := .init
    mil := s.mil.off
    cal := .init
    gtm := []
    ptn := .init
    swp := []
    rad := []
    hst := { s.hst with portLast := [], failIdx := [], leaseDur := [], jobs := [], bind := [], reads := [], sync1 := [], sync2 := [], fwOp := 0, banks := s.banksLeft }
    dict := { s.dict with xfers := [], integ := [], store := none, restore := none } } xFwBusy 0
  (t.wr glbStewardReady 0).wr glbHalted 0

/-- SEC_KEYHASH as a digest (R593): its bytes in order, each word's lowest first (R5). (DEDUCED, log 100.) -/
def State.keyHash (s : State) : Nat := beNat (bytesOf ((List.range 8).map fun i => s.rd (xKeyHash i)))

/-- The key is one that the part takes: any in OPEN, else the one whose digest SEC_KEYHASH holds (R595). -/
def State.keyTaken (s : State) (digest : Nat) : Bool := s.rd xState == 0 || digest == s.keyHash

/-- The image of these bytes authenticates (R595): its signature is over bytes 0x000 to 0x03F and the body. -/
def State.imageSigned (s : State) (bs : List Nat) : Bool :=
  let num := fun i => beNat ((bs.drop i).take 32)
  ecdsaOk (num 0x40) (num 0x60) (sha256 (bs.take 0x40 ++ bs.drop 0x100)) (num 0x80) (num 0xA0) && s.keyTaken (sha256 ((bs.drop 0x40).take 64))

/-- What a firmware bank holds. -/
def State.bank (s : State) (b : Nat) : BankImg := Assoc.get .factory b s.hst.banks

/-- A bank holds an image that authenticates (R595); the one the part ships with is signed (R765). -/
def State.bankGood (s : State) (b : Nat) : Bool :=
  match s.bank b with
  | .factory => s.keyTaken Config.factoryKeyHash
  | .image bs => s.imageSigned bs
  | .torn => false

/-- VERSION of a firmware bank. (DESIGN CHOICE, log 100.) -/
def State.bankVersion (s : State) (b : Nat) : Nat :=
  match s.bank b with
  | .image bs => bs.getD 4 0 + bs.getD 5 0 * 2 ^ 8 + bs.getD 6 0 * 2 ^ 16 + bs.getD 7 0 * 2 ^ 24
  | _ => 0

/-- A bank becomes active (R597): with ADVANCE set, MINVER takes its VERSION. -/
def State.onBank (s : State) (b : Nat) : State :=
  let s := (s.wr xBank b).wr xVer (s.bankVersion b)
  if s.on xAdvance then s.wr xMinVer (s.rd xVer) else s

/-- A trial is over without its bank (R597): REVERTED and source 498. -/
def State.reverted (s : State) : State := ((s.wr xTrial 0).setBits xEvt 1).latch 498

/-- The bank that the main domain has started on: the other one on trial (R597). -/
def State.bootedBank (s : State) : Nat := if s.on xTrial then 1 - s.rd xBank else s.rd xBank

/-- A main-domain start authenticates anew (R595). It takes the bank that ACTIVATE marked as trial (R596); a trial that the start before
left undecided has failed. (DEDUCED, log 100.) -/
def State.bootBank (s : State) : State :=
  let s := s.wr xNoFw 0
  let s := if s.on xTrial then s.reverted else s
  if s.hst.trialNext then State.wr { s with hst := { s.hst with trialNext := false } } xTrial 1 else s

/-! ### Keep trim (R74, R75), which the freeze may change (R77) -/

/-- A term saturated to the signed 32-bit range, and whether it saturated. -/
def satTerm (i : Int) : Int × Bool := (satS 32 i, decide (satS 32 i ≠ i))

/-- KEEP_PARA_TERM, KEEP_AGE_TERM and KEEP_TRIM_TOTAL follow their components (R74, R75, R79, R80). (DEDUCED, log 26.) -/
def State.keepRetrim (s : State) : State :=
  let d := s.rdS kTemp - s.rdS kParaT0
  let hw := !s.on kMode
  let p := if hw then satTerm (s.rd kParaK * (d * d)) else (0, false)
  let a := if hw then satTerm (s.rdS kAgeRate * s.rd kAgeDays) else (0, false)
  let t := satTerm (s.rdS kTrimBase + p.1 + a.1 + s.rdS kTrimG)
  let s := ((s.wrS kParaTerm p.1).wrS kAgeTerm a.1).wrS kTrimTotal t.1
  if p.2 || a.2 || t.2 then s.wr kTrimClamped 1 else s

/-! ### Freeze -/

/-- The φ code of an edge at `h`: the time from it to the next MCLK rising edge, in 64ths of HTM_INCR. -/
def State.phiCode (s : State) (h : Int) : Nat := ((((s.htm.time : Int) - h) % s.htm.incr).toNat) * 64 / s.htm.incr

/-- The tick pair an unplanned freeze takes: the newest recorded at least 1 µs before (R239). -/
def State.oldPair (s : State) : Option TickPair :=
  match s.keep.pair with
  | some p => if p.at_ + 1000 * nsU ≤ s.htm.time then some p else s.keep.pair0
  | none => none

/-- The timeline freezes on a tick pair, or on none while OSC_RUNNING is 0 (R71, R112, R238, R239): KTIME_VALID follows, MCLK is
gated after the committed edges of timed outputs and timers (R372), the island goes back to its oscillator (R29), a planned freeze drops the reference
outputs (R325), and G_AT_FREEZE zeroes KEEP_TRIM_G, also at a freeze that takes no edge (R77; DEDUCED, log 145). -/
def State.freezeOn (s : State) (p : Option TickPair) (unplanned : Bool) : State :=
  let s := s.icuFinish.irqKeep
  let p := if s.on kOscRunning then p else none
  let phi := match p with | some q => s.phiCode q.at_ | none => 0
  let s := { s with
    htm := { s.htm with frozen := true, mclk := false }
    glb := { s.glb with frz := p, phiF := phi, unplanned := unplanned, freezeReq := none, freezeTick := false } }
  let s := if unplanned then s else s.refsDrop
  let s := s.touHeld.foldl State.touFlush s
  let s := ((s.gtm.map (·.1)).foldl State.gtFlush s).portFinish
  let s := (s.wr kTimeValid p.isSome.toNat).wr htmIslandOnMclk 0
  if s.on kGAtFreeze then (s.wr kTrimG 0).keepRetrim else s

/-- An unplanned freeze, when the timeline runs (R239). -/
def State.freezeNow (s : State) : State := if s.htm.frozen then s else s.freezeOn s.oldPair true

/-- The freeze of a falling stage at once, when the timeline runs: a planned one, which takes no edge, while OSC_RUNNING is 0 (R239). -/
def State.freezeFall (s : State) : State := if s.htm.frozen || s.on kOscRunning then s.freezeNow else s.freezeOn none false

/-! ### Rails -/

def State.railState (s : State) (n : Nat) : Nat := s.rd (qState n)

/-- The step, group and dependencies of a rail as the active plan has them. -/
def State.railPlan (s : State) (n : Nat) : RailKept := { step := s.q (qRailStep n), group := s.q (qGroup n), dep := s.q (qDep n) }
/-- Those in force: an enabled rail's change at its next transition (R182). (DEDUCED, log 157.) -/
def State.railNow (s : State) (n : Nat) : RailKept := Assoc.get (s.railPlan n) n s.seq.kept
def State.railStep (s : State) (n : Nat) : Nat := (s.railNow n).step
def State.railGroup (s : State) (n : Nat) : Nat := (s.railNow n).group
def State.railDep (s : State) (n : Nat) : Nat := (s.railNow n).dep
/-- A transition of a rail puts its plan in force. -/
def State.unkeep (s : State) (n : Nat) : State := { s with seq := { s.seq with kept := Assoc.erase n s.seq.kept } }

def State.railUsed (s : State) (n : Nat) : Bool := s.railStep n != 0x1F
/-- Up, NOT_UP or SHORT: good for dependencies (R126, R128, R134). -/
def State.railGood (s : State) (n : Nat) : Bool :=
  s.railState n == 3 || s.railState n == 4 || s.railState n == 5 || s.seq.shortHold.testBit n
/-- Judged down (R131). -/
def State.railDown (s : State) (n : Nat) : Bool :=
  s.railState n == 0 || s.railState n == 1 || s.railState n == 5 || s.railState n == 7
/-- RAILn_EN is driven high (R118). -/
def State.railOn (s : State) (n : Nat) : Bool := s.railState n == 2 || s.railState n == 3 || s.railState n == 4
/-- RAILn_DIS is driven high (R131). -/
def State.railDis (s : State) (n : Nat) : Bool := s.railState n == 6 && s.qon (qDisEn n)

def rails : List Nat := List.range 24

/-- The rails with a property, as a mask. -/
def maskOf (p : Nat → Bool) (l : List Nat) : Nat := l.foldl (fun m n => if p n then m + 2 ^ n else m) 0

/-- Every rail of n's dependency mask is good (R134). -/
def State.depsGood (s : State) (n : Nat) : Bool := rails.all fun m => !(s.railDep n).testBit m || s.railGood m
/-- Every rail that names n in its mask is down (R135). -/
def State.usersDown (s : State) (n : Nat) : Bool := rails.all fun m => !(s.railDep m).testBit n || s.railDown m

/-- A rail is enabled: ramping, with no reading yet at SHORT_PCT (R127). -/
def State.enableRail (s : State) (n : Nat) : State :=
  let s := s.unkeep n
  { (s.wr (qState n) 2) with seq := { s.seq with shortSeen := s.seq.shortSeen &&& (2 ^ 24 - 1 - 2 ^ n) } }

/-- A rail is disabled: it discharges until it is judged down (R131), and its warn run ends with its comparators (R122). -/
def State.disableRail (s : State) (n : Nat) : State :=
  let s := State.unkeep { s with mon := { s.mon with warnRun := Assoc.erase n s.mon.warnRun } } n
  if s.railOn n then s.wr (qState n) 6 else if s.railState n = 1 then s.wr (qState n) 0 else s

/-- A rail is judged down: it serves MIN_OFF (R132). -/
def State.railIsDown (s : State) (n : Nat) : State :=
  if s.q (qMinOff n) = 0 then s.wr (qState n) (if s.seq.shortHold.testBit n then 5 else 0) else s.wr (qState n) 7

/-- All HUB_OWN rails are good. -/
def State.ownGood (s : State) : Bool := rails.all fun n => !(s.railUsed n && s.qon (qHubOwn n)) || s.railGood n

/-- The rails a list of rails needs, its own included (R167): `fuel` rounds of dependencies. -/
def State.closure (s : State) (m : Nat) : Nat → Nat
  | 0 => m
  | fuel + 1 => State.closure s (m ||| maskOf (fun d => rails.any fun n => m.testBit n && (s.railDep n).testBit d && s.railUsed d) rails) fuel

/-- The rails of a group. -/
def State.groupRails (s : State) (g : Nat) : Nat := maskOf (fun n => s.railUsed n && s.railGroup n == g) rails

/-- The rails of a step. -/
def State.stepRails (s : State) (k : Nat) : Nat := maskOf (fun n => s.railStep n == k) rails

/-- A group operation goes through steps in order: no rail of `want` in an earlier step still to be judged (R167). -/
def State.stepsBefore (s : State) (n : Nat) : Bool :=
  s.seq.op.isNone || rails.all fun m => !(s.seq.want.testBit m && decide (s.railStep m < s.railStep n)) || s.railGood m
/-- The same from the top for a group going down (R171). -/
def State.stepsAfter (s : State) (n : Nat) : Bool :=
  s.seq.op.isNone || rails.all fun m => !(s.seq.drop.testBit m && decide (s.railStep n < s.railStep m)) || s.railDown m

/-- A rail to be raised waits for its dependencies, then is enabled (R134). -/
def State.pumpUp (s : State) (n : Nat) : State :=
  if s.seq.want.testBit n && (s.railState n == 0 || s.railState n == 1) && !s.seq.shortHold.testBit n then
    if s.depsGood n && s.stepsBefore n then s.enableRail n else s.wr (qState n) 1
  else s

/-- A stage that started in M7 lowers its rails after the thaw, in M8 (R228). -/
def State.thawFirst (s : State) : Bool := s.mode == 7 && s.glb.back == 8

/-- A rail to be lowered is disabled once its users are down (R135); a HUB_OWN rail waits for the freeze (R240), and with it the
main domain goes down. -/
def State.pumpDown (s : State) (n : Nat) : State :=
  if s.seq.drop.testBit n && (s.railOn n || s.railState n == 1) && s.usersDown n && s.stepsAfter n && !s.thawFirst then
    if s.qon (qHubOwn n) && !s.htm.frozen && s.on kOscRunning then
      if s.glb.freezeReq = some .fall then s else { s with glb := { s.glb with freezeReq := some .fall, freezeTick := false } }
    else if s.qon (qHubOwn n) then (s.freezeFall.disableRail n).mainOff
    else s.disableRail n
  else s

def State.pumpAll (s : State) : List Nat → State
  | [] => s
  | n :: t => State.pumpAll ((s.pumpUp n).pumpDown n) t

/-! ### Groups (R169, R170, R173) -/

/-- A group is up. -/
def State.groupUpNow (s : State) (g : Nat) : Bool :=
  if s.groupRails g = 0 then s.seq.emptyUp.testBit g
  else rails.all fun n => !(s.groupRails g).testBit n || s.railGood n

/-- A group is up with a rail NOT_UP or SHORT. -/
def State.groupBad (s : State) (g : Nat) : Bool :=
  s.groupUpNow g && rails.any fun n => (s.groupRails g).testBit n && (s.railState n == 4 || s.seq.shortHold.testBit n)

/-- HRSTk_N is held low while its group is not up; its assertion is a host reset of the group's slots (R173, R581).
One that is not enabled is released. (DESIGN CHOICE, log 153.) -/
def State.hrstCheck (s : State) (k : Nat) : State :=
  if s.qon (qHrstEn k) then
    if s.groupUpNow (s.q (qHrstGroup k)) || s.seq.hrstLow.testBit k then s
    else State.hostResets { s with seq := { s.seq with hrstLow := s.seq.hrstLow ||| 2 ^ k } } (s.slotsOfGroup (s.q (qHrstGroup k)))
  else { s with seq := { s.seq with hrstLow := s.seq.hrstLow &&& (15 - 2 ^ k) } }

/-- The wake outputs of the slots bound to g are asserted once every HRSTk_N bound to it is released (R170). -/
def State.wakeGroup (s : State) (g : Nat) : State :=
  if s.seq.toWake.testBit g && s.groupUpNow g &&
      (List.range 4).all (fun k => !(s.qon (qHrstEn k) && s.q (qHrstGroup k) == g) || !s.seq.hrstLow.testBit k) then
    let s := { s with seq := { s.seq with toWake := s.seq.toWake &&& (255 - 2 ^ g) } }
    (s.slotsOfGroup g).foldl (fun s k => if s.on (hWake k) then s.wr (hWaking k) 1 else s) s
  else s

/-- The main domain starts (R595): the value last written to KEEP_TRIM_G, which the keep domain holds, is the one it reads there (R270). -/
def State.mainOn (s : State) : State :=
  { s with glb := { s.glb with mainUp := true }, trm := { s.trm with gSent := s.rdS kTrimG } }

/-- SEQ_GRPSTAT, SEQ_UPMASK and the host resets follow the rails. -/
def State.refresh (s : State) : State :=
  let s := (s.wr qGrpUp (maskOf s.groupUpNow (List.range 8))).wr qDegraded (maskOf s.groupBad (List.range 8))
  let s := s.wr qUpMask (maskOf (fun n => s.railState n == 3) rails)
  let s := { s with seq := { s.seq with toWake := s.seq.toWake &&& s.rd qGrpUp } }
  let s := (List.range 4).foldl State.hrstCheck s
  if s.mode = 3 && !s.glb.mainUp && s.ownGood then s.mainOn.bootBank else s

/-- The end of a group operation: KIND goes back to on-rest, or the main stages proceed (R172). -/
def State.endOp (s : State) (stop : Bool) : State :=
  let s := { s with seq := { s.seq with op := none, want := 0, drop := 0, next := if stop then some (true, 15) else s.seq.next } }
  (s.wr qRising 0).wr qKind 2

/-- A group operation completes: source 250 when a served demand brought the group up (R169), 251 for GROUP_DOWN (R171). -/
def State.opDone (s : State) : State :=
  match s.seq.op with
  | none => s
  | some o =>
    if o.up then
      if rails.all fun n => !s.seq.want.testBit n || s.railGood n then
        if !s.groupUpNow o.group && decide (s.groupRails o.group ≠ 0) then (s.endOp o.stop).refresh
        else
          let s := { s with seq := { s.seq with
            emptyUp := if s.groupRails o.group = 0 then s.seq.emptyUp ||| 2 ^ o.group else s.seq.emptyUp } }
          let s := ((s.endOp o.stop).refresh).latch 250
          State.wakeGroup { s with seq := { s.seq with toWake := s.seq.toWake ||| 2 ^ o.group } } o.group
      else s
    else if rails.all fun n => !s.seq.drop.testBit n || s.railDown n then
      let s := { s with seq := { s.seq with emptyUp := s.seq.emptyUp &&& (255 - 2 ^ o.group) } }
      ((s.endOp o.stop).refresh).latch 251
    else s

/-- The engine after any happening: rails move as far as they may, groups follow, an operation may complete; the scan may have nothing
left to judge (R189). -/
def State.settle (s : State) : State := (((s.pumpAll rails).refresh).opDone).scanCheck

/-! ### Lines and starts -/

/-- A start from M2 leads to M4 (R228), whatever lock an earlier run lost. -/
def State.fromM2 (s : State) : State := { s with glb := { s.glb with back := 4, lostLock := 0 } }

/-- The master starts the set: it releases SEQDOWN_N at off-rest (R140), and out of M2 the hub enters M3 (R228). With HOLDUP_EN,
VIN_WARN holds a new start back until VINSNS recovers (R163). -/
def State.startSet (s : State) (cause : Nat) : State :=
  if decide (2 ≤ s.mode) && decide (s.mode ≤ 10) && s.mode != 9 && s.rd qKind == 0 && s.qon qMaster && s.seq.joined && s.seq.pullDown &&
      !(s.qon qHoldupEn && s.seq.vinLow && s.q qVinWarn != 0) then
    let s := { s with seq := { s.seq with pullDown := false, down := [] } }
    if s.mode = 2 then (((s.setBits glbWakeCause (2 ^ cause)).setMode 3).wr glbWakeHeld 0).fromM2 else s
  else s

/-- A wake source (R229, R233): in M2 it starts the set on the master, or sets WAKE_HELD; in M7 it starts the thaw. -/
def State.wake (s : State) (cause : Nat) : State :=
  if s.mode = 2 then
    if s.qon qMaster then s.startSet cause else (s.setBits glbWakeCause (2 ^ cause)).wr glbWakeHeld 1
  else if s.mode = 7 then
    { (s.setBits glbWakeCause (2 ^ cause)) with glb := { s.glb with waking := true } }
  else s

/-- A group is demanded; in M2 the master starts the set (R168). -/
def State.demand (s : State) (g : Nat) : State :=
  if s.bit qGrpUp g || s.rising g then s
  else
    let s := s.demandSet g
    if s.mode = 2 then s.startSet 9 else s

/-- This member changes its drive of SEQDOWN_N in a stage (R148): at once while it holds SEQSTEP low, after pulling it low again where it
has released it, and with the start of the next stage where the line has already risen. A line driven so already stays as it is. -/
def State.driveDown (s : State) (low : Bool) : State :=
  if s.seq.pullDown = low then s
  else if s.seq.pullStep then { s with seq := { s.seq with pullDown := low } }
  else if s.seq.next.isNone then State.wr { s with seq := { s.seq with pullStep := true, pullDown := low } } qLineStep 0
  else s

/-- This member asks for the down direction (R146, R148): a request of the holdup, of a gate and of a host stand beside each other. -/
def State.requestDown (s : State) (why : DownReq) : State :=
  let s := { s with seq := { s.seq with down := if s.seq.down.contains why then s.seq.down else why :: s.seq.down } }
  if s.rd qKind = 1 then s.driveDown true
  else if s.rd qKind = 0 then s
  else { s with seq := { s.seq with pullDown := true } }

/-- Off-rest is reached, or the hold of M9 ends (R158, R770): the master holds SEQDOWN_N low, waiting demands are discarded
(R725), shorted rails are allowed again (R130). (DESIGN CHOICE, log 31.) -/
def State.offRest (s : State) : State :=
  let s := rails.foldl (fun s n => if s.railState n = 5 then s.wr (qState n) 0 else s) s
  let s := { s with seq := { s.seq with
    pullStep := false, pullFlt := false, own := false, pullDown := s.qon qMaster, joined := true, down := [], next := none,
    want := 0, drop := 0, shortHold := 0, demands := 0, op := none, emptyUp := 0, toWake := 0, holdup := false, freed := false,
    kept := [], offNow := 0 } }
  let s := (((s.wr qKind 0).wr qDir 1).wr qStep 0).wr qGateWait 0
  let s := (if s.glb.mainUp then s.freezeFall.mainOff else s)
  (((s.latch 241).setMode 2).refresh).scanCheck

/-! ### All-off (R156) -/

/-- A rail in an all-off (R156, R157): an enabled rail, and any rail with DIS_EN, goes to discharge under R131; every other serves
MIN_OFF. -/
def State.allOffRail (s : State) (n : Nat) : State :=
  let s := { s with mon := { s.mon with warnRun := Assoc.erase n s.mon.warnRun } }
  if s.railOn n || s.qon (qDisEn n) then s.wr (qState n) 6
  else if s.railState n = 6 then s
  else s.railIsDown n

/-- Every rail in one cycle. (DEDUCED, log 30.) -/
def State.allRailsOff (s : State) : List Nat → State
  | [] => s
  | n :: t => State.allRailsOff (s.allOffRail n) t

/-- SEQ_LASTOFF (R156): cause, and step, direction and kind at the all-off; a further cause of the same cycle leaves those. -/
def State.lastOff (s : State) (cause rail : Nat) (ov : Bool) : State :=
  let s := ((s.wr qOffCause cause).wr qOffOv ov.toNat).wr qOffRail rail
  if s.seq.offNow = 0 then ((s.wr qOffStep (s.rd qStep)).wr qOffDir (s.rd qDir)).wr qOffKind (s.rd qKind) else s

/-- The word of SEQ_LASTOFF. -/
def State.lastOffWord (s : State) : Nat :=
  s.rd qOffCause * 2 ^ 28 + s.rd qOffStep * 2 ^ 24 + s.rd qOffDir * 2 ^ 23 + s.rd qOffKind * 2 ^ 21 + s.rd qOffOv * 2 ^ 20 +
    s.rd qOffRail
def State.grpStatWord (s : State) : Nat := s.rd qDegraded * 2 ^ 16 + s.rd qRising * 2 ^ 8 + s.rd qGrpUp

/-- The CAUSE bit of an all-off cause (R210). -/
def causeBit (cause : Nat) : Nat :=
  match cause with
  | 1 => 2 ^ 1 | 2 => 2 ^ 4 | 3 => 2 ^ 3 | 4 => 2 ^ 6 | 5 => 2 ^ 5 | 6 => 2 ^ 7 | 7 => 2 ^ 2 | _ => 1

/-- The rank of an all-off cause, 0 the first (R161). -/
def offRank (cause : Nat) : Nat :=
  match cause with
  | 8 => 0 | 1 => 1 | 7 => 2 | 3 => 3 | 2 => 4 | 5 => 5 | 4 => 6 | _ => 7

/-- The rail that caused an all-off is reported (193 + 2n). -/
def State.offSource (s : State) (cause rail : Nat) : State := if cause = 1 then s.latch (193 + 2 * rail) else s

/-- The NAP commands of the present cycle lose to an all-off in it: NOT_IN_MODE (R722). -/
def State.unnapped (s : State) : State :=
  (withReply s.ended).foldr (fun x t => match x.1 with | .napped k => t.lateCode k .notInMode x.2 | _ => t)
    { s with ended := unended (fun e => match e with | .napped _ => true | _ => false) s.ended }

/-- An all-off (R156): SEQ_LASTOFF, the Mortar entry of its cycle (R209), every enable released, the host resets and SEQFLT_N
(but for REMOTE) low, an unplanned freeze (R239), then M9 with the main domain down. The stage ends: SEQ_STATUS shows the code of
off-rest, where M9 leads (R158). The entry's SOURCE is the hub. (DESIGN CHOICE, log 28; DESIGN CHOICE, log 154; DESIGN CHOICE,
log 178.) -/
def State.allOffFirst (s : State) (cause rail : Nat) (ov : Bool) (beyond : Nat) : State :=
  let s := s.unnapped.lastOff cause rail ov
  let s := s.mortar 1 0xFF (causeBit cause)
    [s.lastOffWord, s.rd qUpMask, beyond, s.rd qNotUp, s.rd qShort, s.rd qWarn, s.grpStatWord]
  let s := { s with seq := { s.seq with
    offNow := causeBit cause, offUp := maskOf (fun n => s.railState n == 3) rails, offRamp := maskOf (fun n => s.railState n == 2) rails } }
  let s := s.allRailsOff rails
  let s := { s with seq := { s.seq with
    pullStep := false, pullFlt := s.seq.pullFlt || cause != 2, own := cause != 2, next := none, want := 0, drop := 0, op := none,
    emptyUp := 0, toWake := 0, demands := 0, down := [], hrstLow := 15, holdup := false, kept := [] } }
  let s := (((s.wr qKind 0).wr qDir 1).wr qStep 0).wr qGateWait 0
  let s := (s.wr qRising 0).wr qLineFlt 1
  let s := ((s.wr qGrpUp 0).wr qDegraded 0).wr qUpMask 0
  let s := (s.freezeNow.setMode 9).mainOff
  (s.latch 247).offSource cause rail

/-- The waiting ALL_OFF entry of the cycle takes SEQ_LASTOFF as it now stands (R161). -/
def LogEnt.setLast (last : Nat) (e : LogEnt) : LogEnt := if e.now && e.type == 1 then { e with words := e.words.set 22 last } else e

/-- A further cause in the cycle of an all-off (R161): the first of their order is recorded, the Mortar entry carries every one, and a
cause of this member's own holds SEQFLT_N low. (DESIGN CHOICE, log 177.) -/
def State.allOffAlso (s : State) (cause rail : Nat) (ov : Bool) : State :=
  let s := if offRank cause < offRank (s.rd qOffCause) then s.lastOff cause rail ov else s
  let s := { s with
    seq := { s.seq with offNow := s.seq.offNow ||| causeBit cause, pullFlt := s.seq.pullFlt || cause != 2, own := s.seq.own || cause != 2 }
    mon := { s.mon with queue := s.mon.queue.map (LogEnt.setLast s.lastOffWord) } }
  (s.cause (causeBit cause)).offSource cause rail

/-- An all-off for a cause, alone or beside others of the same cycle. -/
def State.allOff (s : State) (cause rail : Nat) (ov : Bool) (beyond : Nat) : State :=
  if s.seq.offNow = 0 then s.allOffFirst cause rail ov beyond else s.allOffAlso cause rail ov

/-- The modes in which an all-off can happen (R228); a cause of this member's own is recorded in M9 too (R154, R155). -/
def State.canAllOff (s : State) : Bool := decide (2 ≤ s.mode) && decide (s.mode ≤ 10)
/-- SEQFLT_N low is a remote all-off in a member that is in none, or had its own in the same cycle (R159). -/
def State.canRemoteOff (s : State) : Bool := s.canAllOff && (s.mode != 9 || s.seq.offNow != 0)

end Sys2Proof.Machine
end

