-- ==== Sys2Proof/Machine/MillOps.lean ====
section
/-! DEFINITION. Evaluating a mill at a Hub Time (R402 to R405), and the visible formats (R403). -/

namespace Sys2Proof.Machine

open F

/-! ### Formats -/

/-- The visible ANGLE64 of a phase, rounded to the nearest unit (R403, R404). -/
def angle64 (th : Nat) : Nat := roundDiv th (2 ^ 16) % 2 ^ 64

/-- A speed or acceleration as Q16.16, rounded and saturated (R403). -/
def q16 (x : Int) : Nat := toBits 32 (satS 32 (roundDivI x (2 ^ 32)))

/-- A Q16.16 value in 2⁻⁴⁸. -/
def ofQ16 (v : Nat) : Int := signedOf 32 v * 2 ^ 32

/-! ### State -/

/-- The mill's active configuration. -/
def State.lq (s : State) (m : Nat) (f : Fld) : Nat := s.rd (la m f)
def State.lon (s : State) (m : Nat) (f : Fld) : Bool := s.on (la m f)

/-- The newest kept state at or before `t`, or the oldest if none is (R402). -/
def pickKept (t : Nat) : List MillSt → Option MillSt
  | [] => none
  | [k] => some k
  | k :: r => if k.t ≤ t then some k else pickKept t r

/-- The state the mill evaluates from: the injected one in host-assisted mode (R409), a kept one otherwise. -/
def State.millBase (s : State) (m t : Nat) : Option MillSt :=
  if s.lon m (lMode m) then (s.mill m).inj else pickKept t (s.mill m).kept

/-- Mill m evaluated at Hub Time `t` (R402); a mill that has no state yet reads zero. -/
def State.evalMill (s : State) (m t : Nat) : MillSt :=
  match s.millBase m t with
  | some k => k.at_ t
  | none => { t := t, th := 0, w := 0, a := 0 }

/-- The mill state block of a beacon (R420). -/
def State.millBlock (s : State) (m t : Nat) : List Nat :=
  let k := s.evalMill m t
  let p := angle64 k.th
  [m * 2 ^ 28 + s.rd (lAcq m) * 2 ^ 27 + s.rd (lIndexed m) * 2 ^ 26 + (s.rd (lState m) == 3).toNat * 2 ^ 25 +
      (s.bit (lEvt m) 7).toNat * 2 ^ 24 + p / 2 ^ 32 % 2 ^ 16,
    p % 2 ^ 32, q16 k.w, q16 k.a]

/-! ### Prediction (R405, R370) -/

/-- The integer square root. -/
def isqrtStep (n : Nat) : Nat → Nat → Nat
  | 0, r => r
  | b + 1, r => if (r + 2 ^ b) * (r + 2 ^ b) ≤ n then isqrtStep n b (r + 2 ^ b) else isqrtStep n b r
def isqrt (n : Nat) : Nat := isqrtStep n (Nat.log2 n / 2 + 1) 0

/-- The smallest Δ ≥ 0, in 2⁻³² ns, at which a shaft with a positive remainder `r` to go reaches it with speed `w` and
acceleration `a` (all in 2⁻⁴⁸); none when it never does. -/
def timeToGo (r : Nat) (w a : Int) : Option Nat :=
  let disc : Int := w * w + 2 * a * r
  if disc < 0 then none
  else
    let root : Int := isqrt (disc.toNat * 2 ^ 64)   -- √disc in 2⁻³² of its unit
    if 0 < w then some (roundDiv (2 * r * secU * 2 ^ 32) (w * 2 ^ 32 + root).toNat)
    else if 0 < a then some (roundDiv ((root - w * 2 ^ 32).toNat * secU) (a.toNat * 2 ^ 32))
    else none

/-- What R366 predicts for a target: reached at a Hub Time, already behind the mill (R368, R370), or not moving toward it. -/
inductive Predict where
  | at_ (t : Nat)
  | behind (t : Nat)
  | away
  deriving DecidableEq, Repr

/-- The prediction for `target` (ANGLE64) from a state. -/
def MillSt.predict (k : MillSt) (target : Nat) : Predict :=
  let r := phaseDiff (target * 2 ^ 16) k.th
  if k.w = 0 ∧ k.a = 0 then .away
  else if r = 0 then .at_ k.t
  else if 0 < r then
    match timeToGo r.toNat k.w k.a with
    | some d => .at_ ((k.t + d) % timeMod)
    | none => .away
  else match timeToGo (-r).toNat (-k.w) (-k.a) with
    | some d => .at_ ((k.t + d) % timeMod)
    | none => if 0 < k.w then .behind k.t else .away

/-- The prediction of R405 for mill m, from the kept or injected state (t_k) that Hub Time now evaluates from. -/
def State.millPredict (s : State) (m target : Nat) : Predict :=
  match s.millBase m s.htm.time with
  | some k => k.predict target
  | none => .away

end Sys2Proof.Machine
end

