-- ==== Sys2Proof/Machine/Hold.lean ====
section
/-! DEFINITION. The integrator's limits and the entry to holdover (spec/06), as every way into M6 uses them. -/

namespace Sys2Proof.Machine

open F

/-- An event flag of HTM_DEVT: 0 OUTLIER, 1 MISSING, 2 TOD_MISMATCH, 3 TOD_BAD, 4 AUTO_STEP, 5 SERVO_CLAMPED. -/
def State.discEvt (s : State) (i : Nat) : State := s.setBits dEvt (2 ^ i)

/-! ### The integrator and S (R289) -/

/-- ±SERVO_MAX in 2⁻⁴², within the registers of S and I. -/
def State.servoMax (s : State) : Nat := min (s.rd dServoMax * 2 ^ 42 / 1000000000) (2 ^ 31 - 1)

def satAt (m : Nat) (i : Int) : Int := max (-(m : Int)) (min i m)

/-- The integrator and S take new values, each saturated; SERVO_CLAMPED sets while saturation acts (R289). -/
def State.putServo (s : State) (i v : Int) : State :=
  let m := s.servoMax
  let s' := (s.wrS dInteg (satAt m i)).wrS dServo (satAt m v)
  if satAt m i ≠ i ∨ satAt m v ≠ v then s'.discEvt 5 else s'

/-- The integrator takes a value, and S that less a proportional part. -/
def State.setServo (s : State) (i kp : Int) : State := s.putServo i (satAt s.servoMax i - kp)

/-! ### Holdover (R299, R300) -/

/-- The seconds of the averaging window: HOLD_AVG of them, ending at the last accepted sample. -/
def State.holdWin (s : State) : List SecLog := (s.trm.secs.dropWhile fun x => x.th.isNone).take (s.rd dHoldAvg)

/-- The mean of S over the window. -/
def State.holdFreq (s : State) : Int :=
  let w := s.holdWin
  if w.isEmpty then s.rdS dServo else roundDivI (w.map (·.s)).sum w.length

/-- The root mean square of θ over the window, 2⁻¹⁶ ns. -/
def rmsTheta (w : List SecLog) : Nat :=
  let l := w.filterMap (·.th)
  if l.isEmpty then 0 else isqrt (roundDiv ((l.map fun x => x.natAbs * x.natAbs).sum) l.length)

/-- The standard deviation of S over the window in 2⁻¹⁶ ppb, floored at 1 ppb. -/
def stdS (w : List SecLog) : Nat :=
  let n := w.length
  let sum := (w.map (·.s)).sum
  let sq := (w.map fun x => x.s * x.s).sum
  -- n²·variance, in 2⁻⁸⁴; one unit of 2⁻⁴² is 10⁹ ÷ 2⁴² ppb
  max (2 ^ 16) (roundDiv (isqrt ((n * sq - sum * sum).toNat * 2 ^ 32) * 1000000000) (n * 2 ^ 42))

/-- Entry to M6 (R299): HOLD_FREQ, which I takes unless it is kept (R232), and the start of the uncertainty (R300). -/
def State.holdEntry (s : State) (keepI : Bool) : State :=
  let f := s.holdFreq
  let w := s.holdWin
  let s := { s with trm := { s.trm with u0 := rmsTheta w, y0 := if w.isEmpty then 2 ^ 16 else stdS w } }
  let s := ((s.wrS dHoldFreq f).wr dHoldTime 0).wr dHoldUnc 0
  if keepI then s else s.setServo f 0

/-- Holdover begins where a lock ends without samples (R228, R232, R296): STATE 3, source 477, and in M6 the start of R299. -/
def State.holdBegin (s : State) (keepI : Bool) : State := ((s.wr dState 3).latch 477).holdEntry keepI

end Sys2Proof.Machine
end

