-- ==== Sys2Proof/Machine/Keep.lean ====
section
/-! DEFINITION. The keep domain (spec/02): supply, tick and trim, sensor, alarms, keep stamps and records, the keep window. -/

namespace Sys2Proof.Machine

open F

/-- The keep domain counts: VKEEP is up and the oscillator runs. -/
def State.keepRuns (s : State) : Bool := s.keep.powered && s.keep.oscOn

/-! ### Records in ring 39 (R115) -/

def State.keepRecWords (s : State) (r : KeepRec) : State :=
  let (seq, s) := s.nextSeq 39
  s.give 39 [r.kind * 2 ^ 28 + r.detail * 2 ^ 16 + seq, r.count % 2 ^ 32, r.count / 2 ^ 32, 0]

/-- A keep record goes to ring 39 while the main domain runs, and waits for the thaw otherwise (R99). (DESIGN CHOICE, log 23.) -/
def State.keepRec (s : State) (kind detail count : Nat) : State :=
  let r : KeepRec := { kind := kind, detail := detail, count := count }
  if s.running then s.keepRecWords r else { s with keep := { s.keep with recQ := s.keep.recQ ++ [r] } }

/-- The Hub Time of a keep stamp, by the make-up arithmetic from the newest tick pair, at keep-tick resolution (R63):
one count is 30,517.578125 ns, and the difference of F is taken as 0, since an entry of the FIFO holds no F (R102). (DESIGN CHOICE,
log 22.) -/
def State.keepTime (s : State) (count : Nat) : Nat :=
  match s.keep.pair with
  | some p => addTime p.h (roundDivI (((count : Int) - p.n) * (1000000000 * 2 ^ 32)) (2 ^ 15))
  | none => s.htm.time

/-- One FIFO entry becomes a type 0x3 quill (R63, R104): FRAC 0, LATE its SLEEP bit, OVF_BEFORE on the first after a drop. -/
def State.keepQuill (s : State) (e : KeepEnt) : State :=
  let (seq, s) := s.nextSeq 39
  let t := s.keepTime e.count
  let ws := time96 (mkTime (secOf t) (nsOf t) 0) (s.qual false)
  let s1 := s.give 39 (quillW0 3 false (s.keep.ovf.testBit e.input) false e.sleep e.input seq :: ws)
  { s1 with keep := { s1.keep with ovf := s1.keep.ovf &&& (15 - 2 ^ e.input) } }

/-- The oldest FIFO entry moves into ring 39 while the main domain runs (R104). -/
def State.keepDrain (s : State) : State :=
  if s.running then
    match s.keep.fifo with
    | e :: t => State.keepQuill { s with keep := { s.keep with fifo := t } } e
    | [] => s
  else s

/-! ### The mirror (R106) -/

/-- The KEEP fields as the mirror shows them. -/
def keepPart (l : List (Nat × Nat)) : List (Nat × Nat) :=
  l.filter fun kv => decide (0x010000 ≤ kv.1 / 32) && decide (kv.1 / 32 < 0x011000)

/-- The read mirror takes the state of the keep domain (R106). -/
def State.mirrorNow (s : State) : State :=
  { s with keep := { s.keep with mirror := keepPart s.regs, mCount := s.keep.count, mF := s.keep.f,
                                 mFifo := s.keep.fifo.length } }

/-! ### The switch log (R87) -/

/-- The next place of the switch log takes a record with the present count. -/
def State.writeSwRec (s : State) (detail : Nat) : State :=
  let n := s.keep.swNext % 4
  let s := (((s.wr (kSwrecLo n) (s.keep.count % 2 ^ 32)).wr (kSwrecHi n) (s.keep.count / 2 ^ 32)).wr (kSwrecInfo n) detail).wr
    (kSwrecEmitted n) 0
  { s with keep := { s.keep with swNext := (n + 1) % 4, swPend := none } }

/-- DETAIL of kind 0x8: cause, direction, and the present states of the comparators. (DEDUCED, log 148.) -/
def State.swDetail (s : State) (cause : Nat) (toVbat : Bool) : Nat :=
  cause * 2 ^ 8 + toVbat.toNat * 2 ^ 7 + s.keep.batLow.toNat * 2 ^ 6 + s.keep.batCrit.toNat * 2 ^ 5

/-- VLIM, mV (R92). -/
def State.chgLimit (s : State) : Nat := if s.on kChgVlim then 3300 else 3000

/-- The charger conducts while enabled, on VMAIN, and below VLIM (R92). -/
def State.chargerCheck (s : State) : State :=
  s.wr kChgActive ((s.on kChgEn && decide (s.keep.supply = .vmain) &&
    decide (s.keep.vbat < s.chgLimit)).toNat)

/-- Entry to Shelf (R113): the oscillator stops, alarms, inputs and charger off,
KTIME_VALID and SHELF_ARMED clear, and the mirror shows it, as no tick will (R114); the hub enters M0, where TIME_SET is cleared (R41).
(DEDUCED, log 149.) -/
def State.shelve (s : State) : State :=
  let s := (List.range 4).foldl (fun s n => (s.wr (kAlmEn n) 0).wr (kKscfg n) 0) s
  let s := ((((s.wr kChgEn 0).wr kChgActive 0).wr kTimeValid 0).wr kShelfArmed 0).wr kOscRunning 0
  let s := { s with keep := { s.keep with shelf := true, oscOn := false, rawTicks := 0 } }
  (((s.freezeNow.setMode 0).mainOff).wr kTimeValid 0).mirrorNow

/-- Entry to Shelf at a switch to VBAT (R113), whose record is written at once (R87). -/
def State.enterShelf (s : State) (detail : Nat) : State := (s.writeSwRec detail).shelve

/-- VKEEP breaks from VMAIN and closes onto VBAT (R85, R87, R113). -/
def State.toVbat (s : State) (cause : Nat) : State :=
  let s := State.wr { s with keep := { s.keep with supply := .vbat, upRun := 0 } } kOnVbat 1
  let s := s.chargerCheck
  if s.on kShelfArmed then s.enterShelf (s.swDetail cause true)
  else { s with keep := { s.keep with swPend := some (s.swDetail cause true) } }

/-! ### The tick -/

/-- F and the count after a tick (R72). -/
def tickCount (count f : Nat) (trim : Int) : Nat × Nat :=
  let x := (f : Int) + trim
  if (2 : Int) ^ 42 ≤ x then ((count + 2) % 2 ^ 64, (x - 2 ^ 42).toNat)
  else if x < 0 then (count, (x + 2 ^ 42).toNat)
  else ((count + 1) % 2 ^ 64, x.toNat)

/-- The first tick's choice of supply after power-on (R769). -/
def State.supplySelect (s : State) : State :=
  if s.keep.judged then s
  else
    let sup : Supply := if 2950 < s.keep.vmain then .vmain else .vbat
    State.wr { s with keep := { s.keep with supply := sup, judged := true } } kOnVbat (decide (sup = .vbat)).toNat

/-- VMAIN stands above the threshold that R82 gives for the way back from VBAT. -/
def State.vmainGood (s : State) : Bool :=
  if s.on kSwMode then decide (s.keep.vbat + 30 < s.keep.vmain) else decide (2950 < s.keep.vmain)

/-- At a tick the keep domain sees its supplies (R82, R92). -/
def State.seeSupplies (s : State) (vmainMv vbatMv : Nat) : State :=
  let s := { s with keep := { s.keep with vmain := vmainMv, vbat := vbatMv } }
  { s with keep := { s.keep with upRun := if s.vmainGood then min 2 (s.keep.upRun + 1) else 0 } }

/-- The level at which the keep domain powers on, on VKEEP, which the higher of its sources feeds (R68, R738). -/
def keepOnMv : Nat := 1500
def keepFed (vmainMv vbatMv : Nat) : Bool := decide (keepOnMv < max vmainMv vbatMv)

/-- VKEEP has no source at the first tick after power-on (R769): a cell below the power-on level of R68 is none. (DEDUCED, log 151.) -/
def State.noSource (s : State) (vmainMv vbatMv : Nat) : Bool :=
  !s.keep.judged && decide (vmainMv ≤ 2950) && decide (vbatMv < keepOnMv)

/-- The make-up path records a tick pair while MCLK runs with lock held (R237); Hub Time stood at `was` before a SET of the edge (R40). -/
def State.tickPair (s : State) (edge was : Nat) : State :=
  if s.htm.mclk && s.htm.pll && !s.htm.frozen then
    let d : Int := s.htm.time - was
    { s with keep := { s.keep with
        pair := some { n := s.keep.count, f := s.keep.f, h := addTime edge d, set := s.on htmTimeSet, at_ := edge + d }, pair0 := s.keep.pair } }
  else s

/-- What waits for the next raw tick: a requested freeze has its edge (R238), a thaw too once the island runs on MCLK (R243), and a wake
edge its count (R256). -/
def State.tickWaits (s : State) : State :=
  { s with glb := { s.glb with freezeTick := s.glb.freezeReq.isSome && s.running, thawTick := s.htm.frozen && s.on htmIslandOnMclk }
           stp := { s.stp with wake := s.stp.wake.map fun w => { w with count := w.count.orElse fun _ => some s.keep.count } } }

/-- A keep reset (R89, R90): every KEEP register, the count, F, the FIFO and the log go to reset. -/
def State.keepReset (s : State) : State :=
  { s with
    regs := s.regs.filter fun kv => !(decide (0x010000 ≤ kv.1 / 32) && decide (kv.1 / 32 < 0x011000))
    glb := { s.glb with frz := none, freezeTick := false }
    keep := { KeepS.init with powered := false, oscOn := false, supply := .none, judged := false, vmain := s.keep.vmain,
                              vbat := s.keep.vbat, kstamp := s.keep.kstamp } }

/-- A raw keep tick (R72 and what it holds: R769, R82, R92, R87, R40, R237, R104, R106). On the edge of a requested freeze a SET stays
pending (R722); one that applies sets the edge's Hub Time, which the tick pair takes. -/
def State.keepTick (s : State) (edge : Nat) : State :=
  let c := tickCount s.keep.count s.keep.f (s.rdS kTrimTotal)
  let s := s.supplySelect.chargerCheck
  let s := { s with keep := { s.keep with count := c.1, f := c.2, rawTicks := s.keep.rawTicks + 1, oscOn := true } }
  let s := match s.keep.swPend with | some d => s.writeSwRec d | none => s
  let s := s.tickWaits
  let was := s.htm.time
  let s := if s.running && !s.glb.freezeTick then s.pendSetEdge 2 edge else s
  ((s.tickPair edge was).keepDrain).mirrorNow

/-- The keep oscillator may tick: powered and out of Shelf. A failed one ticks again (R70). -/
def State.canTick (s : State) : Bool := s.keep.powered && !s.keep.shelf

def execKeepTick (tick : KeepEdge) (s : State) : Out :=
  event (if !s.canTick then s
    else if s.noSource tick.vmainMv tick.vbatMv then s.keepReset
    else (s.seeSupplies tick.vmainMv tick.vbatMv).keepTick (ofStamp tick.edge))

/-- VKEEP rises above 1.50 V (R68): the oscillator starts; the first tick chooses the supply (R769). Without VMAIN the hub is in M1
(R228). (DESIGN CHOICE, log 27.) -/
def State.keepPowerOn (s : State) (vmainMv vbatMv : Nat) : State :=
  let s := { s with keep := { s.keep with powered := true, oscOn := true, judged := false, rawTicks := 0, vmain := vmainMv,
                                          vbat := vbatMv } }
  if s.mode = 0 then s.setMode 1 else s

def execKeepPowerOn (vmainMv vbatMv : Nat) (s : State) : Out :=
  event (if s.keep.powered || !keepFed vmainMv vbatMv then s else s.keepPowerOn vmainMv vbatMv)

def execKeepReset (s : State) : Out := event s.keepReset

/-- A sensor sample (R78, R79) with the VBAT comparators (R88): a falling crossing sets its flag and raises source 461. The hysteresis
lies above the falling threshold. (DEDUCED, log 150.) -/
def State.keepSample (s : State) (temp vbatMv : Nat) : State :=
  let low := if s.keep.batLow then decide (vbatMv < 2250) else decide (vbatMv < 2200)
  let crit := if s.keep.batCrit then decide (vbatMv < 2050) else decide (vbatMv < 2000)
  let newLow := low && !s.keep.batLow
  let newCrit := crit && !s.keep.batCrit
  let s := (s.wr kTemp temp).keepRetrim
  let s := { s with keep := { s.keep with vbat := vbatMv, batLow := low, batCrit := crit } }
  let s := if s.trm.kcal.isSome then
      { s with trm := { s.trm with kcalT := s.trm.kcalT + signedOf 12 temp, kcalN := s.trm.kcalN + 1 } } else s
  let s := if newLow then ((s.wr kVbatLow 1).latch 461).keepRec 0xA 0 s.keep.count else s
  let s := if newCrit then ((s.wr kVbatCrit 1).latch 461).keepRec 0xA 1 s.keep.count else s
  s.chargerCheck.mirrorNow

/-- Samples fall on the raw ticks whose count is a multiple of 32,768 on VMAIN, and of 1,048,576 on VBAT (R78). -/
def State.sampleTick (s : State) : Bool :=
  s.keepRuns && s.keep.rawTicks != 0 && s.keep.rawTicks % (if s.keep.supply = .vbat then 1048576 else 32768) == 0

def execKeepTempSample (temp : BitVec 12) (vbatMv : Nat) (s : State) : Out :=
  event (if s.sampleTick then s.keepSample temp.toNat vbatMv else s)

/-- A day of keep counts. -/
def keepDay : Nat := 2831155200

/-- A day of keep counts has passed (R80). (DEDUCED, log 26.) -/
def State.keepAgeDay (s : State) : State :=
  (State.keepRetrim (State.bump { s with keep := { s.keep with dayEnd := s.keep.dayEnd + keepDay } } kAgeDays)).mirrorNow

def execKeepAgeDay (s : State) : Out := event (if s.keepRuns && decide (s.keep.dayEnd ≤ s.keep.count) then s.keepAgeDay else s)

/-! ### Alarms (R95 to R99) -/

def State.almCmp (s : State) (n : Nat) : Nat := s.rd (kAlmLo n) + s.rd (kAlmHi n) * 2 ^ 32

/-- Alarm n fires: FIRED, its actions, and its reload. -/
def State.keepAlarm (s : State) (n : Nat) : State :=
  let next := (s.almCmp n + s.rd (kAlmPer n)) % 2 ^ 64
  let s := s.wr (kAlmFired n) 1
  let s := if s.rd (kAlmPer n) = 0 then s.wr (kAlmEn n) 0
    else (s.wr (kAlmLo n) (next % 2 ^ 32)).wr (kAlmHi n) (next / 2 ^ 32)
  let s := (if s.on (kAlmEvent n) then (s.latch (456 + n)).keepRec 0x9 n s.keep.count else s).mirrorNow
  if s.on (kAlmWakeHub n) then s.wake 8 else s

/-- KWAKE_N is driven low (R98). -/
def State.kwakeLow (s : State) : Bool := (List.range 4).any fun n => s.on (kAlmWakePin n) && s.on (kAlmFired n)

def execKeepAlarmFire (n : Fin 4) (s : State) : Out :=
  event (if s.keepRuns && s.on (kAlmEn n) && decide (s.almCmp n ≤ s.keep.count) then s.keepAlarm n else s)

/-! ### Keep stamps (R100 to R103) -/

/-- A recorded edge takes a FIFO place, or is dropped, counted and flagged. -/
def State.keepEdge (s : State) (n : Nat) : State :=
  if s.keep.fifo.length < 8 then
    { s with keep := { s.keep with fifo := s.keep.fifo ++ [{ input := n, count := s.keep.count, sleep := !s.running }] } }
  else
    let s := ((s.bump (kKslost n)).wr kKovf 1).latch 462
    let s := { s with keep := { s.keep with ovf := s.keep.ovf ||| 2 ^ n } }
    s.keepRec 0xB (n * 2 ^ 8 + s.rd (kKslost n)) s.keep.count

def execKstampEdge (n : Fin 4) (rising : Bool) (s : State) : Out :=
  let lv := if rising then s.keep.kstamp ||| 2 ^ n.val else s.keep.kstamp &&& (15 - 2 ^ n.val)
  let s := { s with keep := { s.keep with kstamp := lv } }
  event (if s.keepRuns && s.rd (kKscfg n) == (if rising then 1 else 2) then (s.keepEdge n).mirrorNow else s)

/-! ### The oscillator (R69, R70) -/

def execKoscFail (s : State) : Out :=
  event (if s.keepRuns then
      let s := ((s.wr kOscFail 1).wr kTimeValid 0).wr kOscRunning 0
      let s := { s with keep := { s.keep with oscOn := false, rawTicks := 0 } }
      (s.latch 463).keepRec 0xC 0 s.keep.count
    else s)

/-- 32,768 consecutive ticks have arrived (R70). -/
def execOscRunning (s : State) : Out := event (if s.keepRuns && decide (32768 ≤ s.keep.rawTicks) then s.wr kOscRunning 1 else s)

/-! ### Supply (R82 to R87) -/

/-- The condition of R82 for VBAT: VMAIN below 2.75 V, or in direct mode VBAT above VMAIN by more than 30 mV. -/
def State.vmainBad (s : State) : Bool :=
  if s.on kSwMode then decide (s.keep.vmain + 30 < s.keep.vbat) else decide (s.keep.vmain < 2750)

/-- VMAIN where the comparator of R82 has just seen it fall: no higher than the condition for VBAT allows. -/
def State.vmainFell (s : State) : State :=
  { s with keep := { s.keep with vmain := min s.keep.vmain (if s.on kSwMode then s.keep.vbat - 31 else 2749) } }

/-- The comparator of R82 sees VMAIN fall past the threshold, whether or not ticks run, and VKEEP goes to VBAT (R85). In direct mode a cell
of 30 mV or less is above no VMAIN. (DESIGN CHOICE, log 27.) -/
def execSwitchToVbat (s : State) : Out :=
  let t := s.vmainFell
  event (if s.keep.powered && s.keep.judged && decide (s.keep.supply = .vmain) && t.vmainBad then
      t.toVbat (if s.on kSwMode then 2 else 1)
    else s)

/-- Back to VMAIN on a tick edge (R86), the second at which VMAIN stands above the threshold of R82: the record holds the count of that
tick. -/
def State.toVmain (s : State) : State :=
  let s := State.wr { s with keep := { s.keep with supply := .vmain } } kOnVbat 0
  ((s.writeSwRec (s.swDetail 4 false)).chargerCheck).mirrorNow

def execSwitchToVmain (s : State) : Out :=
  event (if s.keepRuns && decide (s.keep.supply = .vbat) && decide (2 ≤ s.keep.upRun) then s.toVmain else s)

/-- The place of the oldest record not yet emitted. -/
def State.unemitted (s : State) : Option Nat :=
  ((List.range 4).map fun i => (s.keep.swNext + i) % 4).find? fun n => s.rd (kSwrecInfo n) != 0 && !s.on (kSwrecEmitted n)

/-- A switch record goes to ring 39 once, while the main domain runs (R87); source 460. -/
def execSwitchRecordEmit (s : State) : Out :=
  event (if s.running then
      match s.unemitted with
      | some n =>
        ((s.keepRec 0x8 (s.rd (kSwrecInfo n)) (s.rd (kSwrecLo n) + s.rd (kSwrecHi n) * 2 ^ 32)).wr (kSwrecEmitted n) 1).latch 460
      | none => s
    else s)

/-- The collapse order on VKEEP (R83, R228): to VBAT whatever the thresholds; a keep domain that stands on VBAT already enters Shelf with
SHELF_ARMED, and its waiting record is written first. -/
def State.collapseKeep (s : State) : State :=
  if !s.keep.powered then s
  else if s.keep.supply = .vmain then s.toVbat 3
  else if s.on kShelfArmed then
    match s.keep.swPend with | some d => s.enterShelf d | none => s.shelve
  else s

/-- The collapse order at the end of M11 (R83): VKEEP to VBAT, then M1, or M0 with SHELF_ARMED. -/
def execCollapseOrder (s : State) : Out :=
  event (if s.mode = 11 then
      let s := s.collapseKeep
      let s := { s with seq := { s.seq with pullStep := false, pullDown := false, pullFlt := false } }
      if s.keep.shelf then s.setMode 0 else s.setMode 1
    else s)

/-- VBAT reaches VLIM (R92). -/
def execChargerLimit (s : State) : Out :=
  event (State.wr { s with keep := { s.keep with vbat := max s.keep.vbat s.chgLimit } } kChgActive 0)

/-! ### The keep window (R106 to R110) -/

/-- The fields of a keep-window register, for the checks of a write. -/
def keepFlds (addr : Nat) : List Fld :=
  let o := addr - 0x010000
  let n := o / 16 % 16
  if addr = 0x010000 then [kGAtFreeze, kSwMode, kMode]
  else if addr = 0x010004 then [kKovf, kChgActive, kShelfArmed, kTrimClamped, kVbatCrit, kVbatLow, kOnVbat, kTimeValid]
  else if addr = 0x010024 then [kTrimBase]
  else if addr = 0x010028 then [kTrimG]
  else if addr = 0x01002C then [kTrimTotal]
  else if addr = 0x010030 then [kParaK, kParaT0]
  else if addr = 0x010034 then [kAgeRate]
  else if addr = 0x010038 then [kAgeDays]
  else if addr = 0x01003C then [kParaTerm]
  else if addr = 0x010040 then [kAgeTerm]
  else if addr = 0x010044 then [kTemp]
  else if addr = 0x010048 then [kCl]
  else if addr = 0x01004C then [kChgEn, kChgVlim, kChgRser]
  else if 0x100 ≤ o && o < 0x140 then
    if o % 16 = 0 then [kAlmLo n] else if o % 16 = 4 then [kAlmHi n] else if o % 16 = 8 then [kAlmPer n]
    else [kAlmFired n, kAlmWakePin n, kAlmWakeHub n, kAlmEvent n, kAlmEn n]
  else if addr = 0x010200 then [kKscfg 0, kKscfg 1, kKscfg 2, kKscfg 3]
  else if addr = 0x010204 then [kKslost 0, kKslost 1, kKslost 2, kKslost 3]
  else if 0x300 ≤ o && o < 0x340 then
    if o % 16 = 0 then [kSwrecLo n] else if o % 16 = 4 then [kSwrecHi n] else if o % 16 = 8 then [kSwrecEmitted n, kSwrecInfo n] else []
  else if 0x400 ≤ o && o < 0x440 then [kBkp ((o - 0x400) / 4)]
  else []

/-- A write from a non-secure slot changes some RWS field, as `cur` shows the present values (R766). (DEDUCED, log 11.) -/
def changesRws (cur : Fld → Nat) (w : Nat) (l : List Fld) : Bool := l.any fun f => f.ty == .rws && f.ofWord w != cur f
/-- A written value is a reserved encoding, or out of range, in some field (R8, R767). -/
def anyReserved (w : Nat) (l : List Fld) : Bool :=
  l.any fun f => (f.ty == .rw || f.ty == .rws) && f.isReserved (f.ofWord w)
def anyOutOfRange (w : Nat) (l : List Fld) : Bool :=
  l.any fun f => (f.ty == .rw || f.ty == .rws) && f.isOutOfRange (f.ofWord w)

/-- Exactly one of the bits `mask` of a command word is set (R65, R116 and their like). -/
def oneCommand (w mask : Nat) : Bool := [1, 2, 4, 8, 16, 32, 64, 128, 256].contains (w &&& mask)

/-- A write into the keep window (R8, R94, R108, R109, R116, R766): refused, or handed to the keep domain with KEEP_BUSY.
(DEDUCED, log 24.) -/
def opKeepWrite (slot : Slot) (addr w : Nat) (s : State) : Res :=
  let l := keepFlds addr
  let sec := s.secure slot.val
  if s.on kBusy then (.busy, s)
  else if addr = 0x01000C then
    if !oneCommand w 0xF then (.reservedEncoding, s)
    else if w % 2 = 1 && !sec then (.secureOnly, s)
    else (.done, State.wr { s with keep := { s.keep with win := some (addr, w) } } kBusy 1)
  else if l.all (fun f => f.ty == .ro || f.ty == .rc) then (.done, s)
  else if !sec && changesRws s.mrd w l then (.secureOnly, s)
  else if anyReserved w l then (.reservedEncoding, s)
  else if addr = 0x01004C && w.testBit 3 && w / 2 ^ 24 != 0xA5 then (.reservedEncoding, s)
  else if addr = 0x01004C && w.testBit 3 && s.mrd kSwMode == 1 then (.notInMode, s)
  else if addr = 0x010000 && w.testBit 4 && s.mrd kChgEn == 1 then (.notInMode, s)
  else (.done, State.wr { s with keep := { s.keep with win := some (addr, w) } } kBusy 1)

/-- A pending write takes effect in one field, under its type code. -/
def State.applyFld (s : State) (w : Nat) (f : Fld) : State :=
  match f.ty with
  | .rw | .rws => s.wr f (f.ofWord w)
  | .w1c => s.clrBits f (f.ofWord w)
  | .w1s => s.setBits f (f.ofWord w)
  | _ => s

def State.applyFlds (s : State) (w : Nat) : List Fld → State
  | [] => s
  | f :: t => State.applyFlds (s.applyFld w f) w t

/-- KEEP_CMD takes effect: FIFO_FLUSH, AGE_RESTART, SHELF_DISARM, SHELF_ARM (R81, R113, R114). -/
def State.keepCmd (s : State) (w : Nat) : State :=
  if w.testBit 3 then { s with keep := { s.keep with fifo := [] } }
  else if w.testBit 2 then (s.wr kAgeDays 0).keepRetrim
  else if w.testBit 1 then s.wr kShelfArmed 0
  else s.wr kShelfArmed 1

/-- The components of the keep trim (R75). -/
def trimParts : List Fld := [kMode, kTrimBase, kTrimG, kParaK, kParaT0, kAgeRate, kAgeDays]

/-- What a pending write does in the keep domain: KEEP_ALM_LO is held until KEEP_ALM_HI; a write of KEEP_TRIM_G is discarded
while G_AT_FREEZE holds it at 0 through a freeze (R271). (DEDUCED, log 25.) -/
def State.keepApply (s : State) (addr w : Nat) : State :=
  let o := addr - 0x010000
  let n := o / 16 % 16
  if addr = 0x01000C then s.keepCmd w
  else if 0x100 ≤ o && o < 0x140 && o % 16 = 0 then
    { s with keep := { s.keep with almHeld := Assoc.place n (w % 2 ^ 32) (Assoc.erase n s.keep.almHeld) } }
  else if 0x100 ≤ o && o < 0x140 && o % 16 = 4 then
    let s1 := match Assoc.find n s.keep.almHeld with | some lo => s.wr (kAlmLo n) lo | none => s
    State.wr { s1 with keep := { s1.keep with almHeld := Assoc.erase n s1.keep.almHeld } } (kAlmHi n) w
  else if addr = 0x010028 && s.htm.frozen && s.on kGAtFreeze then s
  else
    let t := s.applyFlds w (keepFlds addr)
    (if trimParts.any fun f => t.rd f != s.rd f then t.keepRetrim else t).chargerCheck

/-- The pending write takes effect, the mirror shows it, and KEEP_BUSY clears (R108, R110). -/
def State.keepFlush (s : State) : State :=
  match s.keep.win with
  | some (addr, w) =>
    let s := s.keepApply addr w
    (State.wr { s with keep := { s.keep with win := none } } kBusy 0).mirrorNow
  | none => s

/-- It completes in M0 too, where no tick comes. (DEDUCED, log 203.) -/
def execKeepWriteApply (s : State) : Out := event s.keepFlush

/-- The address of a keep-window register that can be written. -/
def inKeepWindow (addr : Nat) : Bool := addr % 4 = 0 && (addr = 0x01000C || !(keepFlds addr).isEmpty ||
  (0x010010 ≤ addr && addr ≤ 0x010020))

def execKeepWindowWrite (slot : Slot) (addr : Addr) (v : Word) (s : State) : Out :=
  hostReg slot s fun s => if inKeepWindow addr.toNat then opKeepWrite slot addr.toNat v.toNat s else (.noSuchAddress, s)
def execKeepChgWrite (slot : Slot) (v : Word) (s : State) : Out := host slot s (opKeepWrite slot 0x01004C v.toNat)
def execKeepAlmHiWrite (slot : Slot) (n : Fin 4) (v : Word) (s : State) : Out :=
  host slot s (opKeepWrite slot (0x010104 + n * 16) v.toNat)
def execFifoFlush (slot : Slot) (s : State) : Out := host slot s (opKeepWrite slot 0x01000C 8)
def execAgeRestart (slot : Slot) (s : State) : Out := host slot s (opKeepWrite slot 0x01000C 4)
def execShelfArm (slot : Slot) (s : State) : Out := host slot s (opKeepWrite slot 0x01000C 1)
def execShelfDisarm (slot : Slot) (s : State) : Out := host slot s (opKeepWrite slot 0x01000C 2)

end Sys2Proof.Machine
end

