-- ==== Sys2Proof/Machine/Seq.lean ====
section
/-! DEFINITION. The sequencer's commands and events (spec/03): rails judged, stages, lines, button, input collapse, groups, gates
and the plan. -/

namespace Sys2Proof.Machine

open F

/-! ### Rails -/

/-- A rail is flagged in a W1C mask. -/
def State.flagRail (s : State) (f : Fld) (n : Nat) : State := s.setBits f (2 ^ n)

/-- RAMP_TO expires on a ramping rail (R126): NOT_UP, source 248, the enable stays; Mortar RAIL_TIMEOUT (R209). -/
def execRailNotUp (n : Fin 24) (s : State) : Out :=
  event (if s.railState n = 2 then
      let s := ((s.wr (qState n) 4).flagRail qNotUp n).latch 248
      (s.mortar 5 0xFF (2 ^ 10) [2 ^ n.val, s.rd qUpMask]).settle
    else s)

/-- SHORT_T expires with no reading at SHORT_PCT (R127 to R129). -/
def execRailShort (short : RailShort) (s : State) : Out :=
  let n := short.n
  event (if s.railState n = 2 && !s.seq.shortSeen.testBit n then
      if s.qon (qAbortShort n) then s.allOff 3 n false short.beyond.toNat
      else
        let s := (s.disableRail n).flagRail qShort n
        let s := { s with seq := { s.seq with shortHold := s.seq.shortHold ||| 2 ^ n.val } }
        let s := s.latch 249
        (s.mortar 4 0xFF (2 ^ 9) [2 ^ n.val, s.rd qUpMask]).settle
    else if s.seq.offNow != 0 && s.seq.offRamp.testBit n && !s.seq.shortSeen.testBit n && s.qon (qAbortShort n) then
      s.allOff 3 n false short.beyond.toNat
    else s)

/-- DOWN_TO expires on a discharging rail (R131): NOT_DOWN, source 248, treated as down. -/
def execRailNotDown (n : Fin 24) (s : State) : Out :=
  event (if s.railState n = 6 then
      let s := ((s.railIsDown n).flagRail qNotDown n).latch 248
      (s.mortar 5 0xFF (2 ^ 11) [2 ^ n.val, s.rd qUpMask]).settle
    else s)

/-- MIN_OFF runs out (R132). -/
def execMinOffEnd (n : Fin 24) (s : State) : Out :=
  event (if s.railState n = 7 then (s.wr (qState n) (if s.seq.shortHold.testBit n then 5 else 0)).settle else s)

/-- A running rail crosses a fault level, or loses PG with PG_MODE 2 (R123): all-off, cause RAIL_FAULT. -/
def execRailFault (n : Fin 24) (ov : Bool) (beyond : BitVec 24) (s : State) : Out :=
  event (if (s.railState n = 3 || s.seq.offNow != 0 && s.seq.offUp.testBit n) && s.canAllOff then s.allOff 1 n ov beyond.toNat else s)

/-! ### Stages -/

/-- The stage after one that ends (R143): none is a rest. `down` is the stage's direction, `low` SEQDOWN_N. -/
def nextStage (down : Bool) (k : Nat) (low : Bool) : Option (Bool × Nat) :=
  match down, low with
  | false, false => if k < 15 then some (false, k + 1) else none
  | false, true => some (true, k)
  | true, false => some (false, k)
  | true, true => if 0 < k then some (true, k - 1) else none

/-- M8 ends where the direction turns up and on-rest is reached (R228): the mode it was entered from, M5 returning as M6. Every entry to
M6 is one of R299. (DEDUCED, log 43.) -/
def State.leaveM8 (s : State) : State :=
  if s.mode = 8 then
    if s.glb.m8From = 5 then (s.holdBegin false).setMode 6
    else if s.glb.m8From = 6 then (s.holdEntry false).setMode 6
    else s.setMode s.glb.m8From
  else s

/-- On-rest is reached; source 240. -/
def State.onRest (s : State) : State :=
  let s := ((s.wr qKind 2).wr qDir 0).wr qStep 15
  (State.latch { s with seq := { s.seq with next := none, want := 0, drop := 0 } } 240).leaveM8

/-- The slots that are served and may write registers, the secure ones, and the slot of each port. -/
def State.servedSlots (s : State) : Nat := maskOf (fun k => s.serves k && (k == 16 || s.rd (hReach k) == 0)) (List.range 17)
def State.portSlots (s : State) : List (Nat × Nat) :=
  (List.range 15).filterMap fun k => if s.on (hEn k) then (s.portOf k).map fun p => (p, k) else none
def State.secureSlots (s : State) : Nat := maskOf s.secure (List.range 17)

/-- A recognised rise of SEQSTEP ends the stage (R143, R150, R770); DOWN or UP in the cycle of the rise into a rest comes late (R152). -/
def State.stepRise (s : State) (high : Bool) : State :=
  let down := s.on qDir
  let low := !high || s.seq.pullDown
  let s := (s.wr qLineStep 1).wr qLineDown low.toNat
  match nextStage down (s.rd qStep) low with
  | some (d, k) =>
    let s := { s with seq := { s.seq with next := some (d, k) } }
    if d != down then s.latch 245 else s
  | none =>
    let s := { s with ended := (if down then [Ended.riseDown, .lost s.servedSlots s.secureSlots s.portSlots] else [.riseUp]) ++ s.ended }
    if down then State.offRest { s with seq := { s.seq with retries := 0 } } else s.onRest

/-- The set waits for the rise that ends this member's stage. -/
def State.waitsRise (s : State) : Bool := s.rd qKind == 1 && !s.seq.pullStep && s.seq.next.isNone

/-- A DOWN or UP command. -/
def Ended.isTurn : Ended → Bool
  | .turn .. => true
  | _ => false

/-- The DOWN and UP commands of the present cycle, the newest first, with the lines and requests each found and its reply. -/
def State.turns (s : State) : List (Slot × (List DownReq × Bool × Bool) × Option (Nat × Nat)) :=
  (withReply s.ended).filterMap fun x => match x.1 with | .turn k d ps pd => some (k, (d, ps, pd), x.2) | _ => none

/-- The state without the DOWN and UP commands of the present cycle, each of which has lost: ALREADY_DONE (R152). -/
def State.unturned (s : State) : State :=
  match s.turns.getLast? with
  | some (_, (d, ps, pd), _) =>
    s.turns.foldr (fun x t => t.lateCode x.1 .alreadyDone x.2.2)
      { s with seq := { s.seq with down := d, pullStep := ps, pullDown := pd }, ended := unended Ended.isTurn s.ended }
  | none => s

/-- A rise with SEQDOWN_N as this member and the others leave it leads to a rest. -/
def State.restNext (s : State) (high : Bool) : Bool := s.waitsRise && (nextStage (s.on qDir) (s.rd qStep) (!high || s.seq.pullDown)).isNone

/-- SEQSTEP rises: into a rest, with DOWN and UP of the same cycle undone (R152), or into the next stage. -/
def execSeqstepRise (downHigh : Bool) (s : State) : Out :=
  event (if s.unturned.restNext downHigh then s.unturned.stepRise downHigh else if s.waitsRise then s.stepRise downHigh else s)

/-- The rails a rising stage raises: those whose group is in GRP_AUTO or demanded (R137). (DEDUCED, log 155.) -/
def State.stageRails (s : State) (k : Nat) : Nat :=
  maskOf (fun n => (s.stepRails k).testBit n && ((s.q qGrpAuto).testBit (s.railGroup n) || s.seq.demands.testBit (s.railGroup n))) rails

/-- The mode change a stage start brings (R228, R233): every stage start wakes out of M7, and a first down stage enters M8, after the
thaw where it wakes; an up stage out of off-rest enters M3, as does one after the freeze of a falling set, with the Steward in reset (R227).
An up stage in M7 thaws to the mode M7 came from. (DEDUCED, log 183.) -/
def State.stageMode (s : State) (down : Bool) : State :=
  if s.mode = 7 then
    State.wake (if down then
      { s with glb := { s.glb with m8From := if s.rd glbPrev = 5 then 5 else s.glb.back, back := 8 } } else s) 12
  else if down then
    if s.mode = 3 || s.mode = 4 || s.mode = 5 || s.mode = 6 || s.mode = 10 then
      State.setMode { s with glb := { s.glb with m8From := if s.mode = 3 then s.glb.back else s.mode } } 8
    else s
  else if s.mode = 2 then (((s.setBits glbWakeCause (2 ^ 12)).wr glbWakeHeld 0).setMode 3).fromM2
  else if s.mode = 8 && s.htm.frozen then
    (State.setMode { s with glb := { s.glb with back := if s.glb.m8From = 5 then 6 else s.glb.m8From } } 3).wr glbStewardReady 0
  else s

/-- A stage starts (R144, R145): SEQSTEP low, SEQDOWN_N as requested (R148), its rails to raise or lower; source 242. -/
def State.stageStart (s : State) (down : Bool) (k : Nat) : State :=
  let s := s.stageMode down
  let s := { s with seq := { s.seq with
    next := none, pullStep := true, pullDown := !s.seq.down.isEmpty, freed := false, want := if down then 0 else s.stageRails k,
    drop := if down then s.stepRails k else 0, emptyUp := 0 } }
  let s := (((s.wr qKind 1).wr qDir down.toNat).wr qStep k).wr qLineStep 0
  (s.latch 242).settle

def execStageStart (s : State) : Out :=
  event (match s.seq.next with
    | some (d, k) => if s.seq.joined && s.seq.op.isNone then s.stageStart d k else s
    | none => s)

/-- The stage's rails are done (R147). -/
def State.stageRailsDone (s : State) : Bool :=
  rails.all fun n => (!s.seq.want.testBit n || s.railGood n) && (!s.seq.drop.testBit n || s.railDown n)

/-- The highest step that holds a HUB_OWN rail (R176), plus 1. -/
def State.ownStep (s : State) : Nat :=
  rails.foldl (fun m n => if s.railUsed n && s.qon (qHubOwn n) then max m (s.railStep n + 1) else m) 0

/-- The step waits for a host (R175, R176): rising, gated by MODE or GATE, above the hub's own rails, no holdup, and not yet released. -/
def State.gated (s : State) : Bool :=
  !s.on qDir && (s.qon qMode || s.qon (qGate (s.rd qStep))) && decide (s.ownStep ≤ s.rd qStep) && !s.seq.holdup && !s.seq.freed

/-- The hub releases SEQSTEP. -/
def State.releaseStep (s : State) : State :=
  State.wr { s with seq := { s.seq with pullStep := false, freed := true } } qGateWait 0

def execStageDone (s : State) : Out :=
  event (if s.rd qKind == 1 && s.seq.pullStep && !s.on qGateWait && s.stageRailsDone && !s.thawFirst then
      if s.gated then (s.wr qGateWait 1).latch 243 else s.releaseStep
    else s)

/-- At a rest, a recognised change of SEQDOWN_N (R145); during a group operation it stops the operation (R172). -/
def execSeqdownChange (high : Bool) (s : State) : Out :=
  let s := s.wr qLineDown (!high).toNat
  event (if !s.seq.joined || s.seq.next.isSome || s.mode == 9 then s
    else if high && s.rd qKind == 0 then { s with seq := { s.seq with next := some (false, 0) } }
    else if !high && s.rd qKind == 2 then { s with seq := { s.seq with next := some (true, 15) } }
    else if !high && s.rd qKind == 3 then
      match s.seq.op with
      | some o =>
        State.settle { s with seq := { s.seq with
          op := some { o with stop := true }
          want := maskOf (fun n => s.seq.want.testBit n && s.railState n == 2) rails
          drop := maskOf (fun n => s.seq.drop.testBit n && s.railState n == 6) rails } }
      | none => s
    else s)

/-! ### Remote all-off and joining -/

def execRemoteAllOff (beyond : BitVec 24) (s : State) : Out :=
  event (if s.canRemoteOff then s.allOff 2 0x1F false beyond.toNat else s.wr qLineFlt 1)

/-- SEQFLT_N has been high for 1 ms (R159). -/
def execRemoteAllOffEnd (s : State) : Out :=
  event (if s.mode = 9 && !s.seq.own && !s.seq.mrLow then (s.wr qLineFlt 0).offRest else s.wr qLineFlt 0)

/-- The end of the 20 µs watch, and a later off-rest that a member outside the set observes (R149): off-rest seen, all lines high, or
anything else. (DEDUCED, log 32.) -/
def execLineWatchEnd (saw : LineView) (s : State) : Out :=
  event (if s.mode = 2 && !s.seq.joined then
      match saw with
      | .offRest => { s with seq := { s.seq with joined := true, pullDown := s.qon qMaster } }
      | .allHigh => if s.qon qMaster then { s with seq := { s.seq with joined := true, pullDown := true } } else s
      | .other => s
    else s)

/-! ### Button, manual reset, retry, start -/

/-- M9 ends (R158): off-rest. -/
def State.leaveM9 (s : State) : State := (s.wr qLineFlt 0).offRest

def execPbShort (s : State) : Out :=
  let s := s.latch 253
  event (if s.mode = 9 then (if s.seq.mrLow then s else s.leaveM9)
    else if s.mode = 7 then (s.wake 10).requestDown .host
    else if s.rd qKind == 0 then (if s.mode = 2 then s.wake 10 else s.startSet 10)
    else s.requestDown .host)

def execPbLong (beyond : BitVec 24) (s : State) : Out :=
  event (if s.canAllOff then s.allOff 4 0x1F false beyond.toNat else s)

def execMrAssert (beyond : BitVec 24) (s : State) : Out :=
  let s := { s with seq := { s.seq with mrLow := true } }
  event (if s.canAllOff then s.allOff 5 0x1F false beyond.toNat else s)

def execMrRelease (s : State) : Out :=
  let s := { s with seq := { s.seq with mrLow := false } }
  event (if s.mode = 9 then s.leaveM9 else s)

/-- The automatic retry (R160): after RAIL_FAULT, SHORT_ABORT or INPUT_FAULT, at most RETRY times. -/
def execFaultRetry (s : State) : Out :=
  let c := s.rd qOffCause
  event (if s.mode = 9 && !s.seq.mrLow && s.seq.own && (c == 1 || c == 3 || c == 7) && decide (s.seq.retries < s.q qRetry) then
      State.leaveM9 { s with seq := { s.seq with retries := s.seq.retries + 1 } }
    else s)

/-- (DEDUCED, log 29.) -/
def execAutoStart (s : State) : Out := event (if s.qon qAutoStart then s.startSet 13 else s)

/-! ### Input (R163 to R165) -/

/-- The set has been started: it is not at off-rest, or it waits for up 0. -/
def State.setStarted (s : State) : Bool := s.rd qKind != 0 || s.seq.next.isSome || s.mode == 3 && !s.seq.pullDown

/-- The holdup down (R163): its Mortar entry, the request for the down direction, and no host gate, a waiting one included. -/
def State.holdupDown (s : State) : State :=
  let s := s.mortar 3 0xFF (2 ^ 8) [0, s.rd qUpMask]
  let s := State.requestDown { s with seq := { s.seq with holdup := true } } .holdup
  if s.on qGateWait then s.releaseStep else s

/-- VINSNS below VIN_WARN (R163), which 0 disables: source 252, and with HOLDUP_EN the holdup down, also of a set that has been started
and waits for up 0. -/
def execVinWarn (s : State) : Out :=
  event (if s.q qVinWarn = 0 then s
    else
      let s := (State.latch { s with seq := { s.seq with vinLow := true } } 252).cause (2 ^ 8)
      if s.qon qHoldupEn && !s.seq.holdup && s.setStarted && s.mode != 9 then s.holdupDown else s)

def execVinRecover (s : State) : Out := event { s with seq := { s.seq with vinLow := false } }

/-- VINSNS below VIN_FAULT (R164), which 0 disables. -/
def execVinFault (beyond : BitVec 24) (s : State) : Out :=
  event (if s.canAllOff && s.q qVinFault != 0 then s.allOff 7 0x1F false beyond.toNat else s)

/-- A write abandoned part-way (R213): before step 1 completes the slot stays as it was and the SEQ is spent; later it leaves a torn entry
of W30 := 0 and the first `k` words. A CLEAR broken off has zeroed some slots. (DESIGN CHOICE, log 33.) -/
def State.tearEntry (s : State) (k : Nat) : State :=
  let s := if s.mon.clearing then { s with mon := { s.mon with log := s.mon.log.filter fun kv => k / 32 % 2049 * 32 ≤ kv.1 } } else s
  match s.mon.writing.filter fun e => !e.waits with
  | none => s
  | some e =>
    if k % 31 = 0 then { s with mon := { s.mon with burnt := true } }
    else
      let base := s.mon.head * 32
      let s := s.setLogWord (base + 30) 0
      ((s.mon.seq :: e.words).zipIdx.take (k % 31)).foldl (fun s wi => s.setLogWord (base + wi.2) wi.1) s

/-- VMAIN's brown-out level (R165, R738), in mV. -/
def brownOutMv : Nat := 2900

/-- Brown-out (R165): every enable and discharge released, a Mortar write abandoned (how far it stood is not stated), COLLAPSE
recorded, SEQFLT_N low, unplanned freeze, M11. -/
def State.brownOut (s : State) : State :=
  let s := { s with keep := { s.keep with vmain := min s.keep.vmain (brownOutMv - 1) } }
  let s := s.unnapped.lastOff 8 0x1F false
  let (k, s) := s.draw
  let s := s.tearEntry k
  let s := { s with mon := { s.mon with queue := [], writing := none, scanWait := false, clearing := false, warnRun := [] } }
  let s := rails.foldl (fun s n => s.wr (qState n) 0) s
  let s := { s with seq := { SeqS.init with pullDown := false, pullFlt := true, own := true, mrLow := s.seq.mrLow } }
  let s := ((((s.wr qGrpUp 0).wr qDegraded 0).wr qUpMask 0).wr qRising 0).wr qGateWait 0
  let s := ((s.wr qKind 0).wr qDir 1).wr qStep 0
  ((s.freezeNow.setMode 11).mainOff).scanCheck

def execBrownOut (s : State) : Out := event (if 2 ≤ s.mode ∧ s.mode ≤ 10 then s.brownOut else s)

/-! ### Groups -/

/-- A group command's slot: secure, or bound to the group (R166, R771). (DEDUCED, log 38.) -/
def State.groupSlot (s : State) (slot g : Nat) : Bool :=
  s.secure slot || (decide (slot < 16) && s.on (hGrpEn slot) && s.rd (hGroup slot) == g)

/-- (DEDUCED, log 34; DEDUCED, log 35.) -/
def opGroupUp (slot : Slot) (g : Nat) (s : State) : Res :=
  if s.groupSlot slot.val g then (.done, s.demand g) else (.secureOnly, s)

/-- The rails GROUP_DOWN lowers: the group's, but for those another up group, or a group of GRP_AUTO, still needs (R171). -/
def State.groupDrop (s : State) (g : Nat) : Nat :=
  let need := (List.range 8).foldl (fun m h =>
    if h != g && s.bit qGrpUp h || (s.q qGrpAuto).testBit h then m ||| s.closure (s.groupRails h) 24 else m) 0
  maskOf (fun n => (s.groupRails g).testBit n && !need.testBit n) rails

/-- GROUP_DOWN (R171, R771): BUSY but at on-rest, or against a demand for the group; NOT_IN_MODE with a HUB_OWN rail. -/
def opGroupDown (slot : Slot) (g : Nat) (s : State) : Res :=
  if !s.groupSlot slot.val g then (.secureOnly, s)
  else if s.rd qKind != 2 || s.seq.next.isSome || s.seq.demands.testBit g then (.busy, s)
  else if rails.any fun n => (s.groupRails g).testBit n && s.qon (qHubOwn n) then (.notInMode, s)
  else
    let s1 := { s with seq := { s.seq with op := some { group := g, up := false, stop := false }, drop := s.groupDrop g, want := 0 } }
    (.done, (s1.wr qKind 3).settle)

def execGroupUp (slot : Slot) (g : Fin 8) (s : State) : Out := host slot s (opGroupUp slot g.val)
def execGroupDown (slot : Slot) (g : Fin 8) (s : State) : Out := host slot s (opGroupDown slot g.val)

/-- WAKEINk_N low for 1 ms (R174). -/
def execWakein (k : Fin 4) (s : State) : Out :=
  event (if s.qon (qWakeEn k) then (s.wake 9).demand (s.q (qWakeGroup k)) else s)

/-- At on-rest a waiting demand is served (R167): the group's rails and their closure rise. In M7 the pads are kept, and it waits (R242). -/
def State.serveDemand (s : State) (g : Nat) : State :=
  let s := { s with seq := { s.seq with demands := s.seq.demands &&& (255 - 2 ^ g) } }
  if s.bit qGrpUp g then s
  else
    let s := { s with seq := { s.seq with
      op := some { group := g, up := true, stop := false }
      want := s.closure (s.groupRails g) 24, drop := 0 } }
    ((s.wr qKind 3).wr qRising (2 ^ g)).settle

def execGroupDemandServe (g : Fin 8) (s : State) : Out :=
  event (if s.mode != 7 && s.rd qKind == 2 && s.seq.next.isNone && s.seq.demands.testBit g then s.serveDemand g else s)

/-- DELAY after its group is up, HRSTk_N is released, and the slots it held are woken (R170, R173). In M7 the pad is kept (R242). -/
def execHrstRelease (k : Fin 4) (s : State) : Out :=
  event (if s.qon (qHrstEn k) && s.groupUpNow (s.q (qHrstGroup k)) && s.mode != 9 && s.mode != 7 then
      State.wakeGroup { s with seq := { s.seq with hrstLow := s.seq.hrstLow &&& (15 - 2 ^ k.val) } } (s.q (qHrstGroup k))
    else s)

/-- WAKE_HOLD passes with no frame from the slot (R560): the output releases; source 441. In M7, where Hub Time stands, WAKE_HOLD does not
run and the pad is kept (R242, R726). -/
def execWakeOutputTimeout (k : Fin 16) (s : State) : Out :=
  event (if s.mode != 7 && s.on (hWaking k) then (s.wr (hWaking k) 0).hostEvt 1 else s)

/-! ### Gates and the plan -/

/-- The slots that RELEASE accepts: secure, or the plan lease holder (R177, R771). -/
def opRelease (slot : Slot) (stage : Nat) (s : State) : Res :=
  if !s.secure slot.val && s.owner idPlan != slot.val then (.secureOnly, s)
  else if s.on qGateWait && s.rd qStep == stage then (.done, (s.touch slot.val idPlan).releaseStep)
  else (.notInMode, s.touch slot.val idPlan)

def execRelease (slot : Slot) (stage : Fin 16) (s : State) : Out := host slot s (opRelease slot stage.val)

/-- GATE_TO passes (R178): SEQDOWN_N low, the gate released, source 244. -/
def execGateTimeout (s : State) : Out :=
  event (if s.on qGateWait && s.q qGateTo != 0 then ((s.requestDown .gate).releaseStep).latch 244 else s)

/-- Access to the staged plan (R180): SECURE_ONLY, then OWNED_ELSEWHERE or LEASE_LOST. A refused access of the owner renews the lease too
(R586). -/
def planAccess (slot : Slot) (s : State) (k : State → Res) : Res :=
  if !s.secure slot.val then (.secureOnly, s.touch slot.val idPlan) else leased slot idPlan s k

/-- Rails whose dependencies are all among `ok`, added; after 24 rounds every rail outside a cycle is in (R136). -/
def acyclicFrom (dep : Nat → Nat) (ok : Nat) : Nat → Nat
  | 0 => ok
  | fuel + 1 => acyclicFrom dep (ok ||| maskOf (fun n => rails.all fun m => !(dep n).testBit m || ok.testBit m) rails) fuel

/-- The checks of a commit on the staged plan (R136), of every rail, used or not. -/
def State.planBad (s : State) : Bool :=
  let used := fun n => s.rd (qRailStep n) != 0x1F
  (rails.any fun n => (
      rails.any (fun m => (s.rd (qDep n)).testBit m && (!used m || decide (s.rd (qRailStep n) < s.rd (qRailStep m)) || m == n)) ||
      decide (s.rd (qRampTo n) * 10 ≤ s.rd (qShortT n)) ||
      (s.on (qHubOwn n) && !(s.rd qGrpAuto).testBit (s.rd (qGroup n))))) ||
    acyclicFrom (fun n => s.rd (qDep n)) 0 24 != 2 ^ 24 - 1

/-- The enabled rails keep their step, group and dependencies (R182). -/
def State.keepRails (s : State) : State :=
  { s with seq := { s.seq with kept := (rails.filter s.railOn).map fun n => (n, s.railNow n) } }

/-- COMMIT (R136, R181, R182): at a rest only; the staged plan becomes active; source 254. A host reset that the plan releases may leave
the slots of its group to be woken (R170). -/
def opCommit (slot : Slot) (s : State) : Res :=
  planAccess slot s fun s =>
    if !(s.rd qKind == 0 || s.rd qKind == 2) || s.seq.next.isSome then (.busy, s)
    else if s.planBad then (.outOfRange, s)
    else (.done, (List.range 8).foldl State.wakeGroup ((s.keepRails.copyTo qa planFlds).latch 254).refresh)

/-- DISCARD (R183): the active plan over the staged one; source 255 and LEASE_BROKEN. -/
def opPlanDiscard (slot : Slot) (s : State) : Res :=
  planAccess slot s fun s => (.done, (s.rollback idPlan).leaseBroken)

def execCommit (slot : Slot) (s : State) : Out := hostOwned slot idPlan s (opCommit slot)
def execPlanDiscard (slot : Slot) (s : State) : Out := hostOwned slot idPlan s (opPlanDiscard slot)

def opForceOff (slot : Slot) (beyond : Nat) (s : State) : Res :=
  secureOnly slot s <| if s.canAllOff then (.done, s.allOff 6 0x1F false beyond) else (.notInMode, s)

def execForceOff (slot : Slot) (beyond : BitVec 24) (s : State) : Out := host slot s (opForceOff slot beyond.toNat)

/-- A DOWN or UP changed the lines while the set waits for the rise that may end up 15 or down 0: the rise of its cycle overtakes it
(R152). -/
def State.turned (t s : State) (slot : Slot) : State :=
  if s.waitsRise && s.rd qStep == (if s.on qDir then 0 else 15) || !s.turns.isEmpty then
    { t with ended := .turn slot s.seq.down s.seq.pullStep s.seq.pullDown :: t.ended }
  else t

/-- UP (R152, R772). -/
def opUp (slot : Slot) (s : State) : Res :=
  secureOnly slot s <|
  if s.mode = 9 then (.notInMode, s)
  else if s.ended.contains .riseDown then (.alreadyDone, s)
  else if s.rd qKind == 0 then
    if s.qon qMaster then (.done, s.startSet 14) else (.notInMode, s)
  else if s.rd qKind == 1 && s.on qDir && s.seq.down.contains .host then
    let down := s.seq.down.filter (· != .host)
    let was := s
    let s := { s with seq := { s.seq with down := down } }
    (.done, (if down.isEmpty then s.driveDown false else s).turned was slot)
  else (.alreadyDone, s)

/-- DOWN (R152, R772). -/
def opDown (slot : Slot) (s : State) : Res :=
  secureOnly slot s <|
  if s.mode = 9 then (.notInMode, s)
  else if s.ended.contains .riseUp then (.alreadyDone, s)
  else if (s.rd qKind == 1 && !s.on qDir) || s.rd qKind == 2 || s.rd qKind == 3 then
    if s.on kOscRunning then (.done, (s.requestDown .host).turned s slot) else (.notInMode, s)
  else (.alreadyDone, s)

/-- What UP answers in the cycle of a rise into off-rest that took the main domain down (R152). -/
def State.lateUp (s : State) (slot : Nat) : Option Code :=
  s.ended.findSome? fun e => match e with
    | .lost served sec _ => if served.testBit slot then some (if sec.testBit slot then .alreadyDone else .secureOnly) else none
    | _ => none

/-- UP as a register write: it alone in SEQ_CMD (R185). -/
def isUp (addr v : Nat) : Bool := addr == 0x090008 && v % 2 ^ 8 == 1

/-- What a frame that writes UP on a port answers in that cycle. -/
def State.lateFrame (s : State) (p addr : Nat) (ws : List Nat) : Option Code :=
  if s.asleep && ws.length == 1 && isUp addr (ws.headD 0) then
    s.ended.findSome? fun e => match e with
      | .lost _ _ ports => (Assoc.find p ports).bind s.lateUp
      | _ => none
  else none

/-- A command of a slot that the mode turns away, but that comes late (R152): its answer. -/
def late (slot : Slot) (s : State) (c : Option Code) (o : Out) : Out :=
  match s.serves slot.val, c with
  | false, some c => event (s.say c)
  | _, _ => o

/-- (DEDUCED, log 176.) -/
def execUp (slot : Slot) (s : State) : Out := late slot s (s.lateUp slot.val) (host slot s (opUp slot))
def execDown (slot : Slot) (s : State) : Out := host slot s (opDown slot)

/-- SEQSTEP stays low 1 s after this member released it (the events of spec/03). -/
def execSeqLineStall (s : State) : Out :=
  event (if s.rd qKind == 1 && !s.seq.pullStep && !s.on qLineStep then s.latch 246 else s)

end Sys2Proof.Machine
end

