-- ==== Sys2Proof/Machine/Mon.lean ====
section
/-! DEFINITION. The monitor scan and the Mortar log's commands and events (spec/04). -/

namespace Sys2Proof.Machine

open F

/-- A reading at the percentage of the rail's target. -/
def State.atPct (s : State) (n code : Nat) (pct : Fld) : Bool := decide (s.q (qTarget n) * s.q pct ≤ code * 100)

/-- The warn judgement of a running rail (R125, R198). (DEDUCED, log 40.) -/
def State.warnJudge (s : State) (n code : Nat) : State :=
  if code < s.q (qUvWarn n) || s.q (qOvWarn n) < code then
    let run := Assoc.get 0 n s.mon.warnRun + 1
    let s := { s with mon := { s.mon with warnRun := Assoc.put 0 n (min run 15) s.mon.warnRun } }
    if s.rd mWarnN ≤ run && !s.bit qWarn n then
      (s.flagRail qWarn n).mortar 6 0xFF (2 ^ 12) [2 ^ n, s.rd qUpMask]
    else s
  else { s with mon := { s.mon with warnRun := Assoc.erase n s.mon.warnRun } }

/-- A scan reading judges its rail (R121, R126, R127, R131, R198). -/
def State.judgeRail (s : State) (n code : Nat) (pg : Bool) : State :=
  let bit := 2 ^ n
  let s := { s with seq := { s.seq with pgLow := if pg then s.seq.pgLow &&& (2 ^ 24 - 1 - bit) else s.seq.pgLow ||| bit } }
  let st := s.railState n
  if st = 2 || st = 4 then
    let s := if s.atPct n code (qShortPct n) then { s with seq := { s.seq with shortSeen := s.seq.shortSeen ||| bit } } else s
    if s.atPct n code (qUpPct n) && (s.q (qPgMode n) == 0 || pg) then (s.wr (qState n) 3).settle else s
  else if st = 6 then
    if code * 100 < s.q (qTarget n) * s.q (qDisPct n) then (s.railIsDown n).settle else s
  else if st = 3 then s.warnJudge n code
  else s

/-- A reading and its VALID bit (R190). -/
def State.reading (s : State) (k v : Nat) : State := (s.wr (mRead k) v).wr (mReadValid k) 1

/-- Slot 28, the remote diode (R195, R266): a reading at every second conversion, and 0x800 until the first of a run. -/
def State.xtemp (s : State) (code : Nat) : State :=
  if !s.on mXtEn then
    (State.reading { s with mon := { s.mon with xtSecond := false, xtRead := false, xtBad := false }
                            trm := { s.trm with xT := [], xGood := 0 } } 28 0x800)
  else if !s.mon.xtSecond then
    let s := { s with mon := { s.mon with xtSecond := true } }
    if s.mon.xtRead then s else State.reading { s with trm := { s.trm with xT := [], xGood := 0 } } 28 0x800
  else
    let bad := code == 0x800
    let first := bad && !s.mon.xtBad
    let s := State.reading { s with mon := { s.mon with xtSecond := false, xtRead := true, xtBad := bad } } 28 code
    let s := if first then s.monEvt 7 else s
    { s with trm := { s.trm with xT := if bad then [] else (signedOf 12 code :: s.trm.xT).take 16
                                 xGood := if bad then 0 else min 16 (s.trm.xGood + 1) } }

/-- XT_EN set by a write starts the currents with 10 µA and the judgement of faults afresh (R195), with slot 28 of a scan in progress too.
(DEDUCED, log 204.) -/
def State.xtStart (s : State) (was : Bool) : State :=
  if !was && s.on mXtEn then { s with mon := { s.mon with xtSecond := false, xtRead := false, xtBad := false } } else s

/-- 29 readings packed as 12-bit fields into 11 words (R201). -/
def packScan (l : List Nat) : List Nat :=
  let n := l.zipIdx.foldl (fun a vk => a + vk.1 % 4096 * 2 ^ (12 * vk.2)) 0
  (List.range 11).map fun i => n / 2 ^ (32 * i) % 2 ^ 32

/-- A scan record of the scan that ends (R199, R201). -/
def State.scanRec (s : State) (kind : Nat) : State :=
  let (seq, s) := s.nextSeq 40
  s.give 40 ([kind * 2 ^ 28 + s.rd mAdcUncal * 2 ^ 27 + s.mon.xtBad.toNat * 2 ^ 26 + seq] ++ time96 s.mon.start (s.qual false) ++
    packScan ((List.range 29).map fun k => s.rd (mRead k)) ++ [s.rd mScanCnt])

/-- The end of slot 28 (R190, R199, R200): the scan is complete, and entries that waited for one have their readings (R189).
(DESIGN CHOICE, log 181.) -/
def State.scanEnd (s : State) : State :=
  let s := s.wr mScanCnt (s.rd mScanCnt + 1)
  let div := s.mon.divCnt + 1
  let periodic := s.rd mScanDiv != 0 && decide (s.rd mScanDiv ≤ div)
  let asked := s.mon.scanArm
  let s := { s with mon := { s.mon with
    divCnt := if periodic then 0 else div, scanned := true, next0 := some s.htm.time
    queue := s.mon.queue.map (LogEnt.read s), writing := s.mon.writing.map (LogEnt.read s) } }
  let s := if periodic && s.running then s.scanRec 1 else s
  if asked then
    let s := if s.running then s.scanRec 2 else s
    { s with mon := { s.mon with scanReq := false, scanArm := false } }
  else s

/-- Hub Time at the start of slot 0 (R187, R201): the end of the conversion before it, or 1 µs before its own. (DEDUCED, log 159.) -/
def State.slot0Start (s : State) : Nat := s.mon.next0.getD (s.htm.time - if s.running then 250 * s.htm.incr else 0)

/-- One conversion of the monitor ADC (R187). (DESIGN CHOICE, log 41; DESIGN CHOICE, log 180.) -/
def State.conversion (s : State) (code : Nat) (pg : Bool) : State :=
  let k := s.mon.slot
  let s := if k = 0 then { s with mon := { s.mon with start := s.slot0Start, next0 := none, scanArm := s.mon.scanReq } } else s
  let s :=
    if k < 24 then (s.reading k code).judgeRail k code pg
    else if k = 27 then
      State.reading { s with trm := { s.trm with dieT := (signedOf 12 code :: s.trm.dieT).take 16 } } 27 code
    else if k = 28 then s.xtemp code
    else s.reading k code
  if k = 28 then State.scanEnd { s with mon := { s.mon with slot := 0 } }
  else State.scanCheck { s with mon := { s.mon with slot := k + 1 } }

def execScanConversion (code : BitVec 12) (pg : Bool) (s : State) : Out :=
  event (if s.scanRuns then s.conversion code.toNat pg else s)

/-- The reference conversion (R188), which follows slot 28 of a scan; the next scan starts at its end. -/
def execAdcRefConversion (deviation : Nat) (s : State) : Out :=
  event (if s.scanRuns && s.mon.slot == 0 && s.mon.next0.isSome then
      let s := { s with mon := { s.mon with next0 := some s.htm.time } }
      if 8 < deviation then (s.wr mAdcUncal 1).monEvt 6 else s.wr mAdcUncal 0
    else s)

def opScanNow (s : State) : Res :=
  if s.mon.scanReq then (.busy, s) else (.done, { s with mon := { s.mon with scanReq := true } })
def opSnap (slot : Slot) (s : State) : Res := (.done, s.mortar 7 slot.val 0 [s.rd qUpMask, s.rd mScanCnt])
/-- CLEAR (R219): secure only; BUSY while an entry waits or is being written, or a CLEAR runs. -/
def opClear (slot : Slot) (s : State) : Res :=
  secureOnly slot s <|
  if !s.mon.queue.isEmpty || s.mon.writing.isSome || s.mon.clearing then (.busy, s) else (.done, { s with mon := { s.mon with clearing := true } })

def execScanNow (slot : Slot) (s : State) : Out := host slot s opScanNow
def execSnap (slot : Slot) (s : State) : Out := host slot s (opSnap slot)
def execClear (slot : Slot) (s : State) : Out := host slot s (opClear slot)

def execPeriodicSnap (s : State) : Out :=
  event (if !s.on mLogMode && s.rd mSnapPer != 0 then s.mortar 8 0xFF 0 [s.rd qUpMask, s.rd mScanCnt] else s)

/-- The next SEQ: 1 follows 2³² − 1 (R207). -/
def nextLogSeq (n : Nat) : Nat := if n = 2 ^ 32 - 1 then 1 else n + 1

/-- No entry is being written any more; the scan that ran for those that waited stops (R189). -/
def State.entryDone (s : State) : State :=
  let s := { s with mon := { s.mon with writing := none, scanWait := s.mon.scanWait && !s.mon.queue.isEmpty } }
  s.scanCheck

/-- An entry is written into the next slot and committed (R211): source 480. -/
def State.writeEntry (s : State) (words : List Nat) : State :=
  let ws := s.mon.seq :: words
  let body := ws ++ [commitWord]
  let all := body ++ [crc32 (bytesOf body)]
  let base := s.mon.head * 32
  let s := all.zipIdx.foldl (fun s wi => s.setLogWord (base + wi.2) wi.1) s
  let s := { s with mon := { s.mon with head := (s.mon.head + 1) % 2048, seq := nextLogSeq s.mon.seq } }
  ((s.monEvt 0).fullCheck).entryDone

/-- The queue's highest-ranked entry, the first of its rank (R214). -/
def bestEnt (q : List LogEnt) : Option LogEnt :=
  let best := q.foldl (fun m e => min m (logRank e.type)) 3
  q.find? fun e => logRank e.type == best

/-- The queued entries that wait for no scan: one of a lower rank does not wait for one that does. (DEDUCED, log 205.) -/
def State.readyEnts (s : State) : List LogEnt := s.mon.queue.filter fun e => !e.waits

/-- The write of the highest-ranked entry begins (R211, R214), unless stop-when-full keeps it out (R218); after VMAIN arrival the log is
read first (R216). -/
def State.entryBegin (s : State) : State :=
  if s.mon.writing.isSome || s.mon.clearing || s.mon.scanDue then s
  else match bestEnt s.readyEnts with
    | some e =>
      let s1 := { s with mon := { s.mon with queue := s.mon.queue.erase e } }
      if s.logFullFor e.type then (s1.logDrop).entryDone else { s1 with mon := { s1.mon with writing := some e } }
    | none => s

/-- The entry begun is written, once it has its readings (R189); the CLEARED entry ends a CLEAR (R219). -/
def State.entryCommit (s : State) : State :=
  match s.mon.writing with
  | some e =>
    if e.waits then s
    else if e.type = 9 then (s.writeEntry e.words).monEvt 4
    else s.writeEntry e.words
  | none => s

/-- An entry is written: the one begun, or the highest-ranked one now. (DEDUCED, log 160.) -/
def execMortarEntryWrite (s : State) : Out := event s.entryBegin.entryCommit

/-- Committed entries of the log (MON_LOGCNT). -/
def State.logCount (s : State) : Nat := ((usedSlots s.mon.log).filter fun n => committed (s.logSlot n) && !(s.mon.writing.isSome && n == s.mon.head)).length

/-- The CLEARED entry of a log of `n` committed entries (R209, R219): a trigger like any other. (DESIGN CHOICE, log 179.) -/
def State.clearedEnt (s : State) (n : Nat) : LogEnt :=
  { type := 9, words := s.logWords 9 0xFF s.mon.causes [s.rd qUpMask, n], waits := s.entryWaits, now := true }

/-- A CLEAR ends (R219): every slot is zero, FULL clears, and the CLEARED entry goes into slot 0, in M2 once a scan has given its readings
(R189). -/
def execClearDone (s : State) : Out :=
  event (if s.mon.clearing then
      let e := s.clearedEnt s.logCount
      let s := if e.waits && !s.mon.scanWait then { s with mon := { s.mon with scanWait := true, scanned := false } } else s
      let s := { s with mon := { s.mon with log := [], head := 0, clearing := false, writing := some e } }
      (s.wr mFull 0).entryCommit
    else s)

/-- `a` is later than `b` in serial order. -/
def serialAfter (a b : Nat) : Bool := (a + 2 ^ 32 - b) % 2 ^ 32 < 2 ^ 31 && a != b

/-- The slot of `l` whose SEQ is the largest in serial order (R216). -/
def State.newestOf (s : State) : List Nat → Option Nat
  | [] => none
  | n :: t =>
    match State.newestOf s t with
    | some m => if serialAfter (s.logWord (n * 32)) (s.logWord (m * 32)) then some n else some m
    | none => some n

/-- The newest switch to VBAT the keep domain holds: its count. -/
def State.lastVbat (s : State) : Option Nat :=
  let places := (List.range 4).map fun i => (s.keep.swNext + 3 - i) % 4
  (places.find? fun n => (s.rd (kSwrecInfo n)).testBit 7).map fun n => s.rd (kSwrecLo n) + s.rd (kSwrecHi n) * 2 ^ 32

/-- The SEQ that follows the newest entry's, past one that an abandoned write has spent (R213, R216). (DEDUCED, log 39.) -/
def State.seqAfter (s : State) (n : Nat) : Nat := if s.mon.burnt then nextLogSeq (nextLogSeq n) else nextLogSeq n

/-- The island's reading of the log at VMAIN arrival (R216); of an empty log the next slot and SEQ stay. The count of the collapse is stored
with its trigger. (DEDUCED, log 39; DESIGN CHOICE, log 206; DESIGN CHOICE, log 207.) -/
def State.logScanNow (s : State) : State :=
  let used := usedSlots s.mon.log
  let torn := used.filter s.logTorn
  let s := match s.newestOf used with
    | some n => { s with mon := { s.mon with head := (n + 1) % 2048, seq := s.seqAfter (s.logWord (n * 32)) } }
    | none => if s.mon.burnt then { s with mon := { s.mon with seq := nextLogSeq s.mon.seq } } else s
  let s := { s with mon := { s.mon with burnt := false, scanDue := false } }
  let s := if torn.isEmpty then s else (s.wr mTornFound 1).monEvt 3
  match s.lastVbat with
  | some c =>
    if c != s.mon.collapse then
      let s := { s with mon := { s.mon with collapse := c } }
      s.mortar 2 0xFF 1 [c % 2 ^ 32, c / 2 ^ 32, torn.length, (s.newestOf torn).getD 0xFFFFFFFF]
    else s
  | none => s

def execLogScan (s : State) : Out := event (if s.mon.scanDue then s.logScanNow else s)

/-- A published item of ring 43 becomes a HOST entry, or is discarded (R220 to R222). Its SOURCE is the ring's producer, 0x1F where any slot
may produce; the reserved CAUSE bits are copied. (DESIGN CHOICE, log 209; DEDUCED, log 210.) -/
def State.hostItem (s : State) : State :=
  let ws := s.ringGet 43 (s.rd (rRidx 43)) 8
  let w0 := ws.headD 0
  let s := s.wr (rRidx 43) (s.rd (rRidx 43) + 32)
  let type := w0 / 2 ^ 24
  if 0x10 ≤ type && type ≤ 0x1F && w0 / 2 ^ 16 % 256 == 0 then s.mortar type (s.rd (rProd 43)) (w0 % 2 ^ 16) ws.tail
  else (s.bump mHostBad).monEvt 5

def execHostItemTake (s : State) : Out :=
  event (if s.on mLogMode && s.running && s.on (rEn 43) && decide (32 ≤ s.fill 43) && decide (s.mon.queue.length < 4) then s.hostItem
    else s)

end Sys2Proof.Machine
end

