-- ==== Sys2Proof/Machine/Trim.lean ====
section
/-! DEFINITION. The trim law (spec/06): its four terms, the write of HTM_INCR, keep calibration and the g-learner. -/

namespace Sys2Proof.Machine

open F

/-- An event flag of TRM_EVT: 0 G_UNOBSERVED, 1 G_LEARNED, 2 MAIN_CLAMPED, 3 TSRC_FALLBACK, 4 KCAL_DONE. -/
def State.trmEvt (s : State) (i : Nat) : State := s.setBits tEvt (2 ^ i)

/-! ### Temperature (R265, R266) -/

/-- The mean of a list of readings, to the nearest 1/16 °C. -/
def meanOf (l : List Int) : Option Int := if l.isEmpty then none else some (roundDivI l.sum l.length)

/-- XTEMP is selected and not usable: it has not given 16 good readings since its last fault. -/
def State.fallback (s : State) : Bool := !s.on tTsrc && decide (s.trm.xGood < 16)

/-- T: the mean of the last 16 readings of the source; without any, T0. (DEDUCED, log 50.) -/
def State.lawTemp (s : State) : Int :=
  (if s.on tTsrc || s.fallback then meanOf s.trm.dieT else meanOf s.trm.xT).getD (s.rdS tT0)

/-! ### The g-term (R267 to R269) -/

/-- 2π as a ratio of whole numbers. (DESIGN CHOICE, log 49.) -/
def twoPiNum : Nat := 6283185307179586476925
def twoPiDen : Nat := 10 ^ 21

/-- G in 2⁻⁴ g from a speed in 2⁻⁴⁸ rev/s and a radius in µm. -/
def gOf (w : Int) (r : Nat) : Nat :=
  min (2 ^ 32 - 1) (roundDiv (16 * twoPiNum ^ 2 * (w.natAbs * w.natAbs) * r * 100000) (twoPiDen ^ 2 * 2 ^ 96 * 10 ^ 6 * 980665))

/-- The mill named in TRM_GMILL. -/
def State.gMillOf (s : State) : Option Nat := if s.rd tGmill = 0x1F then none else some (s.rd tGmill % 16)

/-- Some learner is on, in M5 (R274). -/
def State.learns (s : State) : Bool := s.mode == 5 && (s.on tGlMain || s.on tGlKeep)

/-- The learner's second takes G and the speed `w`; outside M5 and with no learner on none is gathered. Its first tick pair is the one that
stands as the second begins. -/
def State.gGather (s : State) (w : Nat) (acq : Bool) : State :=
  if s.learns then
    { s with trm := { s.trm with gSum := s.trm.gSum + s.rd tG, wSum := s.trm.wSum + w, gN := s.trm.gN + 1, gAcq := s.trm.gAcq && acq,
                                 gPair := s.trm.gPair.orElse fun _ => s.keep.pair } }
  else { s with trm := { s.trm with gSum := 0, wSum := 0, gN := 0, gAcq := true, gPair := none } }

/-- G and G_STALE follow the named mill, and the learner's second takes the values. -/
def State.gUpdate (s : State) : State :=
  match s.gMillOf with
  | none => ((s.wr tG 0).wr tGStale 0).gGather 0 false
  | some m =>
    let w := (s.evalMill m s.htm.time).w
    let s := if s.on (lAcq m) then (s.wr tG (gOf w (s.rd tGradius))).wr tGStale 0 else s.wr tGStale 1
    s.gGather w.natAbs (s.on (lAcq m))

/-! ### The law (R259, R261 to R263) -/

/-- TRM_TERM_T before saturation: the exact sum of the three parts, rounded once to the nearest. (DESIGN CHOICE, log 186.) -/
def State.rawTermT (s : State) : Int :=
  let d := s.rdS tTemp - s.rdS tT0
  roundDivI (s.rdS (tA 1) * d * 2 ^ 14 + s.rdS (tA 2) * d * d * 2 ^ 8 + s.rdS (tA 3) * d * d * d) (2 ^ 14)

/-- The law's terms and total from T, the day count, G and their coefficients. -/
def State.lawTerms (s : State) : State :=
  let hw := !s.on tMode
  let t := if hw then satS 32 s.rawTermT else 0
  let a := if hw then satS 32 (s.rdS tAgeRate * s.mrd kAgeDays) else 0
  let g := if hw then satS 32 (roundDivI (s.rdS tGsensMain * s.rd tG) 16) else 0
  (((s.wrS tTermT t).wrS tTermA a).wrS tTermG g).wrS tMainTotal (satS 32 (s.rdS tMainBase + t + a + g))

/-- HTM_INCR as the law and the servo give it, unclamped (R259). -/
def State.lawIncr (s : State) : Int :=
  (s.trm.base : Int) + roundDivI (s.trm.base * (s.rdS tMainTotal + s.rdS dServo)) (2 ^ 42)

/-- In hardware mode the hub writes HTM_INCR, clamped (R259, R261). -/
def State.writeIncr (s : State) : State :=
  if s.hwDiscipline then
    let i := s.lawIncr
    let s := if i < incrMin || incrMax < i then s.trmEvt 2 else s
    { s with htm := { s.htm with incr := clampIncr i } }
  else s

/-- A trim update (R260). -/
def State.trimUpdate (s : State) : State :=
  let s := if s.fallback && !s.on tFallback then s.trmEvt 3 else s
  let s := (s.wr tFallback s.fallback.toNat).wrS tTemp s.lawTemp
  ((s.gUpdate).lawTerms).writeIncr

def execTrimUpdate (s : State) : Out := event (if s.running then s.trimUpdate else s)

/-! ### Keep crystal (R270 to R273) -/

/-- KEEP_TRIM_G as the trim engine computes it. -/
def State.keepG (s : State) : Int := satS 32 (roundDivI (s.rdS tGsensKeep * s.rd tG) 16)

/-- A write into the keep window by the trim engine (R108). -/
def State.keepSend (s : State) (addr v : Nat) : State :=
  State.wr { s with keep := { s.keep with win := some (addr, v) } } kBusy 1

/-- A 100 ms opportunity to write KEEP_TRIM_G (R270). -/
def State.keepGUpdate (s : State) : State :=
  if 4398 ≤ (s.keepG - s.trm.gSent).natAbs && !s.on kBusy then
    State.keepSend { s with trm := { s.trm with gSent := s.keepG } } 0x010028 (toBits 32 s.keepG)
  else s

def execKeepGUpdate (s : State) : Out := event (if s.running then s.keepGUpdate else s)

/-- ε between two tick pairs, as a fraction: how fast the trimmed keep count ran against Hub Time. -/
def epsilon (p q : TickPair) : Int × Nat :=
  let c : Int := ((q.n : Int) - p.n) * 2 ^ 42 + ((q.f : Int) - p.f)
  let dh : Int := (q.h : Int) - p.h
  (c * 1000000000 - dh * 2 ^ 25, (dh * 2 ^ 25).toNat)

/-- ε in 2⁻⁴². -/
def epsilon42 (p q : TickPair) : Int := roundDivI ((epsilon p q).1 * 2 ^ 42) (epsilon p q).2

def opKcalMeasure (_slot : Slot) (s : State) : Res :=
  if s.mode ≠ 5 ∧ s.mode ≠ 10 then (.notInMode, s)
  else if s.on tKcalBusy then (.busy, s)
  else (.done, State.wr { s with trm := { s.trm with kcal := s.keep.pair, kcalT := 0, kcalN := 0 } } tKcalBusy 1)

/-- The measurement ends (R273). -/
def State.kcalDone (s : State) : State :=
  match s.trm.kcal, s.keep.pair with
  | some p, some q =>
    let t := if s.trm.kcalN = 0 then s.rdS kTemp else roundDivI s.trm.kcalT s.trm.kcalN
    let s := (s.wrS tKmeas (satS 32 (epsilon42 p q))).wrS tKmeasTemp t
    State.wr { (s.trmEvt 4) with trm := { s.trm with kcal := none, kcalT := 0, kcalN := 0 } } tKcalBusy 0
  | _, _ => s.wr tKcalBusy 0

def execKcalDone (s : State) : Out := event (if s.running && s.on tKcalBusy then s.kcalDone else s)

/-- Every 1,024 s in M5 (R272): the measured error goes into KEEP_TRIM_BASE through the keep window, and the next span starts.
(DEDUCED, log 52.) -/
def State.kcalAuto (s : State) : State :=
  match s.trm.auto, s.keep.pair with
  | some p, some q =>
    if s.on kBusy then s
    else
      let v := satS 32 (s.rdS kTrimBase - epsilon42 p q)
      State.keepSend { s with trm := { s.trm with auto := some q } } 0x010024 (toBits 32 v)
  | none, some q => { s with trm := { s.trm with auto := some q } }
  | _, none => s

/-- KCAL_AUTO off, MODE 1 or a mode other than M5 ends the span between two automatic measurements. -/
def State.kcalDrop (s : State) : State :=
  if s.mode == 5 && s.on tKcalAuto && !s.on kMode then s else { s with trm := { s.trm with auto := none } }

def execKcalAuto (s : State) : Out :=
  event (if s.running && s.mode == 5 && s.on tKcalAuto && !s.on kMode then s.kcalAuto else s)

/-! ### The g-learner (R274 to R279) -/

def GlWin.empty : GlWin := { n := 0, sx := 0, sxx := 0, sym := 0, sxym := 0, syk := 0, sxyk := 0, wMax := 0, wMin := 0, acq := true }

/-- A window with one more second. -/
def GlWin.add (w : GlWin) (x : Nat) (ym yk : Int) (speed : Nat) (acq : Bool) : GlWin :=
  { n := w.n + 1, sx := w.sx + x, sxx := w.sxx + x * x, sym := w.sym + ym, sxym := w.sxym + x * ym, syk := w.syk + yk,
    sxyk := w.sxyk + x * yk, wMax := max w.wMax speed, wMin := if w.n = 0 then speed else min w.wMin speed, acq := w.acq && acq }

/-- A learner's second (R274): x is the mean of G ÷ 16, in 2⁻²⁰ g. Without two tick pairs the spec states no ε, and y of the keep learner
is a free value. A window goes on where it stood when its GLEARN bits were cleared and one is set again. (DESIGN CHOICE, log 51;
DEDUCED, log 212.) -/
def State.glSample (s : State) : State :=
  let r := s.draw
  let s := r.2
  let x := if s.trm.gN = 0 then s.rd tG * 2 ^ 16 else roundDiv (s.trm.gSum * 2 ^ 16) s.trm.gN
  let sp := if s.trm.gN = 0 then 0 else roundDiv s.trm.wSum s.trm.gN
  let yk := match s.trm.gPair, s.keep.pair with
    | some p, some q => -(epsilon42 p q)
    | _, _ => signedOf 32 (r.1 % 2 ^ 32)
  let acq := s.trm.gAcq && (match s.gMillOf with | some m => s.on (lAcq m) | none => false)
  let w := (s.trm.win.getD .empty).add x (s.rdS dServo) yk sp acq
  State.wr { s with trm := { s.trm with win := some w, gSum := 0, wSum := 0, gN := 0, gAcq := true, gPair := s.keep.pair } } tLearning 1

def execGlearnSample (s : State) : Out := event (if s.running && s.learns then s.glSample else s)

/-- The excursion test (R275). -/
def GlWin.observed (w : GlWin) : Bool := decide (w.wMax ≤ 5 * (w.wMax - w.wMin)) && w.acq

/-- The slope's numerator and denominator, per g; y in 2⁻⁴² (R276). (DESIGN CHOICE, log 51.) -/
def GlWin.slope (w : GlWin) (sy sxy : Int) : Int × Nat := ((w.n * sxy - w.sx * sy) * 2 ^ 20, w.n * w.sxx - w.sx * w.sx)

/-- The slope; where x did not vary the spec gives none, and it is a free value. -/
def State.slopeOf (s : State) (n : Int) (d : Nat) : (Int × Nat) × State :=
  if d = 0 then let r := s.draw; ((signedOf 32 (r.1 % 2 ^ 32), 1), r.2) else ((n, d), s)

/-- The main learner's update, with the integrator taking the difference (R276, R277). -/
def State.learnMain (s : State) (w : GlWin) : State :=
  let ((n, d), s) := s.slopeOf (w.slope w.sym w.sxym).1 (w.slope w.sym w.sxym).2
  let old := s.rdS tGsensMain
  let s := (s.wrS tSlopeMain (satS 32 (roundDivI n d))).wrS tGsensMain (satS 32 (old + roundDivI n (d * 2 ^ s.rd tGain)))
  let k := roundDivI ((s.rdS tGsensMain - old) * s.rd tG) 16
  let s := s.putServo (s.rdS dInteg - k) (s.rdS dServo - k)
  (s.wr tUnobsMain 0).lawTerms

def State.learnKeep (s : State) (w : GlWin) : State :=
  let ((n, d), s) := s.slopeOf (w.slope w.syk w.sxyk).1 (w.slope w.syk w.sxyk).2
  let s := (s.wrS tSlopeKeep (satS 32 (roundDivI n d))).wrS tGsensKeep (satS 32 (s.rdS tGsensKeep + roundDivI n (d * 2 ^ s.rd tGain)))
  s.wr tUnobsKeep 0

/-- The end of a window (R275, R276, R278); the next one starts. -/
def State.glEnd (s : State) (w : GlWin) : State :=
  let r := s.draw   -- the excursion of a shaft that stood still all through is not stated
  let s := if w.wMax = 0 then r.2.wr tGlExc r.1 else s.wr tGlExc (roundDiv ((w.wMax - w.wMin) * 1000) w.wMax)
  let s := { s with trm := { s.trm with win := some .empty } }
  if w.observed then
    let s := if s.on tGlMain then s.learnMain w else s
    let s := if s.on tGlKeep then s.learnKeep w else s
    (s.trmEvt 1).writeIncr
  else
    let s := if s.on tGlMain then s.wr tUnobsMain 1 else s
    let s := if s.on tGlKeep then s.wr tUnobsKeep 1 else s
    s.trmEvt 0

def execGlearnWindowEnd (s : State) : Out :=
  event (match s.trm.win with
    | some w => if s.running && s.mode == 5 && decide (s.rd tGlWin ≤ w.n) then s.glEnd w else s
    | none => s)

/-- The window in progress is discarded (R279). -/
def State.glDiscard (s : State) : State :=
  State.wr { s with trm := { s.trm with win := none, gPair := none, gSum := 0, wSum := 0, gN := 0, gAcq := true } } tLearning 0

def opGlRestart (_slot : Slot) (s : State) : Res := (.done, s.glDiscard)

/-- FOLD (R303): the law's offset takes the integrator, and L + S does not change. -/
def opFold (slot : Slot) (s : State) : Res :=
  secureOnly slot s <|
  if s.mode ≠ 5 ∧ s.mode ≠ 10 then (.notInMode, s)
  else
    let i := s.rdS dInteg
    let s := s.wrS tMainBase (satS 32 (s.rdS tMainBase + i))
    (.done, (s.putServo 0 (s.rdS dServo - i)).lawTerms)

def execKcalMeasure (slot : Slot) (s : State) : Out := host slot s (opKcalMeasure slot)
def execGlRestart (slot : Slot) (s : State) : Out := hostReg slot s (opGlRestart slot)
def execFold (slot : Slot) (s : State) : Out := host slot s (opFold slot)

end Sys2Proof.Machine
end

