-- ==== Sys2Proof/Machine/Disc.lean ====
section
/-! DEFINITION. Discipline and holdover (spec/06): on-time edges, labels, the PI servo, acquisition, lock and unlock, holdover. -/

namespace Sys2Proof.Machine

open F

/-! ### The servo (R288, R289) -/

/-- k × θ in 2⁻⁴², with k in 2⁻¹⁶ and θ in 2⁻¹⁶ ns. -/
def servoPart (k : Nat) (th : Int) : Int := roundDivI (k * th * 2 ^ 10) 1000000000

/-- A servo update with θ (R288), and the trim update after it (R260). -/
def State.servoUpdate (s : State) (th : Int) : State :=
  (s.setServo (s.rdS dInteg - servoPart (s.rd dKi) th) (servoPart (s.rd dKp) th)).trimUpdate

/-- A second without an accepted sample: S := I (R289). -/
def State.servoCoast (s : State) : State := (s.setServo (s.rdS dInteg) 0).trimUpdate

/-! ### Seconds of the holdover window -/

/-- A second joins the log, which holds the longest window that ends at its last accepted sample, and one that a later sample can end. -/
def pushSec (x : SecLog) (l : List SecLog) : List SecLog :=
  (x :: ((l.takeWhile fun y => y.th.isNone).take 1023 ++ l.dropWhile fun y => y.th.isNone)).take 2048

/-- A second's S and θ join the log (R299). -/
def State.logSecond (s : State) (th : Option Int) : State :=
  { s with trm := { s.trm with secs := pushSec { s := s.rdS dServo, th := th } s.trm.secs } }

/-! ### Lock and unlock (R293, R294, R296) -/

/-- The lock is held: M5, or STATE 2 in M10. -/
def State.locked (s : State) : Bool := s.mode == 5 || (s.mode == 10 && s.rd dState == 2)

/-- STATE without lock or holdover. -/
def State.idleState (s : State) : Nat := if s.rd dSrc = 0 then 0 else 1

/-- The lock ends with a cause (R294): M5 to M6, source 477, holdover. (DEDUCED, log 43.) -/
def State.unlock (s : State) (cause : Nat) : State :=
  if s.locked then
    let s := { s with trm := { s.trm with bigRun := 0, todRun := 0, missRun := 0 } }
    let s := ((s.wr dLastUnlock cause).wr dState 3).latch 477
    if s.mode = 5 then (s.holdEntry false).setMode 6 else s
  else s

/-- The hub locks (R293, R298): M5, STATE 2, source 476; in M10 the mode stays. -/
def State.lock (s : State) : State :=
  let s := (s.wr dState 2).latch 476
  if s.mode = 10 then s else s.setMode 5

/-- The criteria of R293. -/
def State.lockMet (s : State) : Bool :=
  s.hwDiscipline && s.on htmTimeSet && !s.on htmSlewActive && (s.mode == 4 || s.mode == 6 || (s.mode == 10 && s.rd dState != 2)) &&
    decide (s.rd dLockN ≤ s.rd dLockRun) && (decide (s.rd dSrc = 4) || decide (s.rd dLockN ≤ s.trm.okRun))

/-! ### Records (R287) -/

/-- The interpolator of PPSIN, or of IRIGIN, is uncalibrated (R346); a missing second has no edge. -/
def State.discUncal (s : State) (kind : Nat) : Bool :=
  (kind == 1 && s.stp.uncal.testBit 48) || (kind == 2 && s.stp.uncal.testBit 49)

/-- A ring-41 record. -/
def State.discRecord (s : State) (x : Sample) (label : Option Nat) : State :=
  if s.rd dSrc = 0 then s
  else
    let (seq, s) := s.nextSeq 41
    let ok := label == some x.n
    let bad := label.isSome && !ok
    let th := toBits 64 x.theta
    let l := label.getD 0
    s.give 41 ([x.kind * 2 ^ 28 + x.outlier.toNat * 2 ^ 27 + ok.toNat * 2 ^ 26 + bad.toNat * 2 ^ 25 + (s.discUncal x.kind).toNat * 2 ^ 24 +
        x.discard.toNat * 2 ^ 23 + seq] ++ time96 x.t (s.qual (s.discUncal x.kind)) ++ [th % 2 ^ 32, th / 2 ^ 32, l % 2 ^ 32, l / 2 ^ 32 % 2 ^ 16 * 2 ^ 16 + toBits 16 (s.rdS tTemp)])

/-! ### Acquisition (R291) -/

/-- Two consecutive samples agree: their θ within PPS_WIN, and their labels a second apart where both have one. (DEDUCED, log 54.) -/
def State.agree (s : State) (p x : Sample) (lp lx : Option Nat) : Bool :=
  decide ((x.theta - p.theta).natAbs ≤ s.rd dPpsWin * 2 ^ 16) &&
    match lp, lx with | some a, some b => b == a + 1 | _, _ => true

/-- What AUTO_ACQ does on a sample that agrees with the one before it. (DEDUCED, log 55.) -/
def State.autoAct (s : State) (x : Sample) (label : Option Nat) : State :=
  let off : Int := match label with | some l => (l : Int) - x.n | none => 0
  if !s.on htmTimeSet then
    match label with
    | some l =>
      State.wr { (s.discEvt 4) with htm := { s.htm with pend := some { time := (l + 1) * secU % timeMod, apply := 3 } },
                                    trm := { s.trm with prev := none } } htmSetPending 1
    | none => s
  else if s.rd dStepThr * 2 ^ 16 < x.theta.natAbs ∨ off ≠ 0 then
    (s.discEvt 4).moveTime (addTime s.htm.time (off * secU - x.theta * 2 ^ 16)) true
  else s

def State.autoAcq (s : State) (x : Sample) (label : Option Nat) : State :=
  let prev := s.trm.prev
  let s := { s with trm := { s.trm with prev := if x.discard then none else some (x, label) } }
  match prev with
  | some (p, lp) =>
    if s.on dAutoAcq && s.hwDiscipline && s.mode == 4 && !x.discard && s.agree p x lp label then s.autoAct x label else s
  | none => s

/-! ### Samples -/

/-- A sample is judged with its label, if it has one (R286, R287, R291, R293, R294); a slew holds LOCK_RUN at 0 (R47). -/
def State.judgeSample (s : State) (x : Sample) (label : Option Nat) : State :=
  let ok := label == some x.n
  let bad := label.isSome && !ok
  let s := (if bad then s.discEvt 2 else s).wr dTodOk ok.toNat
  let s := s.discRecord x label
  let s := if x.discard then s else { s with trm := { s.trm with todRun := if bad then s.trm.todRun + 1 else 0 } }
  let s := if 3 ≤ s.trm.todRun then s.unlock 3 else s
  if x.outlier || x.discard then s
  else
    let near := decide (x.theta.natAbs ≤ s.rd dLockThr * 2 ^ 16)
    let slew := s.on htmSlewActive
    let s := s.wr dLockRun (if near && !slew then min 255 (s.rd dLockRun + 1) else 0)
    let s := { s with trm := { s.trm with okRun := if near && ok && !slew then min 255 (s.trm.okRun + 1) else 0 } }
    let s := s.autoAcq x label
    if s.lockMet then s.lock else s

/-- The sample that waits for its label is judged without one. -/
def State.judgeHeld (s : State) (label : Option Nat) : State :=
  match s.trm.held with
  | some x => State.judgeSample { s with trm := { s.trm with held := none } } x label
  | none => s

/-- θ of an edge at `h` (2⁻³² ns) and N (R281). -/
def State.theta (s : State) (h : Nat) : Int × Nat :=
  let x : Int := (h : Int) - s.rdS dPpsDelay * 2 ^ 28
  let n := ((x + secU / 2) / secU).toNat
  (roundDivI (x - n * secU) (2 ^ 16), n)

/-- The label that a sample can already have at its edge, or whether it is still to come: ZDA with ZDA_REL 1 is there, ZDA with
ZDA_REL 0 and an IRIGIN frame come after the edge (R286). -/
def State.labelLater (s : State) : Bool := (s.rd dSrc == 1 && !s.on dZdaRel) || s.rd dSrc == 2 || s.rd dSrc == 3

/-- An accepted edge feeds the servo and the loss counts (R283, R288, R294). (DEDUCED, log 57.) -/
def State.acceptEdge (s : State) (x : Sample) : State :=
  let s := (s.wrS dPhase (satS 32 (roundDivI x.theta (2 ^ 12)))).wr dPpsPresent 1
  let big := decide (s.rd dUnlockThr * 2 ^ 16 < x.theta.natAbs)
  let s := { s with trm := { s.trm with lastEdge := some x.t, missRun := 0, bigRun := if big then s.trm.bigRun + 1 else 0 } }
  let s := if s.hwDiscipline then s.servoUpdate x.theta else s
  let s := s.logSecond (some x.theta)
  if 4 ≤ s.trm.bigRun then s.unlock 2 else s

/-- The sample of the last edge has its servo update, and is judged or waits for its label (R288, R290). (DEDUCED, log 161.) -/
def State.servoDue (s : State) : State :=
  match s.trm.due with
  | none => s
  | some x =>
    let s := { s with trm := { s.trm with due := none } }
    let s := if x.outlier || x.discard then s else s.acceptEdge x
    if s.labelLater then { s with trm := { s.trm with held := some x } }
    else
      let l := if s.rd dSrc = 1 then s.trm.label else none
      State.judgeSample { s with trm := { s.trm with label := none } } x l

/-- An on-time edge of the source in use (R281, R282, R292): `step` says that a pending SET applied at this very edge (R290). -/
def State.onTimeEdge (s : State) (kind h : Nat) (step : Bool) : State :=
  let s := s.servoDue.judgeHeld none
  let (th, n) := s.theta h
  let out := (decide (s.rd dState = 2) && decide (s.rd dPpsWin * 2 ^ 16 < th.natAbs)) ||
    (s.mode == 6 && decide (s.rd dStepThr * 2 ^ 16 < th.natAbs))
  let x : Sample := { kind := kind, t := h, n := n, theta := th, outlier := out && !step, discard := step }
  let s := if x.outlier then (s.bump dOutliers).discEvt 0 else s
  { s with trm := { s.trm with due := some x } }

/-- PPSIN at `h`: a SET waiting for it applies first (R40), then the discipline takes the edge (R280, R281). (DEDUCED, log 53.) -/
def State.ppsinEdge (s : State) (h : Nat) : State :=
  let src := s.rd dSrc == 1 || s.rd dSrc == 2 || s.rd dSrc == 4
  let how := match s.htm.pend with | some p => p.apply | none => 0
  let step := how == 1 || (how == 3 && src)
  let s1 := if step then s.pendSetEdge how h else s
  if src then s1.onTimeEdge 1 h step else s1

def execPpsinEdge (stamp : Stamp) (s : State) : Out := event (if s.running then s.ppsinEdge (ofStamp stamp) else s)

/-- A second without an accepted edge (R283, R287, R289, R294); with no source it is not missing, but the servo coasts and the loss counts. -/
def State.missingSecond (s : State) : State :=
  let s := s.servoDue.judgeHeld none
  let due := match s.trm.lastEdge with | some t => (t + secU) % timeMod | none => s.htm.time
  let s := (if s.rd dSrc = 0 then s else s.discEvt 1).wr dPpsPresent 0
  let s := s.discRecord { kind := 3, t := due, n := 0, theta := 0, outlier := false, discard := false } none
  let s := { s with trm := { s.trm with lastEdge := some due, missRun := s.trm.missRun + 1 } }
  let s := if s.hwDiscipline then s.servoCoast else s
  let s := s.logSecond none
  if s.rd dLossN ≤ s.trm.missRun then s.unlock 1 else s

def execMissingSecond (s : State) : Out := event (if s.running then s.missingSecond else s)

/-! ### ZDA (R285, R286) -/

/-- The value of a hexadecimal digit, and of a decimal one. -/
def hexVal (c : Nat) : Option Nat :=
  if 48 ≤ c ∧ c ≤ 57 then some (c - 48)
  else if 65 ≤ c ∧ c ≤ 70 then some (c - 55)
  else if 97 ≤ c ∧ c ≤ 102 then some (c - 87)
  else none
def digit (c : Nat) : Option Nat := if 48 ≤ c ∧ c ≤ 57 then some (c - 48) else none

/-- A list of decimal digits as a number. -/
def number : List Nat → Option Nat
  | [] => none
  | l => l.foldl (fun a c => match a, digit c with | some n, some d => some (n * 10 + d) | _, _ => none) (some 0)

/-- A list cut at every byte `c`. -/
def splitAt (c : Nat) : List Nat → List (List Nat)
  | [] => [[]]
  | b :: t => match splitAt c t with
    | h :: r => if b = c then [] :: h :: r else (b :: h) :: r
    | [] => [[]]

/-- What a sentence is: not ZDA, a bad ZDA, or a UTC date and time. -/
inductive Zda where
  | other
  | bad
  | good (year month day hour min sec : Nat)
  deriving DecidableEq, Repr

/-- Two decimal digits. -/
def twoDigits (l : List Nat) : Option Nat := if l.length = 2 then number l else none
/-- Decimal digits, at least one, after a point, or nothing at all. -/
def fractionOk (l : List Nat) : Bool := l.isEmpty || (l.headD 0 == 46 && (number (l.drop 1)).isSome)
/-- The local zone's hours, with a sign or none, and minutes. -/
def zoneOk (h m : List Nat) : Bool :=
  (match twoDigits (if h.headD 0 = 45 ∨ h.headD 0 = 43 then h.drop 1 else h) with | some n => decide (n ≤ 13) | none => false) &&
    (match twoDigits m with | some n => decide (n ≤ 59) | none => false)

/-- The fields of a ZDA sentence whose checksum is good. (DEDUCED, log 162.) -/
def zdaFields (fs : List (List Nat)) : Zda :=
  match fs with
  | [_, t, d, m, y, zh, zm] =>
    match twoDigits (t.take 2), twoDigits ((t.drop 2).take 2), twoDigits ((t.drop 4).take 2), twoDigits d, twoDigits m, number y with
    | some hh, some mi, some ss, some dd, some mm, some yy =>
      if fractionOk (t.drop 6) && zoneOk zh zm && decide (hh ≤ 23) && decide (mi ≤ 59) && decide (ss ≤ 60) && decide (1 ≤ mm) && decide (mm ≤ 12) &&
          decide (1 ≤ dd) && decide (dd ≤ 31) && y.length == 4 then
        .good yy mm dd hh mi ss
      else .bad
    | _, _, _, _, _, _ => .bad
  | _ => .bad

/-- A line end that may follow a sentence. -/
def stripEnd (l : List Nat) : List Nat := (l.reverse.dropWhile fun c => c == 10 || c == 13).reverse

/-- The address field is a two-character talker and ZDA. -/
def zdaAddress (body : List Nat) : Bool :=
  let a := (splitAt 44 body).headD []
  a.length == 5 && a.drop 2 == [90, 68, 65]

/-- A sentence of the form of R285. (DEDUCED, log 162.) -/
def parseZda (text : List Nat) : Zda :=
  match splitAt 42 (stripEnd text) with
  | (36 :: body) :: rest =>
    if zdaAddress body then
      match rest with
      | [[c1, c2]] =>
        match hexVal c1, hexVal c2 with
        | some a, some b => if body.foldl (· ^^^ ·) 0 = a * 16 + b then zdaFields (splitAt 44 body) else .bad
        | _, _ => .bad
      | _ => .bad
    else .other
  | _ => .other

/-- The TAI second of a POSIX UTC second, through the leap table (R286). -/
def State.taiOfUtc (s : State) (u : Nat) : Option Nat :=
  ((s.leaps.filter fun e => decide (leapInstant e ≤ u + e.2)).getLast?).map fun e => u + e.2

/-- The TAI second of a date and time in a scale (0 UTC, 1 local, 2 TAI); second 60 only where the table has it. -/
def State.taiOf (s : State) (scale : Nat) (days : Int) (hour min sec : Nat) : Option Nat :=
  let u : Int := days * 86400 + hour * 3600 + min * 60 + Nat.min sec 59 - (if scale = 1 then s.rdS cLocalOfs * 60 else 0)
  if u < 0 then none
  else if scale = 2 then (if sec = 60 then none else some u.toNat)
  else match s.taiOfUtc u.toNat with
    | some t => if sec = 60 then (if s.leapNow (t + 1) then some (t + 1) else none) else some t
    | none => none

/-- A ToD label arrives: it labels the edge before it, or waits for the one after it (R286). -/
def State.zdaLabel (s : State) (l : Nat) : State :=
  let s := s.servoDue
  if s.rd dSrc ≠ 1 then s
  else if s.on dZdaRel then { s with trm := { s.trm with label := some l } }
  else s.judgeHeld (some l)

def State.zdaBad (s : State) : State := (s.bump dTodBad).discEvt 3

def State.zdaSentence (s : State) (text : List Nat) : State :=
  match parseZda text with
  | .other => s
  | .bad => s.zdaBad
  | .good y m d hh mi ss =>
    match s.taiOf 0 (daysOf y m d) hh mi ss with
    | some t => if dateOf (daysOf y m d).toNat = (y, m, d) then s.zdaLabel t else s.zdaBad
    | none => s.zdaBad

def execZdaSentence (text : List Byte) (s : State) : Out :=
  event (if s.running then s.zdaSentence (text.map (·.toNat)) else s)

/-! ### Commands (R298, R303) -/

/-- (R47, R298) -/
def opDeclareLock (slot : Slot) (s : State) : Res :=
  secureOnly slot s <|
  if s.hwDiscipline || s.on htmSlewActive || !(s.mode == 4 || s.mode == 6) then (.notInMode, s) else (.done, s.lock)

def opDeclareUnlock (slot : Slot) (s : State) : Res :=
  secureOnly slot s <| if s.mode ≠ 5 then (.notInMode, s) else (.done, State.unlock { (s.wr dLockRun 0) with trm := { s.trm with okRun := 0 } } 5)

def opIntegClear (slot : Slot) (s : State) : Res := secureOnly slot s (.done, s.wr dInteg 0)

def execDeclareLock (slot : Slot) (s : State) : Out := host slot s (opDeclareLock slot)
def execDeclareUnlock (slot : Slot) (s : State) : Out := host slot s (opDeclareUnlock slot)
def execIntegClear (slot : Slot) (s : State) : Out := host slot s (opIntegClear slot)

/-! ### Seconds in M6 (R300, R301) -/

/-- HOLD_UNC at `t` seconds, in 2⁻¹⁶ ns. -/
def State.holdUnc (s : State) (t : Nat) : Nat :=
  s.trm.u0 + s.trm.y0 * t + roundDiv (s.rd dHoldDrift * t * t * 2 ^ 16) (2 * 86400)

/-- Holdover ends: M4, with a cause (R301). -/
def State.holdExit (s : State) (cause : Nat) : State :=
  (((s.wr dLastUnlock cause).wr dState s.idleState).latch 477).setMode 4

def State.holdSecond (s : State) : State :=
  let t := s.rd dHoldTime + 1
  let u := s.holdUnc t
  let s := (s.wr dHoldTime t).wr dHoldUnc (min (2 ^ 32 - 1) (roundDiv u (2 ^ 16)))
  if s.rd dHoldLimit * 2 ^ 16 < u then s.holdExit 7
  else if s.rd dHoldMax ≠ 0 ∧ s.rd dHoldMax < t then s.holdExit 6
  else s

def execHoldoverSecond (s : State) : Out := event (if s.running && s.mode == 6 then s.holdSecond else s)

/-- The records of edges not yet judged go out before the source changes: one for every edge (R287). -/
def State.discFlush (s : State) : State :=
  let s := match s.trm.held with | some x => s.discRecord x none | none => s
  match s.trm.due with | some x => s.discRecord { x with discard := true } none | none => s

/-- DSRC is written: the samples on their way are discarded, STATE follows, and a lock ends with cause 4 (R294, and the edges of spec/06). -/
def State.dsrcChanged (s : State) : State :=
  let s := { s with trm := { s.trm with due := none, held := none, prev := none, label := none, okRun := 0, bigRun := 0, todRun := 0,
                                        missRun := 0, lastEdge := none } }
  let s := ((s.wr dLockRun 0).unlock 4)
  if s.rd dState = 0 ∨ s.rd dState = 1 then s.wr dState s.idleState else s

end Sys2Proof.Machine
end

