-- ==== Sys2Proof/Machine/CanOps.lean ====
section
/-! DEFINITION. What every block may send on a CAN port (spec/14): identifiers, data lengths, the frames the hub puts on a bus, and
the notes that stand in for an IRQ pin. -/

namespace Sys2Proof.Machine

open F

def State.canPort (s : State) (p : Nat) : CanPort := Assoc.get CanPort.init p s.can.ports
def State.setCanPort (s : State) (p : Nat) (x : CanPort) : State :=
  { s with can := { s.can with ports := Assoc.put CanPort.init p x s.can.ports } }
def State.canNode (s : State) (p n : Nat) : CanNode := Assoc.get CanNode.init (p * 256 + n) s.can.nodes
def State.setCanNode (s : State) (p n : Nat) (x : CanNode) : State :=
  { s with can := { s.can with nodes := Assoc.put CanNode.init (p * 256 + n) x s.can.nodes } }

/-- The identifier of R631. -/
def canId (fn dest src seq : Nat) : Nat := fn % 16 * 2 ^ 25 + dest % 256 * 2 ^ 17 + src % 256 * 2 ^ 9 + seq % 512

/-- The valid ISO 11898-1 data lengths. -/
def canLens : List Nat := [0, 1, 2, 3, 4, 5, 6, 7, 8, 12, 16, 20, 24, 32, 48, 64]
/-- The smallest valid length of at least n bytes. -/
def canLen (n : Nat) : Nat := (canLens.find? fun l => decide (n ≤ l)).getD 64

/-- The level of CANnSTB (R629), `vio33` being whether VIO33 is powered: high in M2, M3, M7 and M9, low while the controller runs, none while
VIO33 is off; free otherwise. (DESIGN CHOICE, log 170.) -/
def State.canStb (s : State) (p : Nat) (vio33 : Bool) : Option Bool :=
  if !vio33 then none
  else if [2, 3, 7, 9].contains s.mode then some true
  else if s.canRuns p then some false
  else some (Config.canStbIdle p)

/-- The error state indicator of an FD frame: the port is error-passive (R626). -/
def State.canEsi (s : State) (p : Nat) (fdf : Bool) : Bool := fdf && s.rd (nEstate p) == 2

/-- A body of words as a frame of port p, padded with zero (R635); an FD frame switches rate with BRS_EN. -/
def State.canBody (s : State) (p id : Nat) (fdf : Bool) (ws : List Nat) : CanOut :=
  let n := canLen (4 * ws.length)
  { id := id, esi := s.canEsi p fdf, fdf := fdf, brs := fdf && s.on (nBrsEn p), data := bytesOf ws ++ List.replicate (n - 4 * ws.length) 0 }

/-- Port p sends a frame. -/
def State.canSend (s : State) (p : Nat) (f : CanOut) : State :=
  if s.canSends p then s.setCanPort p { s.canPort p with sent := (s.canPort p).sent ++ [f] } else s

/-- The frames sent so far are on their way. -/
def State.canGone (s : State) : State :=
  (s.can.ports.map (·.1)).foldl (fun s p => s.setCanPort p { s.canPort p with sent := [] }) s

/-- Port p sends a frame of the hub's own: in hardware mode alone (R648). -/
def State.canHub (s : State) (p : Nat) (f : CanOut) : State := if s.canTalks p then s.canSend p f else s

/-- Whether the hub's own frames of n bytes are FD frames. -/
def State.canFd (s : State) (p n : Nat) : Bool := s.on (nFdEn p) || decide (8 < n)

/-- A frame of the hub's own to a node. -/
def State.canPost (s : State) (p fn dest seq : Nat) (ws : List Nat) : State :=
  s.canHub p (s.canBody p (canId fn dest (s.rd (nNode p)) seq) (s.canFd p (4 * ws.length)) ws)

/-- MBX_ATTN as slot k reads it (R530, R546). -/
def State.attnMask (s : State) (k : Nat) : Nat :=
  (List.range 64).foldl (fun m c =>
    if (decide (c < 32) || s.secure k) && s.on (bEn c) &&
        ((s.on (bMail c) && s.rd (bRecv c) == k) || ((s.on (bSpace c) || s.on (bAcked c)) && s.rd (bSend c) == k)) then m + 2 ^ c
    else m) 0

/-- A note to slot k's node, with its SEQ from the node's note count (R643, R645). (DEDUCED, log 91.) -/
def State.canNote (s : State) (k fn : Nat) (ws : List Nat) : State :=
  let p := s.rd (hPort k) % 2
  let n := s.rd (hNode k)
  let x := s.canNode p n
  if s.canTalks p then (s.canPost p fn n x.note ws).setCanNode p n { x with note := (x.note + 1) % 512 } else s

/-- EVENT_NOTE PENDING and MBX ATTN. -/
def State.notePending (s : State) (k : Nat) : State := s.canNote k 4 [8 * 2 ^ 28, s.tgtStat (s.rd (hTarget k))]
def State.noteAttn (s : State) (k : Nat) : State :=
  s.canNote k 5 [8 * 2 ^ 28, s.attnMask k % 2 ^ 32, s.attnMask k / 2 ^ 32]

/-- The slots on CAN nodes. -/
def State.canSlots (s : State) : List Nat := (List.range 15).filter fun k => s.on (hEn k) && s.rd (hClass k) == 2

/-- A PENDING note to slot k's node is due: it is sent with the end of the cycle, with what a CLAIM of the cycle leaves (R643, the table at
the edges of spec/14). -/
def State.pendingDue (s : State) (k : Nat) : State :=
  let p := s.rd (hPort k) % 2
  s.setCanNode p (s.rd (hNode k)) { s.canNode p (s.rd (hNode k)) with due := true }

/-- The PENDING note that is due to slot k's node is sent. -/
def State.pendingSend (s : State) (k : Nat) : State :=
  let p := s.rd (hPort k) % 2
  let x := s.canNode p (s.rd (hNode k))
  if x.due then (s.setCanNode p (s.rd (hNode k)) { x with due := false }).notePending k else s

/-- Slot k's node is told of attention that has come, and of an IRQ that has risen with the end of the cycle (R643, R645). -/
def State.canTell (s : State) (k : Nat) : State :=
  let p := s.rd (hPort k) % 2
  let n := s.rd (hNode k)
  let irq := s.irq (s.rd (hTarget k))
  let attn := s.attnMask k != 0
  let x := s.canNode p n
  let s := s.setCanNode p n { x with irq := irq, attn := attn, due := x.due || irq && !x.irq }
  if attn && !x.attn then s.noteAttn k else s

/-- The notes that are due go out with the end of the cycle. -/
def State.pendingNotes (s : State) : State := s.canSlots.foldl State.pendingSend s

/-- Every CAN slot is told of what has risen. -/
def State.canNotes (s : State) : State := s.canSlots.foldl State.canTell s

end Sys2Proof.Machine
end

