-- ==== Sys2Proof/Machine/Port.lean ====
section
/-! DEFINITION. A frame on an SPI or I2C port (spec/13): its bytes and CRC on the wires, the slot it belongs to, the status byte, what it is
refused for before it acts, and its result. -/

namespace Sys2Proof.Machine

open F

/-! ### Bytes on the wires (R561 to R564, R577, R578) -/

/-- One bit of the CRC register: polynomial 0x07, most significant bit first. -/
def crc8Bit (c : Nat) : Nat := 2 * c % 256 ^^^ 7 * (c / 128)

/-- CRC-8 with initial value 0xFF, no reflection and no final XOR (R563). -/
def crc8 (bytes : List Nat) : Nat :=
  bytes.foldl (fun c b => crc8Bit (crc8Bit (crc8Bit (crc8Bit (crc8Bit (crc8Bit (crc8Bit (crc8Bit (c ^^^ b % 256))))))))) 0xFF

/-- Bytes 0 to 4 of a frame: the opcode, the address field, LEN (R562). -/
def headerBytes (op field len : Nat) : List Nat := [op, field % 256, field / 2 ^ 8 % 256, field / 2 ^ 16 % 256, len % 256]

/-- The address bits that are set though the opcode reserves them; `mask` are the bits it gives a meaning (R567). -/
def wireReserved (w : Wire) (mask : Nat) : Nat := w.rsv.toNat &&& (0xFFFFFF ^^^ mask)

/-- The CRC byte is that of the frame: over bytes 0 to the byte before it (R563). -/
def wireFits (w : Wire) (header payload : List Nat) : Bool := w.crc.toNat == crc8 (header ++ bytesOf payload)

/-- How a frame goes on behind its header: not at all, with N payload words in, or with N data words out (R562). -/
inductive Shape where
  | one
  | write (n : Nat)
  | read (n : Nat)
  deriving DecidableEq, Repr

/-- A frame's data, filled with zero words to the N that it returns. -/
def padTo (sh : Shape) (d : List Nat) : List Nat :=
  match sh with
  | .read n => d ++ List.replicate (n - d.length) 0
  | _ => d

/-- The bytes the hub sends: on SPI the status byte, 0xFF until the data, the data and its CRC; in an I2C read transaction the same without
the 0xFF. The CRC of a rejected frame is inverted (R562 to R564, R578). -/
def sentBytes (p status : Nat) (sh : Shape) (acted : Bool) (d : List Nat) : List Nat :=
  match sh with
  | .read _ =>
    let c := crc8 (bytesOf d)
    (if p < 4 then status :: List.replicate 9 0xFF else [status]) ++ bytesOf d ++ [if acted then c else 255 - c]
  | _ => if p < 4 then [status] else []

/-- The bytes of an I2C write transaction that the hub acknowledges: all but a CRC byte that fails, and none behind an undefined opcode
(R577). -/
def ackedBytes (sh : Shape) (c : Code) : Nat :=
  if c = .badOpcode then 1
  else
    let n := match sh with | .one => 1 | .write n => 6 + 4 * n | .read _ => 6
    if c = .badCrc then n - 1 else n

/-- The hub sends a frame's bytes. -/
def State.send (s : State) (p : Nat) (sh : Shape) (acted : Bool) (c : Code) (d : List Nat) : State :=
  { s with hst := { s.hst with sdo := sentBytes p s.hst.status sh acted d, acks := if p < 4 then s.hst.acks else ackedBytes sh c } }

/-- Byte `i` of the last frame's answer; 0xFF behind its last one (R562, R578). -/
def State.sdoByte (s : State) (i : Nat) : Nat := s.hst.sdo.getD i 0xFF

/-- HSnSDO at bit `i` of the frame, most significant bit first, and high-impedance while CS_N is high (R561). -/
def State.sdoPin (s : State) (csHigh : Bool) (i : Nat) : Option Bool :=
  if csHigh then none else some ((s.sdoByte (i / 8)).testBit (7 - i % 8))

/-! ### What refuses a frame before it acts -/

/-- A frame's words: N is 1 to 64 (R562, R568). -/
def badWords (n : Nat) : Bool := n == 0 || decide (64 < n)

/-- LEN outside the opcode's set (R568), a CRC that fails (R564), a reserved address bit (R568), in that order. -/
def wireRefuses (w : Wire) (lenOk : Bool) (op field mask len : Nat) (payload : List Nat) : Option Code :=
  if !lenOk then some .badLength
  else if !wireFits w (headerBytes op (field + wireReserved w mask) len) payload then some .badCrc
  else if wireReserved w mask ≠ 0 then some .reservedEncoding
  else none

/-! ### A frame -/

/-- The status byte (R566); an unbound port has no target and no channels. -/
def State.statusByte (s : State) (p : Nat) (k : Option Slot) : Nat :=
  let c := s.lastOf p / 256 % 16
  let bits := match k with
    | some k => bitIf (s.irq (s.rd (hTarget k.val))) 6 + bitIf (s.attnMask k.val != 0) 5
    | none => 0
  bits + bitIf (c != 0) 4 + c

/-- HSnIRQ_N and HInIRQ_N, ports 0 to 3 and 4 and 5 (R559): low while the IRQ of the bound slot's target is asserted; push-pull on SPI,
open-drain on I2C, and released while the port has no enabled slot. -/
def State.irqPin (s : State) (p : Nat) : Option Bool :=
  match s.portSlot p with
  | none => none
  | some k => if s.irq (s.rd (hTarget k.val)) then some false else if p < 4 then some true else none

/-- HSnWAKE_N is driven low (R560). -/
def State.wakePinLow (s : State) (n : Nat) : Bool :=
  (List.range 15).any fun k => s.on (hWaking k) && s.rd (hWake k) == 1 && s.rd (hPort k) == n

/-- A frame starts on port p (R557, R561, R566): SCK selects mode 0 or 3; the slot it belongs to, and its status byte. -/
def State.open_ (s : State) (p : Nat) (high : Bool) : Option Slot × State :=
  let s := s.frameStart p
  let k := s.portSlot p
  let t := { s with hst := { s.hst with status := s.statusByte p k } }
  (k, if p < 4 then t.wr (hMode3 p) high.toNat else t)

/-- A frame ends with a result (R566, R574): the answer and its bytes, the last result of the port and of the slot, the counts. -/
def State.close (s : State) (p : Nat) (k : Option Slot) (sh : Shape) (acted : Bool) (c : Code) (d : List Nat) : State :=
  let d := padTo sh d
  let s := ((s.say c d).send p sh acted c d).setLast p c
  (match k with | some k => s.wr (hLast k.val) c.val | none => s).countPort p c

/-- The port answers no frame now (R234). -/
def State.portShut (s : State) (p : Nat) : Bool := s.asleep || s.deaf || !s.portUp p

/-- The frame started sooner than 300 ns after the last CS_N rise on an SPI port (R575). -/
def tooSoon (p : Nat) (w : Wire) : Bool := decide (p < 4) && w.soon

/-- The meaning of a frame on an SPI or I2C port: turned away (R234), too soon (R575), unbound (R552), refused, or served in the name of its
slot; `reads` tells the opcodes that M10 serves a non-secure slot (R236), and `renew` what the access of a frame that M10 alone refuses does
to the slot's leases (R586). (DESIGN CHOICE, log 137; DEDUCED, log 169.) -/
def frame (p : Port) (w : Wire) (sh : Shape) (reads : Bool) (refused : Option Code) (s : State)
    (op : Slot → State → Code × State × List Nat) (renew : Slot → State → State := fun _ s => s) : Out :=
  .next (if s.portShut p.val then s.turnedAway (some p.val)
    else
      let (k, s) := s.open_ p.val w.high
      if tooSoon p.val w then s.close p.val k sh false .busy []
      else match k with
      | none => s.close p.val none sh false .notInMode []
      | some k =>
        let s := s.marked k.val
        if !reads && s.m10Refuses k.val then (if refused.isNone then renew k s else s).close p.val (some k) sh false .notInMode []
        else match refused with
        | some c => s.close p.val (some k) sh false c []
        | none =>
          let r := op k s
          r.2.1.close p.val (some k) sh true r.1 r.2.2)

/-- A read-type frame of N words (R562). -/
def readFrame (p : Port) (w : Wire) (reads : Bool) (op field mask n : Nat) (s : State)
    (act : Slot → State → Code × State × List Nat) : Out :=
  frame p w (.read n) reads (wireRefuses w (!badWords n) op field mask (n - 1) []) s act

/-- A write-type frame with its payload words. -/
def writeFrame (p : Port) (w : Wire) (op field mask : Nat) (payload : List Nat) (s : State) (act : Slot → State → Res)
    (renew : Slot → State → State := fun _ s => s) : Out :=
  frame p w (.write payload.length) false (wireRefuses w (!badWords payload.length) op field mask (payload.length - 1) payload) s
    (fun k s => let r := act k s; (r.1, r.2, [])) renew

/-- A frame that ends early, with a clock edge or without one (R565, R580): of its bytes, whose number stands in `wire.rsv`, an I2C port has
acknowledged every one (R577). (DESIGN CHOICE, log 137.) -/
def State.shortFrame (s : State) (p : Nat) (sck : Bool) (wire : Wire) : State :=
  if s.portShut p then s.turnedAway (some p)
  else
    let s := (s.open_ p wire.high).2.send p .one false .badLength []
    let s := if p < 4 then s else { s with hst := { s.hst with acks := wire.rsv.toNat } }
    if !sck then s
    else if tooSoon p wire then s.close p (s.portSlot p) .one false .busy []
    else s.cutShort p

/-- A command that comes by its opcode on the slot's port, or without a frame of its own: through a register or the dictionary, or from the
Steward. (DESIGN CHOICE, log 14.) -/
def byWire (slot : Slot) (wire : Option Wire) (s : State) (plain : Out) (framed : Port → Wire → Out) : Out :=
  match wire, s.sendPort slot.val with
  | some w, some p => if p < 6 then framed (Fin.ofNat 6 p) w else plain
  | _, _ => plain

/-- A read-type command with a fixed LEN of N words. -/
def fixedRead (slot : Slot) (wire : Option Wire) (op field mask n : Nat) (s : State) (act : Slot → State → Code × State × List Nat) : Out :=
  byWire slot wire s (hostData slot s (act slot)) fun p w =>
    frame p w (.read n) false (wireRefuses w (w.len.toNat == n - 1) op field mask w.len.toNat []) s act

/-- A write-type command with a fixed LEN. -/
def fixedWrite (slot : Slot) (wire : Option Wire) (op field mask : Nat) (payload : List Nat) (s : State) (act : Slot → State → Res) : Out :=
  byWire slot wire s (hostFree slot s (act slot)) fun p w =>
    frame p w (.write payload.length) false
      (wireRefuses w (w.len.toNat == payload.length - 1) op field mask w.len.toNat payload) s fun k s => let r := act k s; (r.1, r.2, [])

end Sys2Proof.Machine
end

