-- ==== Sys2Proof/Machine/Icu.lean ====
section
/-! DEFINITION. The event controller (spec/11): rounds, records, claims, ends of service, and its register writes. -/

namespace Sys2Proof.Machine

open F

/-! ### Rounds (R476 to R478) -/

/-- A pending source that some target would take. -/
def State.canAssign (s : State) (t n : Nat) : Bool := s.pendingFor t n && s.accepting t n

/-- The better of a candidate and the best so far: higher priority, then the lower number; the numbers come in rising order. -/
def State.bestSource (s : State) : List Nat → Option Nat → Option Nat
  | [], b => b
  | n :: t, b =>
    State.bestSource s t
      (if targets.any fun t => s.canAssign t n then
        match b with | some m => if s.srcPrio m < s.srcPrio n then some n else b | none => some n
       else b)

/-- The winner of a round. -/
def State.winner (s : State) : Option Nat := s.bestSource (List.range 512) none

/-- Targets in cyclic order after `last`. -/
def afterTarget (last : Nat) : List Nat := (List.range 8).map fun i => (last + 1 + i) % 8

/-- One arbitration round: the winner is assigned to the first of its accepting targets after its last one. -/
def State.icuRound (s : State) : State :=
  match s.winner with
  | none => s
  | some n =>
    match (afterTarget (Assoc.get 7 n s.icu.last)).find? fun t => s.canAssign t n with
    | none => s
    | some t => { s with icu := { s.icu with
        asg := s.icu.asg ++ [{ tgt := t, src := n, prio := s.srcPrio n }], last := Assoc.put 7 n t s.icu.last } }

def execIcuRound (s : State) : Out := event (if s.running then s.icuRound else s)

/-! ### Records (R480) -/

/-- Ring t, waiting to be disabled, goes down once nothing is left to publish (R480). -/
def State.icuRingOff (s : State) (t : Nat) : State :=
  if s.icu.ringOff.contains t && !(s.icu.asg.any (·.tgt == t)) then s.resetTgt t else s

/-- The first record assigned to t is written and published. -/
def State.icuPublish (s : State) (t : Nat) : State :=
  match s.icu.asg.find? (·.tgt == t) with
  | none => s
  | some a =>
    ((s.canNotes.icuRecord t a).icuRingOff t).canNotes

/-- The port serves the ICU at its grant, which a burst under way precedes (R724). -/
def execIcuRecordPublish (t : Fin 8) (s : State) : Out := event (if s.running && !s.portHeld then s.icuPublish t.val else s)

/-! ### Claim and end of service (R484 to R489) -/

/-- A slot's right to target t's claims: bound to t, or secure (R484). -/
def tgtAccess (slot : Slot) (t : Nat) (s : State) (k : Code × State × List Nat) : Code × State × List Nat :=
  if s.secure slot.val then k
  else if !s.boundTo slot.val t then (.ownedElsewhere, s, [])
  else if s.on (iSecure t) then (.secureOnly, s, [])
  else k

/-- The head record of t is claimed: its words, and the result. -/
def State.icuClaim (s : State) (t : Nat) : Code × State × List Nat :=
  let x := s.tgt t
  match x.queue with
  | [] => (.empty, s.wr (iClaimNs t) 0, [0x3FF, 0])
  | r :: q =>
    if 8 ≤ x.stack.length then (.busy, (s.setBits iNotice 2).wr (iClaimNs t) 0, [0x3FF, 0])
    else
      let s1 := (s.wr (rRidx t) (s.rd (rRidx t) + 8)).wr (iClaimNs t) r.ns
      if s.raisedFor t r.src && s.tmask r.src t then
        let p := match s.runPrio t with | some p => max p r.prio | none => r.prio
        (.done, s1.setTgt t { x with queue := q, stack := { r with prio := p } :: x.stack }, r.words)
      else
        (.done, ((s1.setTgt t { x with queue := q }).bump (iSpur t)).setBits iNotice 1, { r with src := 1023 }.words)

/-- (DEDUCED, log 84.) -/
def opClaim (slot : Slot) (t : Nat) (s : State) : Code × State × List Nat :=
  tgtAccess slot t s ((s.icuClaim t).1, (s.icuClaim t).2.1.canNotes, (s.icuClaim t).2.2)

/-- The target a slot's EVENT_CLAIM and EVENT_EOI act on; the Steward is bound to none. -/
def State.slotTarget (s : State) (k : Nat) : Nat := s.rd (hTarget k)

/-- EVENT_CLAIM: the record of the slot's own target (R485). -/
def opEventClaim (slot : Slot) (s : State) : Code × State × List Nat :=
  if slot.val = 16 then (.ownedElsewhere, s, []) else opClaim slot (s.slotTarget slot.val) s

def execEventClaim (way : Way) (s : State) : Out := fixedRead way.slot way.wire 0x50 0 0 2 s opEventClaim

/-- The top of t's stack ends, if it is `src` (R488, R489). -/
def State.icuEoi (s : State) (t src : Nat) : Res :=
  let x := s.tgt t
  match x.stack with
  | r :: st => if r.src = src ∧ src ≠ 1023 then (.done, s.setTgt t { x with stack := st }) else (.notInMode, s.setBits iNotice 4)
  | [] => (.notInMode, s.setBits iNotice 4)

def opEoi (slot : Slot) (t src : Nat) (s : State) : Res :=
  if s.secure slot.val then s.icuEoi t src
  else if !s.boundTo slot.val t then (.ownedElsewhere, s)
  else if s.on (iSecure t) then (.secureOnly, s)
  else s.icuEoi t src

def opEventEoi (slot : Slot) (src : Nat) (s : State) : Res :=
  if slot.val = 16 then (.ownedElsewhere, s) else opEoi slot (s.slotTarget slot.val) src s

def execEventEoi (way : Way) (src : BitVec 10) (s : State) : Out :=
  fixedWrite way.slot way.wire 0x51 0 0 [src.toNat] s fun k => opEventEoi k src.toNat

/-! ### Register writes -/

/-- The latched sources among the set bits of ICU_LATCH[w]. -/
def latchBits (w v : Nat) : List Nat := ((List.range 32).map fun b => 32 * w + b).filter fun n => isLatched n && v.testBit (n % 32)

/-- ICU_LATCH[w] (R468): a non-secure slot clears only sources that its own target receives. -/
def opLatchClear (slot : Slot) (w v : Nat) (s : State) : Res :=
  let mine := fun n => decide (slot.val < 16) && s.tmask n (s.slotTarget slot.val)
  if !s.secure slot.val && (latchBits w v).any (fun n => s.bit (iLatch w) (n % 32) && !mine n) then (.secureOnly, s)
  else (.done, s.clrBits (iLatch w) v)

def execLatchClear (slot : Slot) (w : Fin 16) (value : Word) (s : State) : Out := host slot s (opLatchClear slot w.val value.toNat)

/-- ICU_LBRK (R470). -/
def opLbrkClear (slot : Slot) (v : Nat) (s : State) : Res := secureOnly slot s (.done, s.clrBits iLbrk (v % 256))
def execLbrkClear (slot : Slot) (value : Word) (s : State) : Out := host slot s (opLbrkClear slot value.toNat)

/-- RESET of target t (R491): from a secure slot, or a slot bound to t. (DEDUCED, log 86.) -/
def opTargetReset (slot : Slot) (t : Nat) (s : State) : Res :=
  if s.secure slot.val || s.boundTo slot.val t then (.done, (s.resetTgt t).canNotes) else (.ownedElsewhere, s)
def execTargetReset (slot : Slot) (t : Fin 8) (s : State) : Out := host slot s (opTargetReset slot t.val)

/-- ICU_CTRL.PRIGRP (R472). -/
def opPrigrpWrite (slot : Slot) (v : Nat) (s : State) : Res :=
  if !s.secure slot.val && v % 8 != s.rd iPrigrp then (.secureOnly, s)
  else if targets.any fun t => !(s.tgt t).stack.isEmpty then (.busy, s)
  else (.done, s.wr iPrigrp v)
def execPrigrpWrite (slot : Slot) (value : Word) (s : State) : Out := host slot s (opPrigrpWrite slot value.toNat)

/-- ICU_SRCCFG[n] (R498): a non-secure slot changes only its own target's TMASK bit, and not of source 496. -/
def opSrccfgWrite (slot : Slot) (n v : Nat) (s : State) : Res :=
  let prio := v / 2 ^ 16 % 256
  let mask := v % 256
  let diff := mask ^^^ s.rd (iTmask n)
  let own := if slot.val < 16 then 2 ^ s.slotTarget slot.val else 0
  if !s.secure slot.val && (prio != s.rd (iPrio n) || !(diff = 0 || (diff = own && n != 496))) then (.secureOnly, s)
  else (.done, (s.wr (iPrio n) prio).wr (iTmask n) mask)
def execSrccfgWrite (slot : Slot) (src : Fin 512) (value : Word) (s : State) : Out :=
  host slot s (opSrccfgWrite slot src.val value.toNat)

/-- ICU_TGTCFG[t] (R497). -/
def opTgtcfgWrite (slot : Slot) (t v : Nat) (s : State) : Res :=
  if !s.secure slot.val && !s.boundTo slot.val t then (.ownedElsewhere, s)
  else if !s.secure slot.val && v / 2 ^ 31 % 2 != s.rd (iSecure t) then (.secureOnly, s)
  else
    (.done, ((((((s.wr (iSecure t) (v / 2 ^ 31)).wr (iWakeEn t) (v / 2 ^ 24)).wr (iWakePrio t) (v / 2 ^ 16)).wr (iQlimit t) (v / 2 ^ 8)).wr
      (iMode t) (v / 2)).wr (iGdis t) v))
def execTgtcfgWrite (slot : Slot) (t : Fin 8) (value : Word) (s : State) : Out := host slot s (opTgtcfgWrite slot t.val value.toNat)

end Sys2Proof.Machine
end

