-- ==== Sys2Proof/Machine/RadOps.lean ====
section
/-! DEFINITION. Accessors of the partner table, the sweeps and the radio ports (spec/15, spec/16). -/

namespace Sys2Proof.Machine

open F

def State.ptr (s : State) (a : Nat) : Partner := Assoc.get Partner.init a s.ptn.table
def State.setPtr (s : State) (a : Nat) (x : Partner) : State :=
  { s with ptn := { s.ptn with table := Assoc.put Partner.init a x s.ptn.table } }

def State.sweep (s : State) (n : Nat) : SweepS := Assoc.get SweepS.init n s.swp
def State.setSweep (s : State) (n : Nat) (x : SweepS) : State := { s with swp := Assoc.put SweepS.init n x s.swp }

def State.radio (s : State) (p : Nat) : RadS := Assoc.get RadS.init p s.rad
def State.setRadio (s : State) (p : Nat) (x : RadS) : State := { s with rad := Assoc.put RadS.init p x s.rad }

/-- A flag of RAD_EVT[p] and of PTN_PEVT[p]. -/
def State.radFlag (s : State) (p i : Nat) : State := s.setBits (aEvt p) (2 ^ i)
def State.ptnFlag (s : State) (p i : Nat) : State := s.setBits (pEvt p) (2 ^ i)

end Sys2Proof.Machine
end

