-- ==== Sys2Proof/Machine/Ring.lean ====
section
/-! DEFINITION. Rings (spec/12): RING_READ and RING_WRITE, index writes, flush, and the Rack. -/

namespace Sys2Proof.Machine

open F

/-- A slot's right to a ring as its producer or consumer `role` (R481, R508, R510): SECURE_ONLY before OWNED_ELSEWHERE. (DEDUCED, log 88.) -/
def State.ringRight (s : State) (slot r : Nat) (role : Fld) : Option Code :=
  if s.on (rSecure r) && !s.secure slot then some .secureOnly
  else if r < 8 || !(s.rd role == slot || s.rd role == 0x1F) then some .ownedElsewhere
  else if !s.on (rEn r) then some .notInMode
  else none

/-- The whole published items from index `i` that fit in `room` bytes, `left` bytes being published: their number of bytes. -/
def State.wholeBytes (s : State) (r i room left : Nat) : Nat → Nat
  | 0 => 0
  | fuel + 1 =>
    let n := s.itemSize r i
    if left < 4 ∨ left < n ∨ room < n then 0 else n + State.wholeBytes s r (i + n) (room - n) (left - n) fuel

/-- The copy of RING_READ (R523, R524): the result, the bytes of the items copied, and the N words. -/
def State.ringCopy (s : State) (slot : Slot) (r words : Nat) : Code × Nat × List Nat :=
  let zeros := List.replicate words 0
  if words = 0 ∨ 64 < words then (.badLength, 0, zeros)
  else if 48 ≤ r then (.noSuchAddress, 0, zeros)
  else match s.ringRight slot.val r (rCons r) with
  | some c => (c, 0, zeros)
  | none =>
    let i := s.rd (rRidx r)
    let n := s.itemSize r i
    if s.fill r < 4 ∨ s.fill r < n then (.empty, 0, zeros)
    else if 4 * words < n then (.badLength, 0, zeros)
    else
      let b := s.wholeBytes r i (4 * words) (s.fill r) 64
      (.done, b, s.ringGet r i (b / 4) ++ List.replicate (words - b / 4) 0)

/-- RING_READ of N words that comes without a frame: RIDX moves at once. -/
def opRingRead (slot : Slot) (r : Nat) (peek : Bool) (words : Nat) (s : State) : Code × State × List Nat :=
  let c := s.ringCopy slot r words
  (c.1, if peek || c.2.1 == 0 then s else s.wr (rRidx r) (s.rd (rRidx r) + c.2.1), c.2.2)

/-- RING_READ in a frame of port p: the copy of the turnaround; RIDX moves when CS_N rises (R524). -/
def opRingReadFrame (p : Nat) (slot : Slot) (r : Nat) (peek : Bool) (words : Nat) (s : State) : Code × State × List Nat :=
  let c := s.ringCopy slot r words
  let a : RingAdv := { port := p, ring := r, upTo := (s.rd (rRidx r) + c.2.1) % 2 ^ 32 }
  (c.1, if peek || c.2.1 == 0 then s else { s with hst := { s.hst with reads := s.hst.reads ++ [a] } }, c.2.2)

/-- A RING_READ that is cut short without wires to show (R565). -/
def State.cutRead (s : State) (slot : Nat) (p : Option Nat) : State :=
  if !s.serves slot then s.turnedAway p
  else
    let t := s.frameIn slot
    match p with
    | some p => if t.bound slot then t.cutShort p else t.stranger (some p)
    | none => t.say .badLength

/-- RING_READ; without `complete` its frame ends before its last byte, acts on nothing and leaves the last result (R561, R565, R575). -/
def execRingRead (way : Way) (r : Fin 64) (peek : Bool) (words : Nat) (complete : Bool) (s : State) : Out :=
  if complete then
    byWire way.slot way.wire s (hostData way.slot s (opRingRead way.slot r.val peek words)) fun p w =>
      readFrame p w false 0x30 (r.val + if peek then 2 ^ 8 else 0) 0x13F words s fun k =>
        opRingReadFrame p.val k r.val peek words
  else .next (match way.wire, s.sendPort way.slot.val with
    | some w, some p => if p < 6 then s.shortFrame p true w else s.cutRead way.slot.val (some p)
    | _, p => s.cutRead way.slot.val p)

/-- The items that a payload frames, if its length words fill it exactly (R525). -/
def State.framed (s : State) (r : Nat) (ws : List Nat) : Nat → Option (List (List Nat))
  | 0 => if ws.isEmpty then some [] else none
  | fuel + 1 =>
    match ws with
    | [] => some []
    | w :: _ =>
      let n := if s.on (rVar r) then 1 + (w % 2 ^ 16 + 3) / 4 else 2 ^ s.rd (rIsz r)
      if (s.on (rVar r) ∧ (w % 2 ^ 16 = 0 ∨ 65532 < w % 2 ^ 16 ∨ s.ringSize r < 4 * n)) ∨ ws.length < n then none
      else (State.framed s r (ws.drop n) fuel).map (ws.take n :: ·)

/-- PARTIAL and PCOUNT record what a FLUSH discarded unpublished (R519, R521). -/
def State.partialNote (s : State) (r : Nat) : State := (s.wr (rPartial r) 1).bump (rPcount r)

/-- RING_WRITE (R525): the frame is published with the end of its cycle; a FLUSH in that cycle discards it whole (R521). (DEDUCED, log 89;
DEDUCED, log 168.) -/
def opRingWrite (slot : Slot) (r : Nat) (ws : List Nat) (s : State) : Res :=
  if ws.length = 0 ∨ 64 < ws.length then (.badLength, s)
  else if 48 ≤ r then (.noSuchAddress, s)
  else match s.ringRight slot.val r (rProd r) with
  | some c => (c, s)
  | none =>
    match s.framed r ws 64 with
    | none => (.badLength, s)
    | some items =>
      if s.ended.contains (.flush r) then (.aborted, s.partialNote r)
      else if !s.on (rPolicy r) && decide (s.ringSize r < s.fill r + 4 * ws.length) then (.full, s.ringLose r items.length)
      else
        let m := Ended.write r slot.val (s.rd (rWidx r)) (s.rd (rDropped r)) (s.rd (rDrop r))
        (.done, items.foldl (fun s it => (s.offer r it).2) { s with ended := m :: s.ended })

def execRingWrite (slot : Slot) (r : Fin 64) (payload : List Word) (wire : Option Wire) (s : State) : Out :=
  byWire slot wire s (hostFree slot s (opRingWrite slot r.val (payload.map (·.toNat)))) fun p w =>
    writeFrame p w 0x31 r.val 0x3F (payload.map (·.toNat)) s fun k => opRingWrite k r.val (payload.map (·.toNat))

/-- RNG_WIDX (R514). -/
def opWidxWrite (slot : Slot) (r v : Nat) (s : State) : Res :=
  match s.ringRight slot.val r (rProd r) with
  | some c => (c, s)
  | none =>
    let adv := (v + 2 ^ 32 - s.rd (rWidx r)) % 2 ^ 32
    if s.ringSize r - s.fill r < adv || !s.wholeItems r adv then (.outOfRange, s) else (.done, s.publish r adv)

/-- RNG_RIDX (R515). -/
def opRidxWrite (slot : Slot) (r v : Nat) (s : State) : Res :=
  match s.ringRight slot.val r (rCons r) with
  | some c => (c, s)
  | none => match s.ridxRefused r v with
    | some c => (c, s)
    | none => (.done, s.wr (rRidx r) v)

def execWidxWrite (slot : Slot) (r : Fin 48) (value : Word) (s : State) : Out := hostReg slot s (opWidxWrite slot r.val value.toNat)
def execRidxWrite (slot : Slot) (r : Fin 48) (value : Word) (s : State) : Out := hostReg slot s (opRidxWrite slot r.val value.toNat)

/-- A partly written item of ring r is discarded (R519): one whose words the ring write port moves, or a radio port's receive item under
construction. -/
def State.dropPartial (s : State) (r : Nat) : State :=
  let begun := fun (it : PortItem) => it.ring == r && decide (0 < it.moved)
  let s := if s.port.wait.any begun then
      State.partialNote { s with port := { s.port with run := 0, wait := s.port.wait.filter fun it => !begun it } } r
    else s
  if 16 ≤ r ∧ r < 24 ∧ (s.radio (r - 16)).rx.isSome then
    (s.setRadio (r - 16) { s.radio (r - 16) with rx := none }).partialNote r
  else s

/-- The result of a slot's earlier frame becomes ABORTED (R521): its last result, and its port's. -/
def State.frameAborted (s : State) (slot : Nat) : State :=
  let s := if slot < 16 then s.wr (hLast slot) Code.aborted.val else s
  match s.portOf slot with | some p => (s.setLast p .aborted).countPort p .aborted | none => s

/-- The RING_WRITE frames of this cycle on ring r are discarded, the newest first: the ring stands as before them (R521). -/
def State.dropWrites (s : State) (r : Nat) : List Ended → State
  | [] => s
  | .write q slot widx dropped drop :: t =>
    State.dropWrites
      (if q = r then ((((s.wr (rWidx r) widx).wr (rDropped r) dropped).wr (rDrop r) drop).partialNote r).frameAborted slot else s) r t
  | _ :: t => State.dropWrites s r t

/-- The slots that manage ring r: its consumer, or a secure slot (R520 and the Rack). -/
def State.ringManager (s : State) (slot r : Nat) : Option Code :=
  if s.secure slot then none
  else if s.on (rSecure r) then some .secureOnly
  else if s.rd (rCons r) == slot || s.rd (rCons r) == 0x1F then none
  else some .ownedElsewhere

/-- FLUSH (R519, R520); of rings 0 to 7, RESET of the target. -/
def opFlush (slot : Slot) (r : Nat) (s : State) : Res :=
  if r < 8 then opTargetReset slot r s
  else match s.ringManager slot.val r with
    | some c => (c, s)
    | none =>
      let s := s.dropWrites r s.ended
      let s := { s with ended := .flush r :: s.ended.filter fun e => match e with | .write q .. => q != r | _ => true }
      (.done, (s.wr (rRidx r) (s.rd (rWidx r))).dropPartial r)

def execFlush (slot : Slot) (r : Fin 48) (s : State) : Out := host slot s (opFlush slot r.val)

/-! ### The Rack (R506 to R509) -/

/-- The fields of RNG_CFG[r]. -/
def rngCfgFlds (r : Nat) : List Fld := [rEn r, rSecure r, rPolicy r, rSize r, rVar r, rIsz r, rProd r, rCons r]

/-- Two spans of bytes overlap. -/
def overlap (a n b m : Nat) : Bool := decide (a < b + m) && decide (b < a + n)

/-- What enabling ring r requires of its storage (R509), as the state now holds it. -/
def State.ringFits (s : State) (r : Nat) : Bool :=
  decide (s.ringBase r + s.ringSize r ≤ 0x100000) &&
    (List.range 48).all fun q => q == r || !s.on (rEn q) || !overlap (s.ringBase r) (s.ringSize r) (s.ringBase q) (s.ringSize q)

/-- Ring r is enabled: indices and flags cleared (R509). -/
def State.ringEnable (s : State) (r : Nat) : State :=
  ((((s.wr (rEn r) 1).wr (rWidx r) 0).wr (rRidx r) 0).wr (rDrop r) 0).wr (rPartial r) 0

/-- Ring r is disabled, an ICU ring once its records are out (R480). -/
def State.ringDisable (s : State) (r : Nat) : State :=
  if r < 8 then
    if s.icu.asg.any (·.tgt == r) then { s with icu := { s.icu with ringOff := r :: s.icu.ringOff } }
    else (s.resetTgt r).wr (rEn r) 0
  else s.wr (rEn r) 0

/-- Some writable field of a word is a reserved encoding, or a non-secure slot would change it. -/
def State.wordRefused (s : State) (slot w : Nat) (l : List Fld) : Option Code :=
  let wl := l.filter fun f => f.ty == .rw || f.ty == .rws
  if !s.secure slot && wl.any (fun f => f.ty == .rws && f.ofWord w != s.rd f) then some .secureOnly
  else if wl.any (fun f => f.isReserved (f.ofWord w)) then some .reservedEncoding
  else if wl.any (fun f => f.isOutOfRange (f.ofWord w)) then some .outOfRange
  else none

/-- RNG_CFG[r] (R509, R766). -/
def opRngCfgWrite (slot : Slot) (r v : Nat) (s : State) : Res :=
  match s.wordRefused slot.val v (rngCfgFlds r) with
  | some c => (c, s)
  | none =>
    let en := decide (v / 2 ^ 31 % 2 = 1)
    if s.on (rEn r) then
      if !en && (rngCfgFlds r).tail.all (fun f => !(f.ty == .rws) || f.ofWord v == s.rd f) then (.done, (s.ringDisable r).canNotes)
      else (.busy, s)
    else
      let s1 := (s.wrWord v (rngCfgFlds r)).wr (rEn r) 0
      if !en then (.done, s1)
      else if s1.ringFits r then (.done, s1.ringEnable r)
      else (.outOfRange, s)

def execRngCfgWrite (slot : Slot) (r : Fin 48) (value : Word) (s : State) : Out := host slot s (opRngCfgWrite slot r.val value.toNat)

/-- RNG_BASE[r] (R509): an enabled ring's base does not change. -/
def opRngBaseWrite (slot : Slot) (r v : Nat) (s : State) : Res :=
  match s.wordRefused slot.val v [rOfs r] with
  | some c => (c, s)
  | none =>
    if s.on (rEn r) then (.busy, s) else (.done, s.wrWord v [rOfs r])

/-- RNG_THR[r] and RNG_EVT[r]: from the consumer or a secure slot. -/
def opRngThrWrite (slot : Slot) (r v : Nat) (s : State) : Res :=
  match s.ringManager slot.val r with | some c => (c, s) | none => (.done, s.wr (rThr r) v)
def opRngEvtWrite (slot : Slot) (r v : Nat) (s : State) : Res :=
  match s.ringManager slot.val r with
  | some c => (c, s)
  | none =>
    let s := s.wr (rEvtEn r) (v / 2 ^ 16)
    let s := if v.testBit 2 then s.wr (rPartial r) 0 else s
    (.done, if v.testBit 1 then s.wr (rDrop r) 0 else s)

/-- RNG_CTL[r]: FLUSH, or a word without it, which is accepted and does nothing. -/
def opRngCtlWrite (slot : Slot) (r v : Nat) (s : State) : Res :=
  if v % 2 = 1 then opFlush slot r s else (.done, s)

end Sys2Proof.Machine
end

