-- ==== Sys2Proof/Machine/Mbx.lean ====
section
/-! DEFINITION. Mailboxes (spec/12): binding, posts, takes, acknowledgements and retractions, by opcode and by register. -/

namespace Sys2Proof.Machine

open F

/-- Channel c exists for a slot (R530). -/
def State.chanSeen (s : State) (slot c : Nat) : Bool := decide (c < 32) || s.secure slot

/-- A slot's right to act on channel c on the side `role` (R530, R531). -/
def State.chanRight (s : State) (slot c : Nat) (role : Fld) : Option Code :=
  if !s.chanSeen slot c then some .noSuchAddress
  else if !s.on (bEn c) then some .notInMode
  else if s.rd role != slot then some .ownedElsewhere
  else none

/-- The class of the port that carries a slot's post (R532). -/
def State.postClass (s : State) (slot : Nat) : Nat := if slot = 16 then 3 else s.rd (hClass slot)

/-- The identity stamp (R532). -/
def State.stampOf (s : State) (slot : Nat) : Nat := (s.secure slot).toNat * 2 ^ 7 + s.postClass slot % 4 * 2 ^ 5 + slot

/-- The receiver of channel c is bound to a rail group that is not up, and the channel wakes (R547). -/
def State.postWakes (s : State) (c : Nat) : Bool :=
  let k := s.rd (bRecv c)
  s.on (bWake c) && decide (k < 16) && s.on (hGrpEn k) && !s.bit qGrpUp (s.rd (hGroup k))

/-- An accepted post (R532 to R536, R547). -/
def State.post (s : State) (slot c st w0 w1 : Nat) : Res :=
  let s := { s with mbx := { held := Assoc.erase c s.mbx.held, w0 := Assoc.put 0 c w0 s.mbx.w0, w1 := Assoc.put 0 c w1 s.mbx.w1 } }
  let s := (((s.wr (bId c) (s.stampOf slot)).wr (bPseq c) (s.rd (bPseq c) + 1)).wr (bState c) st).wr (bMail c) 1
  if s.postWakes c then (.accepted, (s.demand (s.rd (hGroup (s.rd (bRecv c))))).canNotes) else (.done, s.canNotes)

/-- A channel that is not EMPTY, or whose receiver the Steward is not yet ready to be (R230, R534). (DEDUCED, log 90.) -/
def State.postBlocked (s : State) (c : Nat) : Option Res :=
  if s.rd (bRecv c) = 16 ∧ !s.on glbStewardReady then some (.busy, s)
  else if s.rd (bState c) ≠ 0 then some (.full, s.bump (bRefused c))
  else none

/-- A Pinch post (R534). -/
def opPinchPost (slot : Slot) (c w : Nat) (s : State) : Res :=
  match s.chanRight slot.val c (bSend c) with
  | some e => (e, s)
  | none =>
    if s.on (bForm c) then (.badLength, s)
    else match s.postBlocked c with
      | some r => r
      | none => s.post slot.val c 1 w 0

/-- A slot's read access to every region that a range touches (R536). -/
def State.rangeRead (s : State) (slot ofs len : Nat) : Bool :=
  (List.range 64).all fun k => !overlap (k * 0x4000) 0x4000 ofs len ||
    ((s.rd (sbufRd k)).testBit slot && (s.secure slot || !s.on (sbufSecure k)))

/-- A Sachet post (R536). -/
def opSachetPost (slot : Slot) (c w0 w1 : Nat) (s : State) : Res :=
  match s.chanRight slot.val c (bSend c) with
  | some e => (e, s)
  | none =>
    let ofs := w0 % 2 ^ 20
    let len := w1 % 2 ^ 20
    if !s.on (bForm c) then (.badLength, s)
    else if 0x100000 < ofs + len ∨ ofs % 4 ≠ 0 ∨ len = 0 then (.outOfRange, s)
    else if !s.rangeRead (s.rd (bRecv c)) ofs len then (.ownedElsewhere, s)
    else match s.postBlocked c with
      | some r => r
      | none => s.post slot.val c 2 (w0 % 2 ^ 20) w1

/-- MBX_RXID, MBX_RX1 and MBX_RX0 of channel c. -/
def State.rxid (s : State) (c : Nat) : Nat := s.rd (bRefused c) * 2 ^ 16 + s.rd (bPseq c) * 2 ^ 8 + s.rd (bId c)
def State.rx1 (s : State) (c : Nat) : Nat := if s.rd (bState c) = 2 then Assoc.get 0 c s.mbx.w1 else 0
def State.rx0 (s : State) (c : Nat) : Nat := Assoc.get 0 c s.mbx.w0

/-- A waiting message is taken (R535, R537). -/
def State.taken (s : State) (c : Nat) : State :=
  if s.rd (bState c) = 1 then (((s.wr (bState c) 0).wr (bMail c) 0).wr (bSpace c) 1).canNotes
  else ((s.wr (bState c) 3).wr (bMail c) 0).canNotes

/-- A read of MBX_RX0[c] takes (R535, R537, R543). -/
def opRx0Read (slot : Slot) (c : Nat) (s : State) : Code × State × Nat :=
  match s.chanRight slot.val c (bRecv c) with
  | some e => (e, s, 0)
  | none => if s.rd (bState c) = 1 ∨ s.rd (bState c) = 2 then (.done, s.taken c, s.rx0 c) else (.empty, s, 0)

/-- A take by opcode or note: RXID, RX1 and RX0 as their registers read, in that order, so that REFUSED clears with RXID (R543, R544).
A slot that may not take gets zeros. (DEDUCED, log 90.) -/
def opMbxTake (slot : Slot) (c : Nat) (s : State) : Code × State × List Nat :=
  match s.chanRight slot.val c (bRecv c) with
  | some e => (e, s, [0, 0, 0])
  | none =>
    let r := opRx0Read slot c (s.wr (bRefused c) 0)
    (r.1, r.2.1, [s.rxid c, s.rx1 c, r.2.2])

/-- The codes of R14. -/
def isCode (v : Nat) : Bool := Code.all.any fun c => c.val == v

/-- An acknowledgement (R538). -/
def opMbxAck (slot : Slot) (c code : Nat) (s : State) : Res :=
  match s.chanRight slot.val c (bRecv c) with
  | some e => (e, s)
  | none =>
    if !isCode code then (.reservedEncoding, s)
    else if s.rd (bState c) ≠ 3 then (.notInMode, s)
    else (.done, (((s.wr (bRet c) code).wr (bState c) 4).wr (bAcked c) 1).canNotes)

/-- RETRACT (R542). -/
def opRetract (slot : Slot) (c : Nat) (s : State) : Res :=
  match s.chanRight slot.val c (bSend c) with
  | some e => (e, s)
  | none =>
    if s.rd (bState c) = 1 ∨ s.rd (bState c) = 2 then (.done, ((s.wr (bState c) 0).wr (bMail c) 0).canNotes) else (.alreadyDone, s)

/-- The sender's clear of SPACE and ACKED (R531, R539): bits 7 and 6 of the word. -/
def opMbxStatWrite (slot : Slot) (c v : Nat) (s : State) : Res :=
  match s.chanRight slot.val c (bSend c) with
  | some e => (e, s)
  | none =>
    let s := if v.testBit 7 then s.wr (bSpace c) 0 else s
    (.done, (if v.testBit 6 && s.on (bAcked c) then (s.wr (bAcked c) 0).wr (bState c) 0 else s).canNotes)

def execPinchPost (way : Way) (c : Fin 64) (word : Word) (s : State) : Out :=
  fixedWrite way.slot way.wire 0x40 c.val 0x3F [word.toNat] s fun k => opPinchPost k c.val word.toNat
def execSachetPost (way : Way) (c : Fin 64) (tx0 tx1 : Word) (s : State) : Out :=
  fixedWrite way.slot way.wire 0x40 c.val 0x3F [tx0.toNat, tx1.toNat] s fun k => opSachetPost k c.val tx0.toNat tx1.toNat
def execPinchTake (way : Way) (c : Fin 64) (s : State) : Out :=
  fixedRead way.slot way.wire 0x41 c.val 0x3F 3 s fun k => opMbxTake k c.val
def execSachetTake (way : Way) (c : Fin 64) (s : State) : Out :=
  fixedRead way.slot way.wire 0x41 c.val 0x3F 3 s fun k => opMbxTake k c.val
/-- MBX_ACK's word holds CODE in bits 15:0 (R544). -/
def execMbxAck (way : Way) (c : Fin 64) (code : BitVec 16) (s : State) : Out :=
  fixedWrite way.slot way.wire 0x42 c.val 0x3F [code.toNat] s fun k => opMbxAck k c.val code.toNat
def execRetract (slot : Slot) (c : Fin 64) (s : State) : Out := host slot s (opRetract slot c.val)
def execAckedClear (slot : Slot) (c : Fin 64) (s : State) : Out := hostReg slot s (opMbxStatWrite slot c.val (2 ^ 6))

/-- MBX_TX0[c]: a Pinch is posted, a Sachet's word held (R543). -/
def opTx0Write (slot : Slot) (c v : Nat) (s : State) : Res :=
  match s.chanRight slot.val c (bSend c) with
  | some e => (e, s)
  | none =>
    if s.on (bForm c) then (.done, { s with mbx := { s.mbx with held := Assoc.put 0 c v s.mbx.held } })
    else opPinchPost slot c v s

/-- MBX_TX1[c]: the pair is posted (R543). -/
def opTx1Write (slot : Slot) (c v : Nat) (s : State) : Res :=
  match s.chanRight slot.val c (bSend c) with
  | some e => (e, s)
  | none => if s.on (bForm c) then opSachetPost slot c (Assoc.get 0 c s.mbx.held) v s else (.notInMode, s)

/-- MBX_CMD[c]. -/
def opMbxCmd (slot : Slot) (c v : Nat) (s : State) : Res :=
  match v / 2 ^ 30 % 4 with
  | 1 => opRetract slot c s
  | 2 => opMbxAck slot c (v % 2 ^ 16) s
  | _ => if s.chanSeen slot.val c then (.reservedEncoding, s) else (.noSuchAddress, s)

/-! ### Binding (R527 to R529) -/

def bindFlds (c : Nat) : List Fld := [bEn c, bForm c, bWake c, bMailIe c, bSpaceIe c, bAckIe c, bRecv c, bSend c]

/-- What enabling channel c requires (R528). -/
def State.bindOk (s : State) (c w : Nat) : Bool :=
  let snd := (bSend c).ofWord w
  let rcv := (bRecv c).ofWord w
  snd != rcv && snd != 15 && rcv != 15 && (decide (c < 32) || (s.secure snd && s.secure rcv))

/-- Channel c is disabled: emptied, its flags cleared (R529). -/
def State.chanOff (s : State) (c : Nat) : State :=
  let s := { s with mbx := { held := Assoc.erase c s.mbx.held, w0 := Assoc.erase c s.mbx.w0, w1 := Assoc.erase c s.mbx.w1 } }
  ((((s.wr (bEn c) 0).wr (bState c) 0).wr (bMail c) 0).wr (bSpace c) 0).wr (bAcked c) 0

def opMbxBindWrite (slot : Slot) (c v : Nat) (s : State) : Res :=
  if !s.chanSeen slot.val c then (.noSuchAddress, s)
  else match s.wordRefused slot.val v (bindFlds c) with
  | some e => (e, s)
  | none =>
    let en := decide (v / 2 ^ 31 % 2 = 1)
    if s.on (bEn c) then
      if !en && (bindFlds c).tail.all (fun f => f.ofWord v == s.rd f) then (.done, (s.chanOff c).canNotes) else (.busy, s)
    else if en && !s.bindOk c v then (.outOfRange, s)
    else (.done, s.wrWord v (bindFlds c))

def execMbxBindWrite (slot : Slot) (c : Fin 64) (value : Word) (s : State) : Out := host slot s (opMbxBindWrite slot c.val value.toNat)

end Sys2Proof.Machine
end

