-- ==== Sys2Proof/Machine/TouOps.lean ====
section
/-! DEFINITION. Timed outputs (spec/08): entries, predictions and commits as every block uses them. -/

namespace Sys2Proof.Machine

open F

def touEntries : List Nat := List.range 8

/-- 64 ns, 8 ns and 2 µs in 2⁻³² ns. -/
def ns64 : Nat := 64 * nsU
def ns8 : Nat := 8 * nsU
def us2 : Nat := 2000 * nsU

/-- The Hub Time an entry of KIND 0 targets. -/
def State.touTime (s : State) (n e : Nat) : Nat :=
  (mkTime (s.rd (oW1 n e) + s.rd (oW2 n e) % 2 ^ 16 * 2 ^ 32) (s.rd (oNs n e)) 0 + s.rd (oFrac n e) * 2 ^ 28) % timeMod

/-- The ANGLE64 an entry of KIND 1 targets. -/
def State.touAngle (s : State) (n e : Nat) : Nat := s.rd (oW1 n e) * 2 ^ 32 + s.rd (oW2 n e)

/-- The instant of an entry: its target, or its prediction. -/
def State.touInstant (s : State) (n e : Nat) : Option Nat :=
  if s.on (oKind n e) then (s.touEnt n e).pred else some (s.touTime n e)

/-- A time at the delay line's resolution of 62.5 ps (R361). -/
def place62 (t : Nat) : Nat := roundDiv t (2 ^ 28) * 2 ^ 28 % timeMod

/-- An instant plus TOU_SKEW (R361); one before Hub Time 0 stands at 0. -/
def State.touSkewed (s : State) (n t : Nat) : Nat := ((t : Int) + s.rdS (oSkew n) * 2 ^ 28).toNat

/-- The placed instant of an entry (R361): its instant plus TOU_SKEW. -/
def State.touPlaced (s : State) (n e : Nat) : Option Nat := (s.touInstant n e).map fun t => place62 (s.touSkewed n t)

/-- The schedule acts: enabled, hardware mode (R375, R376). -/
def State.touRuns (s : State) (n : Nat) : Bool := s.on (oEn n) && !s.on (oMode n)

/-- The entry is due or waiting for its commit (R362): ARMED by time, LOCKED, or predicted in the past (R368) by a mill that reports
acquisition (R369). (DEDUCED, log 70.) -/
def State.touDue (s : State) (n e : Nat) : Bool :=
  let st := s.rd (oState n e)
  if s.on (oKind n e) then
    st == 3 || (st == 2 && !(s.touEnt n e).wait && s.on (lAcq (s.rd (oMill n e))) && match (s.touEnt n e).pred with | some p => decide (p ≤ s.htm.time) | none => false)
  else st == 2

/-- An entry ends in a state that raises a flag of TOU_EVT: 4 DONE, 5 LATE, 6 DROPPED; this cycle is its completion cycle (R360). -/
def State.touEnd (s : State) (n e st : Nat) : State :=
  State.setBits { (s.wr (oState n e) st) with ended := .entry n e :: s.ended } (oEvt n) (2 ^ (st - 4))

/-- The newest edge and the pending trailing edge of an output once a further edge has come (R365). -/
def trailStep (x : Option Nat × Option Nat) (g : TouEdge) : Option Nat × Option Nat :=
  (some g.t, if g.action = 3 then some (g.t + g.width * nsU) else x.2.bind fun t => if trailPlace x.1 t ≤ g.t then none else some t)

/-- The trailing edge that stands before `want` once the edges in a delay line have come (R364, R365). -/
def trailBefore (came trail : Option Nat) (line : List TouEdge) (want : Nat) : Option Nat :=
  let x := line.foldl trailStep (came, trail)
  x.2.bind fun t => if trailPlace x.1 t ≤ want then some (trailPlace x.1 t) else none

/-- The edge that stands less than 8 ns before `want` (R364, R439): the last placed edge or a trailing edge, and not one at the same
instant, with which the new one acts (R363). (DEDUCED, log 164.) -/
def nearEdge (last trail : Option Nat) (want : Nat) : Option Nat :=
  let near := fun (o : Option Nat) => o.bind fun l => if want < l + ns8 ∧ want ≠ l then some l else none
  match near last, near trail with
  | some x, some y => some (max x y)
  | some x, none => some x
  | none, y => y

/-- The edge of output n that stands less than 8 ns before `want`. -/
def State.touNear (s : State) (n want : Nat) : Option Nat :=
  let x := s.touOut n
  nearEdge x.last (trailBefore x.came x.trail x.line want) want

/-- An edge joins a delay line behind those of its instant that rank before it (R439, R440). -/
def joinLine (g : TouEdge) : List TouEdge → List TouEdge
  | [] => [g]
  | h :: r => if h.t = g.t ∧ g.rank < h.rank then g :: h :: r else h :: joinLine g r

/-- The edge of an entry goes to the delay line, placed at its instant (R360, R361): one on time stands among the edges of that instant
by its index, a late one behind those placed before it (R363). -/
def State.touAct (s : State) (n e place : Nat) (late : Bool) : State :=
  let x := s.touOut n
  let g : TouEdge := { t := place, action := s.rd (oAction n e), width := s.rd (oWidth n e), rank := if late then 0 else e }
  s.setTouOut n { x with last := some place, line := joinLine g x.line }

/-- The commit of an entry whose placed instant is `t` (R360 to R364): on time, or late and then committed 64 ns ahead or dropped. -/
def State.touCommitAt (s : State) (n e t : Nat) (late : Bool) : State :=
  if late && s.on (oDropLate n) then s.touEnd n e 6
  else
    let want := if late then place62 (addTime s.htm.time ns64) else t
    let near := s.touNear n want
    let place := match near with | some l => l + ns8 | none => want
    (s.touAct n e place (late || near.isSome)).touEnd n e (if late || near.isSome then 5 else 4)

/-- A placed instant is late in the present cycle (R362). (DEDUCED, log 70.) -/
def State.touLate (s : State) (t : Nat) : Bool := decide (t < s.htm.time + ns64)

/-- The entry became due in the present cycle, so that a late one commits in the next (R362). -/
def State.touFresh (s : State) (n e : Nat) : Bool :=
  s.ended.any fun x => match x with
    | .due n' e' => n' == n && e' == e
    | .lock n' e' => n' == n && e' == e
    | .moved .. => true
    | _ => false

/-- An entry's commit cycle is the present one (R360), or has passed: the last cycle that starts at least 64 ns before its placed
instant, and for a late entry any after the one in which it became due. -/
def State.touAtCommit (s : State) (n e : Nat) : Bool :=
  match s.touPlaced n e with
  | some t => s.running && s.touRuns n && s.touDue n e && decide (t < s.htm.time + ns64 + s.effIncr) && !(s.touLate t && s.touFresh n e)
  | none => false

/-- The first of a list of entries with the earliest instant, lowest index on a tie. -/
def earliest : List (Nat × Nat) → Option (Nat × Nat)
  | [] => none
  | (t, e) :: r => match earliest r with
    | some (t', e') => if t' < t then some (t', e') else some (t, e)
    | none => some (t, e)

/-- The entries of output n that commit in the present cycle, with their placed instants. -/
def State.touReady (s : State) (n : Nat) : List (Nat × Nat) :=
  (touEntries.filter (s.touAtCommit n)).map fun e => ((s.touPlaced n e).getD 0, e)

/-- The entries of output n that commit in the present cycle do so in the order of their instants and then of their indices (R363), all
of them, or those up to entry `upTo`. -/
def State.touCommits (s : State) (n : Nat) (upTo : Option Nat) : Nat → State
  | 0 => s
  | k + 1 => match earliest (s.touReady n) with
    | some (t, e) =>
      let s1 := s.touCommitAt n e t (s.touLate t)
      if upTo = some e then s1 else State.touCommits s1 n upTo k
    | none => s

/-- The commit of entry e, behind every entry of the output that commits before it in the present cycle (R360, R363). -/
def State.touCommit (s : State) (n e : Nat) : State := if s.touAtCommit n e then s.touCommits n (some e) 8 else s

/-- A locked entry whose lock fell into this cycle takes the new prediction of a mill edge in it (R367). -/
def State.touRelock (s : State) (m n e : Nat) : State :=
  if s.rd (oState n e) == 3 && s.on (oKind n e) && s.rd (oMill n e) == m && s.ended.contains (.lock n e) && s.on (lAcq m) then
    match s.millPredict m (s.touAngle n e) with
    | .at_ t => s.setTouEnt n e { s.touEnt n e with pred := some t }
    | .behind t => s.setTouEnt n e { s.touEnt n e with pred := some t }
    | .away => s
  else s

/-- An entry's new prediction is `t`; one in the past makes the entry due, if it was not (R368). -/
def State.touPred (s : State) (n e t : Nat) : State :=
  let was := s.touDue n e
  let s1 := s.setTouEnt n e { pred := some t, wait := false }
  if !was && s1.touDue n e then { s1 with ended := .due n e :: s1.ended } else s1

/-- An armed KIND 1 entry takes a new prediction at an edge of its mill (R366, R368, R369). -/
def State.touPredict (s : State) (m n e : Nat) : State :=
  if s.rd (oState n e) == 2 && s.on (oKind n e) && s.rd (oMill n e) == m then
    let x := s.touEnt n e
    if !s.on (lAcq m) then s.setTouEnt n e { x with wait := true }
    else match s.millPredict m (s.touAngle n e) with
      | .at_ t => s.touPred n e t
      | .behind t => s.touPred n e t
      | .away => s.setTouEnt n e { x with wait := true }
  else s

/-- Every armed entry of mill m re-predicts (R366). -/
def State.touRepredict (s : State) (m : Nat) : State := touAll.foldl (fun s p => (s.touRelock m p.1 p.2).touPredict m p.1 p.2) s

/-- The entries of output n scheduled by time at or before now, with their instants. -/
def State.touPassed (s : State) (n : Nat) : List (Nat × Nat) :=
  (touEntries.filter fun e => s.rd (oState n e) == 2 && !s.on (oKind n e) && decide (s.touTime n e ≤ s.htm.time)).map
    fun e => (s.touTime n e, e)

/-- At a thaw the passed entries of an output act late, in schedule order (R252). -/
def State.touThawOut (s : State) (n : Nat) : Nat → State
  | 0 => s
  | k + 1 => match earliest (s.touPassed n) with
    | some (t, e) => State.touThawOut (s.touCommitAt n e t true) n k
    | none => s

/-- At a thaw (R252, R253) the pin of each output takes the level that its late entries leave. -/
def State.touThaw (s : State) : State :=
  (List.range 32).foldl (fun s n => if s.touRuns n then (s.touThawOut n 8).touFlush n else s)
    (touAll.foldl (fun s p => s.touWaits p.1 p.2) s)

end Sys2Proof.Machine
end

