-- ==== Sys2Proof/Machine/Mill.lean ====
section
/-! DEFINITION. Mills (spec/09): edges, references, the tracking estimator, acquisition, injection, and ring 36. -/

namespace Sys2Proof.Machine

open F

/-! ### Flags and records (R418, R419) -/

/-- A flag of MIL_EVT: 0 ACQUIRED, 1 LOST, 2 STALLED, 3 REVERSED, 4 SLIP, 5 QERR, 6 OVERSPEED, 7 NAP_BREAK, 8 RATE_LIMIT,
9 MARK, 10 WRAP. -/
def State.milFlag (s : State) (m i : Nat) : State := s.setBits (lEvt m) (2 ^ i)

/-- The edge positions of one revolution, P (R385). -/
def edgesPerRev (src edges n : Nat) : Nat :=
  match src with
  | 0 => n * 2 ^ edges
  | 1 => n
  | _ => 1

def State.millP (s : State) (m : Nat) : Nat := edgesPerRev (s.lq m (lSrc m)) (s.lq m (lEdges m)) (s.lq m (lN m))

/-- The ANGLE64 of edge `c` after an anchor (R390, R391): computed from the count, so that rounding never accumulates. -/
def edgePos (anchor : Nat) (c : Int) (p : Nat) : Nat := ((anchor + roundDivI (c * 2 ^ 32) p) % (2 : Int) ^ 64).toNat

/-- The mill's counted position. -/
def State.millPos (s : State) (m : Nat) : Nat := edgePos (s.mill m).anchor (s.mill m).cnt (s.millP m)

/-- A record joins the mill's queue of 4, or is dropped and counted in RDROP (R418). -/
def State.milRec (s : State) (m kind detail t rev : Nat) : State :=
  let x := s.mill m
  if x.recs.length < 4 then s.setMill m { x with recs := x.recs ++ [{ kind := kind, detail := detail, t := t, rev := rev }] }
  else s.bump (lRdrop m)

/-- An event of the mill at `t`: its flag and its record. -/
def State.milEvent (s : State) (m flag kind detail t : Nat) : State :=
  (s.milFlag m flag).milRec m kind detail t (s.millPos m / 2 ^ 32)

/-- Acquisition is lost (R398): a tracking mill in hardware mode returns to SEEKING, clears ACQ and sets LOST. -/
def State.milLose (s : State) (m detail t : Nat) : State :=
  let s := s.setMill m { s.mill m with run := 0 }
  if !s.lon m (lMode m) && s.rd (lState m) == 2 then
    ((s.wr (lState m) 1).wr (lAcq m) 0).milEvent m 1 0x9 detail t
  else s

/-! ### Quills (R417) -/

/-- A transition of input `i` counts for QDIV; every QDIV-th waits as a quill, and one that finds another waiting is dropped. -/
def State.milQuill (s : State) (m i t : Nat) (pol : Bool) : State :=
  if s.lon m (lQen m i) then
    let x := s.mill m
    let k := Assoc.get 0 i x.qcnt + 1
    if s.lq m (lQdiv m) ≤ k then
      let x := { x with qcnt := Assoc.put 0 i 0 x.qcnt }
      if x.quill.isSome then (s.setMill m { x with ovf := true }).bump (lQdrop m)
      else s.setMill m { x with quill := some { input := i, pol := pol, ovf := x.ovf, uncal := s.stp.uncal.testBit (3 * m + i), t := t }, ovf := false }
    else s.setMill m { x with qcnt := Assoc.put 0 i k x.qcnt }
  else s

/-! ### References (R388 to R392) -/

/-- A kept phase moved by an ANGLE64 difference. -/
def MillSt.shift (d : Int) (k : MillSt) : MillSt := { k with th := addPhase k.th (d * 2 ^ 16) }

/-- The state window of mill m shows a state under an EDGE_SEQ (R403, R407). -/
def State.milShowAs (s : State) (m : Nat) (k : MillSt) (seq : Nat) : State :=
  let p := angle64 k.th
  let ws := [seq % 2 ^ 16 * 2 ^ 16 + secOf k.t / 2 ^ 32, secOf k.t % 2 ^ 32, nsOf k.t, fracOf k.t, p / 2 ^ 32, p % 2 ^ 32, q16 k.w, q16 k.a]
  ws.zipIdx.foldl (fun s wi => s.wr (lSt m wi.2) wi.1) s

/-- The state window follows the kept state of the last taken edge (R407). -/
def State.milShow (s : State) (m : Nat) : State :=
  match (s.mill m).kept with
  | k :: _ => s.milShowAs m k (s.rd (lSt m 0) / 2 ^ 16)
  | [] => s

/-- The position moves by a re-indexing, and the estimator, its state window and an edge that waits for it move with it. -/
def State.milShift (s : State) (m : Nat) (d : Int) : State :=
  let x := s.mill m
  let mv := fun (p : Nat) => ((p + d) % (2 : Int) ^ 64).toNat
  let s1 := s.setMill m { x with
    kept := x.kept.map (MillSt.shift d)
    taken := x.taken.map mv
    held := x.held.map fun g => { g with pos := mv g.pos } }
  s1.milShow m

/-- The state extrapolated to `t`: the injected one, or the estimator's once it has a speed (R391, R396). -/
def State.milExtr (s : State) (m t : Nat) : Option Nat :=
  let x := s.mill m
  if s.lon m (lMode m) then x.inj.map fun k => (k.at_ t).th
  else if x.seed < 2 then none else x.kept.head?.map fun k => (k.at_ t).th

/-- The mill's own phase at `t`, if it has one: the one frozen through a sleep (R412), or the extrapolated one. -/
def State.milOwn (s : State) (m t : Nat) : Option Nat :=
  match (if s.lon m (lMode m) then none else (s.mill m).froz) with
  | some k => some (k.at_ t).th
  | none => s.milExtr m t

/-- The ANGLE64 of a reference: ZERO_OFS in the revolution nearest to a phase (R391). -/
def nearestRef (z0 th : Nat) : Nat :=
  (z0 + roundDiv ((th + phaseMod - z0 * 2 ^ 16) % phaseMod) revU * 2 ^ 32) % 2 ^ 64

/-- The signed difference of two ANGLE64 values. -/
def angDiff (a b : Nat) : Int := signedOf 64 ((a + 2 ^ 64 - b % 2 ^ 64) % 2 ^ 64)

/-- ACQ_TOL in 2⁻⁴⁸ rev. -/
def State.acqTol (s : State) (m : Nat) : Nat := s.lq m (lAcqTol m) * 2 ^ 32

/-- A slip (R392): counted, flagged, acquisition lost. -/
def State.milSlip (s : State) (m t : Nat) : State := ((s.bump (lSlips m)).milFlag m 4).milLose m 2 t

/-- A reference event at `t`, the counted position standing at `pos`; `badGap` says that a gap came at a wrong count. The first after
APPLY sets the revolution count; every later one is judged (R392). One that indexes the mill moves the estimator with it, so that the
loop goes on undisturbed (the bench example of spec/09: every edge after the gap is within tolerance). (DEDUCED, log 75.) -/
def State.milReference (s : State) (m t pos : Nat) (badGap : Bool) : State :=
  let z0 := s.lq m (lZero m)
  let x := s.mill m
  let extr := s.milExtr m t
  let here := extr.elim pos fun th => roundDiv th (2 ^ 16) % 2 ^ 64
  if !x.refs then
    let s := s.setMill m { x with refs := true, anchor := z0, cnt := 0, run := 0 }
    (s.milShift m (angDiff z0 here)).wr (lIndexed m) 1
  else
    let ref := nearestRef z0 ((s.milOwn m t).getD (pos * 2 ^ 16))
    let far := match extr with
      | some th => decide (s.acqTol m < (phaseDiff (ref * 2 ^ 16) th).natAbs)
      | none => false
    let s :=
      if s.on (lIndexed m) then s.setMill m { x with anchor := ref, cnt := 0 }
      else ((s.setMill m { x with anchor := ref, cnt := 0, run := 0, froz := none }).milShift m (angDiff ref here)).wr (lIndexed m) 1
    if badGap || far then s.milSlip m t else s

/-! ### The estimator (R393 to R396, R401, R406) -/


/-- x as a fraction: min(2π × bw × d, 0.25), `d` in 2⁻³² ns (R393). -/
def loopX (bw d : Nat) : Nat × Nat :=
  let den := secU * twoPiDen
  (min (twoPiNum * bw * d) (den / 4), den)

/-- EFF_BW: x ÷ (2π × d) in Hz, to the nearest (R394). -/
def effBw (bw d : Nat) : Nat := roundDiv ((loopX bw d).1 * secU * twoPiDen) ((loopX bw d).2 * twoPiNum * d)

/-- One loop update (R393): the state and the error e in 2⁻⁴⁸ rev. (DESIGN CHOICE, log 78.) -/
def loopStep (k : MillSt) (t phi bw : Nat) : MillSt × Int :=
  let d := t - k.t
  let p := k.at_ t
  let x := loopX bw d
  let e := phaseDiff (phi * 2 ^ 16) p.th
  ({ t := t
     th := addPhase p.th (roundDivI (3 * x.1 * e) x.2)
     w := p.w + roundDivI (3 * x.1 * x.1 * e * secU) (x.2 * x.2 * d)
     a := k.a + roundDivI (x.1 * x.1 * x.1 * e * secU * secU) (x.2 * x.2 * x.2 * d * d) }, e)

/-- 2,000 and 1,990 rev/s in 2⁻⁴⁸ rev/s (R401). -/
def overOn : Nat := 2000 * 2 ^ 48
def overOff : Nat := 1990 * 2 ^ 48

/-- The new state joins the kept ones, and the state window shows it under the next EDGE_SEQ (R402, R407). -/
def State.milKeep (s : State) (m : Nat) (k : MillSt) : State :=
  let x := s.mill m
  let s := s.setMill m { x with kept := (k :: x.kept).take 4 }
  (s.milShowAs m k (s.rd (lSt m 0) / 2 ^ 16 + 1)).wr (lDir m) (decide (k.w < 0)).toNat

/-- MARK (R406): the edge is the first taken one at or past a crossing of MARK_ANG in the direction of travel. -/
def crossesMark (mark prev pos : Nat) : Bool :=
  let d := angDiff pos prev
  if 0 < d then decide (2 ^ 32 ≤ ((prev + 2 ^ 64 - mark) % 2 ^ 32 : Nat) + d)
  else if d < 0 then decide (2 ^ 32 ≤ ((mark + 2 ^ 64 - prev) % 2 ^ 32 : Nat) - d)
  else false

/-- (DEDUCED, log 76.) -/
def State.milMark (s : State) (m t pos : Nat) : State :=
  let x := s.mill m
  let s1 := s.setMill m { x with taken := some pos }
  match x.taken with
  | some p => if crossesMark (s.lq m (lMarkAng m)) p pos then s1.milEvent m 9 0xD 0 t else s1
  | none => s1

/-- A mill with no reference event is relative (R388). -/
def State.relative (s : State) (m : Nat) : Bool :=
  match s.lq m (lSrc m) with
  | 0 => !s.lon m (lZref m)
  | 1 => s.lq m (lMissing m) == 0 && !s.lon m (lZref m)
  | _ => false

/-- The overspeed judgement after a taken edge (R401). -/
def State.milSpeed (s : State) (m t : Nat) (w : Int) : State :=
  if overOn < w.natAbs then
    let s := s.milFlag m 6
    let s := if (s.mill m).fast then s else s.milLose m 4 t
    s.setMill m { s.mill m with fast := true }
  else if w.natAbs < overOff then s.setMill m { s.mill m with fast := false }
  else s

/-- The mill enters TRACKING and reports acquisition (R397). -/
def State.milAcquire (s : State) (m t : Nat) : State :=
  if s.rd (lState m) == 1 && (s.on (lIndexed m) || s.relative m) && decide (s.lq m (lAcqN m) ≤ (s.mill m).run) &&
      !(s.mill m).fast then
    ((s.wr (lState m) 2).wr (lAcq m) 1).milEvent m 0 0x8 0 t
  else s

/-- The judgement of an edge the loop has taken with error `e` (R397, R398). -/
def State.milJudge (s : State) (m t : Nat) (e : Int) : State :=
  let tol := s.acqTol m
  if 4 * tol < e.natAbs then s.milLose m 1 t
  else s.setMill m { s.mill m with run := if e.natAbs ≤ tol then (s.mill m).run + 1 else 0 }

/-- The state an edge gives and the loop's error, by the edges taken since the seed (R396): the first sets the phase, the second
the speed, and the loop runs from the third. -/
def seedStep (seed : Nat) (kept : List MillSt) (g : MillEdge) (bw : Nat) : MillSt × Option Int :=
  match seed, kept with
  | 0, _ => ({ t := g.t, th := g.pos * 2 ^ 16, w := 0, a := 0 }, none)
  | 1, k :: _ =>
    ({ t := g.t, th := g.pos * 2 ^ 16, w := roundDivI (phaseDiff (g.pos * 2 ^ 16) k.th * secU) (g.t - k.t), a := 0 }, none)
  | _, k :: _ => ((loopStep k g.t g.pos bw).1, some (loopStep k g.t g.pos bw).2)
  | _, [] => ({ t := g.t, th := g.pos * 2 ^ 16, w := 0, a := 0 }, none)

/-- EFF_BW after an edge (R394): the first edge after a seed has no interval and leaves it. -/
def State.newEffBw (s : State) (m : Nat) (g : MillEdge) : Nat :=
  match (s.mill m).seed, (s.mill m).kept with
  | 0, _ => s.rd (lEffBw m)
  | _, k :: _ => effBw (s.lq m (lBw m)) (g.t - k.t)
  | _, [] => s.rd (lEffBw m)

/-- The estimator takes an edge (R393, R396). The edge that re-indexes the mill does not count toward ACQ_N. -/
def State.milTake (s : State) (m : Nat) (g : MillEdge) : State :=
  let x := s.mill m
  let r := seedStep x.seed x.kept g (s.lq m (lBw m))
  let bw := s.newEffBw m g
  let s := s.setMill m { x with seed := min (x.seed + 1) 2, ready := g.t + 80 * nsU, held := none }
  let s := (s.milKeep m r.1).wr (lEffBw m) bw
  let s := s.milMark m g.t g.pos
  let s := match r.2 with | some e => s.milJudge m g.t e | none => s
  let s := s.milSpeed m g.t r.1.w
  let s := if g.isRef then s.setMill m { s.mill m with run := 0 } else s
  s.milAcquire m g.t

/-- The edge held by the rate limit is taken once its turn has come (R395). -/
def State.milFlush (s : State) (m t : Nat) : State :=
  let x := s.mill m
  match x.held with
  | some g =>
    if x.ready ≤ t then
      let s := (s.milTake m g).touRepredict m
      s.setMill m { s.mill m with ready := x.ready + 80 * nsU }
    else s
  | none => s

/-- A counted edge reaches the estimator, which takes at most one in 80 ns (R395); in host-assisted mode it is idle (R409), and the
overspeed flag follows the injected state (R411's table). -/
def State.milEstimate (s : State) (m : Nat) (g : MillEdge) : State :=
  if s.lon m (lMode m) then s.milSpeed m g.t (s.evalMill m g.t).w
  else
    let s := s.milFlush m g.t
    if g.t < (s.mill m).ready then (s.setMill m { s.mill m with held := some g }).milFlag m 8
    else s.milTake m g

/-! ### Edges -/

/-- Input `i` of mill m is assigned to it by the PIN block (R383). -/
def State.milPin (s : State) (m i : Nat) : Bool := s.rd (pinFunc (32 + 3 * m + i)) == 1

/-- WRAP (R406): counting, a later reference or a new ZERO_OFS has taken the revolution count around. -/
def State.milWrap (s : State) (m t old new : Nat) : State :=
  if old ≠ new ∧ decide (old < new) ≠ decide (0 < angDiff new old) then s.milEvent m 10 0xC 0 t else s

/-- REVERSED (R400): consecutive counted edges change direction. -/
def State.milDir (s : State) (m t : Nat) (neg : Bool) : State :=
  let x := s.mill m
  let s1 := s.setMill m { x with dirNeg := some neg }
  if x.dirNeg = some (!neg) then s1.milEvent m 3 0xB neg.toNat t else s1

/-- A counted edge of the forms whose reference is not the edge itself: it moves the count by one, the first standing at its
anchor (R388, R391). -/
def State.milCount (s : State) (m : Nat) (neg : Bool) : State :=
  let x := s.mill m
  if x.started then s.setMill m { x with cnt := x.cnt + (if neg then -1 else 1) }
  else s.setMill m { x with started := true, anchor := if x.refs then x.anchor else s.lq m (lZero m), cnt := if x.refs then (if neg then -1 else 1) else 0 }

/-- The interval rule of a gap (R389). -/
def isGap (missing iv prev : Nat) : Bool := decide ((2 * missing + 1) * prev ≤ 2 * iv)

/-- A counted edge is one source unit of every running timer on the mill (R426); a change of direction restarts the division. -/
def State.milUnits (s : State) (m : Nat) (turned : Bool) : State :=
  (List.range 16).foldl (fun s n =>
    if s.rd (gState n) == 2 && s.rd (ga (gSlave n)) != 4 && s.rd (ga (gSrc n)) == 2 && s.rd (ga (gMill n)) == m then
      s.wr (gPhase n) (if turned then 1 else s.rd (gPhase n) + 1)
    else s) s

/-- A counted edge at `t`, `z` saying that it is itself a Z reference (R385 to R392). -/
def State.milCounted (s : State) (m t : Nat) (neg z : Bool) : State :=
  let x := s.mill m
  let iv := x.lastT.map fun l => t - l
  let missing := s.lq m (lMissing m)
  let toothed := s.lq m (lSrc m) == 1 && missing != 0
  let gap := toothed && (match iv, x.lastIv with | some i, some p => isGap missing i p | _, _ => false)
  let old := s.millPos m
  let s := (s.milUnits m (x.dirNeg == some !neg)).setMill m { x with lastT := some t, lastIv := iv, since := t }
  let s := s.milDir m t neg
  let s := if s.rd (lState m) == 3 then s.wr (lState m) 1 else s
  let s := s.milCount m neg
  let c := (s.mill m).cnt.natAbs
  let full := s.millP m - missing
  let reindex := (z || gap) && !((s.mill m).refs && s.on (lIndexed m))
  let s :=
    if z || gap then s.milReference m t (s.millPos m) (gap && c != full)
    else if toothed && x.refs && c == full then s.milSlip m t
    else s
  let s := if (z || gap) && !x.refs then s else s.milWrap m t old (s.millPos m)
  s.milEstimate m { t := t, pos := s.millPos m, isRef := reindex }

/-- A quadrature error (R387). -/
def State.milQerr (s : State) (m t : Nat) : State :=
  (((s.bump (lQerr m)).milFlag m 5).milLose m 3 t).wr (lIndexed m) 0

/-- A Z reference beside the counted edges: it may take the revolution count around (R406). -/
def State.milZ (s : State) (m t : Nat) : State :=
  let refs := (s.mill m).refs
  let old := s.millPos m
  let s := s.milReference m t old false
  if refs then s.milWrap m t old (s.millPos m) else s

/-- The transitions `l`, at most one of an input, are decided in one cycle, each with its own stamp (R384, R387): the reference comes before
the counted edges (the table at the edges of spec/09), and every edge of the mill predicts its timed entries anew (R366). -/
def State.milPass (s : State) (m : Nat) (l : List (Nat × Nat)) : State :=
  let x := s.mill m
  let at_ := fun (i : Nat) => (l.find? fun p => p.1 == i).map (·.2)
  let dA := (at_ 0).isSome
  let dB := (at_ 1).isSome
  let dZ := (at_ 2).isSome
  let a := x.a != dA
  let b := x.b != dB
  let z := x.z != dZ
  let tA := (at_ 0).getD 0
  let tB := (at_ 1).getD 0
  let tZ := (at_ 2).getD 0
  let s := s.setMill m { x with a := a, b := b, z := z }
  if !s.lon m (lEn m) then s
  else
    let s := if dA then s.milQuill m 0 tA a else s
    let s := if dB then s.milQuill m 1 tB b else s
    let s := if dZ then s.milQuill m 2 tZ z else s
    let zEdge := dZ && (z != s.lon m (lZpol m))
    let rev := s.lon m (lReverse m)
    let dirIn := (match s.lq m (lDirSrc m) with | 0 => false | 1 => !b | _ => true) != rev
    match s.lq m (lSrc m) with
    | 0 =>
      let s := if zEdge && s.lon m (lZref m) then (s.milZ m tZ).touRepredict m else s
      if dA && dB then (s.milQerr m (max tA tB)).touRepredict m
      else
        let counted := match s.lq m (lEdges m) with | 0 => dA && a | 1 => dA | _ => dA || dB
        let neg := (if dA then a == b else a != b) != rev
        if counted then (s.milCounted m (if dA then tA else tB) neg false).touRepredict m else s
    | 1 =>
      let s := if zEdge && s.lon m (lZref m) && s.lq m (lMissing m) == 0 then (s.milZ m tZ).touRepredict m else s
      if dA && (a != s.lon m (lTpol m)) then (s.milCounted m tA dirIn false).touRepredict m else s
    | _ => if zEdge then (s.milCounted m tZ dirIn true).touRepredict m else s

/-- The width below which a pulse on the mill's inputs is discarded (R384). -/
def State.milDgl (s : State) (m : Nat) : Nat := s.lq m (lDgl m) * 4 * nsU

/-- The transitions of `l`, oldest first: the first of every input together, since they are decided in one cycle (R387). -/
def State.milDecide (s : State) (m : Nat) (l : List (Nat × Nat)) : Nat → State
  | 0 => s
  | k + 1 =>
    let first := [0, 1, 2].filterMap fun i => l.find? fun p => p.1 == i
    if first.isEmpty then s else State.milDecide (s.milPass m first) m (l.filter fun p => !first.contains p) k

/-- The registers that a transition of mill m may change, and the prescaler phases of the timers that count it. -/
def milWork (m : Nat) : List Fld :=
  [lEvt m, lRdrop m, lSlips m, lQdrop m, lQerr m, lDir m, lIndexed m, lAcq m, lState m, lEffBw m] ++ (List.range 8).map (lSt m)
def State.milTimers (s : State) (m : Nat) : List Nat :=
  (List.range 16).filter fun n => s.rd (ga (gSrc n)) == 2 && s.rd (ga (gMill n)) == m

/-- The transitions `l` are decided, with those that an earlier row of the present cycle gave: then the mill stands as before that row, and
they come together (R387, R390). A timer that has taken a tick between keeps its phase. -/
def State.milTogether (s : State) (m : Nat) (l : List (Nat × Nat)) : State :=
  let prev := s.ended.findSome? fun e => match e with
    | .milled k was regs units p => if k = m then some (was, regs, units, p) else none
    | _ => none
  let (was, regs, units, all) := match prev with
    | some (was, regs, units, p) => (was, regs, units, p ++ l)
    | none => (s.mill m, (milWork m).map s.rd, [], l)
  let phases := fun (s : State) => (s.milTimers m).map fun n => s.rd (gPhase n)
  let s0 := ((milWork m).zip regs).foldl (fun s fv => s.wr fv.1 fv.2) (s.setMill m { was with ball := (s.mill m).ball })
  let s0 := ((s.milTimers m).zip units).foldl (fun s nu => if s.rd (gPhase nu.1) = nu.2.2 then s.wr (gPhase nu.1) nu.2.1 else s) s0
  let before := phases s0
  let s1 := s0.milDecide m all all.length
  { s1 with ended := .milled m was regs (before.zip (phases s1)) all :: s1.ended }

/-- The transitions of mill m whose decision cycle has come (R768). -/
def State.milSettle (s : State) (m : Nat) : State :=
  let out := fun (p : Nat × Nat) => s.decided (p.2 + s.milDgl m)
  let x := s.mill m
  let l := x.filt.filter out
  State.milDecide (s.setMill m { x with filt := x.filt.filter fun p => !out p }) m l l.length

/-- The level that input `i` takes once its filter has settled. -/
def MillS.pin (x : MillS) (i : Nat) : Bool :=
  (match i with | 0 => x.a | 1 => x.b | _ => x.z) != ((x.filt.filter fun p => p.1 == i).length % 2 == 1)

/-- What stands in the filters is seen, and is no edge (R412). -/
def MillS.settled (x : MillS) : MillS := (List.range 3).foldl (fun y i => y.see i (x.pin i)) x

/-- The balls of mill m stand at the levels `a`, `b`, `z`. -/
def MillS.atBalls (x : MillS) (a b z : Bool) : MillS := { x with ball := a.toNat + b.toNat * 2 + z.toNat * 4 }

/-- The inputs of mill m whose balls change to the levels `a`, `b`, `z`, and that its PIN assignments let it see (R383). -/
def State.milNew (s : State) (m : Nat) (a b z : Bool) : List Nat :=
  [(0, a), (1, b), (2, z)].filterMap fun p => if s.milPin m p.1 && (s.mill m).ball.testBit p.1 != p.2 then some p.1 else none

/-- A transition of input `i` at `t` reaches a filter of `dgl`: one that ends a shorter pulse goes with it (R338). -/
def filterTransition (dgl t : Nat) (l : List (Nat × Nat)) (i : Nat) : List (Nat × Nat) :=
  match (l.filter fun p => p.1 == i).getLast? with
  | some p => if (t + timeMod - p.2 % timeMod) % timeMod < dgl then l.filter fun q => q != p else l ++ [(i, t)]
  | none => l ++ [(i, t)]

/-- The balls of mill m go to the levels `a`, `b`, `z` at `t` (R384, R338): a transition waits in the filter until its pulse is long
enough, and one that ends a shorter pulse goes with it. (DEDUCED, log 165.) -/
def State.milEdge (s : State) (m : Nat) (a b z : Bool) (t : Nat) : State :=
  let l := s.milNew m a b z
  let x := (s.mill m).atBalls a b z
  if s.milDgl m = 0 ∧ x.filt = [] then
    let s1 := s.setMill m x
    if l.isEmpty then s1 else s1.milTogether m (l.map fun i => (i, t))
  else s.setMill m { x with filt := l.foldl (filterTransition (s.milDgl m) t) x.filt }

/-- Levels that change while the mill is frozen are no edges (R412). -/
def State.milAsleep (s : State) (m : Nat) (a b z : Bool) : State :=
  let x := (s.mill m).settled.atBalls a b z
  s.setMill m ([(0, a), (1, b), (2, z)].foldl (fun x p => if s.milPin m p.1 then x.see p.1 p.2 else x) x)

def execMillEdge (m : Fin 16) (a b z : Bool) (stamp : Stamp) (s : State) : Out :=
  event (if s.running then s.milEdge m.val a b z (ofStamp stamp) else if s.glb.mainUp then s.milAsleep m.val a b z else s)

/-- STALL_T has passed since the last counted edge (R399). -/
def State.milStallDue (s : State) (m : Nat) : Bool :=
  s.running && s.lon m (lEn m) && s.rd (lState m) != 3 && decide ((s.mill m).since + s.lq m (lStallT m) * 1000000 * nsU ≤ s.htm.time)

/-- STALL_T passes with no counted edge (R399): the state of the last taken edge stands still at the last edge's angle. (DEDUCED, log 77.) -/
def State.milStall (s : State) (m : Nat) : State :=
  let s := ((s.wr (lState m) 3).milEvent m 2 0xA 0 s.htm.time)
  let x := s.mill m
  let kept := match x.kept with
    | k :: r => { k with th := s.millPos m * 2 ^ 16, w := 0, a := 0 } :: r
    | [] => []
  let s := (s.setMill m { x with seed := 0, run := 0, held := none, kept := kept }).milShow m
  if s.lon m (lMode m) then s else (s.wr (lAcq m) 0).wr (lDir m) 0

def execMillStall (m : Fin 16) (s : State) : Out := event (if s.milStallDue m.val then s.milStall m.val else s)

/-! ### Commands -/

/-- The fields whose change restarts the mill (R415). -/
def millCore (m : Nat) : List Fld := [lEn m, lMode m, lSrc m, lEdges m, lN m, lMissing m, lZref m, lDirSrc m, lReverse m]

/-- The mill restarts in SEEKING with INDEXED 0, or is OFF. -/
def State.milRestart (s : State) (m : Nat) : State :=
  let x := s.mill m
  let s := s.setMill m { MillS.init with ball := x.ball, a := x.a, b := x.b, z := x.z, filt := x.filt, since := s.htm.time, qcnt := x.qcnt, recs := x.recs, quill := x.quill, ovf := x.ovf }
  (((s.wr (lState m) (s.lq m (lEn m))).wr (lIndexed m) 0).wr (lAcq m) 0).wr (lDir m) 0

/-- APPLY's range check (R415). -/
def State.millBad (s : State) (m : Nat) : Bool :=
  let p := edgesPerRev (s.rd (lSrc m)) (s.rd (lEdges m)) (s.rd (lN m))
  p == 0 || decide (2 ^ 24 < p) || (s.rd (lSrc m) == 1 && decide (s.rd (lN m) ≤ 2 * s.rd (lMissing m)))

/-- The staged configuration becomes active (R415), an edge of its cycle coming before it: a new ZERO_OFS moves the position, around 2³² revolutions if need be (R406). -/
def State.milApply (s : State) (m : Nat) : State :=
  let core := (millCore m).any fun f => s.rd f != s.lq m f
  let z0 := s.lq m (lZero m)
  let s := s.copyTo (la m) (millFlds m)
  if core then s.milRestart m
  else
    let d : Int := (s.lq m (lZero m) : Int) - z0
    let x := s.mill m
    let old := s.millPos m
    let s := (s.setMill m { x with anchor := ((x.anchor + d) % (2 : Int) ^ 64).toNat, froz := x.froz.map (MillSt.shift d) }).milShift m d
    if x.started || x.refs then s.milWrap m s.htm.time old (s.millPos m) else s

def opMillApply (slot : Slot) (m : Nat) (s : State) : Res :=
  leased slot (idMill m) s fun s => if s.millBad m then (.outOfRange, s) else (.done, (s.milSettle m).milApply m)
/-- DISCARD does what the end of the lease does to the staged configuration, LEASE_BROKEN included (R416). -/
def opMillDiscard (slot : Slot) (m : Nat) (s : State) : Res :=
  leased slot (idMill m) s fun s => (.done, (s.copyFrom (la m) (millFlds m)).leaseBroken)

/-- EVAL (R408); an edge decided in its cycle comes first (the table at the edges of spec/09). -/
def opEval (slot : Slot) (m : Nat) (s : State) : Res :=
  leased slot (idMill m) s fun s =>
    let s := s.milSettle m
    let k := s.evalMill m (mkTime (s.rd (lEvalSecLo m) + s.rd (lEvalSecHi m) * 2 ^ 32) (s.rd (lEvalNs m)) 0)
    let p := angle64 k.th
    let s := [p / 2 ^ 32, p % 2 ^ 32, q16 k.w, q16 k.a].zipIdx.foldl (fun s wi => s.wr (lEval m wi.2) wi.1) s
    (.done, (s.wr (lEvalDone m) 1).wr (lEvalValid m) (s.rd (lAcq m)))

/-- The epoch of MIL_INJ. -/
def State.injEpoch (s : State) (m : Nat) : Nat := mkTime (s.rd (lInjSecLo m) + s.rd (lInjSecHi m) * 2 ^ 32) (s.rd (lInjNs m)) 0

/-- INJECT (R410, R411, R421). (DEDUCED, log 74.) -/
def opInject (slot : Slot) (m : Nat) (s : State) : Res :=
  leased slot (idMill m) s fun s =>
    let t := s.injEpoch m
    if !s.lon m (lMode m) then (.notInMode, s)
    else if 10 * secU < ((t : Int) - s.htm.time).natAbs then (.outOfRange, s)
    else
      let k : MillSt := { t := t, th := (s.rd (lInj m 0) * 2 ^ 32 + s.rd (lInj m 1)) * 2 ^ 16, w := ofQ16 (s.rd (lInj m 2)),
                          a := ofQ16 (s.rd (lInj m 3)) }
      let s := ((s.setMill m { s.mill m with inj := some k, injAt := s.htm.time }).wr (lAcq m) 1).wr (lDir m) (decide (k.w < 0)).toNat
      (.done, s.milSpeed m s.htm.time (k.at_ s.htm.time).w)

def execMillApply (slot : Slot) (m : Fin 16) (s : State) : Out := hostOwned slot (idMill m.val) s (opMillApply slot m.val)
def execMillDiscard (slot : Slot) (m : Fin 16) (s : State) : Out := hostOwned slot (idMill m.val) s (opMillDiscard slot m.val)
def execEval (slot : Slot) (m : Fin 16) (s : State) : Out :=
  hostReg slot s (opEval slot m.val) fun s => s.touch slot.val (idMill m.val)
def execInject (slot : Slot) (m : Fin 16) (s : State) : Out := hostOwned slot (idMill m.val) s (opInject slot m.val)

/-- INJ_HOLD ms have passed since the last INJECT (R411). -/
def State.injHoldDue (s : State) (m : Nat) : Bool :=
  s.running && s.lon m (lMode m) && s.on (lAcq m) && s.rd (lInjHold m) != 0 &&
    decide ((s.mill m).injAt + s.rd (lInjHold m) * 1000000 * nsU ≤ s.htm.time)

/-- INJ_HOLD ms pass without another INJECT (R411). -/
def execInjHoldExpiry (m : Fin 16) (s : State) : Out :=
  event (if s.injHoldDue m.val then
      (s.wr (lAcq m) 0).milEvent m 1 0x9 5 s.htm.time
    else s)

/-! ### Ring 36 (R418, R419) -/

/-- The first of 16 mills, from `k` on and around, with a property. -/
def around16 (k : Nat) (p : Nat → Bool) : Option Nat := ((List.range 16).map fun i => (k + i) % 16).find? p

/-- Mill m has been served: the round robin goes on after it, and the next offer comes 8 cycles later (R418). (DESIGN CHOICE, log 76.) -/
def State.milNext (s : State) (m : Nat) : State := { s with mil := { s.mil with next := (m + 1) % 16, gap := 8 } }

def State.milOfferRec (s : State) (m : Nat) : State :=
  let x := s.mill m
  match x.recs with
  | [] => s
  | r :: t =>
    let (seq, s) := (s.setMill m { x with recs := t }).nextSeq 36
    s.give 36 [r.kind * 2 ^ 28 + m * 2 ^ 24 + r.detail * 2 ^ 16 + seq, secOf r.t % 2 ^ 32,
      secOf r.t / 2 ^ 32 * 2 ^ 16 + r.rev % 2 ^ 16, nsOf r.t]

def State.milOfferQuill (s : State) (m : Nat) : State :=
  let x := s.mill m
  match x.quill with
  | none => s
  | some q =>
    let (seq, s) := (s.setMill m { x with quill := none }).nextSeq 36
    s.give 36 (quillW0 4 q.pol q.ovf q.uncal false (4 * m + q.input) seq :: time96 q.t (s.qual q.uncal))

/-- One waiting item is offered: records before quills, mill by mill in turn. -/
def State.milOffer (s : State) : State :=
  match around16 s.mil.next (fun m => !(s.mill m).recs.isEmpty) with
  | some m => (s.milOfferRec m).milNext m
  | none => match around16 s.mil.next (fun m => (s.mill m).quill.isSome) with
    | some m => (s.milOfferQuill m).milNext m
    | none => s

def execMillRingOffer (s : State) : Out := event (if s.running && s.mil.gap == 0 then s.milOffer else s)

/-- What a cycle does in the mills: held edges reach the estimator, and the time to the next offer runs. -/
def State.milsCycle (s : State) : State :=
  let s := { s with mil := { s.mil with gap := s.mil.gap - 1 } }
  s.mil.mills.foldl (fun s kx => s.milFlush kx.1 s.htm.time) s

/-! ### Sleep (R412) -/

/-- At a thaw: hardware-mode mills seek again with INDEXED 0 and NAP_BREAK; a relative mill continues from its position. -/
def State.milThaw (s : State) (m : Nat) : State :=
  if s.lon m (lEn m) && !s.lon m (lMode m) then
    let x := s.mill m
    let s := s.setMill m { x with
      seed := 0, since := s.htm.time, ready := 0, lastT := none, lastIv := none, run := 0, held := none, dirNeg := none, fast := false,
      froz := x.kept.head?.map fun k => { k with a := 0 } }
    (((s.wr (lState m) 1).wr (lAcq m) 0).wr (lIndexed m) 0).milEvent m 7 0xE 0 s.htm.time
  else s

/-- Every mill at a thaw: no transition from before the freeze waits in a filter, and STALL_T runs anew. -/
def State.milsThaw (s : State) : State :=
  let s := { s with mil := { s.mil with mills := s.mil.mills.map fun kx => (kx.1, { kx.2.settled with since := s.htm.time }) } }
  (List.range 16).foldl State.milThaw s

end Sys2Proof.Machine
end

