-- ==== Sys2Proof/Machine/PtnOps.lean ====
section
/-! DEFINITION. What the partner engine shares (spec/15): the PTL header, the beacon instants and the beacon's body, the partner
table, routes, and frames to send. -/

namespace Sys2Proof.Machine

open F

/-! ### PTL frames (R652) -/

def le16 (v : Nat) : List Nat := [v % 256, v / 2 ^ 8 % 256]
def le32 (v : Nat) : List Nat := le16 v ++ le16 (v / 2 ^ 16)
def le64 (v : Nat) : List Nat := le32 v ++ le32 (v / 2 ^ 32)

/-- A TIME96 as bytes (R64). -/
def State.time96b (s : State) (t : Nat) : List Nat := (time96 t (s.qual false)).flatMap le32

/-- RDpSFD's interpolator is uncalibrated (R346, R708). -/
def State.sfdUncal (s : State) (p : Nat) : Bool := s.stp.uncal.testBit (82 + p)

/-- The TIME96 of an antenna instant that port p received, and its bytes (R61, R708). -/
def State.antenna (s : State) (p : Nat) (rx : Stamp) : List Nat := time96 (ofStamp rx) (s.qual (s.sfdUncal p))
def State.antennaB (s : State) (p : Nat) (rx : Stamp) : List Nat := (s.antenna p rx).flatMap le32

/-- A downlink frame of the hub: header, route, body. -/
def ptlDown (type : Nat) (route : List Nat) (final : Nat) (body : List Nat) : List Nat :=
  [type, 0x60 + route.length * 4] ++ le16 0 ++ le16 final ++ route.flatMap le16 ++ body

/-! ### Beacon instants (R654) -/

/-- H64 of a Hub Time. -/
def h64 (t : Nat) : Nat := t / nsU % 2 ^ 64

/-- BP and B_OFS in ns. -/
def State.bpNs (s : State) : Nat := s.rd pBp * 1000000
def State.bofsNs (s : State) : Nat := s.rd pBofs * 1000

/-- The number of the superframe that holds `t`; negative before the first beacon instant. -/
def State.superframe (s : State) (t : Nat) : Int := ((h64 t : Int) - s.bofsNs) / s.bpNs

/-- The beacon instant that opened the superframe of `t`: its number and Hub Time, in 2⁻³² ns. -/
def State.beaconAt (s : State) (t : Nat) : Option (Nat × Nat) :=
  let n := s.superframe t
  if n < 0 then none
  else
    let x := n.toNat * s.bpNs + s.bofsNs
    some (n.toNat, (t / nsU - (h64 t - x)) * nsU)

/-- The beacon instant after now. -/
def State.nextBeacon (s : State) : Nat × Nat :=
  let n := (s.superframe s.htm.time + 1).toNat
  let x := n * s.bpNs + s.bofsNs
  (n, (s.htm.time / nsU + (x - h64 s.htm.time)) * nsU)

/-- The beacon instant that lies in the present cycle; one passed during sleep or by a SET or STEP lies in none (R657). -/
def State.beaconHere (s : State) : Option (Nat × Nat) := (s.beaconAt s.htm.time).filter fun b => decide (s.htm.time < b.2 + s.effIncr)

/-- The modes in which the hub sends beacons (R657). -/
def State.beaconMode (s : State) : Bool := s.mode == 4 || s.mode == 5 || s.mode == 6 || s.mode == 10

/-- A superframe of the discovery window. -/
def State.isDisc (s : State) (seq : Nat) : Bool := seq % s.rd (pa pDiscDiv) == 0

/-- The mills that beacons carry, in the order of PTN_MILLS. -/
def State.beaconMills (s : State) : List Nat := ((List.range 4).map fun i => s.rd (pMill i)).filter (· != 0x1F)

/-- The beacon of superframe n at `tb`, as PTL payload (R658, R659). -/
def State.beaconBytes (s : State) (n tb : Nat) : List Nat :=
  let seq := n % 2 ^ 16
  let flags := (s.isDisc seq).toNat + s.rd pJoinOpen * 2 + s.qual false * 4 + s.rd cLeapSoon * 16 + s.rd htmTimeSet * 32
  [0x01, 0x60] ++ le16 0 ++ le16 0xFFF ++ le16 seq ++ [flags, s.beaconMills.length] ++ le16 (s.rd pBp) ++
    [s.rd htmStepGen, s.rd cTaiUtc, s.rd pLgen, 0] ++ s.time96b tb ++ s.beaconMills.flatMap (fun m => (s.millBlock m tb).flatMap le32)

/-! ### The table -/

/-- Short addresses. -/
def isShort (a : Nat) : Bool := decide (1 ≤ a) && decide (a ≤ 0xFFE)
/-- States 2 to 5. -/
def Partner.joined (x : Partner) : Bool := decide (2 ≤ x.state) && decide (x.state ≤ 5)

/-- The partners of a port in states 2 to 5, by address. -/
def State.ptnOn (s : State) (p : Nat) : List (Nat × Partner) := s.ptn.table.filter fun kx => kx.2.joined && kx.2.port == p
/-- COUNT of PTN_STATUS. -/
def State.ptnCount (s : State) : Nat := (s.ptn.table.filter fun kx => kx.2.joined).length

/-- The relays between partner `a` and the hub, nearest the partner first. -/
def State.pathUp (s : State) (a : Nat) : Nat → List Nat
  | 0 => []
  | fuel + 1 => let p := (s.ptr a).parent
                if p = 0 then [] else p :: State.pathUp s p fuel
/-- The path of a partner from the hub outward. -/
def State.path (s : State) (a : Nat) : List Nat := (s.pathUp a 4).reverse
/-- Every relay on a path is PRESENT. -/
def State.pathGood (s : State) (l : List Nat) : Bool := l.all fun r => (s.ptr r).state == 3

/-- A TAG 0x11 item: a change of STATE (R680). -/
def State.ptnItem (s : State) (a old new cause : Nat) (x : Partner) : State :=
  s.give 38 (varItem 0x11 (le16 a ++ [old, new, cause, x.port, 0, 0] ++ le64 x.eui ++ s.time96b s.htm.time))

/-- The entry takes a new state, with its item. -/
def State.ptnState (s : State) (a new cause : Nat) (x : Partner) : State :=
  let old := (s.ptr a).state
  let s := s.setPtr a { x with state := new }
  if old = new then s else s.ptnItem a old new cause x

/-- Partners of states 2 to 4 whose path contains `r` become UNREACHABLE (R676). -/
def State.losePath (s : State) (r cause : Nat) : State :=
  s.ptn.table.foldl (fun s kx =>
    let x := s.ptr kx.1
    if x.joined && x.state != 5 && (s.path kx.1).contains r then
      (s.ptnState kx.1 5 cause { x with heard := false }).ptnFlag x.port 7
    else s) s

/-- UNREACHABLE partners behind `r` whose whole path is PRESENT again become ABSENT with MISS 0 (R676). -/
def State.regainPath (s : State) (r : Nat) : State :=
  s.ptn.table.foldl (fun s kx =>
    let x := s.ptr kx.1
    if x.state = 5 && (s.path kx.1).contains r && s.pathGood (s.path kx.1) then
      (s.ptnState kx.1 4 4 { x with miss := 0 }).ptnFlag x.port 6
    else s) s

/-- A change of state with what it does to the partners behind (R676). -/
def State.ptnMove (s : State) (a new cause : Nat) (x : Partner) : State :=
  let old := (s.ptr a).state
  let s := s.ptnState a new cause x
  if old = 3 ∧ new ≠ 3 then s.losePath a 3 else if new = 3 ∧ old ≠ 3 then s.regainPath a else s

/-! ### Sending -/

/-- The port is on and not halted, and the main domain runs. -/
def State.radioOn (s : State) (p : Nat) : Bool := s.running && (s.rd (aState p) == 1 || s.rd (aState p) == 2)

/-- The MAC destination of a downlink payload and whether it is an extended address (R651, R663): the first ROUTE entry; with RCOUNT 0
FINAL, the broadcast address for a SAMPLE_REQ to every partner, the EUI-64 in the body for a grant or denial. -/
def ptlDst (data : List Nat) : Nat × Bool :=
  let b := fun i => data.getD i 0
  let final := b 4 + b 5 % 16 * 2 ^ 8
  if b 1 / 4 % 8 ≠ 0 then (b 6 + b 7 * 2 ^ 8, false)
  else if final ≠ 0xFFF then (final, false)
  else if b 0 = 0x11 ∨ b 0 = 0x12 then (((data.drop 6).take 8).foldr (fun b v => b + v * 2 ^ 8) 0, true)
  else (0xFFFF, false)

/-- A data frame of the hub without its FCS (R651): short source 0x0000 in PAN `pan`, an acknowledgement requested but of a broadcast.
(PRESUMED, log 141.) -/
def macFrame (pan seq : Nat) (dst : Nat × Bool) (data : List Nat) : List Nat :=
  let ack := if dst = (0xFFFF, false) then 0 else 0x20
  le16 (0xA041 + ack + if dst.2 then 0xC00 else 0x800) ++ [seq] ++ le16 pan ++ (if dst.2 then le64 dst.1 else le16 dst.1) ++ le16 0 ++ data

/-- The frame in which a payload goes out; R651 does not state its MAC sequence number. -/
def State.ptlFrame (s : State) (dst : Nat × Bool) (data : List Nat) : List Nat × State :=
  let (v, s) := s.draw
  (macFrame (s.rd pPan) (v % 256) dst data, s)

/-- A frame of the hub's own waits on port p for its downlink window (R663, R711); a port that is off or halted sends nothing. -/
def State.sendPtl (s : State) (p : Nat) (data : List Nat) : State :=
  if s.rd (aState p) = 1 ∨ s.rd (aState p) = 2 then
    let (psdu, s) := s.ptlFrame (ptlDst data) data
    s.setRadio p { s.radio p with queue := (s.radio p).queue ++ [{ kind := .link, inst := none, data := psdu }] }
  else s

/-- A partner leaves the table (R678, R679): QUARANTINE frees its slots. -/
def State.quarantine (s : State) (a cause : Nat) : State :=
  let x := s.ptr a
  s.ptnMove a 1 cause { x with relay := none, phase := 0, slot := 0, miss := 0, heard := false, sync := none }

/-- Eviction (R678). (DEDUCED, log 123.) -/
def State.evict (s : State) (a reason retry cause : Nat) : State :=
  let x := s.ptr a
  let route := s.path a
  let s := if s.pathGood route then s.sendPtl x.port (ptlDown 0x41 route a (le16 a ++ [reason, retry])) else s
  (s.quarantine a cause).ptnFlag x.port 8

end Sys2Proof.Machine
end

