-- ==== Sys2Proof/Machine/Partner.lean ====
section
/-! DEFINITION. The partner link (spec/15): beacons, layout, joining, sync reports, presence and eviction. -/

namespace Sys2Proof.Machine

open F

/-! ### Beacons (R656, R657) -/

/-- The accepted layout takes effect, and LGEN rises (R656). -/
def State.layoutNow (s : State) : State :=
  match s.ptn.layout with
  | some vs =>
    let s := (layoutFlds.zip vs).foldl (fun s fv => s.wr (pa fv.1) fv.2) { s with ptn := { s.ptn with layout := none } }
    s.wr pLgen (s.rd pLgen + 1)
  | none => s

/-- At a beacon instant a layout accepted before its cycle takes effect (R656). -/
def State.layoutTake (s : State) : State := if s.ended.contains .layout then s else s.layoutNow

/-- Hub Time has come to a beacon instant, whether the hub sends beacons or not (R656). -/
def State.layoutCycle (s : State) : State := if s.ptn.layout.isSome && s.beaconHere.isSome then s.layoutNow else s

/-- A beacon instant passed during sleep: the layout is in force since (R656); `was` is Hub Time at the freeze. (DEDUCED, log 197.) -/
def State.layoutThaw (s : State) (was : Nat) : State :=
  if decide (s.superframe was < s.superframe s.htm.time) then s.layoutNow else s

/-- GRACE starts again for the partners of the ports in a mask (R674). -/
def State.restartGrace (s : State) (ports : Nat) : State :=
  let g := fun kx : Nat × Partner => if ports.testBit kx.2.port then (kx.1, { kx.2 with grace := s.rd (pa pGrace) }) else kx
  { s with ptn := { s.ptn with table := s.ptn.table.map g } }

/-- The ports whose RDpTXT edge for the beacon of `tb` has been placed (R709, R711) and that are not off or halted since (R717). -/
def State.beaconOut (s : State) (tb : Nat) : Nat :=
  maskOf (fun p => s.radioOn p && (s.radio p).placed == some (tb / 2 ^ 28)) (List.range 8)

/-- Port p sends the beacon of `seq`, or skips it (R657). -/
def State.beaconPort (s : State) (seq out : Nat) (p : Nat) : State :=
  if !s.bit pPorts p then s
  else if out.testBit p then s.wr (pSeq p) seq
  else (s.bump (pSkips p)).ptnFlag p 0

/-- The beacon instant `tb` of superframe n: layout, discovery, the ports, and the record that reports refer to; `can` masks the ports
whose transceiver sends. (DEDUCED, log 126.) -/
def State.beaconGo (s : State) (n tb can : Nat) : State :=
  let seq := n % 2 ^ 16
  let s := s.layoutTake
  let last := s.ptn.beacons.head?.map (·.tb)
  let s := if s.isDisc seq then { s with ptn := { s.ptn with granted := [] } } else s
  let out := can &&& s.beaconOut tb
  let s := (List.range 8).foldl (fun s p => s.beaconPort seq out p) s
  let sent := s.rd pPorts &&& out
  let s := s.restartGrace (if last = some (tb - s.bpNs * nsU) then 0xFF - sent else 0xFF)
  { s with ptn := { s.ptn with
      beacons := ({ seq := seq, tb := tb, ports := sent, gen := s.rd htmStepGen } :: s.ptn.beacons).take (2 ^ 15) } }

/-! ### Layout commands -/

/-- The staged layout is acceptable (R656). -/
def State.layoutOk (s : State) : Bool :=
  let pow2 := fun v => [1, 2, 4, 8, 16, 32, 64, 128].contains v
  let rbEnd := s.rd pRbStart + s.rd pRbCount * s.rd pRbLen
  let rptEnd := s.rd pRptStart + s.rd pRptSlots * s.rd pRptLen
  let fwdEnd := s.rd pFwdStart + s.rd pRbCount * s.rd pFwdLen
  decide (20 ≤ s.rd pRbStart) && decide (rbEnd ≤ s.rd pRptStart) && decide (rptEnd ≤ s.rd pFwdStart) &&
    decide (fwdEnd ≤ s.rd pDiscStart) && decide (s.rd pDiscStart + s.rd pDiscLen ≤ s.rd pBp * 10) && pow2 (s.rd pRptDiv) &&
    pow2 (s.rd pDiscDiv) && decide (1 ≤ s.rd pRptSlots) && decide (s.rd pRbCount ≤ 64) &&
    [pRptLen, pRbLen, pFwdLen, pDiscLen].all fun f => decide (1 ≤ s.rd f)

def opLayoutApply (slot : Slot) (s : State) : Res :=
  secureOnly slot s <|
  if s.layoutOk then (.done, { s with ptn := { s.ptn with layout := some (layoutFlds.map s.rd) }, ended := .layout :: s.ended }) else (.outOfRange, s)

def opLayoutDiscard (slot : Slot) (s : State) : Res := secureOnly slot s (.done, s.copyFrom pa layoutFlds)

def execLayoutApply (slot : Slot) (s : State) : Out := host slot s (opLayoutApply slot)
def execLayoutDiscard (slot : Slot) (s : State) : Out := host slot s (opLayoutDiscard slot)

/-! ### Joining (R664 to R668) -/

/-- The engine takes frames that arrive on port p (R653). -/
def State.ptnHears (s : State) (p : Nat) : Bool := s.running && s.on pEn && s.bit pPorts p

/-- The lowest FREE address from `a` upward, in a table of rising addresses. -/
def lowestFree (a : Nat) : List (Nat × Partner) → Nat
  | [] => a
  | (k, _) :: t => if a < k then a else lowestFree (k + 1) t
def State.freeAddr (s : State) : Option Nat :=
  let a := lowestFree 1 s.ptn.table
  if isShort a then some a else none

/-- The report phase with the fewest partners on port p, the lowest on a tie, and its lowest free slot (R666); `skip` is not counted. -/
def State.reportSlot (s : State) (p skip : Nat) : Option (Nat × Nat) :=
  let l := (s.ptnOn p).filter fun kx => kx.1 != skip
  let count := fun ph => (l.filter fun kx => kx.2.phase == ph).length
  let phases := List.range (s.rd (pa pRptDiv))
  let best := phases.foldl (fun b ph => if count ph < count b then ph else b) 0
  ((List.range (s.rd (pa pRptSlots))).find? fun k => !l.any fun kx => kx.2.phase == best && kx.2.slot == k).map fun k => (best, k)

/-- The relay slot of a joiner, if it is to be a relay (R666). -/
def State.relaySlot (s : State) (p skip depth parent : Nat) (cap : Bool) : Option Nat :=
  let low := if parent = 0 then 0 else ((s.ptr parent).relay.getD 0) + 1
  let l := (s.ptnOn p).filter fun kx => kx.1 != skip
  if cap && decide (depth ≤ 3) then
    (List.range (s.rd (pa pRbCount))).find? fun k => decide (low ≤ k) && !l.any fun kx => kx.2.relay == some k
  else none

/-- Every answer waits for the next downlink window (R667). -/
def State.answerPtl (s : State) (p : Nat) (data : List Nat) : State :=
  { s with ptn := { s.ptn with answers := s.ptn.answers ++ [{ port := p, data := data, sf := s.superframe s.htm.time }] } }

/-- The route to a joiner under `parent`: its relays, hub side first. -/
def State.joinRoute (s : State) (parent : Nat) : List Nat := if parent = 0 then [] else s.path parent ++ [parent]

/-- JOIN_GRANT's body (R667). -/
def State.grantBody (s : State) (a : Nat) (x : Partner) (nonce : Nat) : List Nat :=
  le64 x.eui ++ le16 nonce ++ le16 a ++ [x.depth, x.relay.isSome.toNat, x.phase, x.slot, x.relay.getD 0xFF, s.rd pLgen,
    s.rd (pa pRptDiv), s.rd (pa pDiscDiv)] ++
    ([pRptStart, pRptLen, pRbStart, pRbLen, pFwdStart, pFwdLen, pDiscStart, pDiscLen].flatMap fun f => le16 (s.rd (pa f))) ++
    [s.rd (pa pAbsentN), s.rd (pa pRbCount)]

/-- A denial (R667). -/
def State.denyJoin (s : State) (p : Nat) (r : JoinReq) (reason retry : Nat) : State :=
  (s.answerPtl p (ptlDown 0x12 (s.joinRoute r.parent.toNat) 0xFFF (le64 r.eui.toNat ++ le16 r.nonce.toNat ++ [reason, retry]))).ptnFlag p 5

/-- A grant: the entry moves to state 2, and the answer waits. (DEDUCED, log 121.) -/
def State.grantJoin (s : State) (p a : Nat) (r : JoinReq) (x : Partner) : State :=
  let x := { x with eui := r.eui.toNat, port := p, depth := r.depth.toNat, parent := r.parent.toNat, lqi := r.lqi.toNat, cls := r.cls.toNat,
                    miss := 0, grace := s.rd (pa pGrace), heard := false }
  let s := s.ptnMove a 2 0 x
  let s := { s with ptn := { s.ptn with granted := r.eui.toNat :: s.ptn.granted } }
  (s.answerPtl p (ptlDown 0x11 (s.joinRoute r.parent.toNat) 0xFFF (s.grantBody a x r.nonce.toNat))).ptnFlag p 4

/-- Check 4 of R665: PARENT is the hub, or a relay in state 3 on the same port. -/
def State.parentOk (s : State) (p : Nat) (r : JoinReq) : Bool :=
  let x := s.ptr r.parent.toNat
  r.parent == 0#12 || (x.relay.isSome && x.state == 3 && x.port == p)

/-- Check 5 of R665: the table or the report slots are full. -/
def State.ptnFull (s : State) (p : Nat) : Bool :=
  decide (s.rd pMax ≤ s.ptnCount) || s.freeAddr.isNone || (s.reportSlot p 0).isNone

/-- Checks 4 and 5, then the grant of a new address (R665, R666). -/
def State.tryGrant (s : State) (p : Nat) (r : JoinReq) : State :=
  if !s.parentOk p r then s.denyJoin p r 5 0
  else if s.ptnFull p then (s.denyJoin p r 1 60).ptnFlag p 11
  else match s.freeAddr, s.reportSlot p 0 with
    | some a, some (ph, k) =>
      let x : Partner := { Partner.init with phase := ph, slot := k, relay := s.relaySlot p 0 r.depth.toNat r.parent.toNat (r.caps.getLsbD 0) }
      s.grantJoin p a r x
    | _, _ => s

/-- A joiner that has an entry gets the same address again (R665, case 3). -/
def State.regrant (s : State) (p a : Nat) (r : JoinReq) : State :=
  let x := s.ptr a
  let moved := x.parent != r.parent.toNat
  if moved || x.state == 1 || x.port != p then
    match s.reportSlot p a with
    | some (ph, k) =>
      let y := { x with phase := ph, slot := k, relay := s.relaySlot p a r.depth.toNat r.parent.toNat (r.caps.getLsbD 0) }
      let s := if moved then s.losePath a 8 else s
      s.grantJoin p a r y
    | none => (s.denyJoin p r 1 60).ptnFlag p 11
  else s.grantJoin p a r x

/-- The lowest ticket not in use from the next one on. -/
def State.newTicket (s : State) : Nat := ((List.range 9).map fun i => (s.ptn.nextTkt + i) % 256).find?
  (fun k => !s.ptn.tickets.any fun t => t.ticket == k) |>.getD 0

/-- The TAG 0x10 item of a held request (R680). -/
def State.ticketItem (s : State) (k p : Nat) (r : JoinReq) : List Nat :=
  varItem 0x10 ([k, p, r.depth.toNat, r.caps.toNat] ++ le64 r.eui.toNat ++ le16 r.parent.toNat ++ le16 r.cls.toNat ++ [r.lqi.toNat, 0, 0, 0] ++
    s.antennaB p r.rx ++ le16 r.nonce.toNat ++ [0, 0])

/-- A request waits for the host (R668). -/
def State.holdJoin (s : State) (p : Nat) (r : JoinReq) : State :=
  if 8 ≤ s.ptn.tickets.length then s.denyJoin p r 4 10
  else
    let k := s.newTicket
    let t : Ticket := { ticket := k, port := p, req := r }
    let s := { s with ptn := { s.ptn with tickets := s.ptn.tickets ++ [t], nextTkt := (k + 1) % 256 } }
    (s.give 38 (s.ticketItem k p r)).ptnFlag p 3

/-- The judgement of a JOIN_REQ (R665). -/
def State.joinReq (s : State) (p : Nat) (r : JoinReq) : State :=
  if 4 ≤ r.caps.toNat then (s.bump (pBadHdr p)).ptnFlag p 2
  else if !s.on pJoinOpen || s.ptn.granted.contains r.eui.toNat then s
  else match s.ptn.table.find? fun kx => kx.2.state != 0 && kx.2.eui == r.eui.toNat with
    | some kx => s.regrant p kx.1 r
    | none =>
      if !s.parentOk p r then s.denyJoin p r 5 0
      else if s.ptnFull p then (s.denyJoin p r 1 60).ptnFlag p 11
      else if s.on pJoinMode then s.holdJoin p r
      else s.tryGrant p r

def execJoinReq (port : Fin 8) (req : JoinReq) (s : State) : Out :=
  event (if s.ptnHears port then s.joinReq port req else s)

/-- An answer is due on port p: it was decided in another superframe than the present one (R667). -/
def State.answerDue (s : State) (p : Nat) (f : PtlOut) : Bool := f.port == p && f.sf != s.superframe s.htm.time

/-- The answers due on a port go out in its downlink window (R667). -/
def execJoinAnswer (port : Fin 8) (s : State) : Out :=
  event (if s.running then
      (s.ptn.answers.filter (s.answerDue port)).foldl (fun s f => s.sendPtl f.port f.data)
        { s with ptn := { s.ptn with answers := s.ptn.answers.filter fun f => !s.answerDue port f } }
    else s)

/-- A ticket leaves the pending list. -/
def State.takeTicket (s : State) (k : Nat) : Option Ticket × State :=
  (s.ptn.tickets.find? (·.ticket == k), { s with ptn := { s.ptn with tickets := s.ptn.tickets.filter (·.ticket != k) } })

/-- APPROVE and DENY come from a secure slot or the consumer slot of ring 38. -/
def ptnJudge (slot : Slot) (s : State) (k : Res) : Res :=
  if s.secure slot.val || s.rd (rCons 38) == slot.val then k else (.secureOnly, s)

def opApprove (slot : Slot) (k : Nat) (s : State) : Res :=
  ptnJudge slot s <|
  match s.takeTicket k with
  | (some t, s) => (.done, s.tryGrant t.port t.req)
  | (none, _) => (.alreadyDone, s)

def opDeny (slot : Slot) (k retry : Nat) (s : State) : Res :=
  ptnJudge slot s <|
  match s.takeTicket k with
  | (some t, s) => (.done, s.denyJoin t.port t.req 2 retry)
  | (none, _) => (.alreadyDone, s)

def execApprove (slot : Slot) (ticket : Byte) (s : State) : Out := host slot s (opApprove slot ticket.toNat)
def execDeny (slot : Slot) (ticket retry : Byte) (s : State) : Out := host slot s (opDeny slot ticket.toNat retry.toNat)

/-- APPROVE_TO passes (R668). -/
def execTicketTimeout (ticket : Byte) (s : State) : Out :=
  event (if s.running then
      match s.takeTicket ticket.toNat with
      | (some t, s) => s.denyJoin t.port t.req 3 10
      | (none, _) => s
    else s)

/-! ### Accepted frames (R653, R674) -/

/-- A frame that the header checks drop (R653), of a partner's entry too. -/
def State.badHdr (s : State) (p a : Nat) : State :=
  let s := (s.bump (pBadHdr p)).ptnFlag p 2
  let x := s.ptr a
  if x.joined then s.setPtr a { x with bad := min (x.bad + 1) 0xFFFF } else s

/-- The relays of a path have each forwarded one frame; a FREE address has no entry to count in (R666). -/
def State.countFwd (s : State) (l : List Nat) : State :=
  l.foldl (fun s r => if (s.ptr r).state = 0 then s else s.setPtr r { s.ptr r with fwd := min ((s.ptr r).fwd + 1) 0xFFFF }) s

/-- Partner `a`'s frame is accepted on port p: the instant of its last frame, and its presence. -/
def State.ptnAccept (s : State) (p a : Nat) (rx : Stamp) : State :=
  let s := s.countFwd (s.path a)
  let s := { s with ptn := { s.ptn with acc := s.ptn.acc + 1 } }
  s.setPtr a { s.ptr a with last := s.antenna p rx, acc := s.ptn.acc, heard := true }

/-- The header check of an uplink frame from a short address (R653). -/
def State.uplink (s : State) (p a : Nat) (ok : Bool) (k : State → State) : State :=
  if !s.ptnHears p then s
  else if !ok || !(s.ptr a).joined then s.badHdr p a
  else k s

/-! ### Sync reports (R669 to R673) -/

/-- Quotient rounded to nearest, halves away from zero. -/
def roundAway (a : Int) (b : Nat) : Int := if a < 0 then -(roundDiv (-a).toNat b : Nat) else (roundDiv a.toNat b : Nat)

/-- The flags HOLDOVER and UNSYNC of a report go into the entry. (DEDUCED, log 122.) -/
def Partner.withFlags (x : Partner) (flags : Nat) : Partner := { x with flags := x.flags / 4 * 4 + flags / 2 % 4 }

/-- The beacon that a report names, and the instant its partner measured from: the hub's beacon at depth 1, the parent's nominal relay
instant beyond (R670). -/
def State.reportBeacon (s : State) (p a bseq : Nat) : Option (BeaconRec × Nat) :=
  let x := s.ptr a
  let now := s.superframe s.htm.time
  (s.ptn.beacons.find? fun b => b.seq == bseq && b.ports.testBit p && decide ((now - s.superframe b.tb).natAbs ≤ 2 ^ 15)).map fun b =>
    if x.depth = 1 then (b, b.tb)
    else (b, b.tb + (s.rd (pa pRbStart) + (s.ptr x.parent).relay.getD 0 * s.rd (pa pRbLen)) * 100000 * nsU)

/-- OFFSET and DELAY in ns (R670). -/
def State.syncCalc (s : State) (a tb : Nat) (y : SyncBody) : Int × Int :=
  let ra := signedOf 64 ((y.rB.toNat + 2 ^ 64 - h64 tb) % 2 ^ 64)
  let rc := signedOf 64 ((h64 (ofStamp y.rx) + 2 ^ 64 - y.tR.toNat) % 2 ^ 64) * 16 + (y.rx % 16 : Nat)
  if (s.ptr a).depth = 1 then (roundAway (ra * 16 - rc) 32, roundAway (ra * 16 + rc) 32)
  else (ra - s.rd pHopDly, 0)

/-- RATE after two consecutive offsets (R671); over no time at all the spec states no rate. -/
def State.newRate (s : State) (p : Nat) (x : Partner) (ofs : Int) (tb gen : Nat) (jump : Bool) : Int × State :=
  match x.sync with
  | some q =>
    if q.port = p ∧ q.gen = gen ∧ !q.jump ∧ !jump then
      let d := signedOf 64 ((h64 tb + 2 ^ 64 - h64 q.tb) % 2 ^ 64)
      if d = 0 then
        let (v, s) := s.draw
        (signedOf 32 (v % 2 ^ 32), s)
      else
        let num := (ofs - q.ofs) * 10 ^ 10 - x.rate * d
        (x.rate + roundAway (if d < 0 then -num else num) (d.natAbs * 2 ^ s.rd pRgain), s)
    else (x.rate, s)
  | none => (x.rate, s)

/-- An alert (R672): bit i of the entry's flags and flag f of the port follow the limit. -/
def State.alert (s : State) (a : Nat) (v : Int) (lim : Fld) (i f : Nat) : State :=
  let x := s.ptr a
  let base := if x.flags.testBit i then x.flags - 2 ^ i else x.flags
  if s.rd lim ≠ 0 ∧ s.rd lim < v.natAbs then (s.setPtr a { x with flags := base + 2 ^ i }).ptnFlag x.port f
  else s.setPtr a { x with flags := base }

/-- The TAG 0x12 item of raw mode (R673, R680). -/
def State.rawSync (s : State) (p a tb : Nat) (y : SyncBody) : List Nat :=
  let x := s.ptr a
  varItem 0x12 (le16 a ++ [p, x.depth] ++ s.time96b tb ++
    (if x.depth = 1 then s.antennaB p y.rx else List.replicate 12 0) ++
    le16 y.bseq.toNat ++ [y.flags.toNat, y.lqi.toNat] ++ le64 y.rB.toNat ++ le64 y.tR.toNat ++ le32 y.ofs.toNat ++ le32 y.rate.toNat ++
    le16 y.temp.toNat ++ le16 y.batt.toNat)

/-- What a report tells of its partner goes into the entry. -/
def State.syncTold (s : State) (a : Nat) (y : SyncBody) : State :=
  s.setPtr a { (s.ptr a).withFlags y.flags.toNat with lqi := y.lqi.toNat, batt := y.batt.toNat, temp := y.temp.toNat }

/-- A SYNC_REPORT of partner `a` (R670 to R673): in computed mode one whose BSEQ names no beacon counts for presence alone; in raw mode each gives its item, whose tb is not stated where BSEQ names no beacon.
(DESIGN CHOICE, log 198.) -/
def State.syncReport (s : State) (p a : Nat) (y : SyncBody) : State :=
  let s := s.ptnAccept p a y.rx
  match s.reportBeacon p a y.bseq.toNat with
  | none =>
    if s.on pOfsMode then
      let (v, s) := (s.syncTold a y).draw
      s.give 38 (s.rawSync p a (v % timeMod) y)
    else s
  | some (b, tb) =>
    let s := s.syncTold a y
    if s.on pOfsMode then s.give 38 (s.rawSync p a tb y)
    else
      let jump := y.flags.getLsbD 3
      let (ofs, dly) := s.syncCalc a tb y
      let (rate, s) := s.newRate p (s.ptr a) ofs tb b.gen jump
      let s := s.setPtr a { s.ptr a with
        offset := ofs, delay := dly, rate := rate,
        sync := some { ofs := ofs, tb := tb, gen := b.gen, port := p, jump := jump } }
      (s.alert a ofs pOfsLim 2 12).alert a rate pRateLim 3 13

def execSyncReport (port : Fin 8) (addr : BitVec 12) (body : SyncBody) (s : State) : Out :=
  event (s.uplink port addr.toNat (decide (body.flags.toNat < 16)) (·.syncReport port addr.toNat body))

/-- KEEPALIVE counts for presence (R669). -/
def State.keepalive (s : State) (p a flags lqi batt : Nat) (rx : Stamp) : State :=
  let s := s.ptnAccept p a rx
  s.setPtr a { (s.ptr a).withFlags flags with lqi := lqi, batt := batt }

def execKeepalive (port : Fin 8) (addr : BitVec 12) (flags lqi : Byte) (batt : BitVec 16) (rx : Stamp) (s : State) : Out :=
  event (s.uplink port addr.toNat (decide (flags.toNat < 16)) (·.keepalive port addr.toNat flags.toNat lqi.toNat batt.toNat rx))

/-- LEAVE (R679). -/
def State.leave (s : State) (a : Nat) : State :=
  let s := s.countFwd (s.path a)
  let p := (s.ptr a).port
  let s := s.quarantine a 6
  ((s.losePath a 3).ptnFlag p 9)

def execLeave (port : Fin 8) (addr : BitVec 12) (reason : Byte) (s : State) : Out :=
  event (s.uplink port addr.toNat (decide (reason.toNat ≤ 3)) (·.leave addr.toNat))

/-- The PTL types of R653. -/
def ptlTypes : List Nat := [0x01, 0x02, 0x10, 0x11, 0x12, 0x20, 0x30, 0x31, 0x40, 0x41, 0x50]

def execPtlUndefinedType (port : Fin 8) (type : Byte) (s : State) : Out :=
  event (if s.ptnHears port && !ptlTypes.contains type.toNat then (s.bump (pUndef port)).ptnFlag port 1 else s)

/-! ### Presence (R674 to R679) -/

/-- A judgement that found a frame (R674): MISS clears, states 2, 4 and 5 become PRESENT. -/
def State.judgeHeard (s : State) (a : Nat) : State :=
  let x := s.ptr a
  let y := { x with miss := 0, reports := min (x.reports + 1) 0xFFFF, heard := false }
  let s := s.ptnMove a 3 1 y
  if x.state = 4 ∨ x.state = 5 then s.ptnFlag x.port 10 else s

/-- A miss, and ABSENT at ABSENT_N (R674, R675). -/
def State.judgeMissed (s : State) (a : Nat) : State :=
  let x := s.ptr a
  let y := { x with miss := min (x.miss + 1) 255, missed := min (x.missed + 1) 0xFFFF }
  if (x.state = 2 ∨ x.state = 3) ∧ s.rd (pa pAbsentN) ≤ y.miss then (s.ptnMove a 4 2 y).ptnFlag x.port 6
  else s.setPtr a y

/-- Where the forward window of the superframe opened at `tb` ends (R655). -/
def State.fwdEnd (s : State) (tb : Nat) : Nat := tb + (s.rd (pa pFwdStart) + s.rd (pa pRbCount) * s.rd (pa pFwdLen)) * 100000 * nsU

/-- Partner `x`'s report opportunity in the superframe of beacon b is due: the superframe is the present one, its forward window has ended, a
beacon was sent on the partner's port, and the opportunity has not been judged (R669, R674). -/
def State.judgeDue (s : State) (x : Partner) (b : BeaconRec) : Bool :=
  x.joined && b.seq % s.rd (pa pRptDiv) == x.phase && b.ports.testBit x.port && x.judged != some b.tb &&
    (s.beaconAt s.htm.time).any (·.2 == b.tb) && decide (s.fwdEnd b.tb ≤ s.htm.time)

/-- The judgement of a report opportunity at the end of the forward window (R674). (DEDUCED, log 124.) -/
def State.judge (s : State) (a : Nat) : State :=
  match s.ptn.beacons.head? with
  | none => s
  | some b =>
    if !s.judgeDue (s.ptr a) b then s
    else
      let x := { s.ptr a with judged := some b.tb }
      if 0 < x.grace then s.setPtr a { x with grace := x.grace - 1 }
      else if x.heard then (s.setPtr a x).judgeHeard a
      else if x.state = 5 then s
      else (s.setPtr a x).judgeMissed a

def execReportJudgement (addr : BitVec 12) (s : State) : Out :=
  event (if s.running && s.on pEn then s.judge addr.toNat else s)

/-- The absent timer reaches ABSENT_TO (R677): a frame accepted meanwhile wins (DEDUCED, log 124); the EVICT's RETRY is not stated. -/
def execAbsentTimeout (addr : BitVec 12) (s : State) : Out :=
  let x := s.ptr addr.toNat
  event (if s.running && (x.state == 4 || x.state == 5) then
      if x.heard then s.judgeHeard addr.toNat
      else
        let (v, s) := s.draw
        s.evict addr.toNat 1 (v % 256) 5
    else s)

/-- A quarantine ends: the address is FREE (R678); the item names the partner that held it. -/
def State.freeEntry (s : State) (a cause : Nat) : State := (s.setPtr a Partner.init).ptnItem a 1 0 cause (s.ptr a)

def execQuarantineEnd (addr : BitVec 12) (s : State) : Out :=
  event (if s.running && (s.ptr addr.toNat).state == 1 then s.freeEntry addr.toNat 5 else s)

def opEvict (slot : Slot) (a retry : Nat) (s : State) : Res :=
  secureOnly slot s <| if (s.ptr a).joined then (.done, s.evict a 0 retry 7) else (.alreadyDone, s)

def opQuarClear (slot : Slot) (s : State) : Res :=
  secureOnly slot s (.done, s.ptn.table.foldl (fun s kx => if kx.2.state = 1 then s.freeEntry kx.1 7 else s) s)

def execEvict (slot : Slot) (addr : BitVec 12) (retry : Byte) (s : State) : Out := host slot s (opEvict slot addr.toNat retry.toNat)
def execQuarClear (slot : Slot) (s : State) : Out := host slot s (opQuarClear slot)

/-! ### The window and the registers -/

/-- PTN_W words of an entry. -/
def State.ptnWords (s : State) (a : Nat) : List Nat :=
  let x := s.ptr a
  let o := toBits 64 x.offset
  [x.state + x.port * 2 ^ 4 + x.depth * 2 ^ 8 + x.relay.isSome.toNat * 2 ^ 11 + x.flags * 2 ^ 12 + x.lqi * 2 ^ 16 + x.miss * 2 ^ 24,
   x.eui % 2 ^ 32, x.eui / 2 ^ 32, x.parent + x.phase * 2 ^ 16 + x.slot * 2 ^ 24, o % 2 ^ 32, o / 2 ^ 32, toBits 32 x.rate,
   toBits 32 x.delay] ++ x.last ++ [x.reports * 2 ^ 16 + x.missed]

/-- A write of PTN_WSEL copies the entry into the slot's window. -/
def opPtnWsel (slot : Slot) (a : Nat) (s : State) : Res :=
  if !isShort a then (.outOfRange, s)
  else (.done, { s with ptn := { s.ptn with
    wsel := Assoc.put 0 slot.val a s.ptn.wsel, wins := Assoc.put [] slot.val (s.ptnWords a) s.ptn.wins } })

/-- PTN_STATUS. -/
def State.ptnStatus (s : State) : Nat := s.rd pLgen * 2 ^ 24 + s.ptn.tickets.length * 2 ^ 20 + s.ptnCount

/-- PTN_CMD. -/
def opPtnCmd (slot : Slot) (w : Nat) (s : State) : Res :=
  let x := w / 2 ^ 16 % 2 ^ 12
  match w / 2 ^ 28 % 16 with
  | 1 => opApprove slot x s
  | 2 => opDeny slot x (w % 256) s
  | 3 => opEvict slot x (w % 256) s
  | 4 => opLayoutApply slot s
  | 5 => opLayoutDiscard slot s
  | 6 => opQuarClear slot s
  | _ => (.reservedEncoding, s)

end Sys2Proof.Machine
end

