-- ==== Sys2Proof/Machine/Radio.lean ====
section
/-! DEFINITION. Radio ports (spec/16): script slots, the script engine, transmission and reception. -/

namespace Sys2Proof.Machine

open F

/-- The active configuration of a port. -/
def State.a (s : State) (f : Fld) : Nat := s.rd (aa f)
def State.aon (s : State) (f : Fld) : Bool := s.on (aa f)

/-- The level of RDpRST_N (R707) while VIORD and the main domain are powered: an input in M2 and M9 (R760), low while EN is 0, as RESET set
it otherwise. -/
def State.radioRst (s : State) (p : Nat) : Option Bool :=
  if !s.bankUp 4 || [0, 1, 2, 9, 11].contains s.mode then none else some (s.aon (aEn p) && (s.radio p).rst)

/-! ### Slots (R714, R715) -/

/-- A slot's script starts at its entry address; RX_ON forgets the last SFD and receives. -/
def State.slotGo (s : State) (p k : Nat) : State :=
  let s := ((s.wr (aState p) 2).wr (aSlot p) k).wr (aPc p) (s.a (aEntry p k))
  let x := { s.radio p with wait := false, delay := false }
  s.setRadio p (if k = 1 then { x with recv := true, sfd := none } else x)

/-- A slot is to start: at once on an idle port, after the running slot otherwise. -/
def State.slotStart (s : State) (p k : Nat) : State :=
  if s.rd (aState p) = 1 then s.slotGo p k
  else if s.rd (aState p) = 2 then s.setRadio p { s.radio p with starts := (s.radio p).starts ||| 2 ^ k }
  else s

/-- A start by the hub itself, which MODE 1 does not make. -/
def State.hubStart (s : State) (p k : Nat) : State := if s.aon (aMode p) then s else s.slotStart p k

/-- The lowest waiting slot. -/
def lowestBit (m : Nat) : Option Nat := (List.range 8).find? m.testBit

/-- An idle port takes the first waiting start. -/
def State.slotNext (s : State) (p : Nat) : State :=
  match lowestBit (s.radio p).starts with
  | some k =>
    if s.rd (aState p) = 1 then (s.setRadio p { s.radio p with starts := (s.radio p).starts - 2 ^ k }).slotGo p k else s
  | none => s

/-! ### Transmission (R709, R711 to R713) -/

/-- A transmit report (R712). -/
def State.txReport (s : State) (p : Nat) (at_ : List Nat) (result : Nat) : State :=
  s.give (16 + p) (varItem 0x02 (at_ ++ [result, 0, 0, 0]))

/-- The frame being sent is given up as TX_LATE (R711, R717). -/
def State.txLate (s : State) (p : Nat) : State :=
  let x := s.radio p
  match x.due with
  | none => s
  | some f =>
    let late := if f.kind = .beacon then f.inst else x.missed
    let s := ((s.setRadio p { x with due := none, armed := false, missed := late }).bump (aTxLate p)).radFlag p 3
    match f.kind with
    | .beacon | .link => s
    | _ => s.txReport p (s.time96b (ofStamp (f.inst.getD 0))) 1

/-- The port halts (R716, R717): no slot waits, an armed edge is withdrawn. -/
def State.radioHalt (s : State) (p : Nat) : State :=
  let s := s.wr (aState p) 3
  let s := if (s.radio p).armed then s.txLate p else s
  s.setRadio p { s.radio p with starts := 0, wait := false, delay := false, recv := false, queue := [], await := false }

/-- When the TX_LOAD slot of a timed transmission starts (R711), in 2⁻⁴ ns. -/
def State.loadAt (s : State) (p inst : Nat) : Nat := inst - s.a (aTxLat p) - s.a (aLoadLead p) * 16000

/-- Now, in 2⁻⁴ ns. -/
def State.nowStamp (s : State) : Nat := s.htm.time / 2 ^ 28

/-- The commit cycle of a timed transmission has come (R709): 64 ns before the RDpTXT edge. -/
def State.commitDue (s : State) (p inst : Nat) : Bool := decide (inst ≤ s.nowStamp + 1024 + s.a (aTxLat p))

/-- Hub Time stands in a downlink window (R655, R663). -/
def State.inDownlink (s : State) : Bool :=
  match s.beaconAt s.htm.time with
  | some (_, tb) => decide (s.htm.time < tb + s.rd (pa pRbStart) * 100000 * nsU)
  | none => false

/-- The port carries the partner link. -/
def State.linkPort (s : State) (p : Nat) : Bool := s.on pEn && s.bit pPorts p && s.beaconMode

/-- The payload of the beacon of superframe n at `tb`, under the layout that is in force then (R656, R658). -/
def State.beaconNext (s : State) (n tb : Nat) : List Nat := s.layoutNow.beaconBytes n tb

/-- The frame that a TX_LOAD takes: the beacon, a timed frame whose load time has come, in a downlink window a frame of the hub's own, a
host's when none of these waits (R711, R713). -/
def State.txPick (s : State) (p : Nat) : Option (TxFrame × List TxFrame) :=
  let q := (s.radio p).queue
  let (n, tb) := s.nextBeacon
  if s.linkPort p && !s.aon (aMode p) && decide (s.loadAt p (tb / 2 ^ 28) ≤ s.nowStamp) && !s.commitDue p (tb / 2 ^ 28) then
    some ({ kind := .beacon, inst := some (tb / 2 ^ 28), data := s.beaconNext n tb }, q)
  else
    let pick := fun (t : TxFrame → Bool) => (q.find? t).map fun f => (f, q.erase f)
    match pick fun f => f.kind == .hostTimed && decide (s.loadAt p (f.inst.getD 0) ≤ s.nowStamp) with
    | some r => some r
    | none =>
      if s.linkPort p && !s.inDownlink then if q.any (·.kind == .link) then none else pick fun f => f.kind == .host
      else match pick fun f => f.kind == .link with
        | some r => some r
        | none => pick fun f => f.kind == .host

/-- No transmission is due on the port: none is under way, and a TX_LOAD would take none now (R711, R713, R714). -/
def State.noTx (s : State) (p : Nat) : Bool := (s.radio p).due.isNone && (s.txPick p).isNone

/-- The running slot ends, with what its end starts. -/
def State.slotEnd (s : State) (p : Nat) : State :=
  let k := s.rd (aSlot p)
  let s := s.wr (aState p) 2
  let s := if k = 0 ∨ (k = 5 ∧ s.noTx p) then s.hubStart p 1 else if k = 3 then s.hubStart p 4 else s
  (s.wr (aState p) 1).slotNext p

/-- TX_LOAD (R711). A frame whose edge has come gives way to a timed one, where no RDpIRQ has ended it. -/
def State.txLoad (s : State) (p : Nat) : State :=
  let x := s.radio p
  match s.txPick p with
    | some (f, q) =>
      if x.due.isSome && !(x.sent && f.inst.isSome) then s
      else
      let (psdu, s) := if f.kind = .beacon then s.ptlFrame (0xFFFF, false) f.data else (f.data, s)
      (s.setRadio p { x with due := some { f with data := psdu }, queue := q, armed := false, await := false, sent := false }).hubStart p 3
    | none => s

def execRadioTxLoad (p : Fin 8) (s : State) : Out := event (if s.radioOn p then s.txLoad p else s)

/-- The commit cycle: the edge is placed at A − TX_LAT; a frame without an instant goes out at once. A timed frame that is not armed
is abandoned, and so is one whose edge lies behind, as after a sleep (DEDUCED, log 199). -/
def State.txCommit (s : State) (p : Nat) : State :=
  let x := s.radio p
  match x.due with
  | none => s
  | some f =>
    if f.inst.any fun a => !s.commitDue p a then s
    else if x.armed && !f.inst.any fun a => decide (a < s.nowStamp + s.a (aTxLat p)) then
      let a := f.inst.getD (s.nowStamp + 1024 + s.a (aTxLat p))
      s.setRadio p { x with
        due := some { f with inst := some a }, armed := false, await := true, sent := true, recv := false, txt := some (a - s.a (aTxLat p)),
        placed := if f.kind = .beacon then some a else x.placed }
    else if f.inst.isSome && !x.sent then s.txLate p else s

/-- A timed frame of a host that no TX_LOAD has taken by its commit cycle is abandoned (R711). -/
def State.hostMissed (s : State) (p : Nat) (f : TxFrame) : State :=
  let x := s.radio p
  (((s.setRadio p { x with queue := x.queue.erase f }).bump (aTxLate p)).radFlag p 3).txReport p (s.time96b (ofStamp (f.inst.getD 0))) 1

/-- The timed transmissions that no TX_LOAD has taken by their commit cycle, the next beacon among them, are abandoned as TX_LATE (R711). -/
def State.txMissed (s : State) (p : Nat) : State :=
  let s := ((s.radio p).queue.filter fun f => f.inst.any fun a => s.commitDue p a).foldl (fun s f => s.hostMissed p f) s
  let x := s.radio p
  let a := s.nextBeacon.2 / 2 ^ 28
  if s.linkPort p && !s.aon (aMode p) && s.commitDue p a && !(x.due.any fun f => f.kind == .beacon && f.inst == some a) &&
      x.missed != some a && x.placed != some a then
    ((s.setRadio p { x with missed := some a }).bump (aTxLate p)).radFlag p 3
  else s

/-- At the commit cycle of a halted port the frame is not armed, and abandoned (R711, R717). -/
def execRadioTxCommit (p : Fin 8) (s : State) : Out :=
  event (if s.radioOn p then (s.txCommit p).txMissed p else if s.running && s.rd (aState p) == 3 then s.txCommit p else s)

/-- The three words of an antenna instant, with its QUAL. -/
def State.putInst (s : State) (f : Nat → Fld) (stamp qual : Nat) : State :=
  ((time96 (ofStamp stamp) qual).zipIdx).foldl (fun s wi => s.wr (f wi.2) wi.1) s

/-- An RDpSFD edge (R708): of the frame just sent, or of one received. -/
def State.radioSfd (s : State) (p stamp : Nat) : State :=
  let x := s.radio p
  if x.await then
    (s.setRadio p { x with await := false }).putInst (aLastTx p) ((x.due.bind (·.inst)).getD stamp) (s.qual false)
  else if x.recv then
    let a := stamp - s.a (aRxLat p)
    let q := s.qual (s.sfdUncal p)
    (s.setRadio p { x with sfd := some (a, q) }).putInst (aLastRx p) a q
  else s

def execRadioSfd (p : Fin 8) (stamp : Stamp) (s : State) : Out := event (if s.radioOn p then s.radioSfd p stamp else s)

def execSfdMiss (p : Fin 8) (s : State) : Out :=
  event (if s.radioOn p && (s.radio p).await then (s.setRadio p { s.radio p with await := false }).radFlag p 8 else s)

/-- RDpIRQ goes active (R714): after an RDpTXT edge the frame has gone, while receiving one has come. -/
def State.radioIrq (s : State) (p : Nat) : State :=
  let x := s.radio p
  if x.sent then
    let s := (s.setRadio p { x with sent := false, due := none }).radFlag p 2
    let s := match x.due with
      | some f => match f.kind with
        | .beacon | .link => s
        | _ => s.txReport p (s.time96b (ofStamp (f.inst.getD 0))) 0
      | none => s
    s.hubStart p 5
  else if x.recv then s.hubStart p 2
  else s

def execRadioIrq (p : Fin 8) (s : State) : Out := event (if s.radioOn p then s.radioIrq p else s)

def execRadioTick (p : Fin 8) (s : State) : Out :=
  event (if s.radioOn p && s.a (aTickMs p) != 0 then s.hubStart p 6 else s)

/-! ### Transmit items (R713) -/

/-- Two stretches of air time meet. (DESIGN CHOICE, log 132.) -/
def overlaps (a la b lb : Nat) : Bool := decide (a < b + lb) && decide (b < a + la)

/-- A timed frame of n bytes at A would meet a frame the hub has scheduled, or fall in a report, forward or discovery window. -/
def State.txConflict (s : State) (p a n : Nat) : Bool :=
  let air := Config.airTime n
  let timed := ((s.radio p).queue ++ (s.radio p).due.toList).any fun f =>
    match f.inst with | some b => overlaps a air b (Config.airTime f.data.length) | none => false
  let link := s.linkPort p && match s.beaconAt (ofStamp a) with
    | none => false
    | some (k, tb) =>
      let t0 := tb / 2 ^ 28
      let len := Config.airTime (37 + 16 * s.beaconMills.length)
      let win := fun (st n len : Fld) (k : Nat) =>
        overlaps a air (t0 + s.rd (pa st) * 1600000) ((if k = 0 then s.rd (pa n) * s.rd (pa len) else s.rd (pa len)) * 1600000)
      overlaps a air t0 len || overlaps a air (t0 + s.bpNs * 16) len || win pRptStart pRptSlots pRptLen 0 ||
        win pFwdStart pRbCount pFwdLen 0 || (s.isDisc (k % 2 ^ 16) && win pDiscStart pRbCount pDiscLen 1)
  timed || link

/-- A bad item (R713); the antenna instant of its report is not stated. -/
def State.txBadItem (s : State) (p : Nat) : State :=
  let (v, s) := s.draw
  ((s.bump (aTxBad p)).radFlag p 5).txReport p ((le32 v) ++ (le32 (v / 2 ^ 32)) ++ (le32 (v / 2 ^ 64))) 3

/-- A stamp from TIME96 words (R64). -/
def instOf (w1 w2 w3 : Nat) : Nat := mkTime (w1 + w2 / 2 ^ 16 * 2 ^ 32) (w3 % 2 ^ 30) (w2 % 2 ^ 16) / 2 ^ 28

/-- An item with its TAG, its bytes and its words. -/
def State.txItem (s : State) (p tag : Nat) (bs ws : List Nat) : State :=
  let add := fun (s : State) (f : TxFrame) => s.setRadio p { s.radio p with queue := (s.radio p).queue ++ [f] }
  let w := fun i => ws.getD i 0
  if tag = 1 ∧ 1 ≤ bs.length ∧ bs.length ≤ 125 then add s { kind := .host, inst := none, data := bs }
  else if tag = 2 ∧ 17 ≤ bs.length ∧ bs.length ≤ 141 then
    let a := instOf (w 0) (w 1) (w 2)
    if s.txConflict p a (bs.length - 16) then
      ((s.bump (aTxConflict p)).radFlag p 4).txReport p (s.time96b (ofStamp a)) 2
    else add s { kind := .hostTimed, inst := some a, data := bs.drop 16 }
  else s.txBadItem p

/-- The next item of ring 24 + p. -/
def State.takeTxItem (s : State) (p : Nat) : State :=
  let r := 24 + p
  let i := s.rd (rRidx r)
  let f := s.fill r
  if !s.on (rEn r) || decide (f < 4) then s
  else
    let n := min (s.itemSize r i) f
    let ws := s.ringGet r i (n / 4)
    let h := ws.getD 0 0
    let bs := (bytesOf (ws.drop 1)).take (h % 2 ^ 16)
    let s := s.wr (rRidx r) (i + n)
    if n < 4 + h % 2 ^ 16 ∨ h / 2 ^ 16 % 2 ^ 8 ≠ 0 then s.txBadItem p else s.txItem p (h / 2 ^ 24) bs (ws.drop 1)

def execRadioTxItem (p : Fin 8) (s : State) : Out := event (if s.radioOn p then s.takeTxItem p else s)

/-! ### Commands (R714, R715, R718, R719) -/

def radioAccess (slot : Slot) (p : Nat) (s : State) (k : State → Res) : Res := leased slot (idRadio p) s k

/-- A port without anything under way. -/
def State.radioClear (s : State) (p : Nat) : State :=
  s.setRadio p { s.radio p with starts := 0, wait := false, delay := false, cs := false, rx := none, sfd := none, recv := false,
                                due := none, armed := false, await := false, sent := false }

/-- The port starts again from INIT. -/
def State.radioInit (s : State) (p : Nat) : State := ((s.radioClear p).wr (aState p) 1).hubStart p 0

/-- (DEDUCED, log 130.) -/
def opRadioRestart (slot : Slot) (p : Nat) (s : State) : Res :=
  radioAccess slot p s fun s => (.done, if s.aon (aEn p) then (s.txLate p).radioInit p else s)

/-- EN and the state of a port after an APPLY; `was` is EN before. -/
def State.radioApplied (s : State) (p : Nat) (was : Bool) : State :=
  if !s.aon (aEn p) then
    ((s.radioClear p).setRadio p { (s.radioClear p).radio p with rst := false, queue := [] }).wr (aState p) 0
  else if !was then s.radioInit p
  else if s.rd (aState p) = 3 then s
  else s.hubStart p 0

def opRadioApply (slot : Slot) (p : Nat) (s : State) : Res :=
  radioAccess slot p s fun s =>
    if s.rd (aState p) = 2 then (.busy, s)
    else (.done, (s.copyTo aa (radioFlds p)).radioApplied p (s.aon (aEn p)))

def opRadioDiscard (slot : Slot) (p : Nat) (s : State) : Res :=
  radioAccess slot p s fun s => (.done, (s.copyFrom aa (radioFlds p)).leaseBroken)

def opRunSlot (slot : Slot) (p k : Nat) (s : State) : Res :=
  radioAccess slot p s fun s =>
    if (!s.aon (aMode p) && k != 7) || !(s.rd (aState p) == 1 || s.rd (aState p) == 2) then (.notInMode, s)
    else (.done, s.slotStart p k)

def execRadioRestart (slot : Slot) (p : Fin 8) (s : State) : Out := hostOwned slot (idRadio p.val) s (opRadioRestart slot p.val)
def execRadioApply (slot : Slot) (p : Fin 8) (s : State) : Out := hostOwned slot (idRadio p.val) s (opRadioApply slot p.val)
def execRadioDiscard (slot : Slot) (p : Fin 8) (s : State) : Out := hostOwned slot (idRadio p.val) s (opRadioDiscard slot p.val)
def execRunSlot (slot : Slot) (p k : Fin 8) (s : State) : Out := hostOwned slot (idRadio p.val) s (opRunSlot slot p.val k.val)

/-- RAD_CMD: one command bit (R720). -/
def opRadCmd (slot : Slot) (p w : Nat) (s : State) : Res :=
  radioAccess slot p s fun s =>
    match w % 16 with
    | 1 => opRadioRestart slot p s
    | 2 => opRadioApply slot p s
    | 4 => opRadioDiscard slot p s
    | 8 => opRunSlot slot p (w / 2 ^ 8 % 8) s
    | _ => (.reservedEncoding, s)

/-! ### The script engine (R716, R717) -/

/-- The operand bits that an opcode defines. -/
def opMask (op : Nat) : Nat :=
  [0, 0x1FF, 0x100, 0x300, 0x700, 0, 0xFF, 0xFF, 0x7FF, 0xFFFF, 0xFFFF, 1, 0, 0xFF].getD op 0

/-- A word is a defined instruction. -/
def scriptOk (w : Nat) : Bool :=
  let op := w / 2 ^ 24
  decide (op ≤ 0xD) && decide (w % 2 ^ 24 ||| opMask op = opMask op) && !(op == 8 && decide (4 ≤ w / 2 ^ 8 % 8)) &&
    !(op == 4 && w / 2 ^ 9 % 4 == 3)

/-- The word at the program counter. -/
def State.word (s : State) (p : Nat) : Nat := s.a (aScript p (s.rd (aPc p)))

/-- The engine is at an instruction: a slot runs, and no wait. -/
def State.atInstr (s : State) (p : Nat) : Bool :=
  s.running && s.rd (aState p) == 2 && !(s.radio p).wait && !(s.radio p).delay

/-- The instruction `op` is next: its effect on the state whose program counter has moved on. (DEDUCED, log 134.) -/
def State.script (s : State) (p op : Nat) (k : Nat → State → State) : Out :=
  event (if s.atInstr p && scriptOk (s.word p) && s.word p / 2 ^ 24 == op then k (s.word p) (s.wr (aPc p) (s.rd (aPc p) + 1)) else s)

/-- A byte on the radio SPI: the received byte in A, CS_N held or raised. -/
def State.spi (s : State) (p w out miso : Nat) : State :=
  s.setRadio p { s.radio p with a := miso % 256, cs := w.testBit 8, mosi := [out % 256], bytes := 1 }

def execScriptEnd (p : Fin 8) (s : State) : Out := s.script p 0 fun _ s => s.slotEnd p
def execScriptXfer (p : Fin 8) (miso : Byte) (s : State) : Out := s.script p 1 fun w s => s.spi p w w miso.toNat
def execScriptXferA (p : Fin 8) (miso : Byte) (s : State) : Out := s.script p 2 fun w s => s.spi p w (s.radio p).a miso.toNat
/-- The FCS of a frame (IEEE 802.15.4: ITU-T CRC-16, least significant bit first). (PRESUMED, log 141.) -/
def fcsBit (c : Nat) : Nat := if c % 2 = 1 then (c / 2) ^^^ 0x8408 else c / 2
def fcsByte (c b : Nat) : Nat := fcsBit (fcsBit (fcsBit (fcsBit (fcsBit (fcsBit (fcsBit (fcsBit (c ^^^ (b % 256)))))))))
def fcs (bs : List Nat) : List Nat := le16 (bs.foldl fcsByte 0)

/-- SEND_FRAME's bytes: the due frame's PSDU, with its FCS, after its length with LENBYTE. -/
def RadS.frameBytes (x : RadS) (lenByte : Bool) : List Nat :=
  match x.due with
  | some f =>
    let psdu := f.data ++ fcs f.data
    (if lenByte then [psdu.length % 256] else []) ++ psdu
  | none => []
def execScriptSendFrame (p : Fin 8) (s : State) : Out :=
  s.script p 3 fun w s =>
    let bs := (s.radio p).frameBytes (w.testBit 9)
    s.setRadio p { s.radio p with cs := w.testBit 8, mosi := bs, bytes := bs.length }

/-- RECV_FRAME: A bytes into a new item, then LQI and RSSI as META says; what is not read is not stated. -/
def State.recvFrame (s : State) (p w : Nat) (bs : List Nat) (lqi rssi : Nat) : State :=
  let m := w / 2 ^ 9 % 4
  let (v, s) := s.draw
  s.setRadio p { s.radio p with
    rx := some { psdu := bs, lqi := if m = 0 then v % 256 else lqi, rssi := if m = 2 then rssi else v / 256 % 256 }
    cs := w.testBit 8, mosi := [], bytes := bs.length + m }

def execScriptRecvFrame (p : Fin 8) (bytes : List Byte) (lqi rssi : Byte) (s : State) : Out :=
  if bytes.length = (s.radio p).a then
    s.script p 4 fun w s => s.recvFrame p w (bytes.map (·.toNat)) lqi.toNat rssi.toNat
  else event s

/-- The PTL payload of an IEEE 802.15.4 data frame without its FCS, when it is of the link's PAN and comes to the hub's short address or to
all (R651). (PRESUMED, log 131.) -/
def State.ptlOf (s : State) (bs : List Nat) : Option (List Nat) :=
  let b := fun i => bs.getD i 0
  let fcf := b 0 + b 1 * 256
  let dst := fcf / 2 ^ 10 % 4
  let src := fcf / 2 ^ 14 % 4
  let dLen := if dst = 2 then 4 else if dst = 3 then 10 else 0
  let sLen := (if src = 2 then 2 else if src = 3 then 8 else 0) + if src ≠ 0 ∧ !fcf.testBit 6 then 2 else 0
  if fcf % 8 = 1 ∧ !fcf.testBit 3 ∧ fcf / 2 ^ 8 % 4 = 0 ∧ dst = 2 ∧ b 3 + b 4 * 256 = s.rd pPan ∧ (b 5 + b 6 * 256 = 0 ∨ b 5 + b 6 * 256 = 0xFFFF) then
    some (bs.drop (3 + dLen + sLen))
  else none

/-- The length that a payload's type requires (R653); 0 for a TYPE that is not defined. -/
def ptlNeed (b : List Nat) : Nat :=
  let v := fun i => b.getD i 0
  let body := 6 + 2 * (v 1 / 4 % 8)
  match v 0 with
  | 0x01 => 28 + 16 * v 9
  | 0x02 => 30 + 16 * v 9
  | 0x10 => 22
  | 0x11 => body + 38
  | 0x12 => body + 12
  | 0x20 => 38
  | 0x30 => body + 36
  | 0x31 => 22 + v 12 + v 13 * 2 ^ 8
  | 0x40 => 8
  | 0x41 => body + 4
  | 0x50 => 10
  | _ => 0

/-- A frame of a defined TYPE that the engine drops for its bytes (R653): VER, a reserved field that no operand of the link's rows spells, a
body shorter than its type requires, or more than 100 bytes. -/
def ptlBad (b : List Nat) : Bool :=
  let v := fun i => b.getD i 0
  let low := fun i n => decide (v i < 2 ^ n)
  let at_ := 6 + 2 * (v 1 / 4 % 8)
  let head := decide (v 1 / 2 ^ 6 = 1) && decide (v 1 % 4 = 0) && low 3 7 && low 5 4
  let body := match v 0 with
    | 0x01 => low 8 6 && v 15 == 0
    | 0x02 => low 8 6 && v 15 == 0
    | 0x10 => low 15 4
    | 0x11 => low (at_ + 11) 4
    | 0x30 => low (at_ + 1) 1 && (v (at_ + 1) == 0 || [5, 6, 7].all fun i => v (at_ + i) == 0)
    | 0x31 => low 11 1
    | 0x40 => v 7 == 0
    | 0x41 => low (at_ + 1) 4
    | _ => true
  !(head && body && decide (ptlNeed b ≤ b.length) && decide (b.length ≤ 100))

/-- A reserved field or encoding that an operand of the link's rows spells, for which the row counts the frame (R653): CAPS of a JOIN_REQ, FLAGS
of a report, STATUS and NBYTES of a SAMPLE_REPORT, REASON of a LEAVE. -/
def ptlRefused (b : List Nat) : Bool :=
  let v := fun i => b.getD i 0
  match v 0 with
  | 0x10 => decide (4 ≤ v 16)
  | 0x20 => decide (16 ≤ v 8)
  | 0x31 => decide (4 ≤ v 7) || decide (78 < v 12 + v 13 * 2 ^ 8)
  | 0x40 => decide (4 ≤ v 6)
  | 0x50 => decide (16 ≤ v 6)
  | _ => false

/-- The sender of a frame: ORIGIN. -/
def ptlOrigin (b : List Nat) : Nat := (b.getD 2 0 + b.getD 3 0 * 256) % 2 ^ 12

/-- A JOIN_REQ whose ORIGIN is neither a joiner's nor a partner's (R653). -/
def State.joinStranger (s : State) (b : List Nat) : Bool :=
  b.getD 0 0 == 0x10 && ptlOrigin b != 0xFFF && !(s.ptr (ptlOrigin b)).joined

/-- A posted frame that reaches the engine and that no row of the link can spell counts in BAD_HDR; the link's rows count what their
operands spell, an undefined TYPE among it (R653). (DEDUCED, log 131.) -/
def State.postDrop (s : State) (p : Nat) (bs : List Nat) : State :=
  match if s.ptnHears p then s.ptlOf bs else none with
  | some b => if b.isEmpty || (ptlNeed b != 0 && (ptlBad b || s.joinStranger b)) then s.badHdr p (ptlOrigin b) else s
  | none => s

/-- The partner engine takes a frame (R653): an uplink frame that the checks of its bytes pass, from a partner or a joiner. -/
def State.linkTakes (s : State) (p : Nat) (bs : List Nat) : Bool :=
  s.ptnHears p && (s.ptlOf bs).any fun b =>
    [0x10, 0x20, 0x31, 0x40, 0x50].contains (b.getD 0 0) && decide (b.getD 1 0 / 32 = 2) && !ptlBad b && !ptlRefused b &&
      ((s.ptr (ptlOrigin b)).joined || (b.getD 0 0 == 0x10 && ptlOrigin b == 0xFFF))

/-- POST (R712, R716). (DEDUCED, log 133.) -/
def State.postItem (s : State) (p : Nat) : State :=
  let x := s.radio p
  let s1 := s.setRadio p { x with rx := none }
  match x.rx, x.sfd with
  | none, _ => s
  | some _, none => (s1.bump (aNosfd p)).radFlag p 0
  | some i, some (a, q) =>
    let n := i.psdu.length
    if n < 3 ∨ 127 < n then s1.radFlag p 1
    else if !s.aon (aRaw p) && s.linkTakes p (i.psdu.take (n - 2)) then s1
    else (s1.postDrop p (i.psdu.take (n - 2))).give (16 + p) (varItem 0x01 ((time96 (ofStamp a) q).flatMap le32 ++ [i.lqi, i.rssi, n, 0] ++ i.psdu.take (n - 2)))

def execScriptPost (p : Fin 8) (s : State) : Out := s.script p 5 fun _ s => s.postItem p

def execScriptLoada (p : Fin 8) (s : State) : Out := s.script p 6 fun w s => s.setRadio p { s.radio p with a := w % 256 }
def execScriptAnda (p : Fin 8) (s : State) : Out :=
  s.script p 7 fun w s => s.setRadio p { s.radio p with a := (s.radio p).a &&& (w % 256) }

/-- JUMP's condition. -/
def RadS.jumps (x : RadS) (cond : Nat) : Bool :=
  match cond with | 0 => true | 1 => x.a == 0 | 2 => x.a != 0 | _ => x.t

def execScriptJump (p : Fin 8) (s : State) : Out :=
  s.script p 8 fun w s => if (s.radio p).jumps (w / 2 ^ 8 % 8) then s.wr (aPc p) (w % 256) else s

def execScriptWaitIrq (p : Fin 8) (s : State) : Out := s.script p 9 fun _ s => s.setRadio p { s.radio p with wait := true }
def execScriptWaitEnd (p : Fin 8) (irq : Bool) (s : State) : Out :=
  event (if s.radioOn p && (s.radio p).wait then s.setRadio p { s.radio p with wait := false, t := !irq } else s)
def execScriptDelay (p : Fin 8) (s : State) : Out := s.script p 10 fun _ s => s.setRadio p { s.radio p with delay := true }
def execScriptDelayEnd (p : Fin 8) (s : State) : Out :=
  event (if s.radioOn p && (s.radio p).delay then s.setRadio p { s.radio p with delay := false } else s)
def execScriptReset (p : Fin 8) (s : State) : Out :=
  s.script p 11 fun w s => s.setRadio p { s.radio p with rst := w.testBit 0 }
def execScriptArmTxt (p : Fin 8) (s : State) : Out := s.script p 12 fun _ s => s.setRadio p { s.radio p with armed := true }
def execScriptHalt (p : Fin 8) (s : State) : Out :=
  s.script p 13 fun w s => (((s.wr (aPc p) (s.rd (aPc p) + 255)).wr (aHaltCode p) w).radFlag p 7).radioHalt p

/-- An undefined opcode (R717): PC keeps the address of the word. -/
def execScriptBadOp (p : Fin 8) (s : State) : Out :=
  event (if s.atInstr p && !scriptOk (s.word p) then (s.radFlag p 6).radioHalt p else s)

/-- A beacon loaded before the freeze whose instant passed during sleep is not sent (R254). -/
def State.beaconPassed (s : State) (p : Nat) : State :=
  let x := s.radio p
  if x.due.any fun f => f.kind == .beacon && f.inst.any fun a => decide (a < s.nowStamp) then
    s.setRadio p { x with due := none, armed := false, await := false, sent := false }
  else s

/-- At a thaw every running port receives again (R714). -/
def State.radiosThaw (s : State) : State :=
  (List.range 8).foldl (fun s p => if s.radioOn p then (s.beaconPassed p).hubStart p 1 else s.beaconPassed p) s

end Sys2Proof.Machine
end

