-- ==== Sys2Proof/Machine/Stamp.lean ====
section
/-! DEFINITION. Stamp inputs (spec/08): an edge from pin to FIFO, the drain into rings 8 to 15, angle pairs, calibration. -/

namespace Sys2Proof.Machine

open F

def State.stin (s : State) (n : Nat) : StIn := Assoc.get StIn.init n s.stp.ins
def State.setStin (s : State) (n : Nat) (x : StIn) : State :=
  { s with stp := { s.stp with ins := Assoc.put StIn.init n x s.stp.ins } }

/-- STP_UNCAL of an input (R346). -/
def State.stUncal (s : State) (n : Nat) : Bool := s.bit (sUncal (n / 32)) (n % 32)

/-- EDGE selects this polarity (R337). -/
def State.edgeSel (s : State) (n : Nat) (rising : Bool) : Bool := s.bit (sEdge n) (if rising then 0 else 1)

/-- A flag of STP_EVT. -/
def State.stFlag (s : State) (n bit : Nat) : State := s.setBits (sEvt n) (2 ^ bit)

/-- A dropped edge (R341, R343): counted, flagged, and the next quill carries OVF_BEFORE. (DEDUCED, log 65.) -/
def State.stDrop (s : State) (n : Nat) : State :=
  let s := (s.bump (sDropped n)).stFlag n 0
  s.setStin n { s.stin n with ovf := true }

/-- The stamp: the crossing less STP_SKEW (R339), in 2⁻⁴ ns. -/
def State.stStamp (s : State) (n : Nat) (crossing : Stamp) : Nat :=
  (((crossing : Int) - s.rdS (sSkew n)) % (timeMod / 2 ^ 28 : Nat)).toNat

/-- A host-assisted input overwrites STP_LAST (R352). (DEDUCED, log 66.) -/
def State.stLast (s : State) (n t : Nat) (pol : Bool) : State :=
  let w := time96 (ofStamp t) (s.qual (s.stUncal n))
  let s := ((s.wr (sLast n 0) (w.getD 0 0)).wr (sLast n 1) (w.getD 1 0)).wr (sLast n 2) (w.getD 2 0)
  let s := (s.wr (sLastCnt n) (s.rd (sLastCnt n) + 1)).wr (sLastPol n) pol.toNat
  let s := if (s.stin n).unread then s.wr (sLastOverrun n) 1 else s
  s.setStin n { s.stin n with unread := true }

/-- A selected edge is judged by its crossing: within 8 ns of the last accepted one it is discarded (R341); a full FIFO drops it (R343),
and OVF_BEFORE goes to the quill of the next edge accepted. (DEDUCED, log 202.) -/
def State.stEdge (s : State) (n crossing : Nat) (pol : Bool) : State :=
  if nearStamp (s.stin n).last crossing then s.stDrop n
  else
    let t := s.stStamp n crossing
    let s := s.setStin n { s.stin n with last := some crossing }
    if s.on (sMode n) then s.stLast n t pol
    else if 4 ≤ (s.stin n).fifo.length then s.stDrop n
    else
      let x := s.stin n
      s.setStin n { x with fifo := x.fifo ++ [{ t := t, pol := pol, ovf := x.ovf, uncal := s.stUncal n }], ovf := false }

/-- A selected edge while the timeline is frozen is lost and counted in LOST_IN_NAP (R255). (DEDUCED, log 46.) -/
def State.stinLost (s : State) (n : Nat) : State := (s.bump (sNapLost n)).stFlag n 1

/-- The first edge on a wake-enabled input in M7 wakes the hub, its count to be latched at the next raw tick; every other edge asleep
is lost (R255, R256), that of a second wake-enabled input too. (DEDUCED, log 185.) -/
def State.stinAsleep (s : State) (n : Nat) (rising : Bool) : State :=
  if s.mode = 7 && s.on (sWake n) && s.stp.wake.isNone then
    State.wake { s with stp := { s.stp with wake := some { input := n, pol := rising, count := none } } } 11
  else s.stinLost n

/-- An edge that has passed the filter is stamped when EDGE selects it (R337, R339). (DEDUCED, log 64.) -/
def State.stPass (s : State) (n crossing : Nat) (rising : Bool) : State :=
  if s.edgeSel n rising then s.stEdge n crossing rising else s

/-- The width below which a pulse is discarded (R338), in 2⁻⁴ ns. -/
def State.stDgl (s : State) (n : Nat) : Nat := s.rd (sDgl n) * 64

/-- The deglitch filter (R338): an edge waits in it until its pulse is long enough, and one that ends a shorter pulse goes with it; an
edge past the filter waits for its decision (R768). Without a filter the row stands for the decision. (DEDUCED, log 64.) -/
def State.stFilter (s : State) (n crossing : Nat) (rising : Bool) : State :=
  let x := s.stin n
  match x.filt.getLast? with
  | none => if s.stDgl n = 0 then s.stPass n crossing rising else s.setStin n { x with filt := [(crossing, rising)] }
  | some (t, _) =>
    if sinceStamp t crossing < s.stDgl n then s.setStin n { x with filt := x.filt.dropLast }
    else s.setStin n { x with filt := x.filt ++ [(crossing, rising)] }

/-- The edges of an input whose decision cycle has come are decided, each stamped at its crossing (R338, R768). -/
def State.stSettle (s : State) (n : Nat) : State :=
  let out := fun (p : Nat × Bool) => s.decided ((p.1 + s.stDgl n) * 2 ^ 28)
  let x := s.stin n
  (x.filt.filter out).foldl (fun s p => s.stPass n p.1 p.2) (s.setStin n { x with filt := x.filt.filter fun p => !out p })

/-- The inputs that hold something. -/
def State.stHeld (s : State) : List Nat := s.stp.ins.map (·.1)

/-- STIN_EDGE: an edge at the pin, or asleep (R255). -/
def State.stinEdge (s : State) (n : Nat) (rising : Bool) (crossing : Stamp) : State :=
  if !s.glb.mainUp then s
  else if s.htm.frozen then (if s.edgeSel n rising then s.stinAsleep n rising else s)
  else s.stFilter n crossing rising

def execStinEdge (n : Fin 64) (rising : Bool) (stamp : Stamp) (s : State) : Out := event (s.stinEdge n.val rising stamp)

/-! ### The drain (R344, R345, R348 to R351, R354) -/

/-- STAMP sets on a quill the input produces, while its enable is 1 (R354). -/
def State.stStamped (s : State) (n : Nat) : State := if s.bit (sEvtEn n) 3 then s.stFlag n 3 else s

/-- Words W0 and W1 to W3 of an input's time quill. -/
def timeQuill (n : Nat) (e : StEdge) (qual seq : Nat) : List Nat :=
  quillW0 1 e.pol e.ovf e.uncal false n seq :: time96 (ofStamp e.t) qual

/-- The angle quill that follows it (R349). (DEDUCED, log 67.) -/
def angleQuill (n mill : Nat) (e : StEdge) (ang seq : Nat) : List Nat :=
  let t := ofStamp e.t
  [quillW0 2 e.pol e.ovf e.uncal false n seq, secOf t % 2 ^ 32, secOf t / 2 ^ 32 * 2 ^ 16 + ang / 2 ^ 32 % 2 ^ 16,
    mill * 2 ^ 28 + ang % 2 ^ 32 / 16]

/-- A drop that an edge was to report and that goes into no quill is reported by the next quill of the input (R343). -/
def State.stCarry (s : State) (n : Nat) (ovf : Bool) : State :=
  let x := s.stin n
  if !ovf then s
  else match x.fifo with
    | e :: r => s.setStin n { x with fifo := { e with ovf := true } :: r }
    | [] => s.setStin n { x with ovf := true }

/-- One stamped edge of input n becomes its quill, or its angle pair, in ring 8 + n div 8; an input that has since gone to MODE 1
writes no quill (R352). (DEDUCED, log 66.) -/
def State.stQuill (s : State) (n : Nat) (e : StEdge) : State :=
  if s.on (sMode n) then (s.stCarry n e.ovf).stLast n e.t e.pol
  else
  let r := 8 + n / 8
  let m := s.rd (sMill n)
  let (seq, s) := s.nextSeq r
  let q := timeQuill n e (s.qual e.uncal) seq
  if s.on (sAngle n) && s.on (lAcq m) then
    let (seq2, s) := s.nextSeq r
    (s.give r (q ++ angleQuill n m e (angle64 (s.evalMill m (ofStamp e.t)).th) seq2)).stStamped n
  else
    let s := (s.give r q).stStamped n
    if s.on (sAngle n) then (s.bump (sNoacq n)).stFlag n 2 else s

/-- The first of 8 places, from `k` on and around, with a property. -/
def around8 (k : Nat) (p : Nat → Bool) : Option Nat := ((List.range 8).map fun i => (k + i) % 8).find? p

/-- The input the drain serves next (R344): group by round robin, then input by round robin. -/
def State.drainNext (s : State) : Option Nat :=
  let busy := fun n => !(s.stin n).fifo.isEmpty
  match around8 s.stp.nextGrp (fun g => (List.range 8).any fun i => busy (8 * g + i)) with
  | some g => (around8 (Assoc.get 0 g s.stp.nextIn) (fun i => busy (8 * g + i))).map (8 * g + ·)
  | none => none

/-- The drain offers quills while its `k` places last; an angle pair takes two (R344). -/
def State.drain (s : State) (k : Nat) : Nat → State
  | 0 => s
  | fuel + 1 =>
    match s.drainNext with
    | none => s
    | some n =>
      match (s.stin n).fifo with
      | [] => s
      | e :: t =>
        let cost := if !s.on (sMode n) && s.on (sAngle n) && s.on (lAcq (s.rd (sMill n))) then 2 else 1
        if k < cost then s
        else
          let s1 := s.setStin n { s.stin n with fifo := t }
          let s1 := { s1 with stp := { s1.stp with nextGrp := (n / 8 + 1) % 8,
                                                   nextIn := Assoc.put 0 (n / 8) ((n % 8 + 1) % 8) s1.stp.nextIn } }
          State.drain (s1.stQuill n e) (k - cost) fuel

/-- The drain's quills take their turn at the port (R724). -/
def execStampDrain (s : State) : Out := event (if s.running then s.drain 4 4 else s)

/-! ### Calibration (R346, R347) -/

/-- An input's interpolator beside those of STIN, by its bit: a pass clears it, the third failure in a row sets it, with source 505 at each. -/
def State.extraCal (s : State) (k : Nat) (pass : Bool) : State :=
  let f := Assoc.get 0 k s.stp.fails
  let bits := if pass then s.stp.uncal &&& (2 ^ 90 - 1 - 2 ^ k) else if 2 ≤ f then s.stp.uncal ||| 2 ^ k else s.stp.uncal
  let s := { s with stp := { s.stp with uncal := bits, fails := Assoc.put 0 k (if pass then 0 else min (f + 1) 3) s.stp.fails } }
  let s := if k < 48 then s.wr (lUncal (k / 3)) (decide (bits / 2 ^ (k / 3 * 3) % 8 ≠ 0)).toNat else s
  if pass then s else s.latch 505

/-- A calibration of input n (R346, R347): STIN 0 to 63, then the inputs of the mills (R384), PPSIN, IRIGIN, the
timers' balls (R446) and the radios' SFD inputs (R708). (DEDUCED, log 68.) -/
def State.interpCal (s : State) (n : Nat) (pass : Bool) : State :=
  if 64 ≤ n then s.extraCal (n - 64) pass
  else
    let s := if n = 63 then s.wr sCalCnt (s.rd sCalCnt + 1) else s
    let x := s.stin n
    if pass then (s.setStin n { x with fails := 0 }).clrBits (sUncal (n / 32)) (2 ^ (n % 32))
    else
      let s := (s.setStin n { x with fails := min (x.fails + 1) 3 }).latch 505
      if 2 ≤ x.fails then s.setBits (sUncal (n / 32)) (2 ^ (n % 32)) else s

/-- MCLK starts: no input is calibrated yet (R346). -/
def State.uncalAll (s : State) : State :=
  let s := (List.range 16).foldl (fun s m => s.wr (lUncal m) 1) ((s.wr (sUncal 0) 0xFFFFFFFF).wr (sUncal 1) 0xFFFFFFFF)
  { s with stp := { s.stp with uncal := 2 ^ 90 - 1 } }

def execInterpCal (n : Fin 154) (pass : Bool) (s : State) : Out := event (if s.running then s.interpCal n.val pass else s)

end Sys2Proof.Machine
end

