-- ==== Sys2Proof/Machine/Cal.lean ====
section
/-! DEFINITION. The calendar's commands and events (spec/07): the view, the leap table, the local offset, the alarms, the reference
outputs and IRIGIN. -/

namespace Sys2Proof.Machine

open F

/-- A flag of CAL_EVT: 0 LEAP_APPLIED, 1 LOCAL_CHANGED, 2 IRIGIN_BAD, 3 ALARM_NEVER, 4 TABLE_CHANGED. -/
def State.calEvt (s : State) (i : Nat) : State := s.setBits cEvt (2 ^ i)

/-- A non-secure slot's write that changes an RWS field of a register is refused (R766). -/
def rwsGuard (slot : Slot) (l : List Fld) (w : Nat) (s : State) (k : Res) : Res :=
  if !s.secure slot.val && changesRws s.rd w l then (.secureOnly, s) else k

/-! ### Reference outputs (R324, R325) -/

/-- GATE lets an output run. -/
def State.gateOk (s : State) (g : Nat) : Bool :=
  match g with
  | 0 => true
  | 1 => s.on htmTimeSet
  | 2 => s.mode == 5
  | _ => s.mode == 5 || s.mode == 6

/-- EN and GATE of an output: 0 PPSOUT, 1 IRIGOUT, 2 + n CLKOUTn. -/
def State.refAllowed (s : State) (i : Nat) : Bool :=
  match i with
  | 0 => s.on cPpsEn && s.gateOk (s.rd cPpsGate)
  | 1 => s.on cIrigEn && s.gateOk (s.rd cIrigGate)
  | n + 2 => s.on (cClkEn n) && s.gateOk (s.rd (cClkGate n))

/-- An output that started at a second boundary and is still allowed. -/
def State.refRuns (s : State) (i : Nat) : Bool := s.cal.on.testBit i && s.refAllowed i

def State.clk (s : State) (n : Nat) : ClkS := Assoc.get ClkS.init n s.cal.clk
def State.setClk (s : State) (n : Nat) (x : ClkS) : State :=
  { s with cal := { s.cal with clk := Assoc.put ClkS.init n x s.cal.clk } }

/-- An output that is no longer allowed stops: its pin is inactive, and it waits for the next second boundary (R324). -/
def State.refsCheck (s : State) : State :=
  let on := maskOf s.refRuns (List.range 6)
  if on = s.cal.on then s
  else { s with cal := { s.cal with
    on := on, pps := s.cal.pps && on.testBit 0, irig := if on.testBit 1 then s.cal.irig else none
    clk := s.cal.clk.map fun kx => (kx.1, { kx.2 with level := kx.2.level && on.testBit (2 + kx.1) }) } }

/-- One second in 2⁻¹⁶ ns. -/
def clkSec : Nat := 1000000000 * 2 ^ 16

/-- The half-period that ends at a restart of ALIGN (R334): a rising edge whose half-period would reach the restart is held until it, or comes
early, and begins the new sequence. (DESIGN CHOICE, log 188.) -/
def ClkS.align (x : ClkS) : ClkS :=
  match x.restart with
  | some r =>
    if !x.level && decide (r ≤ x.next + x.pend.getD x.hp) then { x with next := r, restart := some (r + clkSec) } else x
  | none => x

/-- With ALIGN the next restart of a CLKOUT stands PHASE from the boundary after that of second `t`; one of this boundary still to come stays. -/
def State.clkPlan (s : State) (t n : Nat) : State :=
  let x := s.clk n
  if s.on (cClkAlign n) then
    match x.restart.filter fun r => decide (r < t * clkSec + clkSec / 2) with
    | some _ => s
    | none => s.setClk n (ClkS.align { x with restart := some (((t + 1 : Nat) * clkSec : Nat) + s.rdS (cClkPhase n) * 2 ^ 12).toNat })
  else s.setClk n { x with restart := none }

/-- The edge sequence of a CLKOUT starts at the boundary of second `t` plus PHASE (R333); of a negative PHASE, the first rising edge at
or after the boundary is the first. (DESIGN CHOICE, log 163.) -/
def State.clkStart (s : State) (t n : Nat) : State :=
  let x := s.clk n
  let b : Int := t * 1000000000 * 2 ^ 16
  let base := b + s.rdS (cClkPhase n) * 2 ^ 12
  let k := if base < b then ((b - base).toNat + 2 * x.hp - 1) / (2 * x.hp) else 0
  (s.setClk n { x with next := (base + k * (2 * x.hp : Nat)).toNat, level := false, restart := none }).clkPlan t n

/-- The first second, from the boundary of `t` on, whose boundary plus an offset does not lie before it. -/
def firstAfter (t : Nat) (ofs : Int) : Nat := if ofs < 0 then t + 1 else t

/-- A CLKOUT at the boundary of second `t`: it starts, or restarts under CLK_RESYNC, or has its next restart under ALIGN (R334). -/
def State.clkBoundary (s : State) (t n : Nat) : State :=
  if !s.refAllowed (2 + n) then s
  else if !s.cal.on.testBit (2 + n) || s.cal.resync then s.clkStart t n
  else s.clkPlan t n

/-- The outputs at the boundary of second `t` (R324). -/
def State.refBoundary (s : State) (t : Nat) : State :=
  let s := (List.range 4).foldl (fun s n => s.clkBoundary t n) s
  { s with cal := { s.cal with
    ppsNext := if s.refRuns 0 then s.cal.ppsNext else firstAfter t (s.rdS cPpsOfs)
    irigNext := if s.refRuns 1 then s.cal.irigNext else firstAfter t (s.rdS cIrigOfs)
    on := maskOf s.refAllowed (List.range 6), resync := false } }

/-- The active part of an element, in ms, by its symbol (R328). -/
def irigActive (sym : Nat) : Nat := if sym = 0 then 2 else if sym = 1 then 5 else 8

/-- Where element `e` of the frame of second `t` begins, in 2⁻³² ns (R327, R328). -/
def State.irigAt (s : State) (t e : Nat) : Int := t * secU + s.rdS cIrigOfs * 2 ^ 28 + e * 10000000 * nsU

/-- The level an output drives. -/
def State.ppsPin (s : State) : Bool := (s.cal.pps && s.refRuns 0) != s.on cPpsPol
def State.irigPin (s : State) : Bool :=
  (match s.cal.irig with
    | some (t, e, sym) => s.refRuns 1 && decide ((s.htm.time : Int) < s.irigAt t e + irigActive sym * 1000000 * nsU)
    | none => false) != s.on cIrigPol
def State.clkPin (s : State) (n : Nat) : Bool := ((s.clk n).level && s.refRuns (2 + n)) != s.on (cClkPol n)

/-! ### The second boundary (R312, R317) -/

/-- Every enabled alarm searches again; `loc` restricts to the local scale. -/
def State.almRestart (s : State) (loc : Bool) : State :=
  (List.range 8).foldl (fun s n => if s.on (cAlmEn n) && (!loc || s.rd (cAlmScale n) == 1) then s.almStart n else s) s

/-- The second boundary: the view words change together, the table's change at this instant is flagged, the outputs start; alarms that
waited for the view search (R322). -/
def State.calBoundary (s : State) : State :=
  let t := s.nowSec
  let fresh := !s.on cViewValid && s.viewValid
  let s := (s.viewWords t).zipIdx.foldl (fun s wi => s.wr (cView wi.2) wi.1) s.calStatus
  let s := if fresh then s.almRestart false else s
  let s := { s.refsCheck with cal := { s.refsCheck.cal with sec := some t } }
  (if s.leapHere t then s.calEvt 0 else s).refBoundary t

/-- A boundary that Hub Time has reached in this cycle. -/
def State.atBoundary (s : State) : State := if s.running && decide (s.cal.sec ≠ some s.nowSec) then s.calBoundary else s

def execCalSecondBoundary (s : State) : Out := event s.atBoundary

/-! ### The leap table (R314 to R317) -/

/-- The MJD is the first day of a month. -/
def firstOfMonth (mjd : Nat) : Bool := (civil (mjd + 678881)).2.2 == 1

/-- R315's conditions on a write of `mjd` and `ofs` to entry k. -/
def State.leapOk (s : State) (k mjd ofs : Nat) : Bool :=
  let at_ := fun i => s.rd (cLeapMjd i)
  if mjd = 0 then at_ k != 0 && (k == 31 || at_ (k + 1) == 0)
  else
    firstOfMonth mjd &&
    (k == 0 || (at_ (k - 1) != 0 && decide (at_ (k - 1) < mjd) &&
      (ofs == s.rd (cLeapOfs (k - 1)) + 1 || ofs + 1 == s.rd (cLeapOfs (k - 1))))) &&
    (List.range 32).all fun i => i ≤ k || at_ i == 0 || decide (mjd < at_ i)

/-- The table before the write decides the second whose boundary falls into this cycle. -/
def opLeapWrite (slot : Slot) (k v : Nat) (s : State) : Res :=
  rwsGuard slot [cLeapOfs k, cLeapMjd k] v s <|
  let mjd := (cLeapMjd k).ofWord v
  let ofs := (cLeapOfs k).ofWord v
  if !s.leapOk k mjd ofs then (.outOfRange, s)
  else let s := s.atBoundary; (.done, ((((s.wr (cLeapMjd k) mjd).wr (cLeapOfs k) ofs).calEvt 4).calStatus).almRestart false)

def execLeapWrite (slot : Slot) (k : Fin 32) (v : Word) (s : State) : Out := host slot s (opLeapWrite slot k.val v.toNat)

/-! ### The local offset (R318) -/

def opLocalArm (slot : Slot) (v : Nat) (s : State) : Res :=
  rwsGuard slot [cLocalAtHi] v s (.done, (s.wr cLocalAtHi v).wr cLocalPending 1)

def execLocalArm (slot : Slot) (v : Word) (s : State) : Out := host slot s (opLocalArm slot v.toNat)

/-- CAL_LOCAL_AT. -/
def State.localAt (s : State) : Nat := s.rd cLocalAtLo + s.rd cLocalAtHi * 2 ^ 32

/-- LOCAL_OFS has changed: alarms in the local scale search again (R319). -/
def State.localMoved (s : State) : State := s.calStatus.almRestart true

/-- The scheduled change (R318). -/
def State.localChange (s : State) : State := (((s.cp cLocalOfs cLocalNext).wr cLocalPending 0).calEvt 1).localMoved

/-- The scheduled change is due. -/
def State.localDue (s : State) : Bool := s.running && s.on cLocalPending && decide (s.localAt ≤ s.nowSec)

def execLocalChange (s : State) : Out := event (if s.localDue then s.localChange else s)

/-- A change that is due applies all the same (R13). -/
def opCancelLocal (_slot : Slot) (s : State) : Res :=
  if s.localDue then (.alreadyDone, s.localChange)
  else if s.on cLocalPending then (.done, s.wr cLocalPending 0) else (.alreadyDone, s)

def execCancelLocal (slot : Slot) (s : State) : Out := host slot s (opCancelLocal slot)

/-! ### Alarms (R319 to R323) -/

/-- A compared field outside its range (R323). -/
def AlmSpec.reserved (a : AlmSpec) : Bool :=
  let w := a.want
  let m := fun i => a.mask.testBit i
  (m 6 && (decide (w.year < viewFirst) || decide (viewLast < w.year))) ||
  (m 5 && (decide (w.month < 1) || decide (12 < w.month))) ||
  (m 4 && decide (w.day < 1)) || (m 3 && (decide (w.wday < 1))) ||
  (m 2 && decide (23 < w.hour)) || (m 1 && decide (59 < w.min)) ||
  (m 0 && decide ((if a.scale = 2 then 59 else 60) < w.sec))

/-- The alarm's comparison in force. -/
def State.almSpec (s : State) (n : Nat) : AlmSpec :=
  { date := (s.alm n).date, time := (s.alm n).time, mask := s.rd (cAlmMask n), scale := s.rd (cAlmScale n) }

/-- An alarm fires (R320): LATE when Hub Time passed its second other than by its normal advance. (DEDUCED, log 60.) -/
def State.almFire (s : State) (n : Nat) : State :=
  let s := (s.wr (cAlmLate n) (s.alm n).owed.toNat).wr (cAlmFired n) 1
  let s := { (s.setAlm n { s.alm n with owed := false }) with ended := .alarm n :: s.ended }
  if s.on (cAlmOneshot n) then s.wr (cAlmEn n) 0 else s.almStart n

/-- Hub Time has reached or passed the alarm's second. -/
def State.almDue (s : State) (n : Nat) : Bool := s.running && s.viewValid && s.almSet n && decide (s.almNext n ≤ s.nowSec)

def execCalAlarmFire (n : Fin 8) (s : State) : Out := event (if s.almDue n then s.almFire n else s)

/-- A write of CAL_ALM_CTRL: the old setting fires where its second falls into this cycle, and an EN cleared then was too late (R13); the held date and time apply, FIRED and LATE clear where written 1, and a search starts (R319, R323). -/
def opAlmCtrlWrite (_slot : Slot) (n v : Nat) (s : State) : Res :=
  let date := s.rd (cAlmDate n) * 2 ^ 4
  let time := s.rd (cAlmTime n) * 2 ^ 5
  let a : AlmSpec := { date := date, time := time, mask := (cAlmMask n).ofWord v, scale := (cAlmScale n).ofWord v }
  if a.scale = 3 then (.reservedEncoding, s)
  else if a.reserved then (.reservedEncoding, s)
  else
    let s := if s.almDue n then s.almFire n else s
    let late := s.ended.contains (.alarm n) && (cAlmEn n).ofWord v == 0
    let s := [cAlmMask n, cAlmScale n, cAlmOneshot n, cAlmEn n].foldl (fun s f => s.wr f (f.ofWord v)) s
    let s := (s.clrBits (cAlmFired n) ((cAlmFired n).ofWord v)).clrBits (cAlmLate n) ((cAlmLate n).ofWord v)
    let s := (s.setAlm n { s.alm n with date := date, time := time }).wr (cAlmNever n) 0
    (if late then .alreadyDone else .done, s.almStart n)

def execCalAlmCtrlWrite (slot : Slot) (n : Fin 8) (v : Word) (s : State) : Out := host slot s (opAlmCtrlWrite slot n.val v.toNat)

/-- CAL_ALM_NEXT takes a second. -/
def State.setAlmNext (s : State) (n t : Nat) : State := (s.wr (cAlmNextLo n) t).wr (cAlmNextHi n) (t / 2 ^ 32)

/-- A search completes (R319 to R321): a second already reached while it ran fires late. -/
def State.almDone (s : State) (n t : Nat) : State :=
  let x := s.alm n
  let s := s.clrBits cAlmBusy (2 ^ n)
  match s.almFirst (s.almSpec n) t with
  | some m => (((s.setAlm n { x with search := none, owed := decide (m ≤ s.nowSec) }).setAlmNext n m).wr (cAlmNever n) 0)
  | none => ((s.setAlm n { x with search := none, owed := false }).setAlmNext n 0 |>.wr (cAlmNever n) 1).calEvt 3

def execAlarmSearchDone (n : Fin 8) (s : State) : Out :=
  event (if s.running && s.viewValid then
      match (s.alm n).search with
      | some t => s.almDone n t
      | none => s
    else s)

/-! ### PPSOUT and CLKOUT (R326, R333, R334) -/

/-- The last second whose boundary plus PPS_OFS Hub Time has reached. -/
def State.ppsSec (s : State) : Int := ((s.htm.time : Int) - s.rdS cPpsOfs * 2 ^ 28) / secU

/-- A pulse is due (R326). -/
def State.ppsDue (s : State) : Bool := s.running && s.refRuns 0 && decide ((s.cal.ppsNext : Int) ≤ s.ppsSec)

/-- PPSOUT goes active at a boundary plus PPS_OFS, for WIDTH µs (R326). -/
def State.ppsPulse (s : State) : State :=
  { s with cal := { s.cal with
    pps := true, ppsNext := s.ppsSec.toNat + 1, ppsEnd := s.ppsSec * secU + s.rdS cPpsOfs * 2 ^ 28 + s.rd cPpsWidth * 1000 * nsU } }

def execPpsoutPulse (s : State) : Out := event (if s.ppsDue then s.ppsPulse else s)

def execPpsoutPulseEnd (s : State) : Out :=
  event (if s.running && s.cal.pps && decide (s.cal.ppsEnd ≤ s.htm.time) then { s with cal := { s.cal with pps := false } } else s)

/-- A CLKOUT edge: placed at its instant rounded to 62.5 ps; a rising edge takes a half-period written since, and the one after a falling
edge may begin a new sequence (R334). -/
def State.clkEdge (s : State) (n : Nat) : State :=
  let x := s.clk n
  let hp := if x.level then x.hp else x.pend.getD x.hp
  s.setClk n (ClkS.align { next := x.next + hp, level := !x.level, hp := hp, pend := if x.level then x.pend else none,
                           last := roundDiv x.next (2 ^ 12), restart := x.restart })

/-- The next edge of a CLKOUT is due. -/
def State.clkDue (s : State) (n : Nat) : Bool := s.running && s.refRuns (2 + n) && decide ((s.clk n).next * 2 ^ 16 ≤ s.htm.time)

def execClkoutEdge (n : Fin 4) (s : State) : Out := event (if s.clkDue n then s.clkEdge n else s)

/-- An edge that falls into this cycle keeps the old half-period. (DEDUCED, log 63.) -/
def opHpNsWrite (slot : Slot) (n v : Nat) (s : State) : Res :=
  rwsGuard slot [cClkHpNs n] v s <|
  let ns := (cClkHpNs n).ofWord v
  if (cClkHpNs n).isReserved ns then (.reservedEncoding, s)
  else
    let s := if s.clkDue n then s.clkEdge n else s
    (.done, (s.wr (cClkHpNs n) ns).setClk n { s.clk n with pend := some (ns * 2 ^ 16 + s.rd (cClkHpFrac n)) })

def execHpNsWrite (slot : Slot) (n : Fin 4) (v : Word) (s : State) : Out := host slot s (opHpNsWrite slot n.val v.toNat)

def opClkResync (_slot : Slot) (s : State) : Res := (.done, { s with cal := { s.cal with resync := true } })

def execClkResync (slot : Slot) (s : State) : Out := host slot s (opClkResync slot)

/-! ### IRIGOUT (R327, R328) -/

/-- Symbols: 0 and 1 for the binary elements, 2 for a marker. -/
def bitSym (v i : Nat) : Nat := if v.testBit i then 1 else 0

/-- A BCD field: units at `u` (4 bits), tens at `t`. -/
def bcdSym (v u t e : Nat) : Option Nat :=
  if u ≤ e ∧ e < u + 4 then some (bitSym (v % 10) (e - u))
  else if t ≤ e ∧ e < t + 4 then some (bitSym (v / 10 % 10) (e - t))
  else none

/-- The markers of a frame (R328). -/
def isMarkPos (e : Nat) : Bool := e == 0 || e % 10 == 9

/-- The symbol of element `e` of the frame that describes `f`, in format `fmt` (0 B002, 1 B003, 2 B006, 3 B007). -/
def irigSymbol (fmt : Nat) (f : CalFields) (e : Nat) : Nat :=
  if isMarkPos e then 2
  else if e < 10 then (bcdSym f.sec 1 6 e).getD 0
  else if e < 20 then (bcdSym f.min 10 15 e).getD 0
  else if e < 30 then (bcdSym f.hour 20 25 e).getD 0
  else if e < 40 then (bcdSym f.doy 30 35 e).getD 0
  else if e < 42 then bitSym (f.doy / 100) (e - 40)
  else if 50 ≤ e ∧ e < 59 ∧ 2 ≤ fmt then (bcdSym (f.year % 100) 50 55 e).getD 0
  else if 80 ≤ e ∧ e < 89 ∧ fmt % 2 = 1 then bitSym (f.hour * 3600 + f.min * 60 + f.sec) (e - 80)
  else if 90 ≤ e ∧ e < 98 ∧ fmt % 2 = 1 then bitSym (f.hour * 3600 + f.min * 60 + f.sec) (e - 81)
  else 0

/-- Fields of a frame outside the calendar's range, where the view words read 0 (R311). -/
def CalFields.none : CalFields :=
  { year := 0, month := 0, day := 0, wday := 0, doy := 0, hour := 0, min := 0, sec := 0, leap := false }

/-- The frame and element that IRIGOUT sends next: after element 99, and at the start, the frame of the next second. -/
def State.irigTurn (s : State) : Nat × Nat :=
  match s.cal.irig with
  | some (t, e, _) => if e < 99 then (t, e + 1) else (t + 1, 0)
  | none => (s.cal.irigNext, 0)

/-- The next element of the frame, which describes the second that starts at its on-time point (R327, R328). -/
def State.irigElement (s : State) : State :=
  let (t, e) := s.irigTurn
  let f := (s.fields (s.rd cIrigScale) t).getD .none
  { s with cal := { s.cal with irig := some (t, e, irigSymbol (s.rd cIrigFmt) f e) } }

/-- The next element is due. -/
def State.irigDue (s : State) : Bool := s.running && s.refRuns 1 && decide (s.irigAt s.irigTurn.1 s.irigTurn.2 ≤ s.htm.time)

def execIrigoutElement (s : State) : Out := event (if s.irigDue then s.irigElement else s)

/-! ### IRIGIN (R329 to R332) -/

/-- The class of an active pulse by its width (R329): 0, 1, 2 a marker; none a bad element. -/
def irigClass (w : Nat) : Option Nat :=
  if 1000000 ≤ w ∧ w < 3500000 then some 0
  else if 3500000 ≤ w ∧ w < 6500000 then some 1
  else if 6500000 ≤ w ∧ w ≤ 9500000 then some 2
  else none

def State.irigBad (s : State) : State := (s.bump cInBad).calEvt 2

/-- A number from elements `l` at positions `ps`, the lowest bit first. -/
def bitsAt (l : List Nat) (ps : List Nat) : Nat := ps.zipIdx.foldl (fun a pi => a + l.getD pi.1 0 % 2 * 2 ^ pi.2) 0

/-- A decoded frame: second, minute, hour, day of year, year in century; none when R330 finds it bad. -/
def irigDecode (l : List Nat) : Option (Nat × Nat × Nat × Nat × Nat) :=
  let d := fun ps => bitsAt l ps
  let su := d [1, 2, 3, 4]
  let mu := d [10, 11, 12, 13]
  let hu := d [20, 21, 22, 23]
  let du := d [30, 31, 32, 33]
  let dt := d [35, 36, 37, 38]
  let yu := d [50, 51, 52, 53]
  let yt := d [55, 56, 57, 58]
  let sec := su + 10 * d [6, 7, 8]
  let min := mu + 10 * d [15, 16, 17]
  let hour := hu + 10 * d [25, 26]
  let doy := du + 10 * dt + 100 * d [40, 41]
  if (l.zipIdx.all fun x => (x.1 == 2) == isMarkPos x.2) && [su, mu, hu, du, dt].all (· ≤ 9) &&
      decide (sec ≤ 60) && decide (min ≤ 59) && decide (hour ≤ 23) && decide (1 ≤ doy) && decide (doy ≤ 366) then
    some (sec, min, hour, doy, yu + 10 * yt)
  else none

/-- The year of a B002 frame, from the view in the frame's scale (R331). -/
def b002Year (v : CalFields) (doy : Nat) : Nat :=
  if doy = 1 ∧ 365 ≤ v.doy then v.year + 1 else if 365 ≤ doy ∧ v.doy = 1 then v.year - 1 else v.year

/-- The year of a B006 frame, whose two digits name one of a century: that of the view where it is valid. (DEDUCED, log 61.) -/
def b006Year (v : Option CalFields) (yy : Nat) : Nat :=
  match v with
  | some f =>
    let c := f.year / 100 * 100 + yy
    if f.year + 50 < c then c - 100 else if c + 50 < f.year then c + 100 else c
  | none => if yy < 72 then 2000 + yy else 1900 + yy

/-- The label of a decoded frame (R331, R332). -/
def State.irigLabel (s : State) (x : Nat × Nat × Nat × Nat × Nat) : Option Nat :=
  let sc := s.rd cInScale
  let v := if s.viewValid then s.fields sc s.nowSec else none
  let year := if s.on cInFmt then some (b006Year v x.2.2.2.2) else v.map fun f => b002Year f x.2.2.2.1
  match year with
  | none => none
  | some y => s.taiOf sc (daysOf y 1 1 + x.2.2.2.1 - 1) x.2.2.1 x.2.1 x.1

/-- A BCD year digit above 9 spoils a B006 frame (R330). -/
def State.irigYearOk (s : State) (l : List Nat) : Bool :=
  !s.on cInFmt || (decide (bitsAt l [50, 51, 52, 53] ≤ 9) && decide (bitsAt l [55, 56, 57, 58] ≤ 9))

/-- A complete frame is checked; a good one labels its on-time edge (R330, R332, R286). -/
def State.irigFrame (s : State) (l : List Nat) : State :=
  match irigDecode l with
  | some x =>
    match (if s.irigYearOk l then s.irigLabel x else none) with
    | some t =>
      let s := (s.bump cInGood).wr cInLast t
      if s.rd dSrc = 2 ∨ s.rd dSrc = 3 then s.servoDue.judgeHeld (some t) else s
    | none => s.irigBad
  | none => s.irigBad

/-- An open frame is closed, or a new one opens. -/
def State.setFrame (s : State) (mark : Bool) (f : Option (Nat × List Nat)) : State :=
  { s with cal := { s.cal with inMark := mark, inFrame := f } }

/-- The on-time edge that opens a frame disciplines Hub Time with DSRC 3 (R280). -/
def State.irigOpen (s : State) (lead : Nat) : State :=
  let how := match s.htm.pend with | some p => p.apply | none => 0
  let step := how == 3 && s.rd dSrc == 3
  let s := if step then s.pendSetEdge 3 (ofStamp lead) else s
  if s.rd dSrc = 3 then s.onTimeEdge 2 (ofStamp lead) step else s

/-- An IRIGIN element (R329). -/
def State.irigIn (s : State) (lead w : Nat) : State :=
  match irigClass w with
  | none => (if s.cal.inFrame.isSome then s.irigBad else s).setFrame false none
  | some c =>
    if c = 2 ∧ s.cal.inMark then
      let s := if s.cal.inFrame.isSome then s.irigBad else s
      (s.setFrame true (some (lead, [2]))).irigOpen lead
    else
      match s.cal.inFrame with
      | none => s.setFrame (c == 2) none
      | some (t, l) =>
        let l' := c :: l
        if l'.length = 100 then (s.setFrame (c == 2) none).irigFrame l'.reverse
        else s.setFrame (c == 2) (some (t, l'))

def execIriginElement (lead : Stamp) (widthNs : Nat) (s : State) : Out :=
  event (if s.running then s.irigIn lead widthNs else s)

/-- Every running search and every reference output starts over at a thaw (R319, R320, R325); `was` is the second of the freeze. -/
def State.calThaw (s : State) (was : Nat) : State := s.calMoved was

end Sys2Proof.Machine
end

