-- ==== Sys2Proof/Machine/Lists.lean ====
section
/-! DEFINITION. The register map: the fields of every register outside the keep window, block by block. A register with no field
here is a command register, a live view, or unimplemented. -/

namespace Sys2Proof.Machine

open F

def glbFlds : List Fld :=
  [glbDnotice, glbDstatRes, glbDstatGen, glbWakeHeld, glbStewardReady, glbPrev, glbMode, glbNapPll, glbWakeEn, glbWakeCause, glbHalted]
  ++ (List.range 13).map glbFrz

def htmFlds : List Fld :=
  [htmSetApply, htmStepGen, htmIslandOnMclk, htmPlanBusy, htmSlewClamped, htmSlewActive, htmSetPending, htmPlanFail, htmTimeSet,
   htmSetSecLo, htmSetSecHi, htmSetNs, htmSetFrac, htmStepNs, htmStepSec, htmSlewOfs, htmSlewRate, htmPlanStage, htmPlanIncrLo,
   htmPlanIncrHi, htmPlanActive]

/-- The configuration of discipline (spec/06). -/
def discCfg : List Fld :=
  [dTodBaud, dZdaRel, dPpsPol, dAutoAcq, dMode, dSrc, dKp, dKi, dPpsDelay, dLockN, dLossN, dLockThr, dUnlockThr, dPpsWin, dStepThr,
   dServoMax, dHoldAvg, dHoldDrift, dHoldMax, dHoldLimit]
def discFlds : List Fld :=
  discCfg ++ [dLockRun, dLastUnlock, dPpsPresent, dTodOk, dState, dEvt, dPhase, dServo, dInteg, dHoldFreq, dHoldUnc, dHoldTime,
    dOutliers, dTodBad]

def calAlmFlds (n : Nat) : List Fld :=
  [cAlmDate n, cAlmTime n, cAlmNever n, cAlmLate n, cAlmFired n, cAlmMask n, cAlmScale n, cAlmOneshot n, cAlmEn n, cAlmNextLo n,
   cAlmNextHi n]
def calClkFlds (n : Nat) : List Fld :=
  [cClkGate n, cClkPol n, cClkEn n, cClkAlign n, cClkHpNs n, cClkHpFrac n, cClkPhase n]
def calOutFlds : List Fld :=
  [cPpsGate, cPpsPol, cPpsEn, cPpsWidth, cPpsOfs, cIrigGate, cIrigPol, cIrigEn, cIrigScale, cIrigFmt, cIrigOfs, cInPol, cInScale,
   cInFmt]
def calLeapFlds : List Fld := (List.range 32).flatMap fun k => [cLeapOfs k, cLeapMjd k]
def calFlds : List Fld :=
  [cAlmBusy, cTaiUtc, cLocalPending, cLeapSoon, cLeapNow, cViewValid, cEvt] ++ (List.range 6).map cView ++
  [cLocalOfs, cLocalNext, cLocalAtLo, cLocalAtHi, cLeapNextLo, cLeapNextHi, cInGood, cInBad, cInLast] ++ calOutFlds ++ calLeapFlds ++
  (List.range 8).flatMap calAlmFlds ++ (List.range 4).flatMap calClkFlds

/-- The configuration of the trim law (spec/06). -/
def trmCfg : List Fld :=
  [tGain, tKcalAuto, tGlKeep, tGlMain, tTsrc, tMode, tMainBase, tT0, tA 1, tA 2, tA 3, tAgeRate, tGmill, tGradius, tGsensMain,
   tGsensKeep, tGlWin, tKcalWin]
def trmFlds : List Fld :=
  trmCfg ++ [tKcalBusy, tLearning, tFallback, tGStale, tUnobsKeep, tUnobsMain, tEvt, tTemp, tG, tTermT, tTermA, tTermG, tMainTotal,
    tKmeas, tKmeasTemp, tSlopeMain, tSlopeKeep, tGlExc]

def seqStat : List Fld :=
  [qGateWait, qLineFlt, qLineDown, qLineStep, qKind, qDir, qStep, qOffCause, qOffStep, qOffDir, qOffKind, qOffOv, qOffRail, qDegraded,
   qRising, qGrpUp, qUpMask, qNotUp, qShort, qNotDown, qWarn] ++ (List.range 24).map qState
def seqFlds : List Fld := planFlds ++ seqStat ++ planFlds.map qa

def monCfg : List Fld :=
  [mVcoreRail, mWarnN, mPolicy, mLogMode, mLogMask, mSnapPer, mScanDiv, mVinFilt, mVinScale, mXtEn, mEta] ++
  (List.range 24).map mRailScale
def monFlds : List Fld :=
  monCfg ++ [mFull, mTornFound, mAdcUncal, mDropCnt, mHostBad, mScanCnt, mEvt] ++
  (List.range 29).flatMap fun k => [mReadValid k, mRead k]

def stpCfg (n : Nat) : List Fld := [sWake n, sMode n, sAngle n, sMill n, sDgl n, sEdge n, sSkew n]
def stpFlds (n : Nat) : List Fld :=
  stpCfg n ++ [sEvtEn n, sEvt n, sDropped n, sNoacq n]
/-- The stamp registers of input n that stand apart: its nap count, and STP_LAST. -/
def stpFar (n : Nat) : List Fld := [sNapLost n] ++ (List.range 3).map (sLast n) ++ [sLastOverrun n, sLastPol n, sLastCnt n]
def stpCal : List Fld := [sCalCnt, sUncal 0, sUncal 1]

def touCfg (n : Nat) : List Fld := [oEn n, oMode n, oSrc n, oIdle n, oDropLate n, oForce n, oEvtDone n, oSkew n]
def touFlds (n : Nat) : List Fld :=
  touCfg n ++ [oLevel n, oTrail n] ++ (List.range 8).map (oState n) ++ [oEvt n]
def touEntFlds (n e : Nat) : List Fld := [oAction n e, oKind n e, oMill n e, oW1 n e, oW2 n e, oNs n e, oFrac n e, oWidth n e]

/-- Registers of timer n that are not staged. -/
def gtLive (n : Nat) : List Fld :=
  [gState n, gPin n 0, gPin n 1, gEvtEn n, gEvt n, gPhase n, gForce n 0, gForce n 1, gLoadLo n, gLoadHi n] ++
  (List.range 4).flatMap fun k => [gCmpLo n k, gCmpPer n k]
def gtFlds (n : Nat) : List Fld := timerFlds n ++ gtLive n

def milLive (m : Nat) : List Fld :=
  [lEffBw m, lEvalValid m, lEvalDone m, lUncal m, lDir m, lIndexed m, lAcq m, lState m, lEvtEn m, lEvt m, lRdrop m, lSlips m, lQdrop m,
   lQerr m] ++ (List.range 8).map (lSt m) ++ [lEvalSecLo m, lEvalSecHi m, lEvalNs m] ++ (List.range 4).map (lEval m) ++
  [lInjSecLo m, lInjSecHi m, lInjNs m] ++ (List.range 4).map (lInj m) ++ [lInjHold m]
def milFlds (m : Nat) : List Fld := millFlds m ++ milLive m

def icuTgtFlds (t : Nat) : List Fld :=
  [iSecure t, iWakeEn t, iWakePrio t, iQlimit t, iMode t, iGdis t, iClaimNs t, iSpur t]
def icuFlds : List Fld := [iPrigrp, iLbrk, iNotice] ++ (List.range 16).map iLatch
def icuSrcFlds (n : Nat) : List Fld := [iPrio n, iTmask n]

def mbxBindFlds (c : Nat) : List Fld := [bEn c, bForm c, bWake c, bMailIe c, bSpaceIe c, bAckIe c, bRecv c, bSend c]
def mbxFlds (c : Nat) : List Fld :=
  mbxBindFlds c ++ [bRet c, bId c, bSpace c, bAcked c, bMail c, bState c, bRefused c, bPseq c]

def sbufFlds (k : Nat) : List Fld := [sbufSecure k, sbufRd k, sbufWr k]
def ringCfg (r : Nat) : List Fld := [rEn r, rSecure r, rPolicy r, rSize r, rVar r, rIsz r, rProd r, rCons r, rOfs r, rThr r]
def ringFlds (r : Nat) : List Fld :=
  ringCfg r ++ [rWidx r, rRidx r, rDropped r, rEvtEn r, rPartial r, rDrop r, rPcount r]

def ptnCfg : List Fld :=
  [pEn, pJoinMode, pOfsMode, pJoinOpen, pPorts, pPan, pBp, pBofs] ++ (List.range 4).map pMill ++ layoutFlds ++
  [pAbsTo, pQuar, pAppTo, pMax, pRgain, pHopDly, pOfsLim, pRateLim]
def ptnFlds : List Fld :=
  ptnCfg ++ layoutFlds.map pa ++ [pLgen] ++
  (List.range 8).flatMap fun p => [pEvtEn p, pEvt p, pUndef p, pBadHdr p, pSeq p, pSkips p]

def radLive (p : Nat) : List Fld :=
  [aHaltCode p, aPc p, aSlot p, aState p, aEvtEn p, aEvt p, aNosfd p, aTxBad p, aTxLate p, aTxConflict p] ++
  (List.range 3).map (aLastRx p) ++ (List.range 3).map (aLastTx p)
def radFlds (p : Nat) : List Fld := radioFlds p ++ (radioFlds p).map aa ++ radLive p

def swpFlds (n : Nat) : List Fld := sweepFlds n ++ [wRun n, wArmed n, wPhase n, wStray n, wSkipped n]

def slotCfg (k : Nat) : List Fld :=
  [hEn k, hSecure k, hClass k, hPort k, hNode k, hTarget k, hGrpEn k, hGroup k, hStgrp k, hReach k, hWake k, hWgpio k, hWakeHold k,
   hHbMs k]
def slotFlds (k : Nat) : List Fld := slotCfg k ++ [hPresent k, hWaking k, hLast k]
def portFlds (p : Nat) : List Fld :=
  [hReject p, hCrcErr p, hPevtEn p, hPevt p, hUnbound p] ++ (if p < 4 then [hMode3 p] else if p < 6 then [hI2cAddr p] else [])
def hstMisc : List Fld :=
  (List.range 2).flatMap (fun c => (List.range 8).map (hSeen c)) ++ [hEvtEn, hEvt]
def leaseFlds (id : Nat) : List Fld := [hOwner id, hLeft id]

def canCfg (p : Nat) : List Fld :=
  [nEn p, nMode p, nFdEn p, nBrsEn p, nAutoRecov p, nMonitor p, nTdcEn p, nNode p, nNTseg2 p, nNTseg1 p, nNSjw p, nNBrp p, nDTseg2 p,
   nDTseg1 p, nDSjw p, nDBrp p, nTdco p, nTmEn p, nTmPeriod p, nTmOfs p, nRxDly p, nHb p]
def canFlds (p : Nat) : List Fld :=
  canCfg p ++ [nTec p, nRec p, nEstate p, nEvtEn p, nEvt p, nUndef p, nIgnored p, nDtpBad p, nTxBad p] ++
  (List.range 3).map (nLastSof p) ++ [nLastSeq p]

def pinFlds (p : Nat) : List Fld := [pinOwner p, pinIn p, pinPull p, pinFunc p, pinDir p, pinOut p]
def secFlds : List Fld :=
  [xNoFw, xTrial, xBank, xSeclock, xState, xEvt] ++ (List.range 8).map xKeyHash ++
  [xFwOfs, xFwResult, xFwDone, xFwBusy, xVer, xMinVer, xAdvance]

/-! ### From an address to its fields -/

/-- Fields that may stand at an address: those of its block and index. -/
def nearFlds (a : Nat) : List Fld :=
  let o := a % 2 ^ 16
  if a < 0x010000 then glbFlds
  else if 0x020000 ≤ a ∧ a < 0x020100 then htmFlds
  else if 0x020100 ≤ a ∧ a < 0x030000 then discFlds
  else if 0x030000 ≤ a ∧ a < 0x040000 then calFlds
  else if 0x040000 ≤ a ∧ a < 0x050000 then trmFlds
  else if 0x050000 ≤ a ∧ a < 0x060000 then
    if o < 0x400 then stpFlds (o / 16)
    else if o < 0x500 then stpFar ((o - 0x400) / 4)
    else if 0x800 ≤ o ∧ o < 0xC00 then stpFar ((o - 0x800) / 16)
    else stpCal
  else if 0x060000 ≤ a ∧ a < 0x070000 then
    if o < 0x200 then touFlds (o / 16)
    else if o < 0x280 then touFlds ((o - 0x200) / 4)
    else if 0x1000 ≤ o ∧ o < 0x3000 then touEntFlds ((o - 0x1000) / 0x100) (o / 0x20 % 8)
    else []
  else if 0x070000 ≤ a ∧ a < 0x080000 then
    if o < 0x1000 then gtFlds (o / 0x100)
    else if o < 0x2000 then (timerFlds ((o - 0x1000) / 0x100)).map ga
    else []
  else if 0x080000 ≤ a ∧ a < 0x090000 then
    if o < 0x1000 then milFlds (o / 0x100)
    else if o < 0x1200 then (millFlds ((o - 0x1000) / 0x20)).map (la ((o - 0x1000) / 0x20))
    else []
  else if 0x090000 ≤ a ∧ a < 0x0A0000 then seqFlds
  else if 0x0A0000 ≤ a ∧ a < 0x0B0000 then monFlds
  else if 0x0B0000 ≤ a ∧ a < 0x0C0000 then
    if 0x100 ≤ o ∧ o < 0x200 then icuTgtFlds ((o - 0x100) / 0x20)
    else if 0x1000 ≤ o ∧ o < 0x1800 then icuSrcFlds ((o - 0x1000) / 4)
    else icuFlds
  else if 0x0C0000 ≤ a ∧ a < 0x0D0000 then if o < 0x800 then mbxFlds (o / 0x20) else []
  else if 0x0D0000 ≤ a ∧ a < 0x0E0000 then
    if 0x400 ≤ o ∧ o < 0x600 then sbufFlds ((o - 0x400) / 8)
    else if 0x1000 ≤ o ∧ o < 0x1600 then ringFlds ((o - 0x1000) / 0x20)
    else []
  else if 0x0E0000 ≤ a ∧ a < 0x0F0000 then ptnFlds
  else if 0x0F0000 ≤ a ∧ a < 0x0F8000 then radFlds (o / 0x1000)
  else if 0x0F8000 ≤ a ∧ a < 0x0F9000 then swpFlds ((o - 0x8000) / 0x40)
  else if 0x0FA000 ≤ a ∧ a < 0x0FB000 then (sweepFlds ((o - 0xA000) / 0x40)).map wa
  else if 0x100000 ≤ a ∧ a < 0x110000 then
    if o < 0x100 then slotFlds (o / 16)
    else if 0x200 ≤ o ∧ o < 0x280 then portFlds ((o - 0x200) / 16)
    else if 0x400 ≤ o ∧ o < 0x680 then if 0x400 = o ∨ 0x440 ≤ o then leaseFlds ((o - 0x400) / 4) else []
    else hstMisc
  else if 0x110000 ≤ a ∧ a < 0x110200 then canFlds (o / 0x100)
  else if 0x120000 ≤ a ∧ a < 0x1202C0 then pinFlds (o / 4)
  else if 0x130000 ≤ a ∧ a < 0x140000 then secFlds
  else []

/-- The fields of the register at an address. -/
def fldsAt (a : Nat) : List Fld := (nearFlds a).filter fun f => f.addr == a

/-- The registers that hold no field: commands, and reads that take (EVENT claims, MBX_RX0). -/
def commandReg (a : Nat) : Bool :=
  let o := a % 2 ^ 16
  match a / 2 ^ 16 with
  | 0x00 => o == 0x104
  | 0x02 => o == 0x20 || o == 0x108
  | 0x03 | 0x04 | 0x09 | 0x0A => o == 8
  | 0x06 => decide (o < 0x200) && o % 0x10 == 8
  | 0x07 => decide (o < 0x1000) && o % 0x100 == 0x1C
  | 0x08 => decide (o < 0x1000) && o % 0x100 == 0x20
  | 0x0B => decide (0x100 ≤ o) && decide (o < 0x200) && (o % 0x20 == 8 || o % 0x20 == 0x10 || o % 0x20 == 0x14)
  | 0x0C => decide (o < 0x800) && (o % 0x20 == 8 || o % 0x20 == 0xC || o % 0x20 == 0x18 || o % 0x20 == 0x1C)
  | 0x0E => o == 0x84
  | 0x0F => (decide (o < 0x8000) && o % 0x1000 == 8) || (decide (0x8000 ≤ o) && decide (o < 0x9000) && o % 0x40 == 0x2C)
  | 0x11 => decide (o < 0x200) && o % 0x100 == 0x40
  | 0x13 => o == 0x40 || o == 0x58
  | _ => false

end Sys2Proof.Machine
end

