-- ==== Sys2Proof/Machine/Store.lean ====
section
/-! DEFINITION. The stored configuration (spec/14, R609 to R613): what STORE keeps, what the Steward loads at a main-domain start, and
the default Rack. -/

namespace Sys2Proof.Machine

open F

/-! ### What STORE keeps (R609) -/

/-- The staged fields of timer n that have a dictionary entry (R465). -/
def gtStored (n : Nat) : List Fld :=
  ((timerFlds n).filter fun f => f != gDgl n) ++ [gForce n 0, gForce n 1, gLoadLo n, gLoadHi n] ++ (List.range 4).map (gCmpPer n)

/-- The fields of mill m that have an entry (R422). -/
def milStored (m : Nat) : List Fld :=
  ((millFlds m).filter fun f => f != lZpol m && f != lTpol m) ++ [lInjSecLo m, lInjSecHi m, lInjNs m] ++ (List.range 4).map (lInj m) ++
  [lInjHold m]

/-- The fields of radio port p that have an entry (R721). -/
def radStored (p : Nat) : List Fld := (radioFlds p).filter fun f => f != aIrqPol p && f != aSfdPol p && f != aTxtPol p

/-- The keep fields that have an entry (R117). -/
def keepStored : List Fld :=
  [kGAtFreeze, kSwMode, kMode, kTrimBase, kParaK, kParaT0, kAgeRate, kCl, kChgEn, kChgVlim, kChgRser] ++
  (List.range 4).flatMap (fun n => [kAlmLo n, kAlmHi n, kAlmPer n, kAlmWakePin n, kAlmWakeHub n, kAlmEvent n, kAlmEn n, kKscfg n]) ++
  (List.range 16).map kBkp

/-- Fields of the main domain that STORE keeps. -/
def mainStored : List Fld :=
  (List.range 16).flatMap slotCfg ++ (List.range 2).flatMap canCfg ++
  [htmSetApply, htmSetSecLo, htmSetSecHi, htmSetNs, htmSetFrac, htmStepNs, htmStepSec, htmSlewOfs, htmSlewRate, htmPlanStage,
   htmPlanIncrLo, htmPlanIncrHi] ++
  discCfg ++ trmCfg ++
  [cLocalOfs, cLocalNext, cLocalAtLo, cLocalAtHi] ++ calLeapFlds ++ calOutFlds ++
  (List.range 8).flatMap (fun n => [cAlmDate n, cAlmTime n, cAlmMask n, cAlmScale n, cAlmOneshot n, cAlmEn n]) ++
  (List.range 4).flatMap calClkFlds ++ (List.range 64).flatMap stpCfg ++ (List.range 32).flatMap touCfg ++
  touAll.flatMap (fun p => touEntFlds p.1 p.2) ++ (List.range 16).flatMap gtStored ++ (List.range 16).flatMap milStored ++ monCfg ++
  [iPrigrp] ++ (List.range 8).flatMap (fun t => [iSecure t, iMode t, iGdis t, iQlimit t, iWakeEn t, iWakePrio t]) ++
  (List.range 512).flatMap icuSrcFlds ++ (List.range 64).flatMap mbxBindFlds ++ (List.range 48).flatMap ringCfg ++
  (List.range 64).flatMap sbufFlds ++ ptnCfg ++ (List.range 8).flatMap radStored ++ (List.range 64).flatMap sweepFlds

/-- The flags of the main domain that an RW or RWS entry shows and clears: 0x1121, 0x2310 sub 7, 0x2A00 sub 2 and 3, 0x2A90 sub 5, 0x2D10 sub
1. A load sets those that the copy has set. (DEDUCED, log 196.) -/
def flagStored : List Fld :=
  (List.range 2).flatMap (fun c => (List.range 8).map (hSeen c)) ++ (List.range 8).flatMap (fun n => [cAlmFired n, cAlmLate n]) ++
  [iNotice, iLbrk] ++ (List.range 16).map iLatch ++ (List.range 8).map pEvt

/-- What is kept in the copy and never loaded from it: the key hash of entry 0x1201, whose words are written only under R593, and the values
that only the hub sets: NEVER of 0x2310 sub 7, the fired flags of 0x2104 sub 4, and the rails of 0x2805. (DEDUCED, log 196.) -/
def onlyStored : List Fld :=
  (List.range 8).map xKeyHash ++ (List.range 8).map cAlmNever ++ (List.range 4).map kAlmFired ++ [qNotUp, qShort, qNotDown, qWarn]

/-- Fields that STORE keeps, but for the sequencer's plan. -/
def storeFlds : List Fld := mainStored ++ flagStored ++ keepStored ++ onlyStored

/-- The key of HTM_INCR in a copy, and of compare k of timer n: values that no field holds. -/
def incrKey : Nat := 0x020038 * 32
def cmpKey (n k : Nat) : Nat := (gCmpLo n k).key

/-- The field values of a copy: those that differ from reset. -/
def State.imageOf (s : State) (src : Fld → Fld) : List Fld → List (Nat × Nat)
  | [] => []
  | f :: t => if s.rd (src f) = f.reset then State.imageOf s src t else (f.key, s.rd (src f)) :: State.imageOf s src t

/-- The values of a STORE: the entries' fields, the active plan, HTM_INCR and the compare values. -/
def State.storeImage (s : State) : List (Nat × Nat) :=
  s.imageOf id storeFlds ++ s.imageOf qa planFlds ++ [(incrKey, s.htm.incr)] ++
  s.gtm.flatMap fun nx => nx.2.cmp.map fun kv => (cmpKey nx.1 kv.1, kv.2)

/-! ### Which copy (R611, R613) -/

/-- The valid copy with the higher generation, and whether it is copy A. -/
def State.newest (s : State) : Option (NvCopy × Bool) :=
  match s.dict.copyA, s.dict.copyB with
  | some a, some b => if a.gen < b.gen then some (b, false) else some (a, true)
  | some a, none => some (a, true)
  | none, some b => some (b, false)
  | none, none => none

/-! ### The load -/

/-- Fields take their values from a copy. -/
def State.loadFlds (s : State) (regs : List (Nat × Nat)) : List Fld → State
  | [] => s
  | f :: t => State.loadFlds (s.wr f (Assoc.get f.reset f.key regs)) regs t

/-- Flags that a copy has set are set. -/
def State.loadFlags (s : State) (regs : List (Nat × Nat)) (l : List Fld) : State :=
  l.foldl (fun s f => s.setBits f (Assoc.get 0 f.key regs)) s

/-- The ring table's default BASE and SIZE_LOG2. -/
def rackBase (r : Nat) : Nat :=
  if r < 8 then r * 0x100 else if r < 16 then 0x28000 + (r - 8) * 0x4000 else if r < 24 then 0x18000 + (r - 16) * 0x1000
  else if r < 32 then 0x20000 + (r - 24) * 0x1000 else if r < 36 then 0x8000 + (r - 32) * 0x1000
  else [0xC000, 0x10000, 0x14000, 0x800, 0x1000, 0x2000, 0x3000, 0xC00].getD (r - 36) (0x4000 + (r - 44) * 0x1000)
def rackLog (r : Nat) : Nat :=
  if r < 8 then 8 else if r < 16 then 14 else if r < 36 then 12
  else [14, 14, 14, 10, 12, 12, 12, 10].getD (r - 36) 12

/-- Ring r as the default Rack has it. -/
def State.defaultRing (s : State) (r : Nat) : State :=
  (((s.wr (rEn r) 1).wr (rPolicy r) 0).wr (rSize r) (rackLog r)).wr (rOfs r) (rackBase r / 64)

/-- Every enabled ring starts empty (R509). -/
def State.startRing (s : State) (r : Nat) : State :=
  (((s.wr (rWidx r) 0).wr (rRidx r) 0).wr (rPartial r) 0).wr (rDrop r) 0

/-- Compare values of a copy. -/
def State.loadCmps (s : State) (regs : List (Nat × Nat)) : State :=
  (List.range 16).foldl (fun s n => (List.range 4).foldl (fun s k =>
    let x := Assoc.get GtS.init n s.gtm
    let y := { x with cmp := Assoc.put 0 k (Assoc.get 0 (cmpKey n k) regs) x.cmp }
    { s with gtm := Assoc.put GtS.init n y s.gtm }) s) s

/-- The slot table of R558: the factory one when BOOT2 was high. -/
def State.factorySlots (s : State) : State :=
  if s.hst.boot.testBit 2 then ((List.range 16).flatMap slotCfg).foldl (fun s f => s.wr f f.reset) s else s

/-- Channel c as the load leaves it: an enabled binding that R528 refuses is not written. -/
def State.loadBind (s : State) (c : Nat) : State :=
  if s.on (bEn c) && !s.bindOk c (packWord s.rd (bindFlds c)) then (bindFlds c).foldl (fun s f => s.wr f f.reset) s else s

/-- What a load sets going: the calendar follows its table, the alarms compare what they hold and search, each CLKOUT has its half-period,
each timed output is at IDLE or shows FORCE (R375, R376), the CAN controllers run, discipline follows its source, but for a holdover. -/
def State.loadStarts (s : State) : State :=
  let s := s.calStatus
  let s := (List.range 8).foldl (fun s n =>
    (s.setAlm n { s.alm n with date := s.rd (cAlmDate n) * 2 ^ 4, time := s.rd (cAlmTime n) * 2 ^ 5 }).almStart n) s
  let s := (List.range 4).foldl (fun s n => s.setClk n { s.clk n with hp := s.rd (cClkHpNs n) * 2 ^ 16 + s.rd (cClkHpFrac n), pend := none }) s
  let s := (List.range 32).foldl (fun s n =>
    (s.setTouOut n { s.touOut n with level := s.rd (oIdle n) }).wr (oLevel n)
      (if s.on (oEn n) && s.on (oMode n) then s.rd (oForce n) else s.rd (oIdle n))) s
  let s := (List.range 80).foldl (fun s i => if s.rd (pinFunc (32 + i)) = 1 then s.pinSees (32 + i) else s) s
  let s := (List.range 2).foldl (fun s p => if s.on (nEn p) then s.wr (nEstate p) 0 else s) s
  if s.rd dSrc = 0 || s.mode == 6 then s else s.wr dState 1

/-- The load of a copy's keep values: the Steward writes them through the keep window, after a write that waits there (R108, R109), and the
mirror shows them. A load without a copy leaves the keep domain alone (R90). -/
def State.keepLoad (s : State) (regs : List (Nat × Nat)) : State :=
  ((s.keepFlush.loadFlds regs keepStored).keepRetrim.chargerCheck).mirrorNow

/-- The Steward's load at a main-domain start (R505, R527, R558, R613): the newest copy, or the factory defaults and CONFIG_BAD.
(DEDUCED, log 48.) -/
def State.configLoad (s : State) : State :=
  let s := { s with glb := { s.glb with loaded := true } }
  let regs := match s.newest with | some (c, _) => c.regs | none => []
  let s := ((s.loadFlds regs mainStored).loadFlags regs flagStored).loadCmps regs
  let s := match s.newest with
    | some (c, _) =>
      let s := s.keepLoad c.regs
      let s := { s with dict := { s.dict with integ := c.integ } }
      let s := if s.on dMode then { s with htm := { s.htm with incr := Assoc.get s.htm.incr incrKey c.regs } } else s
      (s.wr glbDstatGen c.gen).fullCheck
    | none => (((List.range 48).foldl State.defaultRing s).setBits glbDnotice 4).fullCheck
  ((List.range 64).foldl State.loadBind ((List.range 48).foldl State.startRing s).factorySlots).loadStarts

/-- The island's load at VMAIN arrival (R37, R139): the plan, staged and active, and the clock plan; without a valid copy the default
plan and source 254 once the main domain runs. -/
def State.islandLoad (s : State) : State :=
  match s.newest with
  | some (c, _) =>
    let s := (s.loadFlds c.regs planFlds).copyTo qa planFlds
    let plan := Assoc.get htmPlanStage.reset htmPlanStage.key c.regs
    let incr := Assoc.get htmPlanIncrLo.reset htmPlanIncrLo.key c.regs + Assoc.get htmPlanIncrHi.reset htmPlanIncrHi.key c.regs * 2 ^ 32
    { s with htm := { s.htm with cold := (plan, incr) } }
  | none =>
    let s := (s.loadFlds [] planFlds).copyTo qa planFlds
    { s with htm := { s.htm with cold := (6, 0x0400000000) }, glb := { s.glb with pendLatch := s.glb.pendLatch ++ [254] } }

end Sys2Proof.Machine
end

