-- ==== Sys2Proof/Machine/Sweep.lean ====
section
/-! DEFINITION. Sweeps (spec/16): the definition and its commands, request decisions at beacon instants, reports, and the close of a
run. -/

namespace Sys2Proof.Machine

open F

/-- The active definition. -/
def State.w (s : State) (f : Fld) : Nat := s.rd (wa f)
def State.won (s : State) (f : Fld) : Bool := s.on (wa f)

/-- Set bits of a value below 2¹⁶. -/
def popCount (v : Nat) : Nat := (List.range 16).foldl (fun n b => n + (v.testBit b).toNat) 0

/-! ### Triggers -/

/-- TRIG of the active definition: 2⁻³² ns for FORM 0, ANGLE64 for FORM 1. -/
def State.trigOf (s : State) (n : Nat) : Nat :=
  if s.won (wForm n) then s.w (wTrig n 0) * 2 ^ 32 + s.w (wTrig n 1)
  else mkTime (s.w (wTrig n 0) + s.w (wTrig n 1) % 2 ^ 16 * 2 ^ 32) (s.w (wTrig n 2)) 0

/-- The trigger after one: PERIOD later. -/
def State.nextTrig (s : State) (n : Nat) : Nat :=
  let per := s.w (wPerLo n) + s.w (wPerHi n) * 2 ^ 32
  if s.won (wForm n) then ((s.sweep n).trig + per) % 2 ^ 64 else ((s.sweep n).trig + per * nsU) % timeMod

/-- T of the run (R689): TRIG, or the Hub Time predicted for the angle; none while the mill reports no acquisition or does not move
toward it. (DESIGN CHOICE, log 128.) -/
def State.sweepT (s : State) (n : Nat) : Option Nat :=
  if s.won (wForm n) then
    let m := s.w (wMill n)
    if !s.on (lAcq m) then none
    else match s.millPredict m (s.sweep n).trig with
      | .at_ t => some t
      | .behind t => some t
      | .away => none
  else some (s.sweep n).trig

/-! ### Opening and closing runs -/

def Run.waiting : Run :=
  { requested := false, t := 0, deadline := 0, members := [], toSend := [], win := 0, acc := 0, skipped := 0, stray := 0 }

/-- A run starts waiting (R687). -/
def State.openRun (s : State) (n run trig : Nat) : State :=
  let x := { Run.waiting with t := if s.won (wForm n) then 0 else trig }
  ((s.setSweep n { trig := trig, run := some x, again := false }).wr (wRun n) run).wr (wPhase n) 1

/-- After a close: the next run, or none (R687); in MODE 1 the scheduler starts none (R698). -/
def State.nextRun (s : State) (n : Nat) (aborted : Bool) : State :=
  let x := s.sweep n
  let idle := (s.setSweep n { x with run := none, again := false }).wr (wPhase n) 0
  if x.again && !s.won (wMode n) then s.openRun n 0 (s.trigOf n)
  else if s.won (wMode n) || !s.on (wArmed n) then idle
  else if s.w (wPerLo n) = 0 ∧ s.w (wPerHi n) = 0 then if aborted then idle else idle.wr (wArmed n) 0
  else s.openRun n (s.rd (wRun n) + 1) (s.nextTrig n)

/-- Nothing was accepted from a listed partner, and the chain to it is broken (R700). -/
def State.memberLost (s : State) (x : Run) (a : Nat) : Bool :=
  (s.ptr a).state == 5 || (s.path a).any fun r => decide ((s.ptr r).acc ≤ x.acc)

/-- The outcome of a listed partner (R700). -/
def State.outcome (s : State) (x : Run) (m : Member) : Nat :=
  match m.last with
  | some 0 => if m.gap then 1 else 0
  | some st => st + 3
  | none => if m.got then 1 else if s.memberLost x m.addr then 3 else 2

/-- BREAK_AT (R702). -/
def State.breakAt (s : State) (x : Run) (outs : List (Nat × Nat)) : Nat :=
  match outs.find? fun ao => ao.2 == 3 with
  | none => 0xFFF
  | some (a, _) => ((s.path a).reverse.find? fun r => decide (x.acc < (s.ptr r).acc)).getD 0

/-- TAG 0x22 items: outcomes that are not OK, up to 64 in each (R705). -/
def State.outcomeItems (s : State) (n run : Nat) (bad : List (Nat × Nat)) : Nat → State
  | 0 => s
  | fuel + 1 =>
    if bad.isEmpty then s
    else State.outcomeItems
      (s.give 37 (varItem 0x22 ([n, 0] ++ le16 run ++ (bad.take 64).flatMap fun ao => le16 (ao.1 + ao.2 * 2 ^ 12)))) n run
      (bad.drop 64) fuel

/-- A run closes with a status (R699 to R702, R705): 0 COMPLETE or 1 PARTIAL by its outcomes, 2 ABORTED, 3 LATE. -/
def State.closeRun (s : State) (n : Nat) (x : Run) (why : Option Nat) : State :=
  let outs := if why = some 3 then [] else x.members.map fun m => (m.addr, s.outcome x m)
  let count := fun c => (outs.filter fun ao => ao.2 == c).length
  let status := why.getD (if outs.all fun ao => ao.2 == 0 then 0 else 1)
  let run := s.rd (wRun n)
  let brk := s.breakAt x outs
  let bad := outs.filter fun ao => ao.2 != 0
  let s := s.outcomeItems n run bad (bad.length + 1)
  let s := s.give 37 (varItem 0x20 ([n, status] ++ le16 run ++ s.time96b x.t ++ s.time96b s.htm.time ++ le16 x.members.length ++
    le16 (count 0) ++ le16 (count 1) ++ le16 (count 2) ++ le16 (count 3) ++ le16 (count 4 + count 5 + count 6) ++ le16 x.skipped ++
    le16 x.stray ++ le16 brk ++ [0, 0]))
  let s := s.nextRun n (why == some 2)
  { s with ended := .swept n run :: s.ended }

/-- The run of sweep n that closed in the present cycle (R703). -/
def State.sweptNow (s : State) (n : Nat) : Option Nat :=
  s.ended.findSome? fun e => match e with | .swept m run => if m = n then some run else none | _ => none

/-- Hub Time reaches DEADLINE (R699); in MODE 1 the scheduler does nothing (R698). -/
def State.sweepDue (s : State) (n : Nat) : State :=
  match (s.sweep n).run with
  | some x => if !s.won (wMode n) && x.requested && decide (x.deadline ≤ s.htm.time) then s.closeRun n x none else s
  | none => s

/-! ### Commands -/

/-- Access to sweep n's registers (R686). -/
def sweepAccess (slot : Slot) (n : Nat) (s : State) (k : State → Res) : Res := leased slot (idSweep n) s k

def opSweepArm (slot : Slot) (n : Nat) (s : State) : Res :=
  sweepAccess slot n s fun s =>
    if s.on (wArmed n) then (.alreadyDone, s)
    else
      let s := s.wr (wArmed n) 1
      if s.won (wMode n) then (.done, s)
      else if (s.sweep n).run.isSome then (.done, s.setSweep n { s.sweep n with again := true })
      else (.done, s.openRun n 0 (s.trigOf n))

/-- DISARM (R687); in the cycle of a close no further run starts. -/
def opSweepDisarm (slot : Slot) (n : Nat) (s : State) : Res :=
  sweepAccess slot n s fun s =>
    let x := s.sweep n
    let off := (s.setSweep n { x with again := false }).wr (wArmed n) 0
    match s.sweptNow n with
    | some run =>
      if x.run.any fun r => !r.requested then (.done, ((off.setSweep n { x with run := none, again := false }).wr (wPhase n) 0).wr (wRun n) run)
      else (.done, off)
    | none => (.done, off)

/-- A frame of the hub's own that carries a SAMPLE_REQ of run `run` of sweep n, behind its MAC header with short addresses (R651). -/
def TxFrame.isReq (f : TxFrame) (n run : Nat) : Bool :=
  let b := f.data.drop 9
  let body := 6 + 2 * (b.getD 1 0 / 4 % 8)
  f.kind == .link && b.getD 0 0 == 0x30 && b.getD body 0 == n && b.getD (body + 2) 0 + b.getD (body + 3) 0 * 256 == run

/-- The requests of a run that have not gone out are withdrawn (R703). -/
def State.dropReqs (s : State) (n run : Nat) : State :=
  (List.range 8).foldl (fun s p =>
    let x := s.radio p
    let y := { x with queue := x.queue.filter fun f => !f.isReq n run }
    s.setRadio p (if !x.sent && x.due.any (·.isReq n run) then { y with due := none, armed := false } else y)) s

/-- ABORT (R703); in the cycle of the close the close comes first (R13). The T of an angle run that has no prediction yet is not stated. -/
def opSweepAbort (slot : Slot) (n : Nat) (s : State) : Res :=
  sweepAccess slot n s fun s =>
    let s := s.sweepDue n
    match if (s.sweptNow n).isSome then none else (s.sweep n).run with
    | some x =>
      let s := s.dropReqs n (s.rd (wRun n))
      if x.requested || !s.won (wForm n) then (.done, s.closeRun n x (some 2))
      else match s.sweepT n with
        | some t => (.done, s.closeRun n { x with t := t } (some 2))
        | none =>
          let (v, s) := s.draw
          (.done, s.closeRun n { x with t := v % timeMod } (some 2))
    | none => (.alreadyDone, s)

/-- The staged definition cannot be applied (R684). (DEDUCED, log 129.) -/
def State.sweepBad (s : State) (n : Nat) : Bool :=
  let list := s.on (wListSrc n)
  s.rd (wCount n) == 0 || s.rd (wChmask n) == 0 || decide (19968 < s.rd (wCount n) * popCount (s.rd (wChmask n)) * 2) ||
    decide (s.rd (wInterval n) < 1000) || s.rd (wDlMs n) == 0 || s.rd (wReqWin n) == 0 ||
    (list && (s.rd (wNlist n) == 0 || decide (4094 < s.rd (wNlist n)) || decide (2 ^ 20 < s.rd (wListOfs n) + 2 * s.rd (wNlist n))))

def opSweepApply (slot : Slot) (n : Nat) (s : State) : Res :=
  sweepAccess slot n s fun s =>
    if s.sweepBad n then (.outOfRange, s)
    else if s.on (wForm n) && !s.beaconMills.contains (s.rd (wMill n)) then (.notInMode, s)
    else (.done, s.copyTo wa (sweepFlds n))

def opSweepDiscard (slot : Slot) (n : Nat) (s : State) : Res :=
  sweepAccess slot n s fun s => (.done, (s.copyFrom wa (sweepFlds n)).leaseBroken)

def execSweepArm (slot : Slot) (n : Fin 64) (s : State) : Out := hostOwned slot (idSweep n.val) s (opSweepArm slot n.val)
def execSweepDisarm (slot : Slot) (n : Fin 64) (s : State) : Out := hostOwned slot (idSweep n.val) s (opSweepDisarm slot n.val)
def execSweepAbort (slot : Slot) (n : Fin 64) (s : State) : Out := hostOwned slot (idSweep n.val) s (opSweepAbort slot n.val)
def execSweepApply (slot : Slot) (n : Fin 64) (s : State) : Out := hostOwned slot (idSweep n.val) s (opSweepApply slot n.val)
def execSweepDiscard (slot : Slot) (n : Fin 64) (s : State) : Out := hostOwned slot (idSweep n.val) s (opSweepDiscard slot n.val)

/-- SWP_CMD: one command bit (R720). -/
def opSwpCmd (slot : Slot) (n w : Nat) (s : State) : Res :=
  sweepAccess slot n s fun s =>
    match w % 32 with
    | 1 => opSweepArm slot n s
    | 2 => opSweepDisarm slot n s
    | 4 => opSweepAbort slot n s
    | 8 => opSweepApply slot n s
    | 16 => opSweepDiscard slot n s
    | _ => (.reservedEncoding, s)

/-! ### Request decisions (R688 to R692) -/

/-- A partner goes into a rising list without a repeat: whether it was new. -/
def insertAddr (a : Nat) : List Nat → Option (List Nat)
  | [] => some [a]
  | b :: t => if a = b then none else if a < b then some (a :: b :: t) else (insertAddr a t).map (b :: ·)

/-- The partners of a listed run, rising, and the addresses skipped (R688). -/
def State.pickListed (s : State) (p : Nat) : List Nat → List Nat × Nat
  | [] => ([], 0)
  | a :: t =>
    let (l, k) := State.pickListed s p t
    let x := s.ptr a
    if isShort a && x.joined && x.port == p then
      match insertAddr a l with
      | some l => (l, k)
      | none => (l, k + 1)
    else (l, k + 1)

/-- The run's list at a request decision. -/
def State.sweepList (s : State) (n : Nat) : List Nat × Nat :=
  let p := s.w (wPort n)
  if s.won (wListSrc n) then
    s.pickListed p ((List.range (s.w (wNlist n))).map fun i =>
      let o := s.w (wListOfs n) + 2 * i
      ((s.sbyte o).toNat + (s.sbyte (o + 1)).toNat * 2 ^ 8) % 2 ^ 12)
  else ((s.ptnOn p).map (·.1), 0)

/-- The body of a SAMPLE_REQ. -/
def State.sampleReq (s : State) (n : Nat) (x : Run) : List Nat :=
  let trig := (s.sweep n).trig
  [n, (s.won (wForm n)).toNat] ++ le16 (s.rd (wRun n)) ++
    (if s.won (wForm n) then [s.w (wMill n), 0, 0, 0] ++ le64 trig else s.time96b trig) ++ s.time96b x.deadline ++
    le16 (s.w (wChmask n)) ++ le16 (s.w (wCount n)) ++ le32 (s.w (wInterval n))

/-- The next REQ_WIN unicast requests of a run (R691). -/
def State.sendReqs (s : State) (n : Nat) (x : Run) : State :=
  let p := s.w (wPort n)
  let k := s.w (wReqWin n)
  let s := (x.toSend.take k).foldl (fun s a => s.sendPtl p (ptlDown 0x30 (s.path a) a (s.sampleReq n x))) s
  s.setSweep n { s.sweep n with run := some { x with toSend := x.toSend.drop k, win := s.superframe s.htm.time } }

/-- The request of a run (R691, R692). -/
def State.request (s : State) (n t : Nat) (l : List Nat) (x : Run) : State :=
  let x := { x with requested := true, t := t, deadline := (t + s.w (wDlMs n) * 1000000 * nsU) % timeMod, acc := s.ptn.acc,
                    members := l.map fun a => { addr := a, next := 0, gap := false, got := false, last := none } }
  let s := s.wr (wPhase n) 2
  if s.won (wListSrc n) then s.sendReqs n { x with toSend := l }
  else
    (s.sendPtl (s.w (wPort n)) (ptlDown 0x30 [] 0xFFF (s.sampleReq n x))).setSweep n { s.sweep n with run := some x }

/-- The decision of a waiting run at a beacon instant (R689). (DEDUCED, log 127.) -/
def State.sweepDecide (s : State) (n tb : Nat) : State :=
  match (s.sweep n).run with
  | some x =>
    if x.requested || s.won (wMode n) then s
    else match s.sweepT n with
      | none => s
      | some t =>
        let (l, k) := s.sweepList n
        let s := s.bump (wSkipped n) k
        let d := l.foldl (fun d a => max d (s.ptr a).depth) 0
        let lead := s.w (wLead n) * 1000 * nsU
        let x := { x with t := t, skipped := k }
        if t < tb + d * s.bpNs * nsU + lead then
          s.closeRun n { x with members := l.map fun a => { addr := a, next := 0, gap := false, got := false, last := none } } (some 3)
        else if t < tb + (d + 1) * s.bpNs * nsU + lead then s.request n t l x
        else s.setSweep n { s.sweep n with run := some x }
  | none => s

/-- The sweeps whose runs may decide at a beacon instant on their port. -/
def State.decideAll (s : State) (tb : Nat) : State :=
  (List.range 64).foldl (fun s n => if s.bit pPorts (s.w (wPort n)) then s.sweepDecide n tb else s) s

/-- The beacon instant `tb` lies in the present cycle and has not been taken (R657): one passed during sleep (R254) or by a SET or STEP is
never due. -/
def State.beaconDue (s : State) (tb : Nat) : Bool :=
  s.running && s.on pEn && s.beaconMode && decide (s.htm.time < tb + s.effIncr) && s.ptn.beacons.head?.map (·.tb) != some tb

/-- BEACON (R657), at the instant that opens the present superframe. -/
def execBeacon (canSend : BitVec 8) (s : State) : Out :=
  event (match s.beaconAt s.htm.time with
    | some (n, tb) =>
      if s.beaconDue tb then
        (s.beaconGo n tb canSend.toNat).decideAll tb
      else s
    | none => s)

/-- A later downlink window of a run with unicast requests still to send (R691). -/
def execSweepRequestWindow (n : Fin 64) (s : State) : Out :=
  event (match (s.sweep n).run with
    | some x => if s.running && !s.won (wMode n) && x.requested && !x.toSend.isEmpty && x.win != s.superframe s.htm.time then s.sendReqs n x else s
    | none => s)

/-! ### Reports (R697, R698) -/

/-- The TAG 0x21 item of a report. -/
def State.sampleItem (s : State) (p a : Nat) (y : SampleBody) : List Nat :=
  varItem 0x21 (le16 a ++ [p, 0] ++ s.antennaB p y.rx ++ [y.sweep.val, y.status.toNat] ++ le16 y.run.toNat ++
    [y.seg.toNat, y.last.toNat] ++ le16 y.data.length ++ le64 y.t0.toNat ++ y.data.map (·.toNat))

/-- A member takes an accepted segment. -/
def Member.take (m : Member) (y : SampleBody) : Member :=
  { m with gap := m.gap || decide (m.next < y.seg.toNat), got := true, next := y.seg.toNat + 1,
           last := if y.last then some y.status.toNat else none }

/-- A report that the run does not take (R697). -/
def State.stray (s : State) (n : Nat) : State :=
  let x := s.sweep n
  (s.setSweep n { x with run := x.run.map fun r => { r with stray := min (r.stray + 1) 0xFFFF } }).bump (wStray n)

/-- The run takes partner `a`'s report (R697). -/
def runTakes (x : Run) (run a : Nat) (y : SampleBody) : Bool :=
  x.requested && y.run.toNat == run && x.members.any fun m => m.addr == a && m.last.isNone && decide (m.next ≤ y.seg.toNat)

/-- A SAMPLE_REPORT reaches its sweep. -/
def State.sampleTo (s : State) (p a : Nat) (y : SampleBody) : State :=
  let n := y.sweep.val
  if s.won (wMode n) then s.give 37 (s.sampleItem p a y)
  else match (s.sweep n).run with
    | none => s.stray n
    | some x =>
      if !runTakes x (s.rd (wRun n)) a y then s.stray n
      else
        let x := { x with members := x.members.map fun m => if m.addr = a then m.take y else m }
        let s := (s.give 37 (s.sampleItem p a y)).setSweep n { s.sweep n with run := some x }
        if x.members.all fun m => m.last.isSome then s.closeRun n x none else s

def execSampleReport (port : Fin 8) (addr : BitVec 12) (body : SampleBody) (s : State) : Out :=
  event (s.uplink port addr.toNat (decide (body.status.toNat ≤ 3) && decide (body.data.length ≤ 78)) fun s =>
    (s.ptnAccept port addr.toNat body.rx).sampleTo port addr.toNat body)

def execSweepDeadline (n : Fin 64) (s : State) : Out := event (if s.running then s.sweepDue n.val else s)

/-! ### Sleep (R254, R704) -/

/-- The run of sweep n at a thaw, unless none passed: a run whose deadline has passed closes; a waiting run whose time trigger has passed
closes as LATE. -/
def State.sweepPassed (s : State) (n : Nat) : Option State :=
  match (s.sweep n).run with
  | some x =>
    if s.won (wMode n) then none
    else if x.requested then if decide (x.deadline ≤ s.htm.time) then some (s.closeRun n x none) else none
    else if !s.won (wForm n) && decide ((s.sweep n).trig ≤ s.htm.time) then
      some (s.closeRun n { x with t := (s.sweep n).trig } (some 3))
    else none
  | none => none

/-- Every trigger of sweep n that passed, in turn (R254). -/
def State.sweepFire (s : State) (n : Nat) : Nat → State
  | 0 => s
  | fuel + 1 => match s.sweepPassed n with
    | some s => State.sweepFire s n fuel
    | none => s

/-- How many runs can have passed at the most: the open one, the one that ARM queued, and those a PERIOD apart. -/
def State.sweepRuns (s : State) (n : Nat) : Nat :=
  let per := s.w (wPerLo n) + s.w (wPerHi n) * 2 ^ 32
  if per = 0 then 2 else s.htm.time / (per * nsU) + 3

def State.sweepThaw (s : State) (n : Nat) : State := s.sweepFire n (s.sweepRuns n)

def State.sweepsThaw (s : State) : State := (List.range 64).foldl State.sweepThaw s

end Sys2Proof.Machine
end

