-- ==== Sys2Proof/Machine/Timer.lean ====
section
/-! DEFINITION. General timers (spec/10): counting, compares and their outputs, captures, the trigger matrix, and make-up. -/

namespace Sys2Proof.Machine

open F

/-- GT_LIMIT in force, and staged. -/
def State.gtLimit (s : State) (n : Nat) : Nat := s.g (gLimLo n) + s.g (gLimHi n) * 2 ^ 32
def State.gtStagedLimit (s : State) (n : Nat) : Nat := s.rd (gLimLo n) + s.rd (gLimHi n) * 2 ^ 32

/-- A compare's value. -/
def State.gtCmp (s : State) (n k : Nat) : Nat := Assoc.get 0 k (s.gt n).cmp
def State.setGtCmp (s : State) (n k v : Nat) : State := s.setGt n { s.gt n with cmp := Assoc.put 0 k (v % 2 ^ 64) (s.gt n).cmp }

def State.gtState (s : State) (n : Nat) : Nat := s.rd (gState n)

/-- A flag of GT_EVT: 0 to 3 CMPk, 4 EXPIRED, 5 and 6 CAPc, 7 CAP_OVF, 8 SKIPPED, 9 EXT_LOST, 10 COLLIDE, 11 GLITCH. -/
def State.gtFlag (s : State) (n i : Nat) : State := s.setBits (gEvt n) (2 ^ i)

def count64 : Nat := 2 ^ 64

/-! ### The trigger matrix (R451 to R453) -/

/-- A timer that acts on pulses of its master: by SLAVE, or by a capture channel on the trigger. -/
def State.gtListens (s : State) (m : Nat) : Bool :=
  s.g (gSlave m) == 1 || s.g (gSlave m) == 2 || s.g (gSlave m) == 4 ||
    (List.range 2).any fun c => s.gon (gCapEn m c) && s.g (gCapSrc m c) == 1

/-- A timer has a pulse of its master to act on, in the cycle after this one (R452). -/
def State.gtRaise (s : State) (m at_ : Nat) : State :=
  State.setGt { s with ended := .pulse m :: s.ended } m { s.gt m with trig := some at_ }

/-- Event `e` of timer n (the TRGOSEL numbers): its slaves have a pulse to act on. -/
def State.gtPulse (s : State) (n e at_ : Nat) : State :=
  if s.g (gTrgoSel n) = e then
    (List.range 16).foldl (fun s m => if s.gtListens m && s.g (gTrgSel m) == n then s.gtRaise m at_ else s) s
  else s

/-- The gate of timer m is open (R452, R453). -/
def State.gtGate (s : State) (m : Nat) : Bool :=
  match s.g (gSlave m) with
  | 3 => s.gtState (s.g (gTrgSel m)) == 2
  | 5 => (s.gt m).pin0
  | _ => true

/-- A running timer whose gate closes is gated, and runs again when it opens; what its source did meanwhile is lost. -/
def State.gateOne (s : State) (m : Nat) : State :=
  if s.gtState m = 2 ∧ !s.gtGate m then s.wr (gState m) 3
  else if s.gtState m = 3 ∧ s.gtGate m then (s.setGt m { s.gt m with tickAt := s.htm.time }).wr (gState m) 2
  else s

/-- Gates follow their masters, link by link. -/
def State.gates (s : State) : Nat → State
  | 0 => s
  | k + 1 => State.gates ((List.range 16).foldl State.gateOne s) k

/-- A timer's state changes, and the gates follow. -/
def State.setGtState (s : State) (n st : Nat) : State := (s.wr (gState n) st).gates 16

/-- A start by command or by trigger (R424, R430, R431). -/
def State.gtStart (s : State) (n at_ : Nat) : State :=
  let now := s.htm.time
  if s.gon (gRun n) then
    ((s.setGt n { s.gt n with count := 0, resid := 0, tickAt := now }).wr (gPhase n) 0).setGtState n 2 |>.gtPulse n 5 at_
  else if s.gtState n = 2 ∨ s.gtState n = 3 then s
  else ((s.setGt n { s.gt n with resid := 0, tickAt := now }).wr (gPhase n) 0).setGtState n 2 |>.gtPulse n 5 at_

/-! ### Actions (R437 to R440) -/

/-- The ACT of a compare as the delay line carries it: low, high, toggle, pulse. -/
def actCode (act : Nat) : Nat :=
  match act with
  | 1 => 1
  | 2 => 0
  | 3 => 2
  | _ => 3

/-- Where an edge wanted at `want` is placed (R439): beside the action of its own tick, or 8 ns after an edge that stands nearer; and
whether they collided. -/
def placeEdge (last prior : Option Nat) (near : Option Nat) (want : Nat) : Nat × Bool :=
  match last with
  | some l => if prior = some want then (l, false) else match near with | some k => (k + ns8, true) | none => (want, false)
  | none => match near with | some k => (k + ns8, true) | none => (want, false)

/-- The level that the hub drives on GTnPc: what the actions left, or FORCE in host-assisted mode (R460). -/
def State.gtOut (s : State) (n c : Nat) : Nat := if s.gon (gMode n) then s.rd (gForce n c) else Assoc.get 0 c (s.gt n).lvl

/-- The hub drives GTnPc: it is an output, and the ball is assigned to timer n for the slot that holds its lease (R443). -/
def State.gtDrives (s : State) (n c : Nat) : Bool :=
  s.gon (gPdir n c) && s.rd (pinFunc (80 + 2 * n + c)) == 1 && s.rd (pinOwner (80 + 2 * n + c)) == s.owner (idTimer n)

/-- The level at the ball: the driven one, or the one from outside. -/
def State.gtBall (s : State) (n c : Nat) : Nat := if s.gtDrives n c then s.gtOut n c else s.rd (gPin n c)

/-- The placed edges of a timer whose instant Hub Time has reached come. -/
def State.gtArrive (s : State) (n : Nat) : State :=
  let due := (s.gt n).line.filter fun p => decide (p.2.t ≤ s.htm.time)
  if due.isEmpty then s
  else due.foldl (fun s p => s.gtShow n p.1 p.2)
    (s.setGt n { s.gt n with line := (s.gt n).line.filter fun p => !decide (p.2.t ≤ s.htm.time) })

/-- The edges placed on one output. -/
def GtS.lineOf (x : GtS) (c : Nat) : List TouEdge := (x.line.filter fun p => p.1 == c).map (·.2)

/-- Compare k's action on pin c, wanted at `want`, goes to the delay line. -/
def State.gtPinAct (s : State) (n k c want : Nat) : State :=
  let x := s.gt n
  let (p, hit) := placeEdge (Assoc.find c x.last) (Assoc.find c x.want)
    (nearEdge (Assoc.find c x.last) (trailBefore (Assoc.find c x.came) (Assoc.find c x.trail) (x.lineOf c) want) want) want
  let g : TouEdge := { t := p, timer := some n, action := actCode (s.g (gCmpAct n k)), width := s.g (gCmpPw n k) * 8, rank := 4 * n + k }
  let s1 := s.setGt n { x with
    last := Assoc.place c p (Assoc.erase c x.last)
    want := Assoc.place c want (Assoc.erase c x.want)
    line := (x.line.filter fun q => q.1 != c) ++ (joinLine g (x.lineOf c)).map fun g => (c, g) }
  if hit then s1.gtFlag n 10 else s1

/-- Compare k's action on TOUTo, which takes it only with EN 1, SRC 1 and MODE 0 (R440). -/
def State.gtTouAct (s : State) (n k o want : Nat) : State :=
  if s.on (oEn o) && s.on (oSrc o) && !s.on (oMode o) then
    let x := s.touOut o
    let want := s.touSkewed o want
    let (p, hit) := placeEdge x.last x.want (s.touNear o want) want
    let g : TouEdge := { t := p, timer := some n, action := actCode (s.g (gCmpAct n k)), width := s.g (gCmpPw n k) * 8, rank := 4 * n + k }
    let s1 := s.setTouOut o { x with last := some p, want := some want, line := joinLine g x.line }
    if hit then s1.gtFlag n 10 else s1
  else s

/-- When an action reaches its ball: 64 ns after the tick instant, and for ticks decided later 64 ns after the start of the cycle of the
decision (R438), at a resolution of 62.5 ps. -/
def State.gtWhen (s : State) (n at_ : Nat) : Nat :=
  place62 (if s.g (gSlave n) ≠ 4 ∧ s.g (gSrc n) ≤ 1 then at_ + ns64 else max at_ s.htm.time + ns64)

/-- Compare k acts, in hardware mode (R437, R460). -/
def State.gtAct (s : State) (n k at_ : Nat) : State :=
  if s.gon (gMode n) || s.g (gCmpAct n k) == 0 then s
  else match s.g (gCmpOut n k) with
    | 0 => s
    | 3 => s.gtTouAct n k (s.g (gCmpTout n k)) (s.gtWhen n at_)
    | o => if s.gon (gPdir n (o - 1)) then s.gtPinAct n k (o - 1) (s.gtWhen n at_) else s

/-- Compare k matches on a tick in direction `up` (R434). -/
def State.gtMatch (s : State) (n k : Nat) (up : Bool) (at_ : Nat) : State :=
  let v := s.gtCmp n k
  let p := s.rd (gCmpPer n k)
  let s := (s.gtFlag n k).gtAct n k at_
  let s := if p = 0 then s else s.setGtCmp n k (if up then v + p else v + count64 - p)
  s.gtPulse n (k + 1) at_

/-- Every enabled compare is judged against the new count, in index order. -/
def State.gtCompares (s : State) (n c : Nat) (up : Bool) (at_ : Nat) : State :=
  (List.range 4).foldl (fun s k => if s.gon (gCmpEn n k) && s.gtCmp n k == c then s.gtMatch n k up at_ else s) s

/-! ### Ticks (R423 to R433) -/

/-- The direction of a tick: down only for a free-running timer on a mill that moves negative (R426, R431). -/
def State.tickUp (s : State) (n : Nat) : Bool :=
  s.gon (gRun n) || s.g (gSrc n) != 2 || s.g (gSlave n) == 4 || (s.mill (s.g (gMill n))).dirNeg != some true

/-- The count a tick makes. -/
def State.tickTo (s : State) (n : Nat) : Nat :=
  if s.tickUp n then ((s.gt n).count + 1) % count64 else ((s.gt n).count + count64 - 1) % count64

/-- The tick expires the timer: the one-shot reaches GT_LIMIT, or the free-running count wraps. -/
def State.tickExpires (s : State) (n : Nat) : Bool :=
  if s.gon (gRun n) then s.tickTo n == s.gtLimit n
  else if s.tickUp n then s.tickTo n == 0 else (s.gt n).count == 0

/-- What an expiry leaves (R431); it is the completion cycle of a one-shot run (R432). -/
def State.gtExpire (s : State) (n at_ : Nat) : State :=
  let s := (s.gtFlag n 4).gtPulse n 0 at_
  if !s.gon (gRun n) then s
  else
    let s := { s with ended := .timer n :: s.ended }
    if s.gon (gReload n) then s.setGt n { s.gt n with count := 0 }
    else s.setGtState n (if s.gon (gRearm n) then 1 else 0)

/-- The source's units of a tick are used up: the prescaler starts again, and an aligned instant has passed (R424, R425). -/
def State.gtTook (s : State) (n at_ : Nat) : State :=
  if s.g (gSlave n) = 4 then s
  else if s.g (gSrc n) = 1 then (s.setGt n { s.gt n with tickAt := at_ }).wr (gPhase n) 0
  else s.wr (gPhase n) (s.rd (gPhase n) - s.g (gDiv n))

/-- One tick of a running timer; a LOAD or a reset in its cycle discards it (R433). -/
def State.gtTick (s : State) (n at_ : Nat) : State :=
  let s := s.gtTook n at_
  if s.ended.contains (.load n) then s
  else
    let c := s.tickTo n
    let e := s.tickExpires n
    let up := s.tickUp n
    let s1 := (s.setGt n { s.gt n with count := c }).gtCompares n c up at_
    if e then s1.gtExpire n at_ else s1

/-- The timer counts ticks of its own source: it runs and is not clocked by a master (R428, R429). -/
def State.gtCounts (s : State) (n : Nat) : Bool := s.running && s.gtState n == 2 && s.g (gSlave n) != 4

/-- The first instant after `a` that is a whole multiple of `t` (R425). -/
def nextAligned (a t : Nat) : Nat := (a / t + 1) * t

/-- The instant of the tick that is due, by the source (R423 to R426): GT_DIV cycles have passed since the last, an aligned instant has
come, or GT_DIV edges of an enabled mill have been counted. (DEDUCED, log 81.) -/
def State.gtDue (s : State) (n : Nat) : Option Nat :=
  if !s.gtCounts n then none
  else match s.g (gSrc n) with
    | 0 => if s.g (gDiv n) ≤ s.rd (gPhase n) then some s.htm.time else none
    | 1 =>
      let t := nextAligned (s.gt n).tickAt (s.g (gDiv n) * nsU)
      if t ≤ s.htm.time then some t else none
    | 2 =>
      let m := s.g (gMill n)
      if s.lon m (lEn m) && decide (s.g (gDiv n) ≤ s.rd (gPhase n)) then some ((s.mill m).lastT.getD s.htm.time) else none
    | _ => none

/-- A tick that is due counts, before what else its cycle holds (R432, R436, R461). -/
def State.gtCatch (s : State) (n : Nat) : State :=
  match s.gtDue n with
  | some t => s.gtTick n t
  | none => s

/-! ### The clock pin (R427) -/

/-- Ball c of timer n is assigned to it (R427, R443). -/
def State.gtPinOn (s : State) (n c : Nat) : Bool := s.rd (pinFunc (80 + 2 * n + c)) == 1

/-- An edge at the clock input is decided: of the polarity EEDGE selects it is one unit, and not when the level before it was shorter than
8 ns; a timer clocked by its master ignores it (R428). -/
def State.gtClkPass (s : State) (n : Nat) (e : PinEdge) : State :=
  let near := nearStamp (s.gt n).clkAt e.t
  let s := s.setGt n { s.gt n with clkAt := some e.t }
  if !(s.g (gEedge n)).testBit (if e.rising then 0 else 1) || s.g (gSrc n) != 3 || s.g (gSlave n) == 4 then s
  else if near then s.gtFlag n 11
  else if s.gtCounts n then
    let s := s.wr (gPhase n) (s.rd (gPhase n) + 1)
    if s.g (gDiv n) ≤ s.rd (gPhase n) then s.gtTick n (ofStamp e.t) else s
  else s

/-- A filter's answer to an edge (R338): the edges decided at once, and those that stand in it or wait for their decision after it. -/
def filterEdge (dgl : Nat) (held : List PinEdge) (e : PinEdge) : List PinEdge × List PinEdge :=
  match held.getLast? with
  | some h => if sinceStamp h.t e.t < dgl then ([], held.dropLast) else ([], held ++ [e])
  | none => if dgl = 0 then ([e], []) else ([], [e])

/-- GT_STATUS shows the level at a ball that the timer does not drive. -/
def State.gtPinIn (s : State) (n c : Nat) (high : Bool) : State := s.wr (gPin n c) high.toNat

/-- An edge at the clock pin of a timer. (DEDUCED, log 81.) -/
def State.gtClkEdge (s : State) (n : Nat) (rising : Bool) (crossing : Nat) : State :=
  if !s.glb.mainUp then s
  else
    let s := s.gtPinIn n (s.g (gEpin n)) rising
    if s.running && s.gtPinOn n (s.g (gEpin n)) then
      let r := filterEdge (s.g (gDgl n) * 64) (s.gt n).clk { t := crossing, rising := rising, count := 0 }
      r.1.foldl (fun s e => s.gtClkPass n e) (s.setGt n { s.gt n with clk := r.2 })
    else s

/-- GT_TICK: the tick that is due by the timer's own source, or an edge at its clock pin. (DESIGN CHOICE, log 83.) -/
def execGtTick (n : Fin 16) (rising : Bool) (at_ : Stamp) (s : State) : Out :=
  event (if s.g (gSrc n) = 3 then s.gtClkEdge n rising at_ else s.gtCatch n)

/-- The tick is due, or the pin's edge is the one that makes it. -/
def State.gtNext (s : State) (n : Nat) : Bool :=
  if s.g (gSrc n) = 3 then s.gtCounts n && decide (s.g (gDiv n) ≤ s.rd (gPhase n) + 1) else (s.gtDue n).isSome

/-- The tick that makes the count equal to compare k. -/
def execGtCompareMatch (n : Fin 16) (k : Fin 4) (rising : Bool) (at_ : Stamp) (s : State) : Out :=
  if s.gtNext n && s.gon (gCmpEn n k) && s.gtCmp n k == s.tickTo n then execGtTick n rising at_ s else event s

/-- The expiry tick. -/
def execGtExpiry (n : Fin 16) (rising : Bool) (at_ : Stamp) (s : State) : Out :=
  if s.gtNext n && s.tickExpires n then execGtTick n rising at_ s else event s

/-- A pulse's trailing edge (R437, R439), PW × 8 ns after its leading edge, or 8 ns after an edge that stands nearer: the output returns
to IDLE. -/
def State.gtPulseEnd (s : State) (n c : Nat) : State :=
  match Assoc.find c (s.gt n).trail with
  | some t => s.gtTrailAt n c t
  | none => s

def State.gtPulseDue (s : State) (n c : Nat) : Bool :=
  s.running && match Assoc.find c (s.gt n).trail with
    | some t => decide (trailPlace (Assoc.find c (s.gt n).came) t ≤ s.htm.time)
    | none => false

def execGtPulseEnd (n : Fin 16) (pin : Fin 2) (s : State) : Out := event (if s.gtPulseDue n pin then s.gtPulseEnd n pin else s)

/-! ### Captures (R446 to R450) -/

/-- The interpolator of ball c of timer n is uncalibrated (R446). -/
def State.gtUncal (s : State) (n c : Nat) : Bool := s.stp.uncal.testBit (50 + 2 * n + c)

/-- A capture at `t` (2⁻³² ns) with the count at it goes to the queue or to ring 42 (R448, R450). (DEDUCED, log 82.) -/
def State.gtCapture (s : State) (n c t count : Nat) (uncal : Bool) : State :=
  let x := s.gt n
  let q := Assoc.get [] c x.caps
  let e : CapEnt := { t := t, qual := s.qual uncal, count := count }
  let sp := s.g (gCapSpill n c)
  if sp = 0 ∧ 4 ≤ q.length then s.gtFlag n 7
  else
    let s1 :=
      if sp < 2 ∧ q.length < 4 then s.setGt n { x with caps := Assoc.put [] c (q ++ [e]) x.caps }
      else
        let (seq, s) := s.nextSeq 42
        s.give 42 ([2 ^ 28 + n * 2 ^ 24 + c * 2 ^ 23 + (if sp = 1 then 2 ^ 22 else 0) + uncal.toNat * 2 ^ 21 + seq] ++ time96 e.t e.qual ++
          [e.count % 2 ^ 32, e.count / 2 ^ 32, 0, 0])
    (s1.gtFlag n (5 + c)).gtPulse n (6 + c) t

/-- A pin edge past the filter, of the selected polarity; one less than 8 ns after the last is a glitch (R446). -/
def State.gtCapPass (s : State) (n c : Nat) (e : PinEdge) : State :=
  if s.gon (gCapEn n c) && s.g (gCapSrc n c) == 0 && (s.g (gCapEdge n c)).testBit (if e.rising then 0 else 1) then
    let x := s.gt n
    let near := nearStamp (Assoc.find c x.capAt) e.t
    let s1 := s.setGt n { x with capAt := Assoc.place c e.t (Assoc.erase c x.capAt) }
    if near then s1.gtFlag n 11 else s1.gtCapture n c (ofStamp e.t) e.count (s.gtUncal n c)
  else s

/-- The edges of channel c that are not decided yet, oldest first. -/
def GtS.capHeld (x : GtS) (c : Nat) : List PinEdge := (x.capIn.filter fun p => p.1 == c).map (·.2)
def GtS.setCapIn (x : GtS) (c : Nat) (l : List PinEdge) : GtS :=
  { x with capIn := (x.capIn.filter fun p => p.1 != c) ++ l.map fun e => (c, e) }

/-- The edges at a timer's clock ball whose decision cycle has come are decided (R338, R768). -/
def State.gtClkSettle (s : State) (n : Nat) : State :=
  let out := fun (e : PinEdge) => s.decided ((e.t + s.g (gDgl n) * 64) * 2 ^ 28)
  let l := (s.gt n).clk
  (l.filter out).foldl (fun s e => s.gtClkPass n e) (s.setGt n { s.gt n with clk := l.filter fun e => !out e })

/-- Those of its capture channels. -/
def State.gtCapSettle (s : State) (n : Nat) : State :=
  (List.range 2).foldl (fun t c =>
    let out := fun (e : PinEdge) => t.decided ((e.t + t.g (gCapDgl n c) * 64) * 2 ^ 28)
    let l := (t.gt n).capHeld c
    (l.filter out).foldl (fun t e => t.gtCapPass n c e) (t.setGt n ((t.gt n).setCapIn c (l.filter fun e => !out e)))) s

/-- The ticks of timer n in the present cycle: the one that is due, and those of the edges that leave the filter of its clock pin or of its
mill in it (R426, R427, R768). -/
def State.gtTicks (s : State) (n : Nat) : State :=
  let s := if s.g (gSrc n) = 2 then s.milSettle (s.g (gMill n)) else s
  (s.gtClkSettle n).gtCatch n

/-- An edge at GTnPc, whose count is that after any tick of its cycle (R447). (DEDUCED, log 82.) -/
def State.gtCapEdge (s : State) (n c : Nat) (rising : Bool) (crossing : Nat) : State :=
  if !s.glb.mainUp then s
  else
    let s := s.gtPinIn n c rising
    if s.running && s.gtPinOn n c then
      let s := s.gtTicks n
      let r := filterEdge (s.g (gCapDgl n c) * 64) ((s.gt n).capHeld c) { t := crossing, rising := rising, count := (s.gt n).count }
      r.1.foldl (fun s e => s.gtCapPass n c e) (s.setGt n ((s.gt n).setCapIn c r.2))
    else s

def execGtCapture (n : Fin 16) (c : Fin 2) (rising : Bool) (stamp : Stamp) (s : State) : Out :=
  event (s.gtCapEdge n c rising stamp)

/-- What a cycle does in the timers: placed edges come. -/
def State.gtsCycle (s : State) : State := (s.gtm.map (·.1)).foldl State.gtArrive s

/-- The head of a capture queue, taken by a read of GT_CAP_CNT_HI (R449): its word and the state, or none. -/
def State.capPop (s : State) (n c : Nat) : Option Nat × State :=
  let x := s.gt n
  match Assoc.get [] c x.caps with
  | e :: t => (some (e.count / 2 ^ 32), s.setGt n { x with caps := Assoc.put [] c t x.caps })
  | [] => (none, s)

/-- A read of GT_CAP_CNT_HI; to a slot of REACH 0b11 the register is unimplemented (R9, R584). (DEDUCED, log 139.) -/
def execGtCapPop (slot : Slot) (n : Fin 16) (c : Fin 2) (s : State) : Out :=
  hostRead slot s fun s =>
    if slot.val < 16 ∧ s.rd (hReach slot.val) = 3 then (.done, s, [0])
    else match (s.touch slot.val (idTimer n.val)).capPop n c with
    | (some w, s1) => (.done, s1, [w])
    | (none, s1) => (.empty, s1, [0])

/-! ### Slaves (R452, R453) -/

/-- The count is set, by a LOAD or a reset; the ticks of the same cycle are discarded (R433, R452), and a reset zeroes the prescaler phase. -/
def State.gtPut (s : State) (n v : Nat) (reset : Bool) : State :=
  let s := State.gtTicks { s with ended := .load n :: s.ended } n
  if reset then (s.setGt n { s.gt n with count := v, resid := 0 }).wr (gPhase n) 0 else s.setGt n { s.gt n with count := v }

/-- The slave acts on the pulse its master has raised (R452): the captures on the trigger first, since they hold the count of the
pulse's own cycle (R447), then SLAVE's action one cycle later. -/
def State.gtTrigger (s : State) (n : Nat) : State :=
  match (s.gt n).trig with
  | none => s
  | some t =>
    let s := s.setGt n { s.gt n with trig := none }
    let s := (List.range 2).foldl (fun s c => if s.gon (gCapEn n c) && s.g (gCapSrc n c) == 1 then s.gtCapture n c t (s.gt n).count false else s) s
    match s.g (gSlave n) with
    | 1 => s.gtStart n t
    | 2 => s.gtPut n 0 true
    | 4 => if s.gtState n = 2 then s.gtTick n t else s
    | _ => s

/-- The slave acts in the cycle after the pulse. -/
def execGtTrigger (n : Fin 16) (s : State) : Out :=
  event (if s.running && !s.ended.contains (.pulse n) then s.gtTrigger n else s)

/-- GTnP0 changes (R453). -/
def State.gtPinGate (s : State) (n : Nat) (high : Bool) : State :=
  if !s.glb.mainUp then s
  else
    let s := s.gtPinIn n 0 high
    if s.running && s.gtPinOn n 0 then (s.setGt n { s.gt n with pin0 := high }).gates 16 else s

def execGtPinGate (n : Fin 16) (high : Bool) (s : State) : Out := event (s.gtPinGate n high)

/-! ### Commands -/

/-- A tick of the present cycle that expires a one-shot comes before a command that would end or restart the run (R432). -/
def State.gtExpiryFirst (s : State) (n : Nat) : State :=
  let t := s.gtTicks n
  if t.ended.contains (.timer n) && !s.ended.contains (.timer n) then t else s

/-- A tick of the present cycle at which compare k matches comes before a write of its value (the table at the edges of spec/10). -/
def State.gtMatchFirst (s : State) (n k : Nat) : State :=
  let t := (s.clrBits (gEvt n) (2 ^ k)).gtTicks n
  if t.bit (gEvt n) k then t else s

def opGtStart (slot : Slot) (n : Nat) (s : State) : Res :=
  leased slot (idTimer n) s fun s => (.done, (s.gtExpiryFirst n).gtStart n s.htm.time)
/-- STOP (R430); in the cycle of the expiry tick it loses (R432). (DEDUCED, log 80.) -/
def opGtStop (slot : Slot) (n : Nat) (s : State) : Res :=
  leased slot (idTimer n) s fun s =>
    let s := s.gtExpiryFirst n
    if s.ended.contains (.timer n) then (.alreadyDone, s) else (.done, s.setGtState n 0)
def opGtLoad (slot : Slot) (n : Nat) (s : State) : Res :=
  leased slot (idTimer n) s fun s => (.done, s.gtPut n (s.rd (gLoadLo n) + s.rd (gLoadHi n) * 2 ^ 32) false)
/-- DISCARD does what the end of the lease does to the staged configuration, LEASE_BROKEN included (R462). -/
def opGtDiscard (slot : Slot) (n : Nat) (s : State) : Res :=
  leased slot (idTimer n) s fun s => (.done, (s.copyFrom ga (timerFlds n)).leaseBroken)
def opCapFlush (slot : Slot) (n : Nat) (s : State) : Res :=
  leased slot (idTimer n) s fun s => (.done, s.setGt n { s.gt n with caps := [] })

/-- A staged compare is routed to an output whose schedule the slot does not hold (R441). -/
def State.gtForeign (s : State) (slot n : Nat) : Bool :=
  (List.range 4).any fun k => s.rd (gCmpOut n k) == 3 && s.owner (idTou (s.rd (gCmpTout n k))) != slot

/-- A staged compare names a pin that is an input (R442). -/
def State.gtInput (s : State) (n : Nat) : Bool :=
  (List.range 4).any fun k => (s.rd (gCmpOut n k) == 1 || s.rd (gCmpOut n k) == 2) && !s.on (gPdir n (s.rd (gCmpOut n k) - 1))

/-- An output pin after an APPLY that changes its PDIR or IDLE takes its IDLE level (R443). -/
def State.gtPinApply (s : State) (n c : Nat) (changed : Bool) : State :=
  if s.gon (gPdir n c) && changed then s.gtDrive n c (s.g (gIdle n c)) else s

/-- APPLY (R461), after the ticks and captures of its cycle: the staged configuration becomes active; a change of SRC, GT_DIV or RUN zeroes the prescaler phase. -/
def State.gtApply (s : State) (n : Nat) : State :=
  let core := [gSrc n, gDiv n, gRun n].any fun f => s.rd f != s.g f
  let ch := fun c => s.rd (gPdir n c) != s.g (gPdir n c) || s.rd (gIdle n c) != s.g (gIdle n c)
  let c0 := ch 0
  let c1 := ch 1
  let s := s.copyTo ga (timerFlds n)
  let s := if core then (s.setGt n { s.gt n with resid := 0, tickAt := s.htm.time }).wr (gPhase n) 0 else s
  ((s.gtPinApply n 0 c0).gtPinApply n 1 c1).gates 16

def opGtApply (slot : Slot) (n : Nat) (s : State) : Res :=
  leased slot (idTimer n) s fun s =>
    if s.gtForeign slot n then (.ownedElsewhere, s)
    else if s.gtInput n then (.notInMode, s)
    else (.done, ((s.gtTicks n).gtCapSettle n).gtApply n)

/-- A write of GT_CMP_HI (R436): a tick of its cycle that matches the old value does so, and the value changes as one; without a held low word its low half stays. -/
def opGtCmpHi (slot : Slot) (n k v : Nat) (s : State) : Res :=
  leased slot (idTimer n) s fun s =>
    let s := s.gtMatchFirst n k
    let x := s.gt n
    let lo := (Assoc.find k x.held).getD (s.gtCmp n k % 2 ^ 32)
    (.done, (s.setGt n { x with held := Assoc.erase k x.held }).setGtCmp n k (v % 2 ^ 32 * 2 ^ 32 + lo))

/-- A write of GT_CMP_LO is held (R436). -/
def opGtCmpLo (slot : Slot) (n k v : Nat) (s : State) : Res :=
  leased slot (idTimer n) s fun s =>
    let x := s.gt n
    (.done, s.setGt n { x with held := Assoc.place k (v % 2 ^ 32) (Assoc.erase k x.held) })

def execGtStart (slot : Slot) (n : Fin 16) (s : State) : Out := hostOwned slot (idTimer n.val) s (opGtStart slot n.val)
def execGtStop (slot : Slot) (n : Fin 16) (s : State) : Out := hostOwned slot (idTimer n.val) s (opGtStop slot n.val)
def execGtLoad (slot : Slot) (n : Fin 16) (s : State) : Out := hostOwned slot (idTimer n.val) s (opGtLoad slot n.val)
def execGtApply (slot : Slot) (n : Fin 16) (s : State) : Out := hostOwned slot (idTimer n.val) s (opGtApply slot n.val)
def execGtDiscard (slot : Slot) (n : Fin 16) (s : State) : Out := hostOwned slot (idTimer n.val) s (opGtDiscard slot n.val)
def execCapFlush (slot : Slot) (n : Fin 16) (s : State) : Out := hostOwned slot (idTimer n.val) s (opCapFlush slot n.val)
def execGtCmpHiWrite (slot : Slot) (n : Fin 16) (k : Fin 4) (v : Word) (s : State) : Out :=
  hostOwned slot (idTimer n.val) s (opGtCmpHi slot n.val k.val v.toNat)

/-! ### Make-up (R248 to R251, R455 to R457, R459) -/

/-- A compare passed by make-up fires once with SKIPPED; one with a period takes the first value above the new count (R251): in a run that has started over that may be the one it has. -/
def State.gtSkip (s : State) (n k new : Nat) : State :=
  let v := s.gtCmp n k
  let p := s.rd (gCmpPer n k)
  let s := ((s.gtFlag n k).gtFlag n 8).gtAct n k s.htm.time
  if p = 0 ∨ (s.gon (gRun n) ∧ new < v) then s else s.setGtCmp n k (v + p * ((new + count64 - v) % count64 / p + 1))

/-- An advance of `a` ticks from `c` passes `v`, the count wrapping at `m`. -/
def passes (c a m v : Nat) : Bool := decide ((v + m - c % m - 1) % m < a)

/-- The tick length of a timer that make-up moves, in 2⁻³² ns (R248). -/
def State.gtTickLen (s : State) (n : Nat) : Nat := if s.g (gSrc n) = 0 then s.g (gDiv n) * s.htm.incr else s.g (gDiv n) * nsU

/-- A free-running timer advances by `a` (R248, R251). -/
def State.gtFreeMakeup (s : State) (n a : Nat) : State :=
  let c := (s.gt n).count
  let new := (c + a) % count64
  let s := s.setGt n { s.gt n with count := new }
  let s := (List.range 4).foldl (fun s k => if s.gon (gCmpEn n k) && passes c a count64 (s.gtCmp n k) then s.gtSkip n k new else s) s
  if count64 ≤ c + a then s.gtFlag n 4 else s

/-- A one-shot advances by `a`: passing GT_LIMIT it expires once with SKIPPED (R455). -/
def State.gtShotMakeup (s : State) (n a : Nat) : State :=
  let c := (s.gt n).count
  let lim := s.gtLimit n
  let out := passes c a count64 lim
  let reload := s.gon (gReload n)
  let new := if !out then (c + a) % count64 else if reload then (c + a) % count64 % lim else lim
  let hit := fun (v : Nat) =>
    if out && reload then decide (1 ≤ v) && decide (v ≤ lim) && passes c a lim v
    else passes c (if out then (lim + count64 - c) % count64 else a) count64 v
  let s := s.setGt n { s.gt n with count := new }
  let s := (List.range 4).foldl (fun s k => if s.gon (gCmpEn n k) && hit (s.gtCmp n k) then s.gtSkip n k new else s) s
  if out then
    let s := (s.gtFlag n 4).gtFlag n 8
    if reload then s else s.wr (gState n) (if s.gon (gRearm n) then 1 else 0)
  else s

/-- A timer at a thaw: `d` is R248's D, `h` the Hub Time of the freeze's MCLK edge. -/
def State.gtThaw (d h : Nat) (s : State) (n : Nat) : State :=
  let s := if (s.g (gSlave n) ≠ 4 ∧ 2 ≤ s.g (gSrc n)) ∨ (List.range 2).any (fun c => s.gon (gCapEn n c) && s.g (gCapSrc n c) == 0) then
    s.gtFlag n 9 else s
  let s := s.setGt n { s.gt n with clk := [], capIn := [], tickAt := s.htm.time }
  let sl := s.g (gSlave n)
  if s.gtState n = 2 ∧ s.g (gSrc n) ≤ 1 ∧ s.gon (gMakeup n) ∧ sl ≠ 3 ∧ sl ≠ 4 ∧ sl ≠ 5 then
    let t := s.gtTickLen n
    let r := if s.g (gSrc n) = 0 then s.rd (gPhase n) * s.htm.incr + (s.gt n).resid else h % t
    let a := (d + r) / t
    let rest := (d + r) % t
    let s := if s.g (gSrc n) = 0 then
        (s.setGt n { s.gt n with resid := rest % s.htm.incr }).wr (gPhase n) (rest / s.htm.incr)
      else s
    if s.gon (gRun n) then s.gtShotMakeup n a else s.gtFreeMakeup n a
  else s

def State.gtsThaw (s : State) (d h : Nat) : State := ((List.range 16).foldl (State.gtThaw d h) s).gates 16

end Sys2Proof.Machine
end

