-- ==== Sys2Proof/Machine/Tou.lean ====
section
/-! DEFINITION. The commands and events of the timed outputs (spec/08). -/

namespace Sys2Proof.Machine

open F

/-- A write to any word of an entry stages it (R357, R377): BUSY while ARMED or LOCKED; PRED words are read-only. Nanoseconds of an entry
scheduled by time are in range (R22). -/
def opTouEntryWrite (slot : Slot) (n e w v : Nat) (s : State) : Res :=
  leased slot (idTou n) s fun s =>
    if s.rd (oState n e) == 2 || s.rd (oState n e) == 3 then (.busy, s)
    else if w = 3 ∧ !s.on (oKind n e) ∧ 999999999 < v then (.outOfRange, s)
    else
      let put := fun (s : State) => s.wr (oState n e) 1
      match w with
      | 0 => (.done, put (((s.wr (oAction n e) (v / 2 ^ 6)).wr (oKind n e) (v / 2 ^ 4)).wr (oMill n e) v))
      | 1 => (.done, put (s.wr (oW1 n e) v))
      | 2 => (.done, put (s.wr (oW2 n e) v))
      | 3 => (.done, put (s.wr (oNs n e) v))
      | 4 => (.done, put (s.wr (oFrac n e) v))
      | 5 => (.done, put (s.wr (oWidth n e) v))
      | _ => (.done, put s)

/-- An entry that ARM refuses as out of range (R359). (DEDUCED, log 71.) -/
def State.touBadEntry (s : State) (n e : Nat) : Bool :=
  decide (s.rd (oWidth n e) < 8) || decide (1000000000 < s.rd (oWidth n e)) ||
    (!s.on (oKind n e) && decide (999999999 < s.rd (oNs n e)))

/-- The entries a mask names. -/
def named (mask : Nat) : List Nat := touEntries.filter fun e => mask.testBit e

/-- The entry may be due from now on (R362). -/
def State.touNew (s : State) (n e : Nat) : State := { s with ended := .due n e :: s.ended }

/-- ARM (R358, R359, R374, R376, R381). -/
def opTouArm (slot : Slot) (n mask : Nat) (s : State) : Res :=
  leased slot (idTou n) s fun s =>
    if mask % 256 = 0 then (.reservedEncoding, s)
    else if !s.on (oEn n) || s.on (oSrc n) || (named mask).any (fun e => s.rd (oState n e) != 1) then (.notInMode, s)
    else if (named mask).any (s.touBadEntry n) then (.outOfRange, s)
    else (.done, (named mask).foldl (fun s e => ((s.wr (oState n e) 2).setTouEnt n e TouEnt.init).touNew n e) s)

/-- CANCEL of one entry (R373). -/
def State.touCancelEntry (s : State) (n e : Nat) : State :=
  match s.rd (oState n e) with
  | 1 => s.wr (oState n e) 0
  | 2 => s.wr (oState n e) 7
  | 3 => s.wr (oState n e) 7
  | _ => s

/-- CANCEL (R373): an entry with nothing to cancel, one in its commit cycle among them, makes the command ALREADY_DONE; the others are
still cancelled. -/
def opTouCancel (slot : Slot) (n mask : Nat) (s : State) : Res :=
  leased slot (idTou n) s fun s =>
    if mask % 256 = 0 then (.reservedEncoding, s)
    else
      let s := s.touCommits n none 8
      let gone := (named mask).any fun e => s.rd (oState n e) == 0 || decide (4 ≤ s.rd (oState n e))
      (if gone then .alreadyDone else .done, (named mask).foldl (fun s e => s.touCancelEntry n e) s)

/-- Every armed and locked entry is cancelled (R376). -/
def State.touCancelAll (s : State) (n : Nat) : State :=
  touEntries.foldl (fun s e => if s.rd (oState n e) == 1 then s else s.touCancelEntry n e) s

/-- An entry of the output completed in this cycle (R13). -/
def State.touEnded (s : State) (n : Nat) : Bool := touEntries.any fun e => s.ended.contains (.entry n e)

/-- A write to TOU_CTRL (R374 to R376): an output that EN starts is at IDLE; in MODE 1 it shows FORCE, and the driven level again after
it. EN 0 lets the committed edges happen, and loses to an entry that completes in this cycle (R13). (DEDUCED, log 73.) -/
def opTouCtrlWrite (slot : Slot) (n v : Nat) (s : State) : Res :=
  leased slot (idTou n) s fun s =>
    if (oSrc n).ofWord v ≠ s.rd (oSrc n) ∧ touEntries.any (fun e => s.rd (oState n e) == 2 || s.rd (oState n e) == 3) then (.busy, s)
    else
      let was := s.on (oEn n)
      let force := s.on (oMode n)
      let s := if (oEn n).ofWord v = 0 then s.touCommits n none 8 else s
      let s := [oEn n, oMode n, oSrc n, oIdle n, oDropLate n, oForce n, oEvtDone n].foldl (fun s f => s.wr f (f.ofWord v)) s
      if !s.on (oEn n) then
        let t := (((s.touFlush n).touCancelAll n).setTrail n none).touDrive n (s.rd (oIdle n))
        (if s.touEnded n then .alreadyDone else .done, t.wr (oLevel n) (s.rd (oIdle n)))
      else
        let s := if was then s else s.touDrive n (s.rd (oIdle n))
        let s := if force then touEntries.foldl (fun s e => s.touNew n e) s else s
        (.done, s.wr (oLevel n) (if s.on (oMode n) then s.rd (oForce n) else (s.touOut n).level))

def execTouEntryWrite (slot : Slot) (n : Fin 32) (e w : Fin 8) (v : Word) (s : State) : Out :=
  hostOwned slot (idTou n.val) s (opTouEntryWrite slot n.val e.val w.val v.toNat)
def execTouArm (slot : Slot) (n : Fin 32) (mask : BitVec 8) (s : State) : Out := hostOwned slot (idTou n.val) s (opTouArm slot n.val mask.toNat)
def execTouCancel (slot : Slot) (n : Fin 32) (mask : BitVec 8) (s : State) : Out :=
  hostOwned slot (idTou n.val) s (opTouCancel slot n.val mask.toNat)
def execTouCtrlWrite (slot : Slot) (n : Fin 32) (v : Word) (s : State) : Out := hostOwned slot (idTou n.val) s (opTouCtrlWrite slot n.val v.toNat)

/-- An entry's commit cycle (R360). (DEDUCED, log 69.) -/
def execTouCommit (n : Fin 32) (e : Fin 8) (s : State) : Out := event (s.touCommit n.val e.val)

/-- The trailing edge of a pulse comes when Hub Time has reached the instant at which it is placed (R364, R365). -/
def State.touTrailing (s : State) (n : Nat) : State :=
  match (s.touOut n).trail with
  | some t => if trailPlace (s.touOut n).came t ≤ s.htm.time then s.touTrailAt n t else s
  | none => s

def execTouTrailingEdge (n : Fin 32) (s : State) : Out := event (if s.running then s.touTrailing n.val else s)

/-- The first cycle in which Hub Time is 2 µs or less before PRED locks the entry (R367, R369). -/
def State.touLock (s : State) (n e : Nat) : State :=
  match (s.touEnt n e).pred with
  | some p =>
    if s.touRuns n && s.rd (oState n e) == 2 && s.on (oKind n e) && !(s.touEnt n e).wait && s.on (lAcq (s.rd (oMill n e))) &&
        decide (p ≤ s.htm.time + us2) then State.wr { s with ended := .lock n e :: s.ended } (oState n e) 3
    else s
  | none => s

def execTouLock (n : Fin 32) (e : Fin 8) (s : State) : Out := event (if s.running then s.touLock n.val e.val else s)

end Sys2Proof.Machine
end

