-- ==== Sys2Proof/Machine/Modes.lean ====
section
/-! DEFINITION. Modes, sleep and make-up (spec/05), with the PLL and the clock-plan switch (spec/01). -/

namespace Sys2Proof.Machine

open F

/-! ### VMAIN arrival (R228, R139, R757) -/

/-- The island starts in M2 with its plan loaded and its registers, MON's too, reset; the straps are sampled; the enabled host resets
are held (R173); the keep oscillator of a part in Shelf starts again, and SHELF_ARMED
reads 0 (R114). Of the monitor only what stands in nonvolatile memory is left. -/
def State.vmainArrival (s : State) (boot : Nat) : State :=
  let s := if s.keep.shelf then State.wr { s with keep := { s.keep with shelf := false, oscOn := true, rawTicks := 0 } } kShelfArmed 0 else s
  let s := { s with
    htm := .init
    trm := .init
    regs := s.regs.filter fun kv => !(kv.1 == htmPlanActive.key || (0x100 ≤ kv.1 / 32 && kv.1 / 32 < 0x120) || (0x154 ≤ kv.1 / 32 && kv.1 / 32 < 0x158) ||
      (0x090000 ≤ kv.1 / 32 && kv.1 / 32 < 0x0B0000))
    mon := { MonS.init with
      log := s.mon.log, head := s.mon.head, seq := s.mon.seq, burnt := s.mon.burnt, collapse := s.mon.collapse, scanDue := true }
    seq := { SeqS.init with joined := false, pullDown := false }
    hst := { s.hst with boot := boot, seclock := 0 } }
  let s := s.islandLoad
  let s := { s with seq := { s.seq with hrstLow := maskOf (fun k => s.qon (qHrstEn k)) (List.range 4) } }
  let prev := s.rd glbMode
  { (((s.wr glbPrev prev).wr glbMode 2)) with glb := { s.glb with back := 4, lostLock := 0, waking := false } }

/-- VMAIN's level of arrival, which it has held for 100 µs (R228, R738), in mV. -/
def arrivalMv : Nat := 2950

def execVmainArrival (boot : BitVec 3) (s : State) : Out :=
  event (if s.mode ≤ 1 then
      let m := s.mode
      let t := (s.vmainArrival boot.toNat).wr glbPrev m
      { t with keep := { t.keep with vmain := max t.keep.vmain (arrivalMv + 1) } }
    else s)

/-! ### Commands (R241, R228) -/

/-- The modes of a running hub that is not in service. -/
def State.runMode (s : State) : Bool := s.mode == 4 || s.mode == 5 || s.mode == 6

/-- NAP (R241). (DEDUCED, log 42; DEDUCED, log 184.) -/
def opNap (slot : Slot) (s : State) : Res :=
  secureOnly slot s <|
  if !s.runMode || !s.on kOscRunning || s.on htmPlanBusy || s.glb.freezeReq.isSome then (.notInMode, s)
  else (.done, { s with glb := { s.glb with freezeReq := some .nap, freezeTick := false }, ended := .napped slot :: s.ended })

/-- While a NAP waits for its freeze edge no other mode is entered by command. (DEDUCED, log 42.) -/
def opServiceEnter (slot : Slot) (s : State) : Res :=
  secureOnly slot s <| if s.runMode && s.glb.freezeReq != some .nap then (.done, s.setMode 10) else (.notInMode, s)

def opServiceExit (slot : Slot) (s : State) : Res :=
  secureOnly slot s <| if s.mode = 10 then (.done, s.setMode 4) else (.notInMode, s)

def execNap (slot : Slot) (s : State) : Out := hostReg slot s (opNap slot)
def execServiceEnter (slot : Slot) (s : State) : Out := hostReg slot s (opServiceEnter slot)
def execServiceExit (slot : Slot) (s : State) : Out := hostReg slot s (opServiceExit slot)

/-! ### Freeze (R32, R238, R240, R242) -/

/-- A planned freeze on the tick pair just recorded, for what it was requested. A NAP whose mode has meanwhile left M4 to M6 lapses,
since R228 enters M7 from no other mode. -/
def State.freezeGo (s : State) (why : FreezeFor) : State :=
  let from4 := s.mode == 4
  if why = .nap ∧ !s.runMode then { s with glb := { s.glb with freezeReq := none, freezeTick := false } }
  else
  let s := s.freezeOn s.keep.pair false
  match why with
  | .nap =>
    let s := s.setMode 7
    { s with glb := { s.glb with back := if from4 then 4 else 6 },
             htm := { s.htm with pll := s.htm.pll && s.on glbNapPll } }
  | .plan => { s with htm := { s.htm with phase := .locking, pll := false } }
  | .fall => s.settle

/-- The freeze edge is the next raw keep tick after the request (R238); without the oscillator the freeze takes none (R239). -/
def execFreeze (s : State) : Out :=
  event (match s.glb.freezeReq with
    | some why => if s.running && (s.glb.freezeTick || !s.on kOscRunning) then s.freezeGo why else s
    | none => s)

/-! ### The PLL (R29, R30, R34, R231) -/

/-- MCLK is to run: a start or a relock in M3, a wake, a plan switch. -/
def State.starting (s : State) : Bool :=
  s.glb.mainUp && s.htm.frozen &&
    (s.mode == 3 || (s.mode == 7 && s.glb.waking) || s.htm.phase == .locking || s.htm.phase == .fallback)

/-- The PLL is being locked. -/
def State.locking (s : State) : Bool := s.starting && !s.htm.pll

/-- The PLL reports lock; at the cold start it is programmed from the stored plan, which is then the plan in force and the staged one
(R37). (DEDUCED, log 174.) -/
def execPllLock (s : State) : Out :=
  event (if s.locking then
      let s := if s.htm.first then (s.wr htmPlanActive s.htm.cold.1).wr htmPlanStage s.htm.cold.1 else s
      { s with htm := { s.htm with pll := true } }
    else s)

/-- The island goes over to MCLK (R29). -/
def execIslandToMclk (s : State) : Out :=
  event (if s.starting && s.htm.pll && !s.htm.mclk then
      State.wr { s with htm := { s.htm with mclk := true }, glb := { s.glb with thawTick := false } } htmIslandOnMclk 1
    else s)

/-- A loss of lock (R29, R30, R228, R232, R239): source 500, an unplanned freeze where Hub Time runs, the island back on its oscillator,
M3 with the Steward in reset. A plan switch that waited for its freeze edge goes on from this freeze. (DEDUCED, log 17.) -/
def State.pllUnlock (s : State) : State :=
  let m := s.mode
  let s := (s.latch 500).freezeNow
  let s := State.wr { s with htm := { s.htm with
    pll := false, mclk := false, phase := if s.htm.phase = .freezing then .locking else s.htm.phase } } htmIslandOnMclk 0
  if m = 4 ∨ m = 5 ∨ m = 6 ∨ m = 10 then
    let s := { s with glb := { s.glb with lostLock := m, back := if m = 5 then 6 else m } }
    (s.setMode 3).wr glbStewardReady 0
  else s

/-- MCLK clocks the island, or is to: a loss of lock is seen (R30). -/
def State.lockSeen (s : State) : Bool := s.htm.pll && s.glb.mainUp && (s.htm.mclk || s.starting)

def execPllUnlock (s : State) : Out := event (if s.lockSeen then s.pllUnlock else s)

/-- A retry in M3 while the PLL fails to lock (R231): it is programmed again, from the plan in force, and the rails stay up; the new plan
of a switch is given up only by R34. -/
def execPllRetry (s : State) : Out :=
  event (if s.mode = 3 ∧ s.locking then { s with htm := { s.htm with pll := false } } else s)

/-- No lock within 2 ms (R34): back to the previous plan, or M3 when that does not lock either. A set that falls stays in M8, which no
loss of lock leaves (R228). -/
def State.planFail (s : State) : State :=
  match s.htm.phase with
  | .locking => { s with htm := { s.htm with phase := .fallback, pll := false } }
  | .fallback =>
    if s.mode = 3 ∨ s.mode = 8 then s
    else (State.setMode { s with glb := { s.glb with back := s.mode } } 3).wr glbStewardReady 0
  | _ => s

def execPlanFail (s : State) : Out := event (if s.htm.frozen && !s.htm.pll then s.planFail else s)

/-! ### Thaw (R37, R243 to R256) -/

/-- e of R244, in 2⁻³² ns. -/
def madeUp (p : TickPair) (n f : Nat) : Int :=
  roundDivI ((((n : Int) - p.n) * 2 ^ 42 + ((f : Int) - p.f)) * 1000000000) (2 ^ 25)

/-- A φ code in 2⁻³² ns. -/
def phiTime (code incr : Nat) : Nat := code * incr / 64

/-- At the first thaw after a cold start the stored HTM_INCR comes into force (R37), whatever it is; every other keeps it (R247). (DEDUCED, log 19; DESIGN CHOICE, log 173.) -/
def State.coldIncr (s : State) : State :=
  if s.htm.first then
    let i := s.htm.cold.2
    let s := { s with htm := { s.htm with incr := i, first := false }, trm := { s.trm with base := i } }
    (s.wr htmPlanIncrLo i).wr htmPlanIncrHi (i / 2 ^ 32)
  else s

/-- The thaw registers of a made-up time. (DEDUCED, log 20.) -/
def State.thawRegs (s : State) (p : TickPair) (e : Int) : State :=
  let ns := (e / (2 ^ 32 : Nat)).toNat
  [p.n, p.n / 2 ^ 32, p.f / 2 ^ 10, secOf p.h, secOf p.h / 2 ^ 32, nsOf p.h, fracOf p.h, s.keep.count, s.keep.count / 2 ^ 32,
    s.keep.f / 2 ^ 10, ns, ns / 2 ^ 32].zipIdx.foldl (fun s vi => s.wr (glbFrz vi.2) vi.1) s

/-- GLB_THAW_INFO. -/
def State.thawInfo (s : State) (phi : Nat) (lost : Bool) : State :=
  let n := (s.rd (glbFrz 12) / 2 ^ 24 + 1) % 256
  s.wr (glbFrz 12) (n * 2 ^ 24 + s.glb.unplanned.toNat * 2 ^ 17 + lost.toNat * 2 ^ 16 + s.glb.phiF * 2 ^ 8 + phi)

/-- A pending trailing edge of a timed output comes at once. -/
def State.touUntrail (s : State) (n : Nat) : State :=
  if (s.touOut n).trail.isSome then (s.setTrail n none).touDrive n (s.rd (oIdle n)) else s

/-- The pending trailing edges of a timer's outputs come at once. -/
def State.gtUntrail (s : State) (n : Nat) : State := (s.gt n).trail.foldl (fun s p => s.gtIdle n p.1) s

def StIn.forget (x : StIn) : StIn := { x with last := none, filt := [] }
def TouOut.forget (x : TouOut) : TouOut := { x with last := none, came := none, want := none }
def GtS.forget (x : GtS) : GtS := { x with last := [], came := [], want := [], clkAt := none, capAt := [] }

/-- A mill's kept states go on to the freeze and stand at Hub Time 0 (R412); an injected one is a function of Hub Time. -/
def MillS.forget (old : Nat) (x : MillS) : MillS := { x.moved (-(old : Int)) with inj := x.inj }

/-- A Hub Time that starts anew at 0 leaves no edge of the old time near it (R341, R364, R439, R446), and a trailing edge that was
pending comes at once. (DEDUCED, log 189.) -/
def State.forget (s : State) : State :=
  let t := (s.gtm.map (·.1)).foldl State.gtUntrail (s.touHeld.foldl State.touUntrail s)
  let t : State := { t with mil := { t.mil with mills := t.mil.mills.map fun kx => (kx.1, kx.2.forget s.htm.time) } }
  let t := (t.mil.mills.map (·.1)).foldl State.milShow t
  { t with
    stp := { t.stp with ins := t.stp.ins.map fun kx => (kx.1, kx.2.forget) }
    tou := { t.tou with outs := t.tou.outs.map fun kx => (kx.1, kx.2.forget) }
    gtm := t.gtm.map fun kx => (kx.1, kx.2.forget) }

/-- Hub Time is loaded (R244, R246): the state, R248's D, and the Hub Time of the freeze's MCLK edge. (DEDUCED, log 18.) -/
def State.thawTime (s : State) (phi : Nat) : State × Nat × Nat :=
  match (if s.on kTimeValid then s.glb.frz else none) with
  | some p =>
    let e := madeUp p s.keep.count s.keep.f
    let t := addTime p.h (e + phiTime phi s.htm.incr + 7 * s.htm.incr)
    let h := (p.h + phiTime s.glb.phiF s.htm.incr) % timeMod
    let s := (s.thawRegs p e).thawInfo phi false
    (State.wr { s with htm := { s.htm with time := t } } htmTimeSet p.set.toNat, (t + timeMod - h) % timeMod, h)
  | none =>
    let s := (s.thawInfo 0 true).forget
    let s := { s with glb := { s.glb with pendLatch := s.glb.pendLatch ++ [502] } }
    (State.wr { s with htm := { s.htm with time := 0 } } htmTimeSet 0, 0, s.htm.time)

/-- A wake edge kept through the sleep becomes a LATE quill (R256), with OVF_BEFORE if edges were dropped before it (R343); on an
input in MODE 1 it goes to STP_LAST (R352). (DEDUCED, log 66.) -/
def State.wakeQuill (s : State) : State :=
  match s.stp.wake with
  | none => s
  | some w =>
    let t := s.keepTime (w.count.getD s.keep.count)
    let at_ := mkTime (secOf t) (nsOf t) 0
    let s := { s with stp := { s.stp with wake := none } }
    if s.on (sMode w.input) then s.stLast w.input (at_ / 2 ^ 28) w.pol
    else
      let r := 8 + w.input / 8
      let x := s.stin w.input
      let ovf := x.ovf || x.fifo.any (·.ovf)
      let (seq, s) := (s.setStin w.input { x with ovf := false, fifo := x.fifo.map fun e => { e with ovf := false } }).nextSeq r
      let q := quillW0 1 w.pol ovf (s.stUncal w.input) true w.input seq :: time96 at_ (s.qual (s.stUncal w.input))
      (s.give r q).stStamped w.input

/-- How a plan switch ends at the thaw (R32, R34). -/
def State.planDone (s : State) : State :=
  match s.htm.phase with
  | .locking =>
    let s := { s with htm := { s.htm with phase := .idle, incr := s.planIncr }, trm := { s.trm with base := s.planIncr } }
    ((s.wr htmPlanActive (s.rd htmPlanStage)).wr htmPlanBusy 0).latch 475
  | .fallback =>
    let s := { s with htm := { s.htm with phase := .idle } }
    ((s.wr htmPlanBusy 0).wr htmPlanFail 1).latch 475
  | _ => s

/-- The hub was in M5 when the sleep or the falling set began that this thaw ends: `m` is the mode of the frozen hub. -/
def State.wasLocked (s : State) (m : Nat) : Bool :=
  (m == 7 && s.rd glbPrev == 5) || (m == 3 && s.rd glbPrev == 8 && s.glb.m8From == 5)

/-- What a thaw makes of the lock (R228, R232, R296, R299): `m` is the mode of the frozen hub, `lost` the mode that a loss of lock left,
`next` the mode the thaw enters. A lock that the sleep, the falling set or the loss ended raises 477; I keeps its value after a loss
of lock in M5 (R232); every other entry to M6 is one of R299, and a hub that froze in M6 enters nothing. (DEDUCED, log 43.) -/
def State.thawLock (s : State) (m lost next : Nat) : State :=
  if lost = 5 then (s.wr dLastUnlock 8).holdBegin true
  else if next = 6 ∧ m ≠ 6 then if s.wasLocked m then s.holdBegin false else (s.wr dState 3).holdEntry false
  else if lost = 10 ∧ s.rd dState = 2 then ((s.wr dLastUnlock 8).wr dState 3).latch 477
  else s

/-- The mode a thaw enters (R228). -/
def State.thawMode (s : State) (m : Nat) : Nat :=
  if m = 3 ∨ m = 7 then s.glb.back else m

/-- The latches and records that waited for the thaw (R99, R226, R469). -/
def State.flushLatches (s : State) : State :=
  let l := s.glb.pendLatch
  let s := { s with glb := { s.glb with pendLatch := [] } }
  l.foldl State.latch s
def State.flushRecs (s : State) : State :=
  let l := s.keep.recQ
  let s := { s with keep := { s.keep with recQ := [] } }
  l.foldl State.keepRecWords s

/-- Everything the blocks do at a thaw (R248 to R256, R325, R346, R412). -/
def State.thawBlocks (s : State) (d h was : Nat) : State :=
  let s := s.uncalAll.wakeQuill
  let s := (s.milsThaw).gtsThaw d h
  let s := leaseIds.foldl (State.leaseThaw (d / (1000000 * nsU))) s
  (((s.touThaw.calThaw (secOf was)).layoutThaw was).sweepsThaw).radiosThaw

/-- The thaw, at the Hub Time load (R243). -/
def State.thaw (s : State) (phi : Nat) : State :=
  let m := s.mode
  let lost := s.glb.lostLock
  let was := match s.glb.frz with | some p => p.h | none => s.htm.time
  let s := s.coldIncr
  let (s, d, h) := s.thawTime phi
  let s := { s with htm := { s.htm with frozen := false }, glb := { s.glb with waking := false, lostLock := 0 } }
  let s := s.latch 501
  let s := if s.glb.pend503 then State.latch { s with glb := { s.glb with pend503 := false } } 503 else s
  let s := (s.flushLatches).flushRecs
  let s := s.thawBlocks d h was
  let next := s.thawMode m
  let s := (s.planDone).thawLock m lost next
  (if m = 8 then s else s.setMode next).settle

/-- The hub is ready for the Hub Time load: the island runs on MCLK, and with KTIME_VALID 1 a raw keep tick has come since, the thaw edge
(R243). -/
def State.thawReady (s : State) : Bool :=
  s.glb.mainUp && s.htm.frozen && s.htm.mclk && s.on htmIslandOnMclk && (s.glb.thawTick || !s.on kTimeValid)

def execThaw (phi : BitVec 6) (s : State) : Out := event (if s.thawReady then s.thaw phi.toNat else s)

/-! ### The Steward (R230, R257, R597, R613) -/

/-- A trial bank whose Steward is ready becomes active (R597). -/
def State.trialDone (s : State) : State := if s.on xTrial then (s.wr xTrial 0).onBank (1 - s.rd xBank) else s

def State.stewardReady (s : State) : State :=
  let s := if s.glb.loaded then s else s.configLoad
  (s.trialDone).wr glbStewardReady 1

/-- A trial bank does not reach STEWARD_READY (R597): the main domain restarts on the previous bank; REVERTED, source 498. The hub enters
M3 from where it can, and thaws to M4; a falling set goes on in M8. (DESIGN CHOICE, log 211.) -/
def State.trialRevert (s : State) : State :=
  let s := s.freezeNow.mainOff
  let s := if s.mode = 8 then s else { (s.setMode 3) with glb := { (s.setMode 3).glb with back := 4 } }
  State.bootBank s.mainOn

/-- The boot path authenticates the bank it started on: a trial bank that fails reverts (R597); of the two banks the active one comes
first, then the other, which becomes active (R595). With neither the Steward stays in reset and NO_FW sets. (DEDUCED, log 100.) -/
def execStewardReady (s : State) : Out :=
  event (if s.running && !s.on glbStewardReady && !s.on xNoFw then
      if s.bankGood s.bootedBank then s.stewardReady
      else if s.on xTrial then s.trialRevert
      else if s.bankGood (1 - s.rd xBank) then (s.onBank (1 - s.rd xBank)).stewardReady
      else s.wr xNoFw 1
    else s)

/-- The bound of R230 runs while the Steward does. -/
def execTrialRevert (s : State) : Out := event (if s.on xTrial && s.running && !s.on glbStewardReady then s.trialRevert else s)

def execStewardHalt (s : State) : Out := event (if s.running && s.rd xState != 2 then s.wr glbHalted 1 else s)
def execDebugHaltEnd (s : State) : Out := event (s.wr glbHalted 0)

/-! ### Wake sources and frames while asleep (R233 to R236, R256) -/

def execHostCsWake (n : Fin 4) (s : State) : Out := event (if s.bit glbWakeEn n && s.bankUp n then s.wake n else s)
def execI2cStartWake (n : Fin 2) (s : State) : Out := event (if s.bit glbWakeEn (4 + n) then s.wake (4 + n) else s)
def execCanRxdWake (n : Fin 2) (s : State) : Out := event (if s.bit glbWakeEn (6 + n) then s.wake (6 + n) else s)

def execStinWakeEdge (n : Fin 64) (rising : Bool) (s : State) : Out :=
  event (if s.htm.frozen && s.glb.mainUp && s.edgeSel n rising then s.stinAsleep n rising else s)

/-- A frame on a port whose bank is down is no frame (R734). -/
def execAsleepFrame (n : Fin 4) (s : State) : Out := event (if s.asleep && s.bankUp n then s.asleepFrame n else s)

end Sys2Proof.Machine
end

