-- ==== Sys2Proof/Machine/Hst.lean ====
section
/-! DEFINITION. The slot table, leases, pins, security and firmware (spec/13, spec/19). -/

namespace Sys2Proof.Machine

open F

/-! ### The slot table (R550 to R557) -/

/-- Two enabled slot words name one binding (R551). -/
def sameBinding (a b : Nat) : Bool :=
  (wordPort a).isSome && wordPort a == wordPort b &&
    (decide ((wordPort a).getD 0 < 6) || a / 2 ^ 18 % 256 == b / 2 ^ 18 % 256)

/-- A slot word names CAN node 0 or 255. -/
def badNode (w : Nat) : Bool := w / 2 ^ 28 % 4 == 2 && (w / 2 ^ 18 % 256 == 0 || w / 2 ^ 18 % 256 == 255)

/-- A binding that the table does not take (R551): CAN node 0 or 255, enabled or not; a second slot, or a port that does not exist.
(DEDUCED, log 96.) -/
def State.badBinding (s : State) (k w : Nat) : Bool :=
  badNode w || (wordPort w).isSome &&
    (w / 2 ^ 28 % 4 != 0 && decide (2 ≤ w / 2 ^ 26 % 4) || (List.range 15).any fun j => j != k && sameBinding w (s.slotWord j))

/-- SECLOCK "has read high for 10 ms" (R759). -/
def State.seclockOk (s : State) : Bool := decide (100 ≤ s.hst.seclock)

/-- A word for the slot table waits for the port; with no port it applies at once. -/
def State.holdSlot (s : State) (k key w : Nat) : State :=
  let s := { s with hst := { s.hst with bind := Assoc.place key (w % 2 ^ 32) (Assoc.erase key s.hst.bind) } }
  if (s.slotPorts k).isEmpty then s.applySlot k else s

/-- A write of HST_SLOT[k] (R551, R557, R560, R766). (DEDUCED, log 95.) -/
def opSlotWrite (slot : Slot) (k v : Nat) (s : State) : Res :=
  let l := slotWrFlds k
  let cur := s.slotWord k
  let w := if k = 15 then v &&& 0x8003FFF0 ||| 0x20000000 else v &&& 0xFFFFFFF0
  if !s.secure slot.val then
    if l.any (fun f => f.ofWord w != f.ofWord cur) then (.secureOnly, s) else (.done, s)
  else if anyReserved w l then (.reservedEncoding, s)
  else if (hWake k).ofWord w = 1 ∧ (w / 2 ^ 28 % 4 ≠ 0) then (.reservedEncoding, s)
  else if (hSecure k).ofWord w ≠ (hSecure k).ofWord cur ∧ !s.seclockOk then (.notInMode, s)
  else if k ≠ 15 ∧ s.badBinding k w then (.outOfRange, s)
  else (.done, s.holdSlot k k w)

def execSlotWrite (slot : Slot) (k : Fin 16) (value : Word) (s : State) : Out := host slot s (opSlotWrite slot k.val value.toNat)

/-- A write of HST_SLOTX[k]. -/
def opSlotXWrite (slot : Slot) (k v : Nat) (s : State) : Res :=
  let l := slotXFlds k
  if !s.secure slot.val then
    if l.any (fun f => f.ofWord v != f.ofWord (s.slotXWord k)) then (.secureOnly, s) else (.done, s)
  else if anyReserved v l then (.reservedEncoding, s)
  else (.done, s.holdSlot k (16 + k) (v &&& 0xFCFFFFFF))

/-! ### Leases (R585 to R588) -/

/-- A lease passes to a slot for `d` ms. -/
def State.grantLease (s : State) (slot id d : Nat) : State :=
  let s := { s with hst := { s.hst with leaseDur := Assoc.put 0 id d s.hst.leaseDur } }
  (s.wr (hOwner id) slot).wr (hLeft id) d

/-- A write of `d` to sub 2 of entry 0x1220 + id (R554, R585). (DEDUCED, log 92; DEDUCED, log 93.) -/
def opLease (slot : Slot) (id d : Nat) (s : State) : Res :=
  if !isLeaseId id then (.noSuchIndex, s)
  else if d = 2 ^ 32 - 1 ∧ s.secure slot.val then
    if s.owner id = 0x1F then (.alreadyDone, s)
    else (.done, s.endLease id)
  else if d = 0 then
    if s.owner id = slot.val then (.done, s.endLease id)
    else if s.owner id = 0x1F then (.alreadyDone, s)
    else (.ownedElsewhere, s)
  else if d < 10 ∨ 60000 < d then (.outOfRange, s)
  else if slot.val = 15 then (.notInMode, s)
  else if s.owner id = 0x1F ∨ s.owner id = slot.val then (.done, s.grantLease slot.val id d)
  else (.ownedElsewhere, s.hostEvt 3)

def execLeaseClaim (slot : Slot) (id : Fin 160) (duration : Word) (s : State) : Out :=
  hostDict slot s (opLease slot id.val duration.toNat)
def execLeaseRelease (slot : Slot) (id : Fin 160) (s : State) : Out := hostDict slot s (opLease slot id.val 0)
def execLeaseBreak (slot : Slot) (id : Fin 160) (s : State) : Out := hostDict slot s (opLease slot id.val (2 ^ 32 - 1))

/-- A lease's count reaches 0 (R586, R588): it ends, and source 442 is raised. -/
def State.leaseOut (s : State) (id : Nat) : State := if s.owner id = 0x1F then s else (s.endLease id).hostEvt 2

/-- (DESIGN CHOICE, log 2.) -/
def execLeaseExpiry (id : Fin 160) (s : State) : Out := event (if s.running then s.leaseOut id.val else s)

/-- A 1 ms step of Hub Time for one lease (R586). -/
def State.leaseMs (s : State) (id : Nat) : State :=
  if s.owner id = 0x1F then s
  else if s.rd (hLeft id) ≤ 1 then s.leaseOut id
  else s.wr (hLeft id) (s.rd (hLeft id) - 1)

/-! ### Pins (R589 to R592) -/

/-- The lease that the block function of a pin needs (R590). -/
def pinLease (p : Nat) : Nat :=
  if p < 32 then idTou p else if p < 80 then idMill ((p - 32) / 3) else idTimer ((p - 80) / 2)

/-- A FUNC value that the pin does not have. -/
def pinReserved (p func : Nat) : Bool := if 112 ≤ p then func == 1 else func == 2 || func == 3

/-- A write of PIN_CFG[p]; a ball that its block did not see before is seen at its level, without a transition (R383, R427). (DEDUCED,
log 142.) -/
def opPinWrite (slot : Slot) (p v : Nat) (s : State) : Res :=
  let func := (pinFunc p).ofWord v
  if pinReserved p func || anyReserved v [pinPull p] then (.reservedEncoding, s)
  else if s.rd (pinOwner p) ≠ slot.val ∧ s.rd (pinOwner p) ≠ 0x1F then (.ownedElsewhere, s)
  else if func ≠ 0 ∧ slot.val = 15 then (.notInMode, s)
  else if func = 1 ∧ s.owner (pinLease p) ≠ slot.val then (.notInMode, s)
  else if func = 3 ∧ !s.secure slot.val then (.secureOnly, s)
  else
    let new := func = 1 ∧ s.rd (pinFunc p) ≠ 1
    let s := (s.applyFlds v [pinPull p, pinFunc p, pinDir p, pinOut p]).wr (pinOwner p) (if func = 0 then 0x1F else slot.val)
    (.done, if new then if 80 ≤ p then (s.pinSees p).gates 16 else s.pinSees p else s)

def execPinClaim (slot : Slot) (p : Fin 176) (value : Word) (s : State) : Out := hostReg slot s (opPinWrite slot p.val value.toNat)
def execPinRelease (slot : Slot) (p : Fin 176) (value : Word) (s : State) : Out := hostReg slot s (opPinWrite slot p.val value.toNat)

/-- The GPIO is a wake output that a slot drives low (R560). -/
def State.gpioWakes (s : State) (g : Nat) : Bool :=
  (List.range 16).any fun k => s.on (hWaking k) && s.rd (hWake k) == 2 && s.rd (hWgpio k) == g

/-- The level the hub drives on a pin, if it drives it (R379, R443, R560, R591, R592). -/
def State.pinDriven (s : State) (p : Nat) : Option Bool :=
  let f := s.rd (pinFunc p)
  if 112 ≤ p then
    if f = 2 ∧ s.on (pinDir p) then some (s.on (pinOut p))
    else if f = 3 ∧ s.gpioWakes (p - 112) then some false
    else none
  else if f = 1 ∧ s.rd (pinOwner p) = s.owner (pinLease p) then
    if p < 32 then some (s.on (oLevel p))
    else if p < 80 then none
    else if s.gon (gPdir ((p - 80) / 2) ((p - 80) % 2)) then some (s.gtOut ((p - 80) / 2) ((p - 80) % 2) == 1) else none
  else none

/-- The level at a ball, where the hub knows it: what it drives, or what a mill or a timer sees there. -/
def State.pinLevel (s : State) (p : Nat) : Option Bool :=
  match s.pinDriven p with
  | some b => some b
  | none =>
    if 32 ≤ p ∧ p < 80 then some ((s.mill ((p - 32) / 3)).ball.testBit ((p - 32) % 3))
    else if 80 ≤ p ∧ p < 112 then some (s.rd (gPin ((p - 80) / 2) ((p - 80) % 2)) == 1)
    else none

/-- The balls whose level may differ from what an unlisted one has: those of mills and timers, and those with a FUNC. -/
def State.pinsUsed (s : State) : List Nat :=
  (s.mil.mills.flatMap fun kx => [32 + 3 * kx.1, 33 + 3 * kx.1, 34 + 3 * kx.1]) ++ (List.range 32).map (80 + ·) ++
    ((List.range 176).filter fun p => (decide (p < 32) || decide (112 ≤ p)) && s.rd (pinFunc p) != 0)

/-- Their levels. -/
def State.pinLevels (s : State) : List (Nat × Bool) :=
  s.pinsUsed.filterMap fun p => match s.pinLevel p with
    | some b => if b || decide (p < 32) || decide (112 ≤ p) then some (p, b) else none
    | none => none

/-- One cycle of the synchroniser of PIN_CFG.IN (R592). -/
def State.pinSync (s : State) : State := { s with hst := { s.hst with sync1 := s.pinLevels, sync2 := s.hst.sync1 } }

/-- The level of a ball behind the synchroniser: none where the hub does not know it. -/
def State.pinSeen (s : State) (p : Nat) : Option Bool :=
  match Assoc.find p s.hst.sync2 with
  | some b => some b
  | none => if 32 ≤ p ∧ p < 112 then some false else none

/-! ### Security and firmware (R593 to R597, R759) -/

def State.secEvt (s : State) (i : Nat) : State := s.setBits xEvt (2 ^ i)

/-- A write of SEC_KEYHASH[i] (R593). (DEDUCED, log 99.) -/
def opKeyhashWrite (slot : Slot) (i v : Nat) (s : State) : Res :=
  if !s.secure slot.val then if v = s.rd (xKeyHash i) then (.done, s) else (.secureOnly, s)
  else if s.rd xState ≠ 0 ∨ !s.seclockOk then (.notInMode, s)
  else
    let s := { (s.wr (xKeyHash i) v) with hst := { s.hst with keyMask := s.hst.keyMask ||| 2 ^ i } }
    (.done, if s.hst.keyMask = 0xFF then (s.wr xState 1).secEvt 1 else s)

def execKeyhashWrite (slot : Slot) (i : Fin 8) (value : Word) (s : State) : Out := host slot s (opKeyhashWrite slot i.val value.toNat)

/-- A write of SEC_CMD (R594): a word without LOCK does nothing. -/
def opLock (slot : Slot) (v : Nat) (s : State) : Res :=
  if v / 2 ^ 24 % 256 ≠ 0x4C then (.reservedEncoding, s)
  else if v % 2 = 0 then (.done, s)
  else secureOnly slot s <|
    if s.rd xState ≠ 1 ∨ !s.seclockOk then (.notInMode, s) else (.done, (s.wr xState 2).secEvt 2)

def execLock (slot : Slot) (value : Word) (s : State) : Out := host slot s (opLock slot value.toNat)

/-- A write of SEC_FWCMD (R596). -/
def opFw (slot : Slot) (op : Nat) (s : State) : Res :=
  if op < 1 ∨ 3 < op then (.reservedEncoding, s)
  else if !s.secure slot.val ∨ s.mode ≠ 10 then (.notInMode, s)
  else if s.on xFwBusy then (.busy, s)
  else (.accepted, State.wr { s with hst := { s.hst with fwOp := op } } xFwBusy 1)

def execVerify (slot : Slot) (s : State) : Out := host slot s (opFw slot 1)
def execInstall (slot : Slot) (s : State) : Out := host slot s (opFw slot 2)
def execActivate (slot : Slot) (s : State) : Out := host slot s (opFw slot 3)

/-- The bytes of the image at an offset of the Shared Buffer whose body has `len` bytes. -/
def State.imageBytes (s : State) (o len : Nat) : List Nat := (List.range (256 + len)).map fun i => (s.sbyte (o + i)).toNat

/-- What the hub finds of the image at SEC_FWOFS (R595, R596). (DEDUCED, log 100.) -/
def State.imageResult (s : State) : Code :=
  let o := s.rd xFwOfs
  let len := s.sword (o + 8)
  if 0x100000 < o + 256 then .outOfRange
  else if s.sword o ≠ 0x53545744 then .reservedEncoding
  else if len % 4 ≠ 0 ∨ len < 4 ∨ 261888 < len ∨ 0x100000 < o + 256 + len then .outOfRange
  else if s.sword (o + 4) < s.rd xMinVer then .outOfRange
  else if s.imageSigned (s.imageBytes o len) then .done else .badCrc

/-- A bank takes an image. -/
def State.setBank (s : State) (b : Nat) (img : BankImg) : State :=
  { s with hst := { s.hst with banks := Assoc.put .factory b img s.hst.banks } }

/-- The image at SEC_FWOFS. -/
def State.fwImage (s : State) : List Nat := s.imageBytes (s.rd xFwOfs) (s.sword (s.rd xFwOfs + 8))

/-- A firmware operation completes (R596): INSTALL writes the image to the inactive bank; DONE, RESULT, source 498. -/
def State.fwOpDone (s : State) : State :=
  let r : Code := if s.hst.fwOp = 3 then Code.done else s.imageResult
  let s := match s.hst.fwOp with
    | 2 => if r = Code.done then s.setBank (1 - s.rd xBank) (.image s.fwImage) else s
    | 3 => { s with hst := { s.hst with trialNext := true } }
    | _ => s
  let s := { s with hst := { s.hst with fwOp := 0 } }
  (((s.wr xFwBusy 0).wr xFwDone 1).wr xFwResult r.val).latch 498

def execFwOpDone (_row : Unit) (s : State) : Out := event (if s.on xFwBusy then s.fwOpDone else s)

/-- A sample of SECLOCK (R759): 100 consecutive high samples make the 10 ms. -/
def State.seclockSample (s : State) (high : Bool) : State :=
  let changed := s.on xSeclock != high
  let s := { s with hst := { s.hst with seclock := if high then min (s.hst.seclock + 1) 100 else 0 } }
  let s := s.wr xSeclock high.toNat
  if changed then s.secEvt 3 else s

def execSeclockSample (high : Bool) (s : State) : Out := event (if 2 ≤ s.mode ∧ s.mode ≤ 10 then s.seclockSample high else s)

end Sys2Proof.Machine
end

