-- ==== Sys2Proof/Machine/CanCtl.lean ====
section
/-! DEFINITION. The control of the CAN ports (spec/14): enabling, bus-off and its recovery, TIMEMARK and HEARTBEAT, transmit items. -/

namespace Sys2Proof.Machine

open F

/-- A flag of CAN_EVT[p]. -/
def State.canEvt (s : State) (p i : Nat) : State := s.setBits (nEvt p) (2 ^ i)

/-- The nominal and the data bit time in MCLK cycles (R627). -/
def State.nomBit (s : State) (p : Nat) : Nat := (s.rd (nNBrp p) + 1) * (3 + s.rd (nNTseg1 p) + s.rd (nNTseg2 p))
def State.datBit (s : State) (p : Nat) : Nat := (s.rd (nDBrp p) + 1) * (3 + s.rd (nDTseg1 p) + s.rd (nDTseg2 p))

/-- The bounds of R627: 1,000 to 8,000 ns, and 200 ns to the nominal bit time. -/
def State.bitTimesOk (s : State) (p : Nat) : Bool :=
  decide (250 ≤ s.nomBit p) && decide (s.nomBit p ≤ 2000) && decide (50 ≤ s.datBit p) && decide (s.datBit p ≤ s.nomBit p)

/-- ESTATE changes (R626). -/
def State.setEstate (s : State) (p e : Nat) : State :=
  if s.rd (nEstate p) = e then s else (s.wr (nEstate p) e).canEvt p 0

/-- The hub's frames that wait on port p are discarded (R630, R638). -/
def State.canDiscard (s : State) (p : Nat) : State :=
  if (s.canPort p).tmWait.isEmpty then s
  else ((s.setCanPort p { s.canPort p with tmWait := [] }).canEvt p 2).canEvt p 7

/-- A port that leaves hardware mode serves and sends nothing of the protocol (R648): the requests that it carried are dropped, and its
waiting TIMEMARKs discarded. (DEDUCED, log 194.) -/
def State.canQuit (s : State) (p : Nat) : State :=
  let mine := fun (j : DictJob) => match j.can with | some r => r.port == p | none => false
  State.canDiscard { s with hst := { s.hst with jobs := s.hst.jobs.filter fun kj => !mine kj.2 } } p

/-- The fields of CAN_CTRL[p]. -/
def canCtrlFlds (p : Nat) : List Fld := [nEn p, nMode p, nFdEn p, nBrsEn p, nAutoRecov p, nMonitor p, nTdcEn p, nNode p]

/-- The controller starts or stops with EN. (DEDUCED, log 119.) -/
def State.canSwitch (s : State) (p : Nat) (was : Bool) : State :=
  if s.on (nEn p) && !was then
    (((s.setCanPort p { s.canPort p with recov := false }).wr (nTec p) 0).wr (nRec p) 0).setEstate p 0
  else if was && !s.on (nEn p) then (s.canDiscard p).setEstate p 4
  else s

/-- A write of CAN_CTRL[p] (R627). -/
def opCanCtrl (slot : Slot) (p v : Nat) (s : State) : Res :=
  match s.wordRefused slot.val v (canCtrlFlds p) with
  | some c => (c, s)
  | none =>
    if (nEn p).ofWord v = 1 ∧ !s.bitTimesOk p then (.reservedEncoding, s)
    else
      let t := (s.wrWord v (canCtrlFlds p)).canSwitch p (s.on (nEn p))
      (.done, if t.on (nMode p) && !s.on (nMode p) then t.canQuit p else t)

def execCanEnable (slot : Slot) (p : Fin 2) (value : Word) (s : State) : Out := host slot s (opCanCtrl slot p.val value.toNat)

/-- RECOVER (R630). -/
def opRecover (_slot : Slot) (p : Nat) (s : State) : Res :=
  if s.rd (nEstate p) = 3 then (.done, s.setCanPort p { s.canPort p with recov := true }) else (.alreadyDone, s)

def execRecover (slot : Slot) (p : Fin 2) (s : State) : Out := host slot s (opRecover slot p.val)

/-- A TIMEMARK is queued to broadcast (R636, R639). -/
def State.timemark (s : State) (p : Nat) : State :=
  let x := s.canPort p
  let w0 := s.qual false * 2 ^ 30 + s.rd cLeapSoon * 2 ^ 29 + s.rd cTaiUtc * 2 ^ 16 + s.rd htmStepGen * 2 ^ 8
  let s := s.canPost p 0 0 x.tmSeq [w0, s.rd (nTmPeriod p)]
  s.setCanPort p { s.canPort p with tmSeq := (x.tmSeq + 1) % 512, tmWait := x.tmWait ++ [x.tmSeq] }

/-- TM_NOW: NOT_IN_MODE on a port that does not speak the protocol (R636, R648). -/
def opTmNow (_slot : Slot) (p : Nat) (s : State) : Res := if s.canTalks p then (.done, s.timemark p) else (.notInMode, s)

def execTmNow (slot : Slot) (p : Fin 2) (s : State) : Out := host slot s (opTmNow slot p.val)

/-- CAN_CMD[p] (R649). -/
def opCanCmd (slot : Slot) (p v : Nat) (s : State) : Res :=
  match v % 4 with
  | 1 => opRecover slot p s
  | 2 => opTmNow slot p s
  | _ => (.reservedEncoding, s)

/-- Hub Time `t`, reached in a cycle, is the instant of a TIMEMARK (R636): whole TM_PERIODs since the epoch, plus TM_OFS. -/
def State.tmInstant (s : State) (p t : Nat) : Bool :=
  let ofs := s.rd (nTmOfs p) * 1000 * nsU
  decide (ofs ≤ t) && decide ((t - ofs) % (s.rd (nTmPeriod p) * 1000000 * nsU) < s.effIncr)

/-- A TIMEMARK is due in this cycle; a SET or STEP of the cycle comes first. -/
def State.tmDue (s : State) (p : Nat) : Bool :=
  s.tmInstant p s.htm.time || s.ended.any fun e => match e with | .moved was _ => s.tmInstant p was | _ => false

def execTimemark (p : Fin 2) (s : State) : Out :=
  event (if s.running && s.canTalks p && s.on (nTmEn p) && s.tmDue p then s.timemark p else s)

/-- The follow-up of the oldest TIMEMARK, which ended without error (R637, R638); CAN_LASTSOF and CAN_LASTSEQ show it. -/
def State.timemarkFu (s : State) (p seq sof : Nat) : State :=
  let ws := time96 (ofStamp (sof - s.rd (nRxDly p))) (s.qual false)
  let s := ws.zipIdx.foldl (fun s wi => s.wr (nLastSof p wi.2) wi.1) (s.wr (nLastSeq p) seq)
  (s.setCanPort p { s.canPort p with tmWait := (s.canPort p).tmWait.tail }).canPost p 1 0 seq (seq :: ws)

def execTimemarkFu (p : Fin 2) (sof : Stamp) (s : State) : Out :=
  event (match (s.canPort p).tmWait with
    | seq :: _ => if s.running && s.canTalks p then s.timemarkFu p seq sof else s
    | [] => s)

/-- A heartbeat, with the notes of what stays asserted (R640, R643, R645). -/
def State.heartbeat (s : State) (p : Nat) : State :=
  let x := s.canPort p
  let w0 := s.mode + s.rd glbStewardReady * 2 ^ 4 + s.rd htmTimeSet * 2 ^ 5 + s.rd dState * 2 ^ 6 + s.rd htmStepGen * 2 ^ 8
  let s := s.canPost p 6 0 x.hbSeq [w0, secOf s.htm.time % 2 ^ 32]
  let s := s.setCanPort p { s.canPort p with hbSeq := (x.hbSeq + 1) % 512 }
  s.canSlots.foldl (fun s k =>
    if s.rd (hPort k) % 2 = p then
      let s := if s.irq (s.rd (hTarget k)) then s.pendingDue k else s
      if s.attnMask k ≠ 0 then s.noteAttn k else s
    else s) s

def execHeartbeat (p : Fin 2) (s : State) : Out :=
  event (if s.running && s.canTalks p && s.rd (nHb p) != 0 then s.heartbeat p else s)

/-- Bus-off (R630): BUS_OFF, ESTATE, and the hub's waiting frames discarded; the controller runs with the main domain (R234). -/
def execBusOff (p : Fin 2) (s : State) : Out :=
  event (if s.running && s.canSends p then (((s.canDiscard p).setEstate p 3).canEvt p 1) else s)

/-- 128 occurrences of 11 recessive bits (R630): with AUTO_RECOV, or after RECOVER. -/
def execBusOffRecovery (p : Fin 2) (s : State) : Out :=
  event (if s.running && s.on (nEn p) && s.rd (nEstate p) == 3 && (s.on (nAutoRecov p) || (s.canPort p).recov) then
      (((s.setCanPort p { s.canPort p with recov := false }).wr (nTec p) 0).wr (nRec p) 0).setEstate p 0
    else s)

/-- Fault confinement moves the port (R626): its counters, and ESTATE 0 active, 1 warning or 2 passive. -/
def execEstateChg (p : Fin 2) (tec rec_ : Byte) (estate : Fin 3) (s : State) : Out :=
  event (if s.running && s.canSends p then (((s.wr (nTec p) tec.toNat).wr (nRec p) rec_.toNat).setEstate p estate.val) else s)

/-! ### Transmit items (R646, R647) -/

/-- The receive and the transmit ring of a port. -/
def canRx (p : Nat) : Nat := 32 + 2 * p
def canTx (p : Nat) : Nat := 33 + 2 * p

/-- F0 of a frame item. -/
def canF0 (esi brs fdf : Bool) (id : Nat) : Nat := esi.toNat * 2 ^ 31 + brs.toNat * 2 ^ 30 + fdf.toNat * 2 ^ 29 + id

/-- An item of a CAN receive ring: TAG 1 a frame, 2 a report. -/
def canItem (tag f0 len : Nat) (sof : List Nat) (data : List Nat) : List Nat :=
  varItem tag (bytesOf ([f0, len] ++ sof) ++ data)

/-- A transmit item that R647 discards. -/
def State.canTxBad (s : State) (p tag len f0 n : Nat) : Bool :=
  tag != 1 || !canLens.contains n || len != 20 + n || (!f0.testBit 29 && decide (8 < n)) || (f0.testBit 30 && !f0.testBit 29) ||
    (!s.on (nMode p) && f0 / 2 ^ 9 % 256 == s.rd (nNode p))

/-- A published transmit item is sent, and a report follows; or it is discarded. An FD frame carries ESI where the port is error-passive, or
the item sets it. (DEDUCED, log 195.) -/
def State.canTxItem (s : State) (p sof : Nat) : State :=
  let r := canTx p
  let i := s.rd (rRidx r)
  let w := s.ringWord r i
  let ws := s.ringGet r (i + 4) ((w % 2 ^ 16 + 3) / 4)
  let f0 := ws.headD 0
  let n := ws.getD 1 0 % 2 ^ 7
  let s1 := s.wr (rRidx r) (i + s.itemSize r i)
  if s.canTxBad p (w / 2 ^ 24) (w % 2 ^ 16) f0 n then (s1.bump (nTxBad p)).canEvt p 6
  else
    let esi := s.canEsi p (f0.testBit 29) || f0.testBit 29 && f0.testBit 31
    let f : CanOut := { id := f0 % 2 ^ 29, esi := esi, fdf := f0.testBit 29, brs := f0.testBit 30, data := ((bytesOf ws).drop 20).take n }
    (s1.canSend p f).give (canRx p)
      (canItem 2 (canF0 esi f.brs f.fdf f.id) n (time96 (ofStamp (sof - s.rd (nRxDly p))) (s.qual false)) [])

def execCanTxItem (p : Fin 2) (sof : Stamp) (s : State) : Out :=
  event (if s.running && s.canSends p && s.on (rEn (canTx p)) &&
      decide (4 ≤ s.fill (canTx p)) && decide (s.itemSize (canTx p) (s.rd (rRidx (canTx p))) ≤ s.fill (canTx p)) then s.canTxItem p sof
    else s)

end Sys2Proof.Machine
end

