-- ==== Sys2Proof/Machine/RegRead.lean ====
section
/-! DEFINITION. Reading a register (spec/00, R3 to R11): the fields of the register map, the live views, and what a read does. -/

namespace Sys2Proof.Machine

open F


/-- A fixed image of GLB's identity registers (spec/14). -/
def State.identity (s : State) (a : Nat) : Option Nat :=
  match a with
  | 0x00 => some 0x4C45524B
  | 0x04 => some 0x00009610
  | 0x08 => some 0x0A01
  | 0x0C => some (Config.serial % 2 ^ 32)
  | 0x10 => some (Config.serial / 2 ^ 32 % 2 ^ 32)
  | 0x14 => some (Config.eui % 2 ^ 32)
  | 0x18 => some (Config.eui / 2 ^ 32 % 2 ^ 32)
  | 0x1C => some (s.rd xVer)
  | _ => none

/-- HTM's live views (R45, R49 to R52). -/
def State.htmView (s : State) (a : Nat) : Option Nat :=
  match a with
  | 0x020008 => some (s.htm.incrHeld.getD (s.htm.incr % 2 ^ 32))
  | 0x02000C => some (s.htm.incr / 2 ^ 32)
  | 0x020034 => some (toBits 32 s.slewLeftNs)
  | 0x020040 => some (s.rd htmStepGen * 2 ^ 16 + secOf s.htm.time / 2 ^ 32)
  | 0x020044 => some (secOf s.htm.time % 2 ^ 32)
  | 0x020048 => some (nsOf s.htm.time)
  | 0x02004C => some (secOf s.htm.time % 2 ^ 32)
  | 0x020050 => some (s.rd htmStepGen * 2 ^ 16 + secOf s.htm.time / 2 ^ 32)
  | 0x020054 => some (fracOf s.htm.time)
  | 0x020160 => some (s.trm.base % 2 ^ 32)
  | 0x020164 => some (s.trm.base / 2 ^ 32)
  | _ => none

/-- The PRED words of an entry: KIND 0 repeats the target as it was written. -/
def State.predWords (s : State) (n e : Nat) : Nat × Nat :=
  if s.on (oKind n e) then
    let p := (s.touEnt n e).pred.getD 0
    (secOf p % 2 ^ 32, nsOf p)
  else (s.rd (oW1 n e), s.rd (oNs n e))

/-- TOU's live views: STATE and PRED of an entry. -/
def State.touView (s : State) (o : Nat) : Option Nat :=
  if 0x1000 ≤ o ∧ o < 0x3000 then
    let n := (o - 0x1000) / 0x100
    let e := o / 0x20 % 8
    match o % 0x20 with
    | 0x00 => some (packWord s.rd [oAction n e, oKind n e, oMill n e] + s.rd (oState n e) * 2 ^ 29)
    | 0x18 => some (s.predWords n e).1
    | 0x1C => some (s.predWords n e).2
    | _ => none
  else none

/-- The head entry of a capture queue (R447). -/
def State.capHead (s : State) (n c : Nat) : CapEnt := ((Assoc.get [] c (s.gt n).caps).head?).getD { t := 0, qual := 0, count := 0 }

/-- The words of a capture channel: DEPTH, the head as quill words W1 to W3, and its count. -/
def State.capView (s : State) (n c i : Nat) : Option Nat :=
  let h := s.capHead n c
  match i with
  | 1 => some (Assoc.get [] c (s.gt n).caps).length
  | 2 => some ((time96 h.t h.qual).getD 0 0)
  | 3 => some ((time96 h.t h.qual).getD 1 0)
  | 4 => some ((time96 h.t h.qual).getD 2 0)
  | 5 => some (h.count % 2 ^ 32)
  | 6 => some (h.count / 2 ^ 32)
  | _ => none

/-- A timer's live views (R436, R454), with the levels at its balls. (DEDUCED, log 143.) -/
def State.gtView (s : State) (o : Nat) : Option Nat :=
  let n := o / 0x100
  let b := o % 0x100
  let k := (b - 0x40) / 0x10
  if 0x1000 ≤ o then none
  else if b = 0x20 then some (s.gtState n + s.gtBall n 0 * 2 ^ 4 + s.gtBall n 1 * 2 ^ 5)
  else if b = 0x30 ∨ b = 0x3C then some ((s.gt n).count / 2 ^ 32)
  else if b = 0x34 ∨ b = 0x38 then some ((s.gt n).count % 2 ^ 32)
  else if 0x40 ≤ b ∧ b < 0x80 ∧ b % 0x10 = 4 then some ((Assoc.find k (s.gt n).held).getD (s.gtCmp n k % 2 ^ 32))
  else if 0x40 ≤ b ∧ b < 0x80 ∧ b % 0x10 = 8 then some (s.gtCmp n k / 2 ^ 32)
  else if 0x84 ≤ b ∧ b < 0xC0 then s.capView n ((b - 0x80) / 0x20) (b % 0x20 / 4)
  else none

/-- The event controller's live views (R473, R487). -/
def State.icuView (s : State) (o : Nat) : Option Nat :=
  if 0x100 ≤ o ∧ o < 0x200 then
    match o % 0x20 with
    | 0x04 => some (s.tgtStat ((o - 0x100) / 0x20))
    | 0x1C => some (s.runPrioWord ((o - 0x100) / 0x20))
    | _ => none
  else if 0x400 ≤ o ∧ o < 0x500 then
    let p := match (o - 0x400) / 0x40 with | 0 => s.raised | 1 => s.pendingAny | 2 => s.queued | _ => s.active
    some (sourceWord p (o % 0x40 / 4))
  else none

/-- A mailbox's live views (R530, R543, R546). -/
def State.mbxView (s : State) (slot o : Nat) : Option Nat :=
  if o < 0x800 then
    match o % 0x20 with
      | 0x10 => some (s.rxid (o / 0x20))
      | 0x14 => some (s.rx1 (o / 0x20))
      | _ => none
  else if o = 0x800 then some (s.attnMask slot % 2 ^ 32)
  else if o = 0x804 then some (s.attnMask slot / 2 ^ 32)
  else none

/-- The partner engine's live views. -/
def State.ptnView (s : State) (slot o : Nat) : Option Nat :=
  if o = 0x80 then some s.ptnStatus
  else if o = 0x90 then some (Assoc.get 0 slot s.ptn.wsel)
  else if 0xA0 ≤ o ∧ o < 0xD0 then some ((Assoc.get [] slot s.ptn.wins).getD ((o - 0xA0) / 4) 0)
  else none

/-- HST's views: slot words (R557), the strapped I2C address (R576). -/
def State.hstView (s : State) (o : Nat) : Option Nat :=
  if o < 0x100 ∧ o % 16 = 0 then some (s.slotWord (o / 16))
  else if o < 0x100 ∧ o % 16 = 4 then some (s.slotXWord (o / 16))
  else if o = 0x248 ∨ o = 0x258 then some (0x4C + s.hst.boot % 4)
  else none

/-- What an address reads, where no field holds it. -/
def State.liveWord (s : State) (slot a : Nat) : Option Nat :=
  let o := a % 2 ^ 16
  match a / 2 ^ 16 with
  | 0x00 => s.identity a
  | 0x02 => s.htmView a
  | 0x06 => s.touView o
  | 0x07 => s.gtView o
  | 0x08 => if o < 0x1000 ∧ o % 0x100 = 0x60 then some (s.rd (lSt (o / 0x100) 0)) else none
  | 0x0A => if o = 0x0C then some s.mon.head else if o = 0x10 then some s.mon.seq else if o = 0x14 then some s.logCount else none
  | 0x0B => s.icuView o
  | 0x0C => s.mbxView slot o
  | 0x0D => if 0x100 ≤ o ∧ o < 0x1C0 then some (s.fill ((o - 0x100) / 4)) else none
  | 0x0E => s.ptnView slot o
  | 0x10 => s.hstView o
  | _ => none

/-- Live bits beside the fields of a register: PLAN_DIRTY, QUEUED, UNCAL_ANY, LEVEL. -/
def State.liveBits (s : State) (a : Nat) : Nat :=
  let o := a % 2 ^ 16
  if a = 0x090004 then bitIf (s.differs qa planFlds) 11
  else if a = 0x0A0004 then min 3 s.mon.queue.length * 2 ^ 3 + s.mon.writing.isSome.toNat * 2 ^ 5
  else if a = 0x050C00 then bitIf (s.rd (sUncal 0) != 0 || s.rd (sUncal 1) != 0) 0
  else if 0x070000 ≤ a ∧ a < 0x071000 ∧ o % 0x100 = 0x20 then bitIf (s.differs ga (timerFlds (o / 0x100))) 6
  else if 0x0D1000 ≤ a ∧ a < 0x0D1600 ∧ o % 0x20 = 0x18 then bitIf (s.ringLevel ((o - 0x1000) / 0x20)) 0
  else 0

/-- The word at an address outside the keep window, the Shared Buffer and the NVL window. -/
def State.peekWord (s : State) (slot a : Nat) : Nat := (s.liveWord slot a).getD (packWord s.rd (fldsAt a)) + s.liveBits a

/-! ### The keep window (R106, R107) -/

/-- A word of the keep window's mirror; KEEP_WIN_STATUS is read directly. -/
def State.keepPeek (s : State) (a : Nat) : Nat :=
  match a with
  | 0x010004 => packWord s.mrd (keepFlds a) + min 8 s.keep.mFifo * 2 ^ 8
  | 0x010008 => packWord s.rd [kOscFail, kOscRunning, kBusy]
  | 0x010010 => s.keep.mCount / 2 ^ 32
  | 0x010014 => s.keep.mCount % 2 ^ 32
  | 0x010018 => s.keep.mCount % 2 ^ 32
  | 0x01001C => s.keep.mCount / 2 ^ 32
  | 0x010020 => s.keep.mF / 2 ^ 10
  | _ => packWord s.mrd (keepFlds a)

/-- The counts of KEEP_KSLOST clear with the read (R11). -/
def State.keepRead (s : State) (a : Nat) : State :=
  if a = 0x010204 then
    let s := (List.range 4).foldl (fun s n => s.wr (kKslost n) 0) s
    { s with keep := { s.keep with mirror := s.keep.mirror.filter fun kv => kv.1 / 32 != 0x010204 } }
  else s

/-! ### A read -/

/-- The RC fields of a register clear (R11). -/
def State.clearRc (s : State) : List Fld → State
  | [] => s
  | f :: t => State.clearRc (if f.ty == .rc then s.wr f 0 else s) t

/-- What a read does beside its RC fields: STP_LAST is read (R352), MBX_RXID's REFUSED clears. -/
def State.readTouch (s : State) (a : Nat) : State :=
  let o := a % 2 ^ 16
  if 0x050800 ≤ a ∧ a < 0x050C00 ∧ o % 16 = 8 then
    let n := (o - 0x800) / 16
    s.setStin n { s.stin n with unread := false }
  else s

/-- A region of the Shared Buffer refuses a slot (R503). -/
def State.regionRefused (s : State) (slot ofs : Nat) (mask : Nat → Fld) : Option Code :=
  let k := ofs / 0x4000
  if !s.secure slot && s.on (sbufSecure k) then some .secureOnly
  else if !(s.rd (mask k)).testBit slot then some .ownedElsewhere
  else none

/-- PIN_CFG[p]: IN shows the ball through the synchroniser; the level of a ball that neither the hub drives nor a block of it watches is
free (R592). (DESIGN CHOICE, log 98.) -/
def State.pinRead (s : State) (p a : Nat) : Nat × State :=
  let w := packWord s.rd ((fldsAt a).filter fun f => f != pinIn p)
  match s.pinSeen p with
  | some b => (w + bitIf b 26, s)
  | none => let (v, s) := s.draw; (w + v % 2 * 2 ^ 26, s)

/-- The lease that an address's register belongs to (R180, R414, R462, R686, R719, the lease table of spec/13). -/
def leaseOfAddr (a : Nat) : Option Nat :=
  let o := a % 2 ^ 16
  match a / 2 ^ 16 with
  | 0x06 =>
    if o < 0x200 then some (idTou (o / 16)) else if o < 0x280 then some (idTou ((o - 0x200) / 4))
    else if 0x1000 ≤ o ∧ o < 0x3000 then some (idTou ((o - 0x1000) / 0x100)) else none
  | 0x07 =>
    if o < 0x1000 then some (idTimer (o / 0x100)) else if o < 0x2000 then some (idTimer ((o - 0x1000) / 0x100)) else none
  | 0x08 =>
    if o < 0x1000 then some (idMill (o / 0x100)) else if o < 0x1200 then some (idMill ((o - 0x1000) / 0x20)) else none
  | 0x09 => if planFlds.any fun f => f.addr == a || f.addr + 0x800 == a then some idPlan else none
  | 0x0F =>
    if o < 0x8000 then some (idRadio (o / 0x1000)) else if o < 0x9000 then some (idSweep ((o - 0x8000) / 0x40))
    else if 0xA000 ≤ o ∧ o < 0xB000 then some (idSweep ((o - 0xA000) / 0x40)) else none
  | _ => none

/-- The address holds a register of a block (R9). -/
def State.implemented (s : State) (slot a : Nat) : Bool := !(fldsAt a).isEmpty || (s.liveWord slot a).isSome || commandReg a

/-- Every access from the owner to a leased resource's registers renews the lease (R586). -/
def State.touchAddr (s : State) (slot a : Nat) : State :=
  match leaseOfAddr a with
  | some id => if s.implemented slot a then s.touch slot id else s
  | none => s

/-- The channel of the mailbox register at an address (R527). -/
def mbxChan (a : Nat) : Option Nat := if 0x0C0000 ≤ a ∧ a < 0x0C0800 then some (a % 0x800 / 0x20) else none

/-- The registers of a channel that the slot does not see are unimplemented to it (R530). -/
def State.hidden (s : State) (slot a : Nat) : Bool :=
  match mbxChan a with
  | some c => !s.chanSeen slot c
  | none => false

/-- A read of one register word: its result, the state after, and the word (R4, R9, R11). -/
def readReg (slot : Slot) (a : Nat) (s0 : State) : Code × State × Nat :=
  let o := a % 2 ^ 16
  let s := s0.touchAddr slot.val a
  if a % 4 ≠ 0 then (.noSuchAddress, s0, 0)
  else if 0x010000 ≤ a ∧ a < 0x020000 then (.done, s.keepRead a, s.keepPeek a)
  else if 0x400000 ≤ a ∧ a < 0x500000 then
    match s.regionRefused slot.val (a - 0x400000) sbufRd with
    | some c => (c, s, 0)
    | none => (.done, s, s.sword (a - 0x400000))
  else if 0x500000 ≤ a ∧ a < 0x540000 then (.done, s, s.logRead ((a - 0x500000) / 4))
  else if s.hidden slot.val a then (.done, s, 0)
  else if 0x0B0100 ≤ a ∧ a < 0x0B0200 ∧ o % 0x20 = 8 then
    let r := opClaim slot ((o - 0x100) / 0x20) s
    (r.1, r.2.1, r.2.2.headD 0)
  else if 0x0C0000 ≤ a ∧ a < 0x0C0800 ∧ o % 0x20 = 0x18 then
    opRx0Read slot (o / 0x20) s
  else if 0x070000 ≤ a ∧ a < 0x071000 ∧ (o % 0x100 = 0x98 ∨ o % 0x100 = 0xB8) then
    match s.capPop (o / 0x100) (o % 0x100 / 0x20 - 4) with
    | (some w, s1) => (.done, s1, w)
    | (none, s1) => (.empty, s1, 0)
  else if 0x120000 ≤ a ∧ a < 0x1202C0 then
    let (w, s1) := s.pinRead (o / 4) a
    (.done, s1, w)
  else (.done, (s.clearRc (fldsAt a)).readTouch a, s.peekWord slot.val a)

end Sys2Proof.Machine
end

