-- ==== Sys2Proof/Machine/RegWrite.lean ====
section
/-! DEFINITION. Writing a register (spec/00, R3 to R11, R766, R767): the plain rule of the type codes, and each block's own rules. -/

namespace Sys2Proof.Machine

open F

/-- The plain rule: unimplemented, refused, or every field under its type code; a live view ignores the write. -/
def writePlain (slot : Slot) (a v : Nat) (s : State) : Res :=
  let l := fldsAt a
  if l.isEmpty then
    if (s.liveWord slot.val a).isSome then (.done, s) else (.noSuchAddress, s)
  else match s.wordRefused slot.val v l with
    | some c => (c, s)
    | none => (.done, s.applyFlds v l)

/-- A command register: exactly one of the bits of `mask`, or a reserved encoding (R6, R65 and their like). -/
def oneOf (v mask : Nat) (s : State) (k : Nat → Res) : Res :=
  if oneCommand v mask then k (v &&& mask) else (.reservedEncoding, s)

/-! ### GLB, KEEP, HTM (spec/05, spec/02, spec/01, spec/06) -/

def writeGlb (slot : Slot) (a v : Nat) (s : State) : Res :=
  if a = 0x104 then
    oneOf v 7 s fun c => if c = 1 then opNap slot s else if c = 2 then opServiceEnter slot s else opServiceExit slot s
  else writePlain slot a v s

/-- KEEP_WIN_STATUS is a register of the main domain: OSC_FAIL clears there. (DEDUCED, log 45.) -/
def writeKeep (slot : Slot) (a v : Nat) (s : State) : Res :=
  if a = 0x010008 then (.done, if v.testBit 2 then s.wr kOscFail 0 else s)
  else if inKeepWindow a then opKeepWrite slot a v s
  else (.noSuchAddress, s)

/-- HTM_CMD (R65). -/
def htmCommand (slot : Slot) (c : Nat) (s : State) : Res :=
  if c = 1 then opSet slot s
  else if c = 2 then opStep slot s
  else if c = 4 then opCancelSet slot s
  else if c = 8 then opSelfCapture slot s
  else if c = 0x10 then opSlewStart slot s
  else if c = 0x20 then opSlewAbort slot s
  else opPlanSwitch slot s

/-- HTM_DCMD (R305). -/
def discCommand (slot : Slot) (c : Nat) (s : State) : Res :=
  if c = 1 then opDeclareLock slot s else if c = 2 then opDeclareUnlock slot s else opIntegClear slot s

/-- HTM_DCTRL: every register write of it writes DSRC (R294); an entry of another field of it does so only where DSRC changes.
(DEDUCED, log 56.) -/
def writeDctrl (src : Bool) (slot : Slot) (v : Nat) (s : State) : Res :=
  let r := writePlain slot 0x020100 v s
  if r.1 = Code.done ∧ (src ∨ s.rd dSrc ≠ r.2.rd dSrc) then
    let r := writePlain slot 0x020100 v s.discFlush
    (r.1, r.2.dsrcChanged)
  else r

def writeHtm (slot : Slot) (a v : Nat) (s : State) : Res :=
  if a = 0x020008 then opIncrLoWrite v s
  else if a = 0x02000C then opIncrHiWrite v s
  else if a = 0x020020 then oneOf v 0x13F s fun c => htmCommand slot c s
  else if a = 0x020108 then oneOf v 7 s fun c => discCommand slot c s
  else if a = 0x020120 ∧ s.secure slot.val ∧ v % 2 ^ 16 < v / 2 ^ 16 then (.reservedEncoding, s)
  else if a = 0x020100 then writeDctrl true slot v s
  else writePlain slot a v s

/-! ### CAL, TRM (spec/07, spec/06) -/

def writeCal (slot : Slot) (a v : Nat) (s : State) : Res :=
  let o := a % 2 ^ 16
  if a = 0x030008 then oneOf v 3 s fun c => if c = 1 then opCancelLocal slot s else opClkResync slot s
  else if a = 0x03003C then opLocalArm slot v s
  else if 0x100 ≤ o ∧ o < 0x180 then opLeapWrite slot ((o - 0x100) / 4) v s
  else if 0x200 ≤ o ∧ o < 0x300 ∧ o % 0x20 = 8 then opAlmCtrlWrite slot ((o - 0x200) / 0x20) v s
  else if 0x440 ≤ o ∧ o < 0x480 ∧ o % 0x10 = 4 then opHpNsWrite slot ((o - 0x440) / 0x10) v s
  else
    let r := writePlain slot a v s
    (r.1, if r.2.rd cLocalOfs ≠ s.rd cLocalOfs then r.2.localMoved else r.2.refsCheck)

/-- GMILL and GRADIUS restart the learning window when they are written (R279). -/
def writeTrm (slot : Slot) (a v : Nat) (s : State) : Res :=
  if a = 0x040008 then
    oneOf v 7 s fun c => if c = 1 then opKcalMeasure slot s else if c = 2 then opGlRestart slot s else opFold slot s
  else
    let r := writePlain slot a v s
    if r.1 = Code.done ∧ (a = 0x040028 ∨ a = 0x04002C) then (r.1, r.2.glDiscard) else r

/-! ### STP, TOU (spec/08) -/

/-- STP_CFG and STP_SKEW belong to the slots of the input's stamp group, and to secure slots. -/
def writeStp (slot : Slot) (a v : Nat) (s : State) : Res :=
  let o := a % 2 ^ 16
  if o < 0x400 ∧ o % 0x10 < 8 ∧ !s.secure slot.val ∧ s.rd (hStgrp slot.val) ≠ o / 0x80 then (.ownedElsewhere, s)
  else writePlain slot a v s

/-- TOU_CMD (R381): one of the two masks. -/
def opTouCmd (slot : Slot) (n v : Nat) (s : State) : Res :=
  let arm := v % 256
  let cancel := v / 2 ^ 16 % 256
  if (arm = 0 ∧ cancel = 0) ∨ (arm ≠ 0 ∧ cancel ≠ 0) then leased slot (idTou n) s fun s => (.reservedEncoding, s)
  else if arm ≠ 0 then opTouArm slot n arm s
  else opTouCancel slot n cancel s

def writeTou (slot : Slot) (a v : Nat) (s : State) : Res :=
  let o := a % 2 ^ 16
  if 0x1000 ≤ o ∧ o < 0x3000 then opTouEntryWrite slot ((o - 0x1000) / 0x100) (o / 0x20 % 8) (o % 0x20 / 4) v s
  else if o < 0x200 ∧ o % 0x10 = 0 then opTouCtrlWrite slot (o / 16) v s
  else if o < 0x200 ∧ o % 0x10 = 8 then opTouCmd slot (o / 16) v s
  else match leaseOfAddr a with
    | some id => leased slot id s (writePlain slot a v)
    | none => writePlain slot a v s

/-! ### GTM, MIL (spec/10, spec/09) -/

/-- GT_CMD (R464). -/
def opGtCmd (slot : Slot) (n v : Nat) (s : State) : Res :=
  if !oneCommand v 0x3F then leased slot (idTimer n) s fun s => (.reservedEncoding, s)
  else if v.testBit 0 then opGtStart slot n s
  else if v.testBit 1 then opGtStop slot n s
  else if v.testBit 2 then opGtLoad slot n s
  else if v.testBit 3 then opGtApply slot n s
  else if v.testBit 4 then opGtDiscard slot n s
  else opCapFlush slot n s

/-- GT_FORCE drives the output pins in host-assisted mode (R460). -/
def opGtForce (slot : Slot) (n a v : Nat) (s : State) : Res :=
  leased slot (idTimer n) s fun s =>
    (.done, s.applyFlds v (fldsAt a))

/-- Reserved encodings that a timer word makes, with what is staged (R8): a GT_LIMIT of 0 with RUN 1 (R431), a GT_DIV that does not divide
10⁹ with SRC 0b01 (R423), a TRGSEL that names the timer itself (R452), a pulse of PW 0 (R437), and CEDGE 0b00 (the register table of
spec/10). (DEDUCED, log 79.) -/
def State.gtBadWord (s : State) (n b v : Nat) : Bool :=
  (b == 0 && v.testBit 30 && s.gtStagedLimit n == 0) ||
  (b == 0x14 && s.on (gRun n) && v % 2 ^ 32 == 0 && s.rd (gLimHi n) == 0) ||
  (b == 0x18 && s.on (gRun n) && v % 2 ^ 32 == 0 && s.rd (gLimLo n) == 0) ||
  (b == 4 && v / 2 ^ 30 % 4 == 1 && 1000000000 % s.rd (gDiv n) != 0) ||
  (b == 8 && s.rd (gSrc n) == 1 && v % 2 ^ 30 != 0 && 1000000000 % (v % 2 ^ 30) != 0) ||
  (b == 0x0C && v / 2 ^ 24 % 16 == n) ||
  (decide (0x40 ≤ b) && decide (b < 0x80) && b % 0x10 == 0 && v / 2 ^ 28 % 8 == 4 && v % 2 ^ 16 == 0) ||
  ((b == 0x80 || b == 0xA0) && v / 2 ^ 24 % 4 == 0)

def writeGtm (slot : Slot) (a v : Nat) (s : State) : Res :=
  let o := a % 2 ^ 16
  let n := o / 0x100
  let b := o % 0x100
  let k := (b - 0x40) / 0x10
  if 0x1000 ≤ o then
    match leaseOfAddr a with
    | some id => leased slot id s (writePlain slot a v)
    | none => (.noSuchAddress, s)
  else if b = 0x1C then opGtCmd slot n v s
  else if b = 0x2C then opGtForce slot n a v s
  else if 0x40 ≤ b ∧ b < 0x80 ∧ b % 0x10 = 4 then opGtCmpLo slot n k v s
  else if 0x40 ≤ b ∧ b < 0x80 ∧ b % 0x10 = 8 then opGtCmpHi slot n k v s
  else if s.gtBadWord n b v then leased slot (idTimer n) s fun s => (.reservedEncoding, s)
  else leased slot (idTimer n) s (writePlain slot a v)

/-- MIL_CMD (R421). -/
def opMilCmd (slot : Slot) (m v : Nat) (s : State) : Res :=
  if !oneCommand v 0xF then leased slot (idMill m) s fun s => (.reservedEncoding, s)
  else if v.testBit 0 then opMillApply slot m s
  else if v.testBit 1 then opMillDiscard slot m s
  else if v.testBit 2 then opInject slot m s
  else opEval slot m s

/-- The staged registers, and those of EVAL and INJECT, belong to the lease (R414). -/
def milLeased (b : Nat) : Bool := decide (b < 0x20) || (decide (0x70 ≤ b) && decide (b < 0x7C)) || (decide (0xA0 ≤ b) && decide (b < 0xC0))

def writeMil (slot : Slot) (a v : Nat) (s : State) : Res :=
  let o := a % 2 ^ 16
  let m := o / 0x100
  if 0x1000 ≤ o then writePlain slot a v s
  else if o % 0x100 = 0x20 then opMilCmd slot m v s
  else if milLeased (o % 0x100) then leased slot (idMill m) s (writePlain slot a v)
  else writePlain slot a v s

/-! ### SEQ, MON (spec/03, spec/04) -/

/-- SEQ_CMD (R185). What a failing upstream member would report beyond the rails is free. -/
def opSeqCmd (slot : Slot) (v : Nat) (s : State) : Res :=
  oneOf v 0xFF s fun c =>
    if c = 1 then opUp slot s
    else if c = 2 then opDown slot s
    else if c = 4 then opRelease slot (v / 2 ^ 16 % 16) s
    else if c = 8 then
      let (b, s1) := s.draw
      opForceOff slot (b % 2 ^ 24) s1
    else if c = 0x10 then opCommit slot s
    else if c = 0x20 then opPlanDiscard slot s
    else if c = 0x40 then opGroupUp slot (v / 2 ^ 8 % 8) s
    else opGroupDown slot (v / 2 ^ 8 % 8) s

/-- RETRY with RETRY_DELAY 0 (the plan table of spec/03). (DEDUCED, log 37.) -/
def State.retryBad (s : State) (a v : Nat) : Bool :=
  (a == 0x090010 && qRetryDelay.ofWord v == 0 && s.rd qRetry != 0) || (a == 0x090000 && qRetry.ofWord v != 0 && s.rd qRetryDelay == 0)

/-- SEQ_SHORT clears, and the rails it named may rise again, with the next stage or group raise (R130); a group loses what is no longer
good (R169). -/
def State.shortClear (s : State) (v : Nat) : State :=
  let m := v % 2 ^ 24
  let s := s.clrBits qShort m
  let s := { s with seq := { s.seq with
    shortHold := s.seq.shortHold &&& (2 ^ 24 - 1 - m), want := s.seq.want &&& (2 ^ 24 - 1 - (m &&& s.seq.shortHold)) } }
  State.refresh (rails.foldl (fun s n => if m.testBit n && s.railState n == 5 then s.wr (qState n) 0 else s) s)

def writeSeq (slot : Slot) (a v : Nat) (s : State) : Res :=
  if a = 0x090008 then opSeqCmd slot v s
  else if a = 0x09002C then (.done, s.shortClear v)
  else if planFlds.any fun f => f.addr == a then
    planAccess slot s fun s => if s.retryBad a v then (.reservedEncoding, s) else writePlain slot a v s
  else writePlain slot a v s

/-- MON_CMD (R224). -/
def writeMon (slot : Slot) (a v : Nat) (s : State) : Res :=
  if a = 0x0A0008 then oneOf v 7 s fun c => if c = 1 then opSnap slot s else if c = 2 then opScanNow s else opClear slot s
  else
    let r := writePlain slot a v s
    if a = 0x0A0000 then (r.1, r.2.fullCheck) else if a = 0x0A0030 then (r.1, r.2.xtStart (s.on mXtEn)) else r

/-! ### ICU, MBX, RNG (spec/11, spec/12) -/

def writeIcu (slot : Slot) (a v : Nat) (s : State) : Res :=
  let o := a % 2 ^ 16
  if o = 0 then opPrigrpWrite slot v s
  else if o = 4 then opLbrkClear slot v s
  else if 0x100 ≤ o ∧ o < 0x200 then
    let t := (o - 0x100) / 0x20
    match o % 0x20 with
    | 0x00 => opTgtcfgWrite slot t v s
    | 0x08 => (.done, s)
    | 0x10 => opEoi slot t (v % 2 ^ 10) s
    | 0x14 => if v % 2 = 0 then (.reservedEncoding, s) else opTargetReset slot t s
    | _ => writePlain slot a v s
  else if 0x500 ≤ o ∧ o < 0x540 then opLatchClear slot ((o - 0x500) / 4) v s
  else if 0x1000 ≤ o ∧ o < 0x1800 then opSrccfgWrite slot ((o - 0x1000) / 4) v s
  else writePlain slot a v s

def writeMbx (slot : Slot) (a v : Nat) (s : State) : Res :=
  let o := a % 2 ^ 16
  let c := o / 0x20
  if 0x800 ≤ o then writePlain slot a v s
  else if !s.chanSeen slot.val c then (.noSuchAddress, s)
  else match o % 0x20 with
    | 0x00 => opMbxBindWrite slot c v s
    | 0x04 => opMbxStatWrite slot c v s
    | 0x08 => opTx0Write slot c v s
    | 0x0C => opTx1Write slot c v s
    | 0x1C => opMbxCmd slot c v s
    | _ => (.done, s)

def writeRng (slot : Slot) (a v : Nat) (s : State) : Res :=
  let o := a % 2 ^ 16
  let r := (o - 0x1000) / 0x20
  if o < 0x1000 ∨ 0x1600 ≤ o then writePlain slot a v s
  else match o % 0x20 with
    | 0x00 => opRngCfgWrite slot r v s
    | 0x04 => opRngBaseWrite slot r v s
    | 0x08 => opWidxWrite slot r v s
    | 0x0C => opRidxWrite slot r v s
    | 0x14 => opRngThrWrite slot r v s
    | 0x18 => opRngEvtWrite slot r v s
    | 0x1C => opRngCtlWrite slot r v s
    | _ => (.done, s)

/-! ### PTN, RAD, SWP (spec/15, spec/16) -/

/-- An offset of a whole beacon period or more. (DEDUCED, log 125.) -/
def State.bofsBad (s : State) (a v : Nat) : Bool :=
  (a == 0x0E000C && decide (s.rd pBp * 1000 ≤ pBofs.ofWord v)) || (a == 0x0E0008 && pBp.ofWord v != 0 && decide (pBp.ofWord v * 1000 ≤ s.rd pBofs))

def writePtn (slot : Slot) (a v : Nat) (s : State) : Res :=
  if a = 0x0E0084 then opPtnCmd slot v s
  else if a = 0x0E0090 then opPtnWsel slot (v % 2 ^ 12) s
  else if s.secure slot.val && s.bofsBad a v then (.outOfRange, s)
  else writePlain slot a v s

def writeRad (slot : Slot) (a v : Nat) (s : State) : Res :=
  let o := a % 2 ^ 16
  if 0x8000 ≤ o then
    match leaseOfAddr a with
    | some id => if o < 0x9000 ∧ o % 0x40 = 0x2C then opSwpCmd slot ((o - 0x8000) / 0x40) v s else leased slot id s (writePlain slot a v)
    | none => (.noSuchAddress, s)
  else if o % 0x1000 = 8 then opRadCmd slot (o / 0x1000) v s
  else leased slot (idRadio (o / 0x1000)) s (writePlain slot a v)

/-! ### HST, CAN, PIN, SEC (spec/13, spec/14) -/

def writeHst (slot : Slot) (a v : Nat) (s : State) : Res :=
  let o := a % 2 ^ 16
  if o < 0x100 ∧ o % 16 = 0 then opSlotWrite slot (o / 16) v s
  else if o < 0x100 ∧ o % 16 = 4 then opSlotXWrite slot (o / 16) v s
  else writePlain slot a v s

def writeCan (slot : Slot) (a v : Nat) (s : State) : Res :=
  let o := a % 2 ^ 16
  if 0x200 ≤ o then (.noSuchAddress, s)
  else if o % 0x100 = 0 then opCanCtrl slot (o / 0x100) v s
  else if o % 0x100 = 0x40 then opCanCmd slot (o / 0x100) v s
  else writePlain slot a v s

def writePin (slot : Slot) (a v : Nat) (s : State) : Res :=
  if a % 2 ^ 16 < 0x2C0 then opPinWrite slot (a % 2 ^ 16 / 4) v s else (.noSuchAddress, s)

/-- (DEDUCED, log 101.) -/
def writeSec (slot : Slot) (a v : Nat) (s : State) : Res :=
  let o := a % 2 ^ 16
  if 0x10 ≤ o ∧ o < 0x30 then opKeyhashWrite slot ((o - 0x10) / 4) v s
  else if o = 0x40 then opLock slot v s
  else if o = 0x50 ∧ s.secure slot.val ∧ v % 4 ≠ 0 then (.outOfRange, s)
  else if o = 0x58 then opFw slot (v % 8) s
  else writePlain slot a v s

/-! ### A write -/

/-- A write to the Shared Buffer (R503). -/
def writeSbuf (slot : Slot) (ofs v : Nat) (s : State) : Res :=
  match s.regionRefused slot.val ofs sbufWr with
  | some c => (c, s)
  | none => (.done, s.setWord ofs v)

/-- A write to a block. (DEDUCED, log 140.) -/
def writeBlock (slot : Slot) (a v : Nat) (s : State) : Res :=
  match a / 2 ^ 16 with
  | 0x00 => writeGlb slot a v s
  | 0x01 => writeKeep slot a v s
  | 0x02 => writeHtm slot a v s
  | 0x03 => writeCal slot a v s
  | 0x04 => writeTrm slot a v s
  | 0x05 => writeStp slot a v s
  | 0x06 => writeTou slot a v s
  | 0x07 => writeGtm slot a v s
  | 0x08 => writeMil slot a v s
  | 0x09 => writeSeq slot a v s
  | 0x0A => writeMon slot a v s
  | 0x0B => writeIcu slot a v s
  | 0x0C => writeMbx slot a v s
  | 0x0D => writeRng slot a v s
  | 0x0E => writePtn slot a v s
  | 0x0F => writeRad slot a v s
  | 0x10 => writeHst slot a v s
  | 0x11 => writeCan slot a v s
  | 0x12 => writePin slot a v s
  | 0x13 => writeSec slot a v s
  | _ => (.noSuchAddress, s)

/-- A write of one register word (R4, R9, R203): an access of the owner renews its lease first (R586). -/
def writeReg (slot : Slot) (a v : Nat) (s : State) : Res :=
  if a % 4 ≠ 0 then (.noSuchAddress, s)
  else if 0x400000 ≤ a ∧ a < 0x500000 then writeSbuf slot (a - 0x400000) v s
  else if 0x500000 ≤ a ∧ a < 0x540000 then (.readOnly, s)
  else if a / 2 ^ 16 != 1 && !s.implemented slot.val a then (.noSuchAddress, s)
  else writeBlock slot a v (s.touchAddr slot.val a)

end Sys2Proof.Machine
end

