-- ==== Sys2Proof/Machine/Clock.lean ====
section
/-! DEFINITION. One MCLK cycle (R12, R23): what time alone does in the hub. -/

namespace Sys2Proof.Machine

open F

/-- The whole milliseconds of Hub Time. -/
def State.nowMs (s : State) : Nat := s.htm.time / (1000000 * nsU)

/-- GT_PHASE counts MCLK cycles since the last tick of a timer on prescaled MCLK, and nanoseconds of Hub Time since the last aligned
instant of one on Hub Time ticks (R423). -/
def State.phaseStep (s : State) (n : Nat) : State :=
  if s.gtState n == 2 && s.g (gSlave n) != 4 then
    match s.g (gSrc n) with
    | 0 => s.wr (gPhase n) (s.rd (gPhase n) + 1)
    | 1 => s.wr (gPhase n) (s.htm.time / nsU % s.g (gDiv n))
    | _ => s
  else s

/-- A 1 ms step of Hub Time counts every lease down (R586). -/
def State.msStep (s : State) (was : Nat) : State := if s.nowMs = was then s else leaseIds.foldl State.leaseMs s

/-- Hub Time runs for one cycle, and the leases with it. -/
def State.timeStep (s : State) : State := (s.timeCycle).msStep s.nowMs

/-- The final cycle of a slew: it adds the remainder, ends, and raises 473 (R46). -/
def execSlewDone (s : State) : Out :=
  event (if s.running && s.on F.htmSlewActive && decide (s.slewAbsorbed = s.htm.slewLeft) then s.timeStep else s)

/-- The edges at stamped inputs whose decision cycle is the present one are decided, behind its commands, block by block in the order of
their base addresses (R722, R768); an edge of a mill is a tick of the timers on it in the same cycle (R426, R438). -/
def State.edgesDecide (s : State) : State :=
  if s.running then
    let s := s.stHeld.foldl State.stSettle s
    let s := (s.gtm.map (·.1)).foldl (fun s n => (s.gtClkSettle n).gtCapSettle n) s
    let s := (s.mil.mills.map (·.1)).foldl State.milSettle s
    (List.range 16).foldl (fun s n => if s.g (gSrc n) = 2 then s.gtCatch n else s) s
  else s

/-- One MCLK cycle: the edges decided in it, Hub Time, leases, edges of timed outputs that have come (R361), prescalers,
edges that an estimator holds back (R395), reference outputs no longer allowed (R324), notes to CAN nodes, and the ring write port (R724); the servo takes the last edge (R288); in the island the write
of a Mortar entry begins (R211). What completed in the cycle before no longer wins over an abort (R13), and the causes of an all-off have met (R161). -/
def State.tick (s : State) : State :=
  let s := s.edgesDecide.ringRises fun _ => true
  let s := { s with ended := [], seq := { s.seq with offNow := 0 } }
  let s := s.causesEnd.entryBegin.servoDue.kcalDrop
  if s.running then
    let s := s.timeStep
    let s := s.touHeld.foldl State.touArrive s
    let s := (List.range 16).foldl State.phaseStep s
    let s := s.layoutCycle.pinSync.milsCycle.gtsCycle.portCycle
    s.refsCheck.canNotes.pendingNotes
  else s

/-- A cycle in which no command comes: the frames given to the CAN ports since the one before it are on their way. -/
def State.cycle (s : State) : State := s.canGone.tick

end Sys2Proof.Machine
end

