-- ==== Sys2Proof/Machine/Frames.lean ====
section
/-! DEFINITION. Frames on the SPI and I2C ports (spec/13): the status byte, the register opcodes under a slot's reach, DICT_REQ and
DICT_RESP, STATUS, and what ends a frame or resets a host. -/

namespace Sys2Proof.Machine

open F

/-! ### Reach (R584) -/

def State.reach (s : State) (slot : Nat) : Nat := if slot = 16 then 0 else s.rd (hReach slot)

/-- A register read under REACH: what lies outside reads as unimplemented (R9). (DEDUCED, log 139.) -/
def reachRead (slot : Slot) (a : Nat) (s : State) : Code × State × Nat :=
  let r := s.reach slot.val
  if a % 4 = 0 ∧ (r = 3 ∨ (r = 1 ∧ ¬(0x400000 ≤ a ∧ a < 0x500000))) then (.done, s, 0) else readReg slot a s

/-- A register write under REACH. -/
def reachWrite (slot : Slot) (a v : Nat) (s : State) : Res :=
  let r := s.reach slot.val
  if a % 4 ≠ 0 ∨ r = 0 then writeReg slot a v s
  else if r = 2 then (.readOnly, s.touchAddr slot.val a)
  else if r = 1 ∧ 0x400000 ≤ a ∧ a < 0x500000 then writeReg slot a v s
  else (.noSuchAddress, s)

/-- REGISTER_WRITE. (DEDUCED, log 176.) -/
def execRegisterWrite (slot : Slot) (addr : Addr) (value : Word) (s : State) : Out :=
  late slot s (if isUp addr.toNat value.toNat then s.lateUp slot.val else none) (hostFree slot s (reachWrite slot addr.toNat value.toNat))

/-! ### Register opcodes (R567, R569) -/

/-- N words read in order, one per MCLK cycle, the address moving by `stride`: the first result not of class 0x0, and the words.
(DEDUCED, log 15; DEDUCED, log 138.) -/
def readBurst (slot : Slot) (stride : Nat) : Nat → Nat → State → Code × State × List Nat
  | 0, _, s => (.done, s, [])
  | n + 1, a, s =>
    let r := reachRead slot a s
    let t := readBurst slot stride n ((a + stride) % 2 ^ 24) (if n = 0 then r.2.1 else r.2.1.tick)
    (if r.1.ok then t.1 else r.1, t.2.1, r.2.2 :: t.2.2)

/-- N words written in order, one per MCLK cycle; the first refused word stops the frame and FAILIDX records it. (DEDUCED, log 135.) -/
def writeBurst (slot : Slot) (i a : Nat) (s : State) : List Nat → Res
  | [] => (.done, s)
  | v :: t =>
    let r := reachWrite slot a v s
    if !r.1.ok then (r.1, { r.2 with hst := { r.2.hst with failIdx := Assoc.put 0 slot.val i r.2.hst.failIdx } })
    else if t.isEmpty then r
    else
      let q := writeBurst slot (i + 1) ((a + 4) % 2 ^ 24) r.2.tick t
      (if q.1.ok ∧ r.1 ≠ .done then r.1 else q.1, q.2)

def execReadReg (p : Port) (addr : Addr) (words : Nat) (wire : Wire) (s : State) : Out :=
  readFrame p wire true 0x10 addr.toNat 0xFFFFFF words s fun k s => readBurst k 4 words addr.toNat s

def execReadSame (p : Port) (addr : Addr) (words : Nat) (wire : Wire) (s : State) : Out :=
  readFrame p wire true 0x12 addr.toNat 0xFFFFFF words s fun k s => readBurst k 0 words addr.toNat s

/-- WRITE_REG. (DEDUCED, log 176.) -/
def execWriteReg (p : Port) (addr : Addr) (payload : List Word) (wire : Wire) (s : State) : Out :=
  let ws := payload.map (·.toNat)
  match if (wireRefuses wire true 0x11 addr.toNat 0xFFFFFF 0 ws).isNone && !tooSoon p.val wire then s.lateFrame p.val addr.toNat ws else none with
  | some c => event ((s.say c).setLast p.val c)
  | none =>
    writeFrame p wire 0x11 addr.toNat 0xFFFFFF ws s (fun k s => writeBurst k 0 addr.toNat s ws)
      fun k s => (List.range ws.length).foldl (fun s i => s.touchAddr k.val ((addr.toNat + 4 * i) % 2 ^ 24)) s

/-! ### Dictionary requests (R570, R571, R616) -/

/-- Index `i` is one of `n` from `a`. -/
def among (i a n : Nat) : Bool := decide (a ≤ i) && decide (i < a + n)

/-- The lease that an index's resource belongs to (R586). -/
def leaseOfIndex (i sub : Nat) : Option Nat :=
  if i = 0x2801 ∨ i = 0x2803 ∨ (i = 0x2804 ∧ sub = 1) ∨ among i 0x2810 0x48 then some idPlan
  else if among i 0x2600 16 then some (idTimer (i - 0x2600))
  else if among i 0x2610 64 then some (idTimer ((i - 0x2610) / 4))
  else if among i 0x2650 32 then some (idTimer ((i - 0x2650) / 2))
  else if among i 0x2700 16 then some (idMill (i - 0x2700))
  else if among i 0x2500 32 then some (idTou (i - 0x2500))
  else if among i 0x2520 32 then some (idTou (i - 0x2520))
  else if among i 0x2E00 8 then some (idRadio (i - 0x2E00))
  else if among i 0x4000 64 then some (idSweep (i - 0x4000))
  else none

def State.touchIndex (s : State) (slot i sub : Nat) : State :=
  match leaseOfIndex i sub with
  | some id => s.touch slot id
  | none => s

/-- The access of a request body to the entry it names, where it is refused (R586). -/
def State.touchBody (s : State) (slot : Nat) (ws : List Nat) : State :=
  s.touchIndex slot (ws.headD 0 / 2 ^ 8 % 2 ^ 16) (ws.headD 0 % 2 ^ 8)

/-- The words of a DTP body whose Q0 and Q1 are given (R617). -/
def bodyLen (q0 q1 : Nat) : Nat :=
  match q0 / 2 ^ 28 with
  | 2 | 4 => 2 + (q1 % 2 ^ 16 + 3) / 4
  | 3 | 7 => 2
  | _ => 1

/-- The place of a request accepted now (R606): requests of one cycle share one. -/
def State.nextTurn (s : State) : Nat :=
  let m := s.hst.jobs.foldl (fun m kj => max m kj.2.turn) 0
  if s.ended.contains .asked then m else m + 1

/-- A request joins those that wait for the Steward. -/
def State.enqueue (s : State) (key : Nat) (j : DictJob) : State :=
  { s with hst := { s.hst with jobs := Assoc.place key j (Assoc.erase key s.hst.jobs) }, ended := .asked :: s.ended }

/-- A DTP request body is handed to the Steward: 1 to 16 words (R615) with all that its CMD needs (R617), whose
Q0 repeats the frame's address (R616). (DEDUCED, log 144.) -/
def opDictReq (slot : Slot) (field : Nat) (ws : List Nat) (s : State) : Res :=
  if 16 < ws.length ∨ ws.length < bodyLen (ws.headD 0) (ws.getD 1 0) then (.badLength, s)
  else if ws.headD 0 % 2 ^ 24 ≠ field then (.reservedEncoding, s)
  else if !s.stewardUp ∨ (Assoc.find slot.val s.hst.jobs).isSome then (.busy, s.touchBody slot.val ws)
  else
    (.accepted, s.enqueue slot.val { slot := slot.val, req := ws, resp := none, can := none, turn := s.nextTurn })

def execDictReq (p : Port) (field : BitVec 24) (body : List Word) (wire : Wire) (s : State) : Out :=
  let ws := body.map (·.toNat)
  writeFrame p wire 0x20 field.toNat 0xFFFFFF ws s (fun k s => opDictReq k field.toNat ws s) fun k s => s.touchBody k.val ws

/-- The code with a value (R14). -/
def codeOf (v : Nat) : Code := (Code.all.find? fun c => c.val == v).getD .done

/-- The response to the slot's request, padded to N words; its own code is the frame's result (R571). -/
def opDictResp (slot : Slot) (words : Nat) (s : State) : Code × State × List Nat :=
  let zeros := List.replicate words 0
  match Assoc.find slot.val s.hst.jobs with
  | none => (.empty, s, zeros)
  | some j =>
    match j.resp with
    | none => (.busy, s, zeros)
    | some ws =>
      if words < ws.length then (.badLength, s, zeros)
      else
        (codeOf (ws.getD 1 0 / 2 ^ 16), { s with hst := { s.hst with jobs := Assoc.erase slot.val s.hst.jobs } },
          ws ++ List.replicate (words - ws.length) 0)

def execDictResp (p : Port) (words : Nat) (wire : Wire) (s : State) : Out :=
  readFrame p wire false 0x21 0 0 words s fun k s => opDictResp k words s

/-! ### STATUS, NOP, and frames that act on nothing -/

/-- The two words of STATUS (R572). -/
def State.statusWords (s : State) (p : Nat) (k : Option Slot) : List Nat :=
  let slot := match k with | some k => k.val | none => 0x1F
  [slot * 2 ^ 24 + Assoc.get 0 slot s.hst.failIdx * 2 ^ 16 + s.lastOf p,
   s.rd (hReject p) * 2 ^ 16 + packWord s.rd [glbWakeHeld, glbStewardReady, glbPrev, glbMode]]

/-- A frame of STATUS or NOP: it leaves the last result as it is, and an unbound port answers it too (R552, R566); too soon, it acts on
nothing (R575). -/
def quietFrame (p : Port) (w : Wire) (sh : Shape) (refused : Option Code) (s : State) (data : State → Option Slot → List Nat) : Out :=
  .next (if s.portShut p.val then s.turnedAway (some p.val)
    else
      let (k, s) := s.open_ p.val w.high
      let refused := if tooSoon p.val w then some .busy else refused
      match refused with
      | some c => ((s.say c (padTo sh [])).send p.val sh false c (padTo sh [])).countPort p.val c
      | none =>
        let s := match k with | some k => s.marked k.val | none => s
        (s.say .done (data s k)).send p.val sh true .done (data s k))

/-- STATUS: two words. -/
def execStatus (p : Port) (wire : Wire) (s : State) : Out :=
  quietFrame p wire (.read 2) (wireRefuses wire (wire.len.toNat == 1) 0x60 0 0 wire.len.toNat []) s fun s k => s.statusWords p.val k

/-- NOP: one byte. -/
def execNop (f : OnPort) (s : State) : Out := quietFrame f.p f.wire .one none s fun _ _ => []

/-- The opcodes of R567. -/
def opcodes : List Nat := [0x10, 0x11, 0x12, 0x20, 0x21, 0x30, 0x31, 0x40, 0x41, 0x42, 0x50, 0x51, 0x60, 0x7F]

/-- The opcodes on rings, mailboxes and events, whose own rows name the slot. -/
def slotOpcodes : List Nat := [0x30, 0x31, 0x40, 0x41, 0x42, 0x50, 0x51]

/-- The write-type opcodes (R567). -/
def opWrites (op : Nat) : Bool := [0x11, 0x20, 0x31, 0x40, 0x42, 0x51].contains op

/-- A frame whose opcode is none of R567's (R573), or one of a ring, mailbox or event opcode on a port that no slot is bound to (R552).
(DEDUCED, log 136; DEDUCED, log 193.) -/
def execBadOpcode (f : OnPort) (opcode : Byte) (s : State) : Out :=
  let op := opcode.toNat
  let bad := fun _ (s : State) => (Code.badOpcode, s, [])
  if !opcodes.contains op then frame f.p f.wire .one false (some .badOpcode) s bad
  else if slotOpcodes.contains op && ((s.frameStart f.p.val).portSlot f.p.val).isNone then
    let n := f.wire.len.toNat + 1
    frame f.p f.wire (if opWrites op then .write n else .read n) false none s bad
  else event s

def execShortFrame (f : OnPort) (sck : Bool) (s : State) : Out := .next (s.shortFrame f.p.val sck f.wire)

/-- An I2C read with no header pending: the status byte and the last result code (R579). -/
def execI2cStatusRead (n : Fin 2) (s : State) : Out :=
  let p := 4 + n.val
  event (if s.asleep || s.deaf then s.turnedAway (some p)
    else
      let s := (s.open_ p false).2
      let d := [s.hst.status, s.lastOf p % 256, s.lastOf p / 256]
      State.say { s with hst := { s.hst with sdo := d, acks := 0 } } .done d)

/-! ### From the bytes of a frame to its command (R562, R567) -/

/-- The address bits that an opcode gives a meaning (R523, R544, R567). -/
def fieldMask (op : Nat) : Nat :=
  if op = 0x10 ∨ op = 0x11 ∨ op = 0x12 ∨ op = 0x20 then 0xFFFFFF
  else if op = 0x30 then 0x13F
  else if op = 0x31 ∨ op = 0x40 ∨ op = 0x41 ∨ op = 0x42 then 0x3F
  else 0

/-- The payload words that a row of the opcode repeats: of MBX_ACK and EVENT_EOI the bits of the word that have a meaning. -/
def opPayload (op : Nat) (ws : List Nat) : List Nat :=
  if op = 0x42 then [ws.headD 0 % 2 ^ 16] else if op = 0x51 then [ws.headD 0 % 2 ^ 10] else ws

/-- The bytes of a whole frame as the host clocks them (R562); on I2C those of the write transaction (R577, R578). -/
def frameLen (p op n : Nat) : Nat := if opWrites op then 6 + 4 * n else if p < 4 then 11 + 4 * n else 6

/-- The command that an opcode, its address field, LEN and payload words spell on port p for the slot bound to it (R567). The takes of
Pinch and Sachet share an opcode: the channel's form tells them apart. -/
def opCommand (s : State) (p : Port) (slot : Option Slot) (op field len : Nat) (ws : List Nat) (wire : Wire) : Option Instr :=
  let words := len + 1
  let payload := ws.map (BitVec.ofNat 32)
  let w := fun i => BitVec.ofNat 32 (ws.getD i 0)
  let ring := Fin.ofNat 64 field
  let way := slot.map fun k => ({ slot := k, wire := some wire } : Way)
  match op with
  | 0x10 => some (.readReg p (.ofNat 24 field) words wire)
  | 0x11 => some (.writeReg p (.ofNat 24 field) payload wire)
  | 0x12 => some (.readSame p (.ofNat 24 field) words wire)
  | 0x20 => some (.dictReq p (.ofNat 24 field) payload wire)
  | 0x21 => some (.dictResp p words wire)
  | 0x30 => way.map fun y => .ringRead y ring (field.testBit 8) words true
  | 0x31 => slot.map fun k => .ringWrite k ring payload (some wire)
  | 0x40 => way.map fun y => if len = 1 then .sachetPost y ring (w 0) (w 1) else .pinchPost y ring (w 0)
  | 0x41 => way.map fun y => if s.on (bForm ring.val) then .sachetTake y ring else .pinchTake y ring
  | 0x42 => way.map fun y => .mbxAck y ring (.ofNat 16 (ws.getD 0 0))
  | 0x50 => way.map .eventClaim
  | 0x51 => way.map fun y => .eventEoi y (.ofNat 10 (ws.getD 0 0))
  | 0x60 => some (.status p wire)
  | _ => none

/-- The command that the bytes of a frame on port p spell, from the CS_N fall to its rise; a ring, mailbox or event opcode on a port that no
slot is bound to once the frame has started (R557) is answered as every other is there (R552). (DEDUCED, log 193.) -/
def State.frameCommand (s : State) (p : Port) (high soon : Bool) (bytes : List Nat) : Option Instr :=
  let op := bytes.headD 0 % 256
  let field := bytes.getD 1 0 % 256 + bytes.getD 2 0 % 256 * 2 ^ 8 + bytes.getD 3 0 % 256 * 2 ^ 16
  let len := bytes.getD 4 0 % 256
  let body := (bytes.drop 5).take (4 * (len + 1))
  let ws := if opWrites op then wordsOf (body.map (· % 256)) else []
  let covered := bytes.take (if opWrites op then 5 + 4 * (len + 1) else 5)
  let known := headerBytes op field len ++ bytesOf (opPayload op ws)
  let wire : Wire :=
    { high := high, soon := soon, rsv := .ofNat 24 (field &&& (0xFFFFFF ^^^ fieldMask op)), len := .ofNat 8 len
      crc := .ofNat 8 (bytes.getD covered.length 0 % 256 ^^^ crc8 covered ^^^ crc8 known) }
  let one : OnPort := { p := p, wire := wire }
  let short : Wire := { wire with rsv := .ofNat 24 bytes.length }
  let slot := (s.frameStart p.val).portSlot p.val
  if bytes.isEmpty then some (.shortFrame { p := p, wire := short } false)
  else if op = 0x7F then some (.nop one)
  else if !opcodes.contains op then some (.badOpcode one (.ofNat 8 op))
  else if bytes.length < frameLen p.val op (len + 1) then
    match slot with
    | some k =>
      if op = 0x30 ∧ 5 ≤ bytes.length then
        some (.ringRead { slot := k, wire := some short } (Fin.ofNat 64 field) (field.testBit 8) (len + 1) false)
      else some (.shortFrame { p := p, wire := short } true)
    | none => some (.shortFrame { p := p, wire := short } true)
  else if slot.isNone && slotOpcodes.contains op then some (.badOpcode one (.ofNat 8 op))
  else opCommand s p slot op (field &&& fieldMask op) len ws wire

/-! ### Host reset and silence (R556, R581 to R583) -/

/-- A host-reset pattern on a port: not detected in M2 or M7, nor without power. -/
def execHostReset (p : Port) (s : State) : Out :=
  event (if s.mode == 2 || s.mode == 7 || s.deaf || !s.portUp p.val || !s.glb.mainUp then s
    else
      let s := s.frameStart p.val
      match s.portSlot p.val with
      | some k => (s.hostReset k.val false).canNotes
      | none => s)

/-- 3 × HB_MS without a frame from a CAN slot's node. -/
def execNodeSilence (k : Fin 16) (s : State) : Out :=
  event (if s.running && k.val != 15 && s.on (hEn k.val) && s.rd (hClass k.val) == 2 && s.on (hPresent k.val) then (s.hostReset k.val true).canNotes
    else s)

end Sys2Proof.Machine
end

