-- ==== Sys2Proof/Machine/Ent.lean ====
section
/-! DEFINITION. Dictionary entries (spec/14, R598 to R603): what an entry is, its access, and the forms an entry takes over registers. -/

namespace Sys2Proof.Machine

open F

/-- Access codes (R601); CONST reads and refuses as RO. -/
inductive Acc where
  | ro | rw | rws | wo
  deriving DecidableEq, Repr

/-- An entry: its size in bytes, its access, its value, and what a write of bytes does. -/
structure Ent where
  size  : Nat
  acc   : Acc
  read  : Slot → State → Code × State × Nat
  write : Slot → List Nat → State → Res

/-! ### Numbers -/

/-- Little-endian bytes to a number, and back. -/
def leNat : List Nat → Nat
  | [] => 0
  | b :: t => b % 256 + 256 * leNat t
def leBytes : Nat → Nat → List Nat
  | 0, _ => []
  | n + 1, v => v % 256 :: leBytes n (v / 256)

/-- Fields of a REC, each with its size, packed in order. -/
def packRec : List (Nat × Nat) → Nat
  | [] => 0
  | (n, v) :: t => v % 256 ^ n + 256 ^ n * packRec t

/-- A TIME96 value: seconds, nanoseconds and the 16-bit fraction. -/
def t96Sec (v : Nat) : Nat := v % 2 ^ 32 + v / 2 ^ 48 % 2 ^ 16 * 2 ^ 32
def t96Ns (v : Nat) : Nat := v / 2 ^ 64 % 2 ^ 30
def t96Frac (v : Nat) : Nat := v / 2 ^ 32 % 2 ^ 16
def t96Of (t qual : Nat) : Nat := packRec ((time96 t qual).map (4, ·))
def words96 (l : List Nat) : Nat := packRec (l.map (4, ·))

/-! ### Register writes behind an entry -/

/-- A register's writable fields as they stand, with some replaced. -/
def rmwWord (rd : Fld → Nat) (flds : List Fld) (l : List (Fld × Nat)) : Nat :=
  packWord (fun f => ((l.find? fun p => p.1 == f).map (·.2)).getD (rd f)) (flds.filter fun f => f.ty == .rw || f.ty == .rws)

/-- A field is written, the register's other fields as they stand. -/
def putFlds (slot : Slot) (a : Nat) (l : List (Fld × Nat)) (s : State) : Res := writeReg slot a (rmwWord s.rd (fldsAt a) l) s
def putFld (f : Fld) (v : Nat) (slot : Slot) (s : State) : Res := putFlds slot f.addr [(f, v)] s

/-- Registers written in order, one per MCLK cycle; the first refused write stops the entry (R603). -/
def writeAll (slot : Slot) (w : Slot → Nat → Nat → State → Res) : List (Nat × Nat) → State → Res
  | [], s => (.done, s)
  | (a, v) :: t, s =>
    let r := w slot a v s
    if !r.1.ok || t.isEmpty then r else writeAll slot w t r.2.tick

/-- A keep-window write that returns only after it has taken effect (R111); BUSY while another port's write is pending (R109). -/
def keepNow (slot : Slot) (a v : Nat) (s : State) : Res :=
  let r := opKeepWrite slot a v s
  if r.1.ok then (r.1, r.2.keepFlush) else r

/-- A keep field is written; KEEP_CHG carries its key while the charger is enabled. (DEDUCED, log 110.) -/
def keepPut (f : Fld) (v : Nat) (slot : Slot) (s : State) : Res :=
  let w := rmwWord s.mrd (keepFlds f.addr) [(f, v)]
  keepNow slot f.addr (if f.addr = 0x01004C ∧ w.testBit 3 then w + 0xA5 * 2 ^ 24 else w) s

/-- A field of HST_SLOT[k] or HST_SLOTX[k] is written: the word that waits is the one in hand (R557). -/
def slotPut (k : Nat) (f : Fld) (v : Nat) (slot : Slot) (s : State) : Res :=
  let x := decide (f.addr = hBase k + 4)
  let cur := if x then s.slotXWord k else s.slotWord k
  writeReg slot f.addr (cur - f.ofWord cur * 2 ^ f.lo + v % 2 ^ f.width * 2 ^ f.lo) s
def slotGet (k : Nat) (s : State) (f : Fld) : Nat := f.ofWord (if f.addr = hBase k + 4 then s.slotXWord k else s.slotWord k)

/-! ### Forms of entries -/

/-- An entry of one fixed size (R600). -/
def Ent.sized (size : Nat) (acc : Acc) (read : Slot → State → Code × State × Nat) (write : Slot → Nat → State → Res) : Ent :=
  { size := size, acc := acc, read := read, write := fun k bs s => if bs.length ≠ size then (.badLength, s) else write k (leNat bs) s }

/-- A read-only entry. -/
def ro (size : Nat) (f : State → Nat) : Ent := .sized size .ro (fun _ s => (.done, s, f s)) fun _ _ s => (.readOnly, s)

/-- A write-only entry. -/
def wo (size : Nat) (w : Slot → Nat → State → Res) : Ent := .sized size .wo (fun _ s => (.writeOnly, s, 0)) w

/-- A command entry: the listed values, each with what it does; any other is out of range. -/
def cmd (l : List (Nat × (Slot → State → Res))) : Ent :=
  wo 1 fun k v s => match l.find? fun p => p.1 == v with | some p => p.2 k s | none => (.outOfRange, s)

/-- An entry with a plain reading. (DEDUCED, log 108.) -/
def Ent.plain (size : Nat) (acc : Acc) (get : State → Nat) (put : Slot → Nat → State → Res) : Ent :=
  .sized size acc (fun _ s => (.done, s, get s)) put

/-- How a field is reached: its write and its reading. -/
abbrev Via := (Fld → Nat → Slot → State → Res) × (State → Fld → Nat)
def viaReg : Via := (putFld, State.rd)
def viaKeep : Via := (keepPut, State.mrd)
def viaSlot (k : Nat) : Via := (slotPut k, slotGet k)

/-- A number in engineering units over one field (R602): `num / den` field units to one unit, rounded halves away from zero; `lo` to
`hi` accepted, and of the field its range; a reserved encoding gets the register's result. `vs` and `fs` tell whether the value and the
field are signed. -/
def Ent.num (via : Via) (size : Nat) (acc : Acc) (f : Fld) (vs fs : Bool) (lo hi : Int) (num den : Nat) : Ent :=
  .plain size acc
    (fun s =>
      let y : Int := if fs then signedOf f.width (via.2 s f) else via.2 s f
      toBits (8 * size) (roundAway (y * den) num))
    (fun k v s =>
      let x : Int := if vs then signedOf (8 * size) v else v
      let y := roundAway (x * num) den
      if x < lo ∨ hi < x ∨ f.isOutOfRange (toBits f.width y) then (.outOfRange, s)
      else if fs then
        if signedOf f.width (toBits f.width y) = y then via.1 f (toBits f.width y) k s else (.outOfRange, s)
      else if 0 ≤ y ∧ y < (2 ^ f.width : Nat) then via.1 f y.toNat k s
      else (.outOfRange, s))

/-- An unsigned value over one field, unit for unit. -/
def uf (size : Nat) (acc : Acc) (f : Fld) (via : Via := viaReg) : Ent := .num via size acc f false false 0 (256 ^ size : Nat) 1 1
/-- A signed value over a signed field. -/
def sf (size : Nat) (acc : Acc) (f : Fld) (via : Via := viaReg) : Ent :=
  .num via size acc f true true (-(256 ^ size : Nat)) (256 ^ size : Nat) 1 1
/-- An unsigned value of `den` units to `num` field units. -/
def us (size : Nat) (acc : Acc) (f : Fld) (num den : Nat) (hi : Nat := 256 ^ size) (lo : Nat := 0) : Ent :=
  .num viaReg size acc f false false lo hi num den
/-- A signed value of `den` units to `num` units of a signed field, within ±`mag`. -/
def ss (acc : Acc) (f : Fld) (num den : Nat) (mag : Nat := 2 ^ 31) (via : Via := viaReg) : Ent :=
  .num via 4 acc f true true (-(mag : Int)) mag num den
/-- A field that reads only, converted. -/
def rs (f : Fld) (num den : Nat) : Ent := ro 4 fun s => toBits 32 (roundAway (s.rdS f * den) num)
/-- A field that reads only. -/
def rf (size : Nat) (f : Fld) : Ent := ro size fun s => s.rd f

/-- A field whose codes 0, 1, … stand for listed values. -/
def coded (size : Nat) (acc : Acc) (f : Fld) (l : List Nat) (via : Via := viaReg) : Ent :=
  .plain size acc (fun s => l.getD (via.2 s f) 0)
    (fun k v s => match l.findIdx? fun x => x == v with | some i => via.1 f i k s | none => (.outOfRange, s))

/-- A register word. -/
def regEnt (acc : Acc) (a : Nat) : Ent := .sized 4 acc (fun k s => (.done, s, s.peekWord k.val a)) fun k v s => writeReg k a v s

/-- A value over a low and a high register, the high one of `hiBits` bits. -/
def pairEnt (acc : Acc) (aLo aHi : Nat) (hiBits : Nat := 32) : Ent :=
  .sized 8 acc (fun k s => (.done, s, s.peekWord k.val aLo + s.peekWord k.val aHi * 2 ^ 32))
    fun k v s => if 2 ^ (32 + hiBits) ≤ v then (.outOfRange, s) else writeAll k writeReg [(aLo, v % 2 ^ 32), (aHi, v / 2 ^ 32)] s

/-- Flags that writing 1 clears, and flags that writing 0 clears; the register's other fields stay. -/
def clear1 (size : Nat) (acc : Acc) (f : Fld) : Ent :=
  .plain size acc (fun s => s.rd f) fun k v s => writeReg k f.addr (rmwWord s.rd (fldsAt f.addr) [] + v % 2 ^ f.width * 2 ^ f.lo) s

/-- The entries of an index by subindex from 1. -/
def subs (l : List Ent) : Nat → Option Ent := fun k => if k = 0 then none else l[k - 1]?
/-- An index with the one subindex 0. -/
def sub0 (e : Ent) : Nat → Option Ent := fun k => if k = 0 then some e else none

/-- ps in units of 62.5 ps: 2 units to 125 ps (R336, R382, R721). -/
def ps (acc : Acc) (f : Fld) (mag : Nat := 2 ^ 31) : Ent := ss acc f 2 125 mag

end Sys2Proof.Machine
end

