-- ==== Sys2Proof/Machine/Areas1.lean ====
section
/-! DEFINITION. The dictionary areas of spec/13, spec/14 and spec/01 to spec/08: 0x1000 to 0x12FF, 0x2000 to 0x25FF, 0x2800, 0x2900 and
0x5000. -/

namespace Sys2Proof.Machine

open F

/-! ### 0x1000, 0x1001, 0x1011 (spec/14) -/

/-- A string entry. -/
def str (l : List Nat) : Ent := ro l.length fun _ => leNat l

def area1000 : Nat → Option Ent := subs
  [str [0x4C, 0x65, 0x72, 0x6B, 0x75, 0x65, 0x74, 0x74, 0x65], str [0x45, 0x42, 0x39, 0x36, 0x31, 0x30],
   str [0x45, 0x6D, 0x70, 0x61, 0x62, 0x69, 0x6E], ro 4 fun _ => 0x4C45524B, ro 4 fun _ => 0x9610, ro 2 fun _ => 0x0A01,
   rf 4 xVer, ro 8 fun _ => Config.serial, ro 8 fun _ => Config.eui]

/-! ### CAN ports: 0x1140 (R650) -/

/-- The smallest BRP from `b` upward for which 250,000,000 / (BRP × rate) is an integer within bounds: BRP and N. -/
def findBrp (rate lo hi : Nat) : Nat → Nat → Option (Nat × Nat)
  | 0, _ => none
  | fuel + 1, b =>
    let d := b * rate
    if d ≠ 0 ∧ 250000000 % d = 0 ∧ lo ≤ 250000000 / d ∧ 250000000 / d ≤ hi then some (b, 250000000 / d)
    else findBrp rate lo hi fuel (b + 1)

/-- The rate that the timing fields give, and the sample point in percent. -/
def State.canRate (s : State) (p : Nat) (data : Bool) : Nat := roundDiv 250000000 (if data then s.datBit p else s.nomBit p)
def State.canPoint (s : State) (p : Nat) : Nat := roundDiv ((2 + s.rd (nNTseg1 p)) * 100) (3 + s.rd (nNTseg1 p) + s.rd (nNTseg2 p))

/-- The timing fields of a bit of N quanta (R650): TSEG2, TSEG1 and SJW in the fields given, and BRP. -/
def bitFlds (b n point : Nat) (seg2 seg1 sjw brp : Fld) : List (Fld × Nat) :=
  let t2 := roundDiv (n * (100 - point)) 100
  [(seg2, t2 - 1), (seg1, n - 2 - t2), (sjw, t2 - 1), (brp, b - 1)]

/-- The nominal timing for a rate and a sample point. -/
def nominalFlds (p rate point : Nat) : Option (List (Fld × Nat)) :=
  (findBrp rate 8 385 1024 1).map fun bn => bitFlds bn.1 bn.2 point (nNTseg2 p) (nNTseg1 p) (nNSjw p) (nNBrp p)

/-- The data timing; and TDCO, the data sample point in MCLK cycles. -/
def dataFlds (p rate point : Nat) : Option (List (Fld × Nat) × Nat) :=
  (findBrp rate 5 97 32 1).map fun bn =>
    (bitFlds bn.1 bn.2 point (nDTseg2 p) (nDTseg1 p) (nDSjw p) (nDBrp p), bn.1 * (bn.2 - roundDiv (bn.2 * (100 - point)) 100))

/-- Registers written in the order of their block, one per MCLK cycle, each with some of its fields replaced (R603); a value that a field
does not hold is OUT_OF_RANGE before any of them (R602). -/
def putAll (slot : Slot) (l : List (Nat × List (Fld × Nat))) (s : State) : Res :=
  if l.any fun r => r.2.any fun fv => decide (2 ^ fv.1.width ≤ fv.2) then (.outOfRange, s)
  else go l s
where
  go : List (Nat × List (Fld × Nat)) → State → Res
    | [], s => (.done, s)
    | (a, fs) :: t, s =>
      let r := putFlds slot a fs s
      if !r.1.ok || t.isEmpty then r else go t r.2.tick

/-- The data sample point in force, in MCLK cycles. -/
def State.dataPoint (s : State) (p : Nat) : Nat := (s.rd (nDBrp p) + 1) * (2 + s.rd (nDTseg1 p))

/-- The registers for a nominal and a data timing: CAN_CTRL and CAN_TDC only where the data rate is 2 Mbit/s or more (R650). -/
def setTiming (p rate : Nat) (nom : List (Fld × Nat)) (dat : List (Fld × Nat)) (tdco : Nat) (slot : Slot) (s : State) : Res :=
  let tdc := decide (2000000 ≤ rate)
  putAll slot (((if tdc then [(nBase p, [(nTdcEn p, 1)])] else []) ++ (if nom.isEmpty then [] else [(nBase p + 4, nom)]) ++
    (if dat.isEmpty then [] else [(nBase p + 8, dat)]) ++ (if tdc then [(nBase p + 0xC, [(nTdco p, tdco)])] else []))) s

def areaCan (p : Nat) : Nat → Option Ent := subs
  [uf 1 .rws (nEn p), uf 1 .rws (nMode p),
   .plain 4 .rws (fun s => s.canRate p false) fun k v s =>
     if v < 125000 ∨ 1000000 < v then (.outOfRange, s)
     else match nominalFlds p v (s.canPoint p) with
       | some l => setTiming p (s.canRate p true) l [] (s.dataPoint p) k s
       | none => (.outOfRange, s),
   .plain 4 .rws (fun s => s.canRate p true) fun k v s =>
     if v < s.canRate p false ∨ 5000000 < v then (.outOfRange, s)
     else match dataFlds p v (s.canPoint p) with
       | some (l, tdco) => setTiming p v [] l tdco k s
       | none => (.outOfRange, s),
   .plain 1 .rws (fun s => s.canPoint p) fun k v s =>
     if v < 50 ∨ 90 < v then (.outOfRange, s)
     else match nominalFlds p (s.canRate p false) v, dataFlds p (s.canRate p true) v with
       | some nom, some (dat, tdco) => setTiming p (s.canRate p true) nom dat tdco k s
       | _, _ => (.outOfRange, s),
   uf 1 .rws (nFdEn p), uf 1 .rws (nBrsEn p), uf 1 .rws (nAutoRecov p), uf 1 .rws (nNode p), uf 1 .rws (nMonitor p),
   uf 1 .rws (nTmEn p), uf 2 .rws (nTmPeriod p), uf 4 .rws (nTmOfs p),
   .num viaReg 4 .rws (nRxDly p) true false 0 (2 ^ 31) 2 125, uf 2 .rws (nHb p),
   ro 3 fun s => packRec [(1, s.rd (nTec p)), (1, s.rd (nRec p)), (1, s.rd (nEstate p))],
   ro 8 fun s => packRec [(2, s.rd (nUndef p)), (2, s.rd (nIgnored p)), (2, s.rd (nDtpBad p)), (2, s.rd (nTxBad p))],
   cmd [(1, fun k => opRecover k p), (2, fun k => opTmNow k p)]]

/-! ### Hosts, security, leases: 0x1100 to 0x12BF (spec/13) -/

/-- The group of a slot: 255 none. -/
def groupEnt (k : Nat) : Ent :=
  .plain 1 .rws (fun s => if slotGet k s (hGrpEn k) = 0 then 255 else slotGet k s (hGroup k)) fun slot v s =>
    let cur := s.slotWord k
    let w := if v = 255 then cur &&& (2 ^ 32 - 1 - 0x7800) else (cur &&& (2 ^ 32 - 1 - 0x7800)) + 0x4000 + v % 8 * 2 ^ 11
    if v ≠ 255 ∧ 7 < v then (.outOfRange, s) else writeReg slot (hBase k) w s

def areaSlot (k : Nat) : Nat → Option Ent :=
  let v := viaSlot k
  subs [uf 1 .rws (hEn k) v, uf 1 .rws (hSecure k) v, uf 1 .rws (hClass k) v, uf 1 .rws (hPort k) v, uf 1 .rws (hNode k) v,
    uf 1 .rws (hTarget k) v, groupEnt k, uf 1 .rws (hStgrp k) v, uf 1 .rws (hReach k) v, uf 1 .rws (hWake k) v, uf 1 .rws (hWgpio k) v,
    uf 2 .rws (hWakeHold k) v, uf 2 .rws (hHbMs k) v, rf 1 (hPresent k), rf 2 (hLast k)]

/-- The seen nodes of a CAN port: 256 flags. -/
def seenEnt (c : Nat) : Ent :=
  .plain 32 .rw (fun s => packRec ((List.range 8).map fun w => (4, s.rd (hSeen c w)))) fun k v s =>
    writeAll k writeReg ((List.range 8).map fun w => ((hSeen c w).addr, v / 2 ^ (32 * w) % 2 ^ 32)) s

def area1200 : Nat → Option Ent := subs [rf 1 xState, rf 1 xSeclock, rf 1 xBank, rf 4 xVer, rf 4 xMinVer]
def area1201 : Nat → Option Ent := subs
  [.plain 32 .rws (fun s => packRec ((List.range 8).map fun i => (4, s.rd (xKeyHash i)))) fun k v s =>
     writeAll k writeReg ((List.range 8).map fun i => ((xKeyHash i).addr, v / 2 ^ (32 * i) % 2 ^ 32)) s,
   wo 1 fun k v s => opLock k (v * 2 ^ 24 + 1) s]
def area1202 : Nat → Option Ent := subs
  [uf 4 .rws xFwOfs, cmd [(1, fun k => opFw k 1), (2, fun k => opFw k 2), (3, fun k => opFw k 3)], rf 2 xFwResult, uf 1 .rws xAdvance]
def areaLease (id : Nat) : Nat → Option Ent := subs
  [rf 1 (hOwner id), wo 4 fun k v s => opLease k id v s, rf 2 (hLeft id), ro 2 fun s => Assoc.get 0 id s.hst.leaseDur]

/-- Areas 0x1000 to 0x12FF, but for 0x1010. -/
def areas1 (i : Nat) : Option (Nat → Option Ent) :=
  if i = 0x1000 then some area1000
  else if i = 0x1001 then some (subs [ro 2 fun _ => 0x0100])
  else if i = 0x1011 then some (subs [clear1 1 .rw glbDnotice])
  else if i = 0x1100 then some (subs [.sized 1 .ro (fun k s => (.done, s, k.val)) fun _ _ s => (.readOnly, s)])
  else if among i 0x1110 16 then some (areaSlot (i - 0x1110))
  else if i = 0x1121 then some (subs [seenEnt 0, seenEnt 1])
  else if among i 0x1130 8 then some (subs [rf 2 (hReject (i - 0x1130)), rf 2 (hCrcErr (i - 0x1130)), rf 2 (hUnbound (i - 0x1130))])
  else if among i 0x1140 2 then some (areaCan (i - 0x1140))
  else if i = 0x1200 then some area1200
  else if i = 0x1201 then some area1201
  else if i = 0x1202 then some area1202
  else if among i 0x1220 160 && isLeaseId (i - 0x1220) then some (areaLease (i - 0x1220))
  else none

/-! ### Hub Time: 0x2000 (spec/01) -/

/-- The staged time; its seconds, nanoseconds and fraction go to their registers. -/
def stagedEnt : Ent :=
  .plain 12 .rws (fun s => words96 [s.rd htmSetSecLo, s.rd htmSetSecHi * 2 ^ 16 + s.rd htmSetFrac, s.rd htmSetNs]) fun k v s =>
    if 999999999 < t96Ns v then (.outOfRange, s)
    else writeAll k writeReg [(0x020010, t96Sec v % 2 ^ 32), (0x020014, t96Sec v / 2 ^ 32), (0x020018, t96Ns v), (0x02001C, t96Frac v)] s

/-- The reference offset in ppb as the staged HTM_INCR (R67). -/
def refOfsEnt : Ent :=
  .plain 4 .rws (fun s => toBits 32 (roundAway ((2 ^ 34 - (s.planIncr : Int)) * 1000000000) (2 ^ 34))) fun k v s =>
    let x := signedOf 32 v
    let i := (roundAway (2 ^ 34 * (1000000000 - x)) 1000000000).toNat
    if 1000000 < x.natAbs then (.outOfRange, s)
    else writeAll k writeReg [(0x020064, i % 2 ^ 32), (0x020068, i / 2 ^ 32)] s

/-- The step offset in ns: whole seconds and a remainder of its sign. -/
def stepEnt : Ent :=
  .plain 8 .rws (fun s => toBits 64 (s.rdS htmStepSec * 1000000000 + s.rdS htmStepNs)) fun k v s =>
    let x := signedOf 64 v
    let sec := x.tdiv 1000000000
    if signedOf 32 (toBits 32 sec) ≠ sec then (.outOfRange, s)
    else writeAll k writeReg [(0x020024, toBits 32 (x.tmod 1000000000)), (0x020028, toBits 32 sec)] s

def areas20 (i : Nat) : Option (Nat → Option Ent) :=
  match i with
  | 0x2000 => some (sub0 (ro 12 fun s => t96Of s.htm.time (s.qual false)))
  | 0x2001 => some fun k => if k = 0 then some (rf 1 htmTimeSet) else if k = 1 then some (rf 1 htmStepGen) else none
  | 0x2002 => some (subs [stagedEnt, uf 1 .rws htmSetApply, cmd [(1, opSet), (2, opCancelSet)]])
  | 0x2003 => some (subs
      [.plain 1 .rws (fun s => [10, 20, 25, 40].getD (s.rd htmPlanStage % 4) 0) fun k v s =>
         (match [10, 20, 25, 40].findIdx? fun x => x == v with
          | some c => putFld htmPlanStage (s.rd htmPlanStage / 4 * 4 + c) k s
          | none => (.outOfRange, s)),
       .plain 1 .rws (fun s => s.rd htmPlanStage / 4) fun k v s =>
         if 1 < v then (.outOfRange, s) else putFld htmPlanStage (v * 4 + s.rd htmPlanStage % 4) k s,
       refOfsEnt, cmd [(1, opPlanSwitch)]])
  | 0x2004 => some (subs [stepEnt, cmd [(1, opStep)]])
  | 0x2005 => some (subs [sf 4 .rws htmSlewOfs, uf 2 .rws htmSlewRate, ro 4 fun s => toBits 32 s.slewLeftNs,
      cmd [(1, opSlewStart), (2, opSlewAbort)]])
  | 0x2006 => some (subs [ro 4 fun s => toBits 32 (roundAway (((s.htm.incr : Int) - 2 ^ 34) * 1000000000) (2 ^ 34)),
      .plain 8 .rw (fun s => s.htm.incr) fun k v s =>
        if !s.hwDiscipline && (decide (v < incrMin) || decide (incrMax < v)) then (.outOfRange, s)
        else writeAll k writeReg [(0x020008, v % 2 ^ 32), (0x02000C, v / 2 ^ 32)] s])
  | _ => none

/-! ### Keep: 0x2100 (R111, R117) -/

/-- Writes that go through the keep window in order. -/
def keepAll (k : Slot) (l : List (Nat × Nat)) (s : State) : Res := writeAll k keepNow l s

/-- Sixteen backup registers, eight to an entry. -/
def backupEnt (acc : Acc) (from_ : Nat) : Ent :=
  .plain 32 acc (fun s => packRec ((List.range 8).map fun i => (4, s.mrd (kBkp (from_ + i))))) fun k v s =>
    keepAll k ((List.range 8).map fun i => ((kBkp (from_ + i)).addr, v / 2 ^ (32 * i) % 2 ^ 32)) s

def areaKalm (n : Nat) : Nat → Option Ent := subs
  [.plain 8 .rw (fun s => s.mrd (kAlmLo n) + s.mrd (kAlmHi n) * 2 ^ 32) fun k v s =>
     keepAll k [((kAlmLo n).addr, v % 2 ^ 32), ((kAlmHi n).addr, v / 2 ^ 32)] s,
   uf 4 .rw (kAlmPer n) viaKeep,
   .plain 1 .rw (fun s => s.mrd (kAlmEn n) + s.mrd (kAlmEvent n) * 2 + s.mrd (kAlmWakeHub n) * 4 + s.mrd (kAlmWakePin n) * 8)
     fun k v s => if 15 < v then (.outOfRange, s) else keepNow k (kAlmEn n).addr v s,
   .plain 1 .rw (fun s => s.mrd (kAlmFired n)) fun k v s =>
     if 1 < v then (.outOfRange, s)
     else
       let w := rmwWord s.mrd (keepFlds (kAlmEn n).addr) []
       keepNow k (kAlmEn n).addr (w + (1 - v) * 2 ^ 4) s]

def swrecEnt (n : Nat) : Ent :=
  ro 10 fun s => packRec [(4, s.mrd (kSwrecLo n)), (4, s.mrd (kSwrecHi n)), (2, s.mrd (kSwrecInfo n))]

/-- ppb in 2⁻⁴² (R117), and ppb a year in 2⁻⁴² a day. -/
def keepPpb (acc : Acc) (f : Fld) (mag : Nat) (yearly : Bool) : Ent :=
  if yearly then ss acc f (4 * 2 ^ 42) (1461 * 1000000000) mag viaKeep else ss acc f (2 ^ 42) 1000000000 mag viaKeep

def areas21 (i : Nat) : Option (Nat → Option Ent) :=
  if among i 0x2104 4 then some (areaKalm (i - 0x2104))
  else match i with
  | 0x2100 => some (sub0 (ro 8 fun s => s.keep.mCount))
  -- the VBAT state is that of the flags VBAT_LOW and VBAT_CRIT (DEDUCED, log 152)
  | 0x2101 => some (subs [ro 1 fun s => s.mrd kTimeValid, ro 1 fun s => s.mrd kOnVbat,
      ro 1 fun s => if s.mrd kVbatCrit = 1 then 2 else s.mrd kVbatLow])
  | 0x2102 => some (subs [uf 1 .rws kMode viaKeep, uf 1 .rws kSwMode viaKeep, coded 1 .rws kCl [6, 7, 9] viaKeep,
      uf 1 .rws kGAtFreeze viaKeep])
  | 0x2103 => some (subs [keepPpb .rws kTrimBase 488000 false,
      .num viaKeep 2 .rws kParaK false false 0 65535 (2 ^ 34) 100000000000,
      .num viaKeep 4 .rws kParaT0 true true (-40000) 105000 2 125, keepPpb .rws kAgeRate 100000 true,
      ro 2 fun s => s.mrd kAgeDays, cmd [(1, fun k => keepNow k 0x01000C 4)],
      ro 4 fun s => toBits 32 (roundAway (signedOf 32 (s.mrd kTrimTotal) * 1000000000) (2 ^ 42)),
      ro 4 fun s => toBits 32 (roundAway (signedOf 12 (s.mrd kTemp) * 125) 2)])
  | 0x2108 => some (subs ((List.range 4).map (fun n => uf 1 .rw (kKscfg n) viaKeep) ++ [cmd [(1, fun k => keepNow k 0x01000C 8)]]))
  | 0x2109 => some (subs [coded 1 .rws kChgEn [0, 0xA5] viaKeep, coded 1 .rws kChgVlim [30, 33] viaKeep,
      coded 2 .rws kChgRser [1500, 3000, 6000] viaKeep])
  | 0x210A => some (subs [backupEnt .rw 0, backupEnt .rws 8])
  | 0x210B => some (subs [cmd [(1, fun k => keepNow k 0x01000C 1), (2, fun k => keepNow k 0x01000C 2)]])
  | 0x210C => some (subs ((List.range 4).map swrecEnt))
  | _ => none

/-! ### Discipline and trim: 0x2200 (R306) -/

/-- ppb in 2⁻⁴², 4,398.05 to one. (DEDUCED, log 109.) -/
def ppb (acc : Acc) (f : Fld) (mag : Nat) : Ent := ss acc f 439805 100 mag
/-- 0.001 ppb, with a power of 2 over another. -/
def mppb (acc : Acc) (f : Fld) (mul div : Nat) : Ent := ss acc f (439805 * mul) (100000 * div)

/-- A field of HTM_DCTRL beside DSRC. -/
def viaDctrl : Via := (fun f v slot s => writeDctrl false slot (rmwWord s.rd (fldsAt f.addr) [(f, v)]) s, State.rd)

def areas22 (i : Nat) : Option (Nat → Option Ent) :=
  match i with
  | 0x2200 => some (subs [rf 1 dState, rs dPhase 16 1, rs dServo 439805 100, rf 4 dHoldUnc, rf 4 dHoldTime])
  | 0x2201 => some (subs [uf 1 .rws dSrc, uf 1 .rws dMode viaDctrl, uf 1 .rws dAutoAcq viaDctrl, uf 1 .rws dPpsPol viaDctrl,
      uf 1 .rws dZdaRel viaDctrl, coded 4 .rws dTodBaud [4800, 9600, 19200, 38400, 115200] viaDctrl, ps .rws dPpsDelay])
  | 0x2202 => some (subs [uf 2 .rws dKp, uf 2 .rws dKi, uf 4 .rws dServoMax, uf 2 .rws dLockThr, uf 1 .rws dLockN, uf 1 .rws dLossN,
      uf 2 .rws dUnlockThr, uf 2 .rws dPpsWin, uf 4 .rws dStepThr, cmd [(1, opDeclareLock), (2, opDeclareUnlock), (3, opIntegClear)]])
  | 0x2203 => some (subs [uf 2 .rws dHoldAvg, uf 2 .rws dHoldDrift, uf 4 .rws dHoldMax, uf 4 .rws dHoldLimit, rs dHoldFreq 439805 100])
  | 0x2204 => some (subs [uf 1 .rws tMode, uf 1 .rws tTsrc, ppb .rws tMainBase 488000, .num viaReg 4 .rws tT0 true true (-(2 ^ 31)) (2 ^ 31) 2 125,
      mppb .rws (tA 1) 1 16, mppb .rws (tA 2) 64 256, mppb .rws (tA 3) 16384 4096, ss .rws tAgeRate (439805 * 4) (100 * 1461) 100000,
      rs tMainTotal 439805 100])
  | 0x2205 => some (subs [uf 1 .rws tGmill, uf 4 .rws tGradius, mppb .rws tGsensMain 1 1, mppb .rws tGsensKeep 1 1,
      ro 4 fun s => roundDiv (s.rd tG * 1000) 16, uf 1 .rws tGlMain, uf 1 .rws tGlKeep, uf 2 .rws tGlWin,
      coded 1 .rws tGain [1, 2, 4, 8], ro 1 fun s => s.rd tUnobsMain + s.rd tUnobsKeep * 2])
  | 0x2206 => some (subs [uf 1 .rws tKcalAuto, uf 2 .rws tKcalWin, cmd [(1, opKcalMeasure), (2, opFold)], rs tKmeas 439805 100000,
      ro 4 fun s => toBits 32 (roundAway (s.rdS tKmeasTemp * 125) 2)])
  | _ => none

/-! ### Calendar and reference outputs: 0x2300, 0x2580 (R336) -/

def areaAlm (n : Nat) : Nat → Option Ent := subs
  [regEnt .rw (cAlmDate n).addr, regEnt .rw (cAlmTime n).addr, uf 1 .rw (cAlmScale n), uf 1 .rw (cAlmMask n),
   .plain 1 .rw (fun s => s.rd (cAlmEn n) + s.rd (cAlmOneshot n) * 2) fun k v s =>
     if 3 < v then (.outOfRange, s) else putFlds k (cAlmEn n).addr [(cAlmEn n, v % 2), (cAlmOneshot n, v / 2)] s,
   ro 8 fun s => s.almNext n,
   .plain 1 .rw (fun s => s.rd (cAlmFired n) + s.rd (cAlmLate n) * 2 + s.rd (cAlmNever n) * 4) fun k v s =>
     let w := rmwWord s.rd (fldsAt (cAlmEn n).addr) []
     writeReg k (cAlmEn n).addr (w + (1 - v % 2) * 2 ^ 13 + (1 - v / 2 % 2) * 2 ^ 14) s]

/-- A half-period in 2⁻¹⁶ ns, and the frequency of one in mHz. -/
def hpOf (f : Nat) : Nat := roundDiv (500000000000 * 2 ^ 16) f
def hpFreq (hp : Nat) : Nat := roundDiv (500000000000 * 2 ^ 16) hp

/-- The frequency written, and the actual one, of the half-period in force: of a stopped output the one it starts with (R334, R336). -/
def State.clkFreq (s : State) (n : Nat) : Nat := hpFreq (s.rd (cClkHpNs n) * 2 ^ 16 + s.rd (cClkHpFrac n))
def State.clkActual (s : State) (n : Nat) : Nat :=
  let x := s.clk n
  hpFreq (if s.cal.on.testBit (2 + n) then x.hp else x.pend.getD x.hp)

def areaClk (n : Nat) : Nat → Option Ent := subs
  [uf 1 .rws (cClkEn n), uf 1 .rws (cClkGate n), uf 1 .rws (cClkPol n), uf 1 .rws (cClkAlign n),
   .plain 8 .rws (fun s => s.clkFreq n) fun k v s =>
     if v < 1000 ∨ 62500000000 < v then (.outOfRange, s)
     else writeAll k writeReg [((cClkHpFrac n).addr, hpOf v % 2 ^ 16), ((cClkHpNs n).addr, hpOf v / 2 ^ 16)] s,
   ps .rws (cClkPhase n), ro 8 fun s => s.clkActual n]

def areas23 (i : Nat) : Option (Nat → Option Ent) :=
  if among i 0x2310 8 then some (areaAlm (i - 0x2310))
  else if among i 0x2584 4 then some (areaClk (i - 0x2584))
  else match i with
  | 0x2300 => some (subs ((List.range 4).map fun j => rf 4 (cView (j + 1))))
  | 0x2301 => some (subs [rf 1 cTaiUtc, ro 8 fun s => s.rd cLeapNextLo + s.rd cLeapNextHi * 2 ^ 32, rf 1 cLeapSoon])
  | 0x2302 => some (subs ((List.range 32).map fun j => regEnt .rws (cLeapMjd j).addr))
  | 0x2303 => some (subs [.num viaReg 4 .rws cLocalOfs true true (-900) 900 1 1, .num viaReg 4 .rws cLocalNext true true (-900) 900 1 1,
      pairEnt .rws 0x030038 0x03003C 16, cmd [(1, fun k s => opLocalArm k (s.rd cLocalAtHi) s), (2, opCancelLocal)]])
  | 0x2580 => some (subs [uf 1 .rws cPpsEn, uf 1 .rws cPpsGate, uf 1 .rws cPpsPol, uf 4 .rws cPpsWidth, ps .rws cPpsOfs])
  | 0x2581 => some (subs [uf 1 .rws cIrigEn, uf 1 .rws cIrigGate, uf 1 .rws cIrigPol, coded 1 .rws cIrigFmt [2, 3, 6, 7],
      uf 1 .rws cIrigScale, ps .rws cIrigOfs])
  | 0x2582 => some (subs [coded 1 .rws cInFmt [2, 6], uf 1 .rws cInScale, uf 1 .rws cInPol, rf 2 cInGood, rf 2 cInBad, rf 8 cInLast])
  | 0x2588 => some (subs [cmd [(1, opClkResync)]])
  | _ => none

/-! ### Stamp inputs and timed outputs: 0x2400, 0x2500 (R382) -/

/-- A deglitch in ns (R382, R422, R465): 0, or 4 to 60 in steps of 4. -/
def dglEnt (f : Fld) : Ent :=
  .plain 1 .rw (fun s => viaReg.2 s f * 4)
    fun k v s => if v ≠ 0 ∧ (v < 4 ∨ 60 < v) then (.outOfRange, s) else viaReg.1 f (roundDiv v 4) k s

def areaStp (n : Nat) : Nat → Option Ent := subs
  [uf 1 .rw (sEdge n), dglEnt (sDgl n), uf 1 .rw (sAngle n), uf 1 .rw (sMill n), ps .rw (sSkew n) 2048000, uf 1 .rw (sWake n),
   uf 1 .rw (sMode n), rf 2 (sDropped n), rf 2 (sNoacq n), rf 2 (sNapLost n),
   .sized 12 .ro (fun _ s => (.done, s.setStin n { s.stin n with unread := false }, words96 ((List.range 3).map fun i => s.rd (sLast n i))))
     fun _ _ s => (.readOnly, s)]

/-- The 15 or 19 bytes of an entry as they stand: KIND, ACTION, MILL, target, WIDTH. -/
def State.touRec (s : State) (n e : Nat) : Nat :=
  let head := [(1, s.rd (oKind n e)), (1, s.rd (oAction n e)), (1, s.rd (oMill n e))]
  let target :=
    if s.on (oKind n e) then [(4, s.rd (oW2 n e)), (4, s.rd (oW1 n e))]
    else [(4, s.rd (oW1 n e)), (4, s.rd (oW2 n e) % 2 ^ 16 * 2 ^ 16 + s.rd (oFrac n e) * 2 ^ 12), (4, s.rd (oNs n e))]
  packRec (head ++ target ++ [(4, s.rd (oWidth n e))])

/-- A write of an entry: KIND decides its length. -/
def touRecWrite (n e : Nat) (k : Slot) (bs : List Nat) (s : State) : Res :=
  let b := fun i => bs.getD i 0
  let kind := b 0
  let t := leNat ((bs.drop 3).take (if kind = 0 then 12 else 8))
  let width := leNat (bs.drop (if kind = 0 then 15 else 11))
  if bs.length ≠ (if kind = 0 then 19 else 15) then (.badLength, s)
  else if 1 < kind ∨ 3 < b 1 ∨ 15 < b 2 ∨ 2 ^ 30 ≤ width then (.outOfRange, s)
  else
    let w0 := b 1 * 2 ^ 6 + kind * 2 ^ 4 + b 2
    let target :=
      if kind = 0 then [t96Sec t % 2 ^ 32, t96Sec t / 2 ^ 32, t96Ns t, t96Frac t / 2 ^ 12] else [t / 2 ^ 32, t % 2 ^ 32, 0, 0]
    writeAll k writeReg (([w0] ++ target ++ [width]).zipIdx.map fun vi => (oEntBase n e + 4 * vi.2, vi.1)) s

def touRecEnt (s : State) (n e : Nat) : Ent :=
  { size := if s.on (oKind n e) then 15 else 19, acc := .rw, read := fun _ s => (.done, s, s.touRec n e), write := touRecWrite n e }

def areas24 (s : State) (i : Nat) : Option (Nat → Option Ent) :=
  if among i 0x2400 64 then some (areaStp (i - 0x2400))
  else if i = 0x2440 then some (subs [rf 2 sCalCnt, ro 8 fun s => s.rd (sUncal 0) + s.rd (sUncal 1) * 2 ^ 32])
  else if among i 0x2500 32 then
    let n := i - 0x2500
    some (subs [uf 1 .rw (oEn n), uf 1 .rw (oMode n), uf 1 .rw (oSrc n), uf 1 .rw (oIdle n), uf 1 .rw (oDropLate n), uf 1 .rw (oForce n),
      uf 1 .rw (oEvtDone n), ps .rw (oSkew n) 2048000, ro 4 fun s => packWord s.rd ((List.range 8).map (oState n))])
  else if among i 0x2520 32 then
    let n := i - 0x2520
    some (subs ((List.range 8).map (touRecEnt s n) ++ [wo 1 fun k v s => opTouArm k n v s, wo 1 fun k v s => opTouCancel k n v s]))
  else none

/-! ### Sequencer: 0x2800 (R186) -/

/-- µV at the sense pins, in 500 µV. -/
def uv (f : Fld) : Ent := us 4 .rws f 1 500
/-- A level in percent, 1 to 100. -/
def pct (f : Fld) : Ent := us 1 .rws f 1 1 100 1

/-- The flags of a rail. -/
def railFlags (n : Nat) : Ent :=
  .plain 1 .rws (fun s => s.rd (qHubOwn n) + s.rd (qDisEn n) * 2 + s.rd (qAbortShort n) * 4 + s.rd (qPgMode n) * 8) fun k v s =>
    if 31 < v ∨ (qPgMode n).isReserved (v / 8) then (.outOfRange, s)
    else putFlds k (qHubOwn n).addr [(qHubOwn n, v % 2), (qDisEn n, v / 2 % 2), (qAbortShort n, v / 4 % 2), (qPgMode n, v / 8)] s

def areaRail (n : Nat) : Nat → Option Ent := subs
  [.plain 1 .rws (fun s => if s.rd (qRailStep n) = 0x1F then 255 else s.rd (qRailStep n)) fun k v s =>
     if v = 255 then putFld (qRailStep n) 0x1F k s else if 15 < v then (.outOfRange, s) else putFld (qRailStep n) v k s,
   uf 1 .rws (qGroup n), uf 4 .rws (qDep n), uv (qTarget n), uv (qUvFault n), uv (qUvWarn n), uv (qOvWarn n), uv (qOvFault n),
   pct (qUpPct n), pct (qShortPct n), pct (qDisPct n), uf 2 .rws (qRampTo n), us 2 .rws (qShortT n) 1 100, uf 2 .rws (qMinOff n),
   uf 2 .rws (qDownTo n), us 2 .rws (qFilt n) 1 100 700, railFlags n, rf 1 (qState n)]

/-- (DEDUCED, log 114; DEDUCED, log 156.) -/
def areas28 (i : Nat) : Option (Nat → Option Ent) :=
  if among i 0x2810 16 then some (subs [us 2 .rws (qDwell (i - 0x2810)) 1 100 25500, uf 2 .rws (qGate (i - 0x2810))])
  else if among i 0x2820 4 then
    some (subs [uf 1 .rws (qHrstGroup (i - 0x2820)), uf 1 .rws (qHrstDelay (i - 0x2820)), uf 1 .rws (qHrstEn (i - 0x2820))])
  else if among i 0x2824 4 then some (subs [uf 1 .rws (qWakeGroup (i - 0x2824)), uf 1 .rws (qWakeEn (i - 0x2824))])
  else if among i 0x2840 24 then some (areaRail (i - 0x2840))
  else match i with
  | 0x2800 => some (subs [ro 1 fun s => s.rd qKind * 32 + s.rd qDir * 16 + s.rd qStep, ro 4 State.lastOffWord])
  | 0x2801 => some (subs [uf 1 .rws qMode, uf 1 .rws qMaster, uf 1 .rws qAutoStart, uf 1 .rws qHoldupEn, uf 1 .rws qStartDelay,
      uf 1 .rws qPbLong, uf 1 .rws qGateTo, uf 1 .rws qRetry, uf 1 .rws qRetryDelay])
  | 0x2802 => some (subs [cmd [(1, opUp), (2, opDown), (3, fun k s => opRelease k s.dict.stepArg s),
        (4, fun k s => opForceOff k (s.draw.1 % 2 ^ 24) s.draw.2), (5, opCommit), (6, opPlanDiscard)],
      wo 1 fun _ v s => if 15 < v then (.outOfRange, s) else (.done, { s with dict := { s.dict with stepArg := v } })])
  | 0x2803 => some (subs [uv qVinWarn, uv qVinFault, uv qVinHyst])
  | 0x2804 => some (subs [uf 1 .rws qGrpAuto, rf 1 qGrpUp, rf 1 qDegraded,
      wo 1 fun k v s => if 7 < v then (.outOfRange, s) else opGroupUp k v s,
      wo 1 fun k v s => if 7 < v then (.outOfRange, s) else opGroupDown k v s])
  | 0x2805 => some (subs [clear1 4 .rw qNotUp, clear1 4 .rw qShort, clear1 4 .rw qNotDown, clear1 4 .rw qWarn])
  | _ => none

/-! ### Monitor and Mortar log: 0x2900, 0x5000 (R225) -/

/-- A rail's voltage in µV (R192). -/
def State.railUv (s : State) (n : Nat) : Nat := roundDiv (s.rd (mRead n) * 500 * s.rd (mRailScale n)) 4096
/-- A temperature reading in m°C (R194). -/
def tempEnt (k : Nat) : Ent := ro 4 fun s => toBits 32 (roundAway (s.rdS (mRead k) * 125) 2)
/-- A divider ratio in 0.001. -/
def ratio (f : Fld) : Ent := us 4 .rws f 4096 1000 15999 1000

/-- The state of a log slot: empty, committed, torn, or being written. -/
def State.logState (s : State) (n : Nat) : Nat :=
  if s.mon.writing.isSome && n == s.mon.head then 3 else if s.logEmpty n then 0 else if committed (s.logSlot n) then 1 else 2

def areas29 (i : Nat) : Option (Nat → Option Ent) :=
  if among i 0x5000 2048 then
    let n := i - 0x5000
    some fun k =>
      if k = 0 then some (ro 128 fun s => packRec ((List.range 32).map fun i => (4, s.logRead (n * 32 + i))))
      else if k = 1 then some (ro 4 fun s => (s.logSlot n).headD 0)
      else if k = 2 then some (ro 1 fun s => s.logState n)
      else none
  else match i with
  | 0x2900 => some (subs ((List.range 24).map fun n => ro 4 fun s => s.railUv n))
  | 0x2901 => some (subs [ro 4 fun s => roundDiv (s.rd (mRead 24) * 500 * s.rd mVinScale) 4096, ro 4 fun s => s.rd (mRead 25) * 1000,
      ro 4 fun s => s.rd (mRead 26) * 1000, tempEnt 27, tempEnt 28])
  | 0x2902 => some (subs ((List.range 24).map (fun n => ratio (mRailScale n)) ++ [ratio mVinScale]))
  | 0x2903 => some (subs [uf 1 .rws mLogMode, uf 1 .rws mPolicy, us 4 .rws mSnapPer 1 10 655350, uf 2 .rws mScanDiv, uf 1 .rws mWarnN,
      uf 1 .rws mVcoreRail, uf 1 .rws mLogMask, uf 4 .rws mXtEn, us 4 .rws mEta (2 ^ 14) 1000000, us 2 .rws mVinFilt 1 100 700])
  | 0x2904 => some (subs [ro 4 fun s => s.mon.head, ro 4 fun s => s.mon.seq, ro 4 State.logCount, rf 4 mDropCnt])
  | 0x2905 => some (subs [cmd [(1, opSnap), (2, fun _ => opScanNow), (3, opClear)]])
  | _ => none

end Sys2Proof.Machine
end

