-- ==== Sys2Proof/Machine/Areas2.lean ====
section
/-! DEFINITION. The dictionary areas of spec/09 to spec/16: 0x2600, 0x2700, 0x2A00 to 0x2E00, 0x3000, 0x4000, and of spec/14: the expert
windows from 0x6000 and the integrator parameters from 0x7000. -/

namespace Sys2Proof.Machine

open F

/-! ### Timers: 0x2600 (R465) -/

/-- Pins of a timer: PDIR, IDLE and FORCE of both. -/
def gtPinsEnt (n : Nat) : Ent :=
  .plain 1 .rw
    (fun s => s.rd (gPdir n 0) + s.rd (gPdir n 1) * 2 + s.rd (gIdle n 0) * 4 + s.rd (gIdle n 1) * 8 + s.rd (gForce n 0) * 16 +
      s.rd (gForce n 1) * 32)
    fun k v s =>
      if 63 < v then (.outOfRange, s)
      else
        let r := putFlds k (gBase n + 0x10) [(gPdir n 0, v % 2), (gPdir n 1, v / 2 % 2), (gIdle n 0, v / 4 % 2), (gIdle n 1, v / 8 % 2)] s
        if r.1.ok then writeReg k (gBase n + 0x2C) (v / 16) r.2.tick else r

def areaGt (n : Nat) : Nat → Option Ent := subs
  [uf 1 .rw (gMode n), uf 1 .rw (gRun n), uf 1 .rw (gReload n), uf 1 .rw (gRearm n), uf 1 .rw (gMakeup n), uf 1 .rw (gSrc n),
   uf 4 .rw (gDiv n), uf 1 .rw (gMill n), uf 1 .rw (gEpin n), uf 1 .rw (gEedge n),
   .plain 8 .rw (fun s => s.rd (gLimLo n) + s.rd (gLimHi n) * 2 ^ 32) fun k v s =>
     if v = 0 ∧ !s.on (gRun n) then (.outOfRange, s)
     else writeAll k writeReg [((gLimLo n).addr, v % 2 ^ 32), ((gLimHi n).addr, v / 2 ^ 32)] s,
   uf 1 .rw (gSlave n), uf 1 .rw (gTrgSel n), uf 1 .rw (gTrgoSel n), ro 8 fun s => (s.gt n).count,
   pairEnt .rw (gLoadLo n).addr (gLoadHi n).addr, gtPinsEnt n,
   cmd [(1, fun k => opGtStart k n), (2, fun k => opGtStop k n), (3, fun k => opGtLoad k n), (4, fun k => opGtApply k n),
     (5, fun k => opGtDiscard k n), (6, fun k => opCapFlush k n)],
   rf 1 (gState n)]

/-- A value that the register refuses as a reserved encoding has the register's result (R465, R767); every other is the entry's. -/
def Ent.orReg (e : Ent) (p : State → Nat → Bool) (put : Slot → Nat → State → Res) : Ent :=
  { e with write := fun k bs s => if bs.length = e.size ∧ p s (leNat bs) then put k 0 s else e.write k bs s }

def areaCmp (n k : Nat) : Nat → Option Ent := subs
  [uf 1 .rw (gCmpEn n k), uf 1 .rw (gCmpAct n k), uf 1 .rw (gCmpOut n k), uf 1 .rw (gCmpTout n k),
   (us 4 .rw (gCmpPw n k) 1 8 524280 8).orReg (fun s v => decide (v < 4) && s.rd (gCmpAct n k) == 4) fun slot _ => putFld (gCmpPw n k) 0 slot,
   .plain 8 .rw (fun s => s.gtCmp n k) fun slot v s =>
     writeAll slot writeReg [(gCmpBase n k + 4, v % 2 ^ 32), (gCmpBase n k + 8, v / 2 ^ 32)] s,
   uf 4 .rw (gCmpPer n k)]

/-- The head of a capture queue: the read removes the entry (R449). -/
def capHeadEnt (n c : Nat) : Ent :=
  .sized 20 .ro (fun _ s =>
      let h := s.capHead n c
      match s.capPop n c with
      | (some _, s1) => (.done, s1, words96 (time96 h.t h.qual) + 2 ^ 96 * h.count)
      | (none, s1) => (.empty, s1, 0))
    fun _ _ s => (.readOnly, s)

def areaCap (n c : Nat) : Nat → Option Ent := subs
  [uf 1 .rw (gCapEn n c), uf 1 .rw (gCapSrc n c), us 1 .rw (gCapEdge n c) 1 1 3, us 1 .rw (gCapDgl n c) 1 4 60, uf 1 .rw (gCapSpill n c),
   ro 1 fun s => (Assoc.get [] c (s.gt n).caps).length, capHeadEnt n c]

def areas26 (i : Nat) : Option (Nat → Option Ent) :=
  if among i 0x2600 16 then some (areaGt (i - 0x2600))
  else if among i 0x2610 64 then some (areaCmp ((i - 0x2610) / 4) ((i - 0x2610) % 4))
  else if among i 0x2650 32 then some (areaCap ((i - 0x2650) / 2) ((i - 0x2650) % 2))
  else none

/-! ### Mills: 0x2700 (R422) -/

/-- µrev in 2⁻³² rev. -/
def murev (f : Fld) : Ent := us 4 .rw f (2 ^ 32) 1000000

/-- A Q16.16 value of `num` value units to `den` register units; none where it does not fit. -/
def toQ16 (x : Int) (num den : Nat) : Option Nat :=
  let y := roundAway (x * num) den
  if signedOf 32 (toBits 32 y) = y then some (toBits 32 y) else none

/-- MIL_INJ: epoch, angle, speed, acceleration, hold. -/
def injectEnt (m : Nat) : Ent :=
  .plain 30 .rw
    (fun s => packRec [(4, s.rd (lInjSecLo m)), (2, 0), (2, s.rd (lInjSecHi m)), (4, s.rd (lInjNs m)), (4, s.rd (lInj m 1)), (4, s.rd (lInj m 0)),
      (4, toBits 32 (roundAway (s.rdS (lInj m 2) * 60000) 65536)), (4, toBits 32 (roundAway (s.rdS (lInj m 3) * 1000) 65536)),
      (2, s.rd (lInjHold m))])
    fun k v s =>
      let at_ := fun lo n => v / 256 ^ lo % 256 ^ n
      match toQ16 (signedOf 32 (at_ 20 4)) 65536 60000, toQ16 (signedOf 32 (at_ 24 4)) 65536 1000 with
      | some w, some a =>
        if 999999999 < t96Ns v then (.outOfRange, s)
        else
          let l := [t96Sec v % 2 ^ 32, t96Sec v / 2 ^ 32, t96Ns v, at_ 16 4, at_ 12 4, w, a, at_ 28 2]
          writeAll k writeReg (l.zipIdx.map fun vi => (lBase m + 0xA0 + 4 * vi.2, vi.1)) s
      | _, _ => (.outOfRange, s)

def areaMil (m : Nat) : Nat → Option Ent := subs
  [uf 1 .rw (lEn m), uf 1 .rw (lMode m), uf 1 .rw (lSrc m), coded 1 .rw (lEdges m) [1, 2, 4], us 4 .rw (lN m) 1 1 16777216 1,
   uf 1 .rw (lMissing m), uf 1 .rw (lZref m), uf 1 .rw (lDirSrc m), uf 1 .rw (lReverse m), dglEnt (lDgl m), uf 2 .rw (lBw m),
   us 4 .rw (lAcqTol m) (2 ^ 16) 1000000, uf 1 .rw (lAcqN m), murev (lZero m), uf 2 .rw (lStallT m), murev (lMarkAng m),
   .plain 1 .rw (fun s => s.rd (lQen m 0) + s.rd (lQen m 1) * 2 + s.rd (lQen m 2) * 4) fun k v s =>
     if 7 < v then (.outOfRange, s)
     else putFlds k (lQdiv m).addr [(lQen m 0, v % 2), (lQen m 1, v / 2 % 2), (lQen m 2, v / 4)] s,
   uf 2 .rw (lQdiv m),
   cmd [(1, fun k => opMillApply k m), (2, fun k => opMillDiscard k m), (3, fun k => opInject k m)],
   ro 8 fun s => angle64 (s.evalMill m s.htm.time).th,
   ro 4 fun s => toBits 32 (satS 32 (roundAway ((s.evalMill m s.htm.time).w * 60000) revU)),
   ro 4 fun s => toBits 32 (satS 32 (roundAway ((s.evalMill m s.htm.time).a * 1000) revU)),
   ro 2 fun s => s.peekWord 16 (lBase m + 0x24) % 2 ^ 9,
   ro 8 fun s => s.peekWord 16 (lBase m + 0x2C) + s.peekWord 16 (lBase m + 0x30) * 2 ^ 32,
   injectEnt m]

def areas27 (i : Nat) : Option (Nat → Option Ent) := if among i 0x2700 16 then some (areaMil (i - 0x2700)) else none

/-! ### Events: 0x2A00 -/

/-- A source's PRIO and TMASK. -/
def sourceEnt (n : Nat) : Ent :=
  .plain 2 .rw (fun s => s.rd (iPrio n) * 2 ^ 8 + s.rd (iTmask n)) fun k v s =>
    writeReg k (iPrio n).addr (v / 2 ^ 8 * 2 ^ 16 + v % 2 ^ 8) s

/-- A mask of the 512 sources. -/
def maskEnt (p : State → Nat → Bool) : Ent := ro 64 fun s => packRec ((List.range 16).map fun w => (4, sourceWord (p s) w))

def latchedEnt : Ent :=
  .plain 64 .rw (fun s => packRec ((List.range 16).map fun w => (4, s.rd (iLatch w)))) fun k v s =>
    writeAll k writeReg ((List.range 16).map fun w => ((iLatch w).addr, v / 2 ^ (32 * w) % 2 ^ 32)) s

def areas2A (i : Nat) : Option (Nat → Option Ent) :=
  if among i 0x2A10 8 then
    let t := i - 0x2A10
    some (subs [uf 1 .rws (iSecure t), uf 1 .rw (iMode t), uf 1 .rw (iGdis t), uf 1 .rw (iQlimit t), uf 1 .rw (iWakeEn t), uf 1 .rw (iWakePrio t),
      ro 8 fun s => s.tgtStat t + s.runPrioWord t * 2 ^ 32, rf 2 (iSpur t), cmd [(1, fun k => opTargetReset k t)]])
  else match i with
  | 0x2A00 => some (subs [uf 1 .rws iPrigrp, clear1 1 .rw iNotice, clear1 1 .rws iLbrk])
  | 0x2A80 => some fun k => if k < 256 then some (sourceEnt k) else none
  | 0x2A81 => some fun k => if k < 256 then some (sourceEnt (256 + k)) else none
  | 0x2A90 => some (subs [maskEnt State.raised, maskEnt State.pendingAny, maskEnt State.queued, maskEnt State.active, latchedEnt])
  | _ => none

/-! ### Mailboxes and rings: 0x2B00, 0x2C00 -/

/-- A post: a Pinch of 4 bytes, a Sachet of 8. -/
def postEnt (s : State) (c : Nat) : Ent :=
  if s.on (bForm c) then wo 8 fun k v s => opSachetPost k c (v % 2 ^ 32) (v / 2 ^ 32) s else wo 4 fun k v s => opPinchPost k c v s

def takeEnt (c : Nat) : Ent :=
  .sized 12 .ro (fun k s => let r := opMbxTake k c s; (r.1, r.2.1, words96 r.2.2)) fun _ _ s => (.readOnly, s)

def areaMbx (s : State) (c : Nat) : Nat → Option Ent := subs
  [uf 1 .rws (bEn c), uf 1 .rws (bForm c), uf 1 .rws (bWake c), uf 1 .rws (bSend c), uf 1 .rws (bRecv c),
   .plain 1 .rws (fun s => s.rd (bMailIe c) + s.rd (bSpaceIe c) * 2 + s.rd (bAckIe c) * 4) fun k v s =>
     if 7 < v then (.outOfRange, s) else putFlds k (bBase c) [(bMailIe c, v % 2), (bSpaceIe c, v / 2 % 2), (bAckIe c, v / 4)] s,
   rf 1 (bState c), rf 2 (bRet c), postEnt s c, takeEnt c, wo 4 fun k v s => opMbxCmd k c v s]

/-- Channels 32 to 63 do not exist for a non-secure slot (R530). -/
def areas2B (slot : Nat) (s : State) (i : Nat) : Option (Nat → Option Ent) :=
  if among i 0x2B00 64 && s.chanSeen slot (i - 0x2B00) then some (areaMbx s (i - 0x2B00))
  else if i = 0x2B40 then some (subs [.sized 8 .ro (fun k s => (.done, s, s.attnMask k.val)) fun _ _ s => (.readOnly, s)])
  else none

/-- A ring's size in bytes. -/
def ringSizeEnt (r : Nat) : Ent :=
  .plain 4 .rws (fun s => 2 ^ s.rd (rSize r)) fun k v s =>
    match (List.range 13).find? fun i => 2 ^ (i + 6) == v with
    | some i => putFld (rSize r) (i + 6) k s
    | none => (.outOfRange, s)

/-- A ring's item size: 0 for variable items. -/
def ringItemEnt (r : Nat) : Ent :=
  .plain 2 (if 44 ≤ r then .rws else .ro) (fun s => if s.on (rVar r) then 0 else 4 * 2 ^ s.rd (rIsz r)) fun k v s =>
    if v = 0 then putFld (rVar r) 1 k s
    else match (List.range 7).find? fun i => 4 * 2 ^ i == v with
      | some i => putFlds k (rBase r) [(rVar r, 0), (rIsz r, i)] s
      | none => (.outOfRange, s)

/-- (DEDUCED, log 115.) -/
def areaRing (r : Nat) : Nat → Option Ent := subs
  [uf 1 .rws (rEn r), uf 1 .rws (rSecure r), uf 1 .rws (rPolicy r), ringSizeEnt r,
   .plain 4 .rws (fun s => s.rd (rOfs r) * 64) fun k v s =>
     if v % 64 ≠ 0 ∨ 2 ^ 20 ≤ v then (.outOfRange, s) else putFld (rOfs r) (v / 64) k s,
   ringItemEnt r, uf 1 .rws (rProd r), uf 1 .rws (rCons r), uf 4 .rw (rThr r), ro 4 fun s => s.fill r, rf 4 (rDropped r), rf 4 (rPcount r),
   cmd [(1, fun k => opFlush k r)]]

def areas2C (i : Nat) : Option (Nat → Option Ent) :=
  if among i 0x2C00 48 then some (areaRing (i - 0x2C00))
  else if among i 0x2C40 64 then
    let k := i - 0x2C40
    some (subs [uf 4 .rws (sbufRd k), uf 4 .rws (sbufWr k), uf 1 .rws (sbufSecure k)])
  else none

/-! ### Partners: 0x2D00, 0x3000 (R683) -/

/-- µs in units of 100 µs. -/
def us100 (f : Fld) : Ent := us 4 .rws f 1 100

def area2D02 : Nat → Option Ent := subs
  [uf 4 .rws pRptDiv, uf 4 .rws pRptSlots, us100 pRptStart, us100 pRptLen, us100 pRbStart, us100 pRbLen, uf 4 .rws pRbCount, us100 pFwdStart,
   us100 pFwdLen, us100 pDiscStart, us100 pDiscLen, uf 4 .rws pDiscDiv, uf 4 .rws pAbsentN, uf 4 .rws pGrace,
   cmd [(1, opLayoutApply), (2, opLayoutDiscard)]]

/-- An entry of the partner table; a partner without a relay slot reads 0xFF. -/
def areaPtn (a : Nat) : Nat → Option Ent :=
  let g := fun (n : Nat) (f : Partner → Nat) => ro n fun s => f (s.ptr a)
  subs [g 1 (·.state), g 8 (·.eui), g 1 (·.port), g 1 (·.depth), g 2 (·.parent), g 1 (·.relay.isSome.toNat), g 1 (·.phase), g 1 (·.slot),
    g 1 (fun x => if x.state = 0 then 0 else x.relay.getD 0xFF), g 8 (fun x => toBits 64 x.offset), g 4 (fun x => toBits 32 x.rate), g 4 (fun x => toBits 32 x.delay),
    g 12 (fun x => words96 x.last), g 1 (·.miss), g 8 (fun x => packRec [(2, x.reports), (2, x.missed), (2, x.fwd), (2, x.bad)]), g 1 (·.lqi),
    g 2 (·.batt), g 4 (fun x => toBits 32 (roundAway (signedOf 16 x.temp * 125) 2)), g 1 (·.flags), g 2 (·.cls)]

def areas2D (i : Nat) : Option (Nat → Option Ent) :=
  if among i 0x2D10 8 then
    let p := i - 0x2D10
    some (subs [clear1 2 .rw (pEvt p), rf 2 (pUndef p), rf 2 (pBadHdr p), rf 2 (pSeq p), rf 2 (pSkips p)])
  else if among i 0x3000 0x1000 then if isShort (i - 0x3000) then some (areaPtn (i - 0x3000)) else none
  else match i with
  | 0x2D00 => some (subs [uf 1 .rws pEn, uf 1 .rws pJoinMode, uf 1 .rws pOfsMode, uf 1 .rws pJoinOpen, uf 1 .rws pPorts, uf 2 .rws pPan,
      uf 2 .rws pBp, uf 4 .rws pBofs])
  | 0x2D01 => some (subs ((List.range 4).map fun j => uf 1 .rws (pMill j)))
  | 0x2D02 => some area2D02
  | 0x2D03 => some (subs ([pAbsTo, pQuar, pAppTo, pMax, pRgain, pHopDly, pOfsLim, pRateLim].map fun f => uf 4 .rws f))
  | 0x2D04 => some (subs [ro 4 fun s => packRec [(1, s.rd pLgen), (1, s.ptn.tickets.length), (2, s.ptnCount)], wo 4 fun k v s => opPtnCmd k v s])
  | _ => none

/-! ### Radio ports and sweeps: 0x2E00, 0x4000 (R721) -/

/-- Words of consecutive registers. -/
def wordsEnt (acc : Acc) (a n : Nat) : Ent :=
  .plain (4 * n) acc (fun s => packRec ((List.range n).map fun i => (4, s.peekWord 16 (a + 4 * i)))) fun k v s =>
    writeAll k writeReg ((List.range n).map fun i => (a + 4 * i, v / 2 ^ (32 * i) % 2 ^ 32)) s

def areaRad (p : Nat) : Nat → Option Ent := subs
  [uf 1 .rw (aEn p), uf 1 .rw (aMode p), uf 1 .rw (aRaw p),
   .plain 1 .rw (fun s => s.rd (aCpol p) * 2 + s.rd (aCpha p)) fun k v s =>
     if 3 < v then (.outOfRange, s) else putFlds k (aBase p) [(aCpol p, v / 2), (aCpha p, v % 2)] s,
   .plain 4 .rw (fun s => roundDiv 125000 (s.rd (aSckDiv p))) fun k v s =>
     if v < 1000 ∨ 62500 < v then (.outOfRange, s) else putFld (aSckDiv p) (roundDiv 125000 v) k s,
   us 2 .rw (aCsSetup p) 1 4 1020, us 2 .rw (aCsHold p) 1 4 1020, us 4 .rw (aTxLat p) 2 125, us 4 .rw (aRxLat p) 2 125, uf 2 .rw (aLoadLead p),
   uf 2 .rw (aTickMs p), wordsEnt .rw (aBase p + 0x20) 2, wordsEnt .rw (aBase p + 0x800) 256,
   cmd ([(1, fun k => opRadioRestart k p), (2, fun k => opRadioApply k p), (3, fun k => opRadioDiscard k p)] ++
     (List.range 8).map fun j => (8 + j, fun k => opRunSlot k p j)),
   ro 4 fun s => s.peekWord 16 (aBase p + 4), ro 8 fun s => s.peekWord 16 (aBase p + 0x60) + s.peekWord 16 (aBase p + 0x64) * 2 ^ 32]

def areaSwp (n : Nat) : Nat → Option Ent := subs
  [uf 1 .rw (wMode n), uf 1 .rw (wForm n), uf 1 .rw (wListSrc n), uf 1 .rw (wPort n), uf 1 .rw (wMill n),
   .plain 12 .rw (fun s => words96 [s.rd (wTrig n 0), s.rd (wTrig n 1) % 2 ^ 16 * 2 ^ 16, s.rd (wTrig n 2)]) fun k v s =>
     if 999999999 < t96Ns v then (.outOfRange, s)
     else writeAll k writeReg [((wTrig n 0).addr, t96Sec v % 2 ^ 32), ((wTrig n 1).addr, t96Sec v / 2 ^ 32), ((wTrig n 2).addr, t96Ns v)] s,
   .plain 8 .rw (fun s => s.rd (wTrig n 0) * 2 ^ 32 + s.rd (wTrig n 1)) fun k v s =>
     writeAll k writeReg [((wTrig n 0).addr, v / 2 ^ 32), ((wTrig n 1).addr, v % 2 ^ 32), ((wTrig n 2).addr, 0)] s,
   pairEnt .rw (wPerLo n).addr (wPerHi n).addr, uf 2 .rw (wChmask n), uf 2 .rw (wCount n), uf 4 .rw (wInterval n), uf 2 .rw (wDlMs n),
   uf 2 .rw (wLead n), us 1 .rw (wReqWin n) 1 1 255 1, uf 4 .rw (wListOfs n), us 2 .rw (wNlist n) 1 1 4094 1,
   cmd [(1, fun k => opSweepArm k n), (2, fun k => opSweepDisarm k n), (3, fun k => opSweepAbort k n), (4, fun k => opSweepApply k n),
     (5, fun k => opSweepDiscard k n)],
   ro 8 fun s => packRec [(2, s.rd (wRun n)), (1, s.rd (wArmed n)), (1, s.rd (wPhase n)), (2, s.rd (wStray n)), (2, s.rd (wSkipped n))]]

def areas2E (i : Nat) : Option (Nat → Option Ent) :=
  if among i 0x2E00 8 then some (areaRad (i - 0x2E00)) else if among i 0x4000 64 then some (areaSwp (i - 0x4000)) else none

/-! ### Expert windows and integrator parameters (R607, R608) -/

/-- A register that is only a command (WO). -/
def woReg (a : Nat) : Bool :=
  let o := a % 2 ^ 16
  match a / 2 ^ 16 with
  | 0x00 => o == 0x104
  | 0x01 => o == 0x0C
  | 0x02 => o == 0x20 || o == 0x108
  | 0x03 => o == 8
  | 0x04 => o == 8
  | 0x06 => decide (o < 0x200) && o % 16 == 8
  | 0x07 => decide (o < 0x1000) && o % 0x100 == 0x1C
  | 0x08 => decide (o < 0x1000) && o % 0x100 == 0x20
  | 0x09 => o == 8
  | 0x0A => o == 8
  | 0x0B => decide (0x100 ≤ o) && decide (o < 0x200) && (o % 0x20 == 0x10 || o % 0x20 == 0x14)
  | 0x0C => decide (o < 0x800) && (o % 0x20 == 8 || o % 0x20 == 0xC || o % 0x20 == 0x1C)
  | 0x0E => o == 0x84
  | 0x0F => (decide (o < 0x8000) && o % 0x1000 == 8) || (decide (0x8000 ≤ o) && decide (o < 0x9000) && o % 0x40 == 0x2C)
  | 0x11 => decide (o < 0x200) && o % 0x100 == 0x40
  | 0x13 => o == 0x40 || o == 0x58
  | _ => false

/-- The fields of a register, the keep window's among them. -/
def regFlds (a : Nat) : List Fld := if inKeepWindow a then keepFlds a else fldsAt a

/-- A register that holds no field of the register file, and still takes a write: HTM_INCR, the high word of a compare, PTN_WSEL. -/
def rwView (a : Nat) : Bool :=
  a == 0x020008 || a == 0x02000C || a == 0x0E0090 ||
    (a / 2 ^ 16 == 7 && decide (a % 2 ^ 16 < 0x1000) && decide (0x40 ≤ a % 0x100) && decide (a % 0x100 < 0x80) &&
      (a % 0x10 == 4 || a % 0x10 == 8))

/-- A register whose read takes, and that no write reaches (RC): ICU_CLAIM, MBX_RX0; and the keep counts (RO). -/
def roView (a : Nat) : Bool :=
  let o := a % 2 ^ 16
  (a / 2 ^ 16 == 0x0B && decide (0x100 ≤ o) && decide (o < 0x200) && o % 0x20 == 8) ||
    (a / 2 ^ 16 == 0x0C && decide (o < 0x800) && o % 0x20 == 0x18) || (decide (0x010010 ≤ a) && decide (a ≤ 0x010020) && a % 4 == 0)

/-- A register that only reads: every field is RO or RC, or it shows a view that no write reaches. -/
def roReg (s : State) (a : Nat) : Bool :=
  let l := regFlds a
  roView a || !rwView a && (if l.isEmpty then (s.liveWord 16 a).isSome else l.all fun f => f.ty == .ro || f.ty == .rc)

/-- A register whose every writable field is RWS. -/
def rwsReg (a : Nat) : Bool :=
  let l := (regFlds a).filter fun f => !(f.ty == .ro || f.ty == .rc)
  !l.isEmpty && l.all fun f => f.ty == .rws

/-- The access code of a register's window, as its field types have it (R607). (DEDUCED, log 192.) -/
def regAcc (s : State) (a : Nat) : Acc := if roReg s a then .ro else if rwsReg a then .rws else .rw

/-- The register at byte address A through its window, as a slot finds it; a read clears its RC fields. What the slot does not see is
unimplemented to it (R9, R530). -/
def expertEnt (slot : Nat) (s : State) (a : Nat) : Ent :=
  if s.hidden slot a then .sized 4 .rw (fun k s => readReg k a s) fun k v s => writeReg k a v s
  else if woReg a then wo 4 fun k v s => writeReg k a v s
  else .sized 4 (regAcc s a) (fun k s => readReg k a s) fun k v s => writeReg k a v s

/-- Entries outside the area chapters' blocks. -/
def areas6 (slot : Nat) (s : State) (i : Nat) : Option (Nat → Option Ent) :=
  if among i 0x6000 0x1000 then some fun k => if k < 256 then some (expertEnt slot s ((i - 0x6000) * 0x400 + 4 * k)) else none
  else if among i 0x7000 0x400 then
    some (sub0 (.plain 4 .rw (fun s => Assoc.get 0 (i - 0x7000) s.dict.integ) fun _ v s =>
      (.done, { s with dict := { s.dict with integ := Assoc.put 0 (i - 0x7000) v s.dict.integ } })))
  else none

end Sys2Proof.Machine
end

