-- ==== Sys2Proof/Machine/Dtp.lean ====
section
/-! DEFINITION. The Steward's dictionary service (spec/14, R598 to R625): entries, expedited and segmented transfers, STORE and RESTORE,
and the answer to a waiting request. -/

namespace Sys2Proof.Machine

open F

/-! ### Entries -/

/-- Entry 0x1010 (R610): a write of sub 1 is served apart. -/
def area1010 : Nat → Option Ent := subs
  [.plain 4 .rws (fun _ => 0) fun _ _ s => (.reservedEncoding, s), rf 2 glbDstatRes, rf 4 glbDstatGen]

/-- The entries of an index, as a slot finds them. -/
def entsAt (slot : Nat) (s : State) (i : Nat) : Option (Nat → Option Ent) :=
  match i / 2 ^ 8 with
  | 0x20 => areas20 i
  | 0x21 => areas21 i
  | 0x22 => areas22 i
  | 0x23 => areas23 i
  | 0x24 => areas24 s i
  | 0x25 => if 0x2580 ≤ i then areas23 i else areas24 s i
  | 0x26 => areas26 i
  | 0x27 => areas27 i
  | 0x28 => areas28 i
  | 0x29 => areas29 i
  | 0x2A => areas2A i
  | 0x2B => areas2B slot s i
  | 0x2C => areas2C i
  | 0x2D => areas2D i
  | 0x2E => areas2E i
  | 0x40 => areas2E i
  | n =>
    if n < 0x13 then if i = 0x1010 then some area1010 else areas1 i
    else if n / 0x10 = 3 then areas2D i
    else if n / 0x10 = 5 then areas29 i
    else areas6 slot s i

/-- What a slot's REACH refuses of the dictionary (R584). -/
def State.dictReach (s : State) (slot i : Nat) (write : Bool) : Option Code :=
  match s.reach slot with
  | 0 => none
  | 1 => if 0x6000 ≤ i ∧ i < 0x7000 then some .noSuchIndex else none
  | 2 => if write then some .readOnly else none
  | _ => if write ∨ i < 0x1000 ∨ 0x1100 ≤ i then some .noSuchIndex else none

/-- The entry that a slot names, or why not; the access code decides before any value (R601). -/
def entFor (slot : Nat) (s : State) (i sub : Nat) (write : Bool) : Except Code Ent :=
  match s.dictReach slot i write with
  | some c => .error c
  | none =>
    match entsAt slot s i with
    | none => .error .noSuchIndex
    | some l =>
      match l sub with
      | none => .error .noSuchSub
      | some e =>
        if write then
          if e.acc = .ro then .error .readOnly
          else if e.acc = .rws ∧ !s.secure slot then .error .secureOnly
          else .ok e
        else if e.acc = .wo then .error .writeOnly
        else .ok e

/-! ### Expedited transfers (R616 to R619) -/

/-- A READ: its result, the state after, and the value's bytes. -/
def opDtpRead (slot : Slot) (i sub : Nat) (s : State) : Code × State × List Nat :=
  let s := (s.abortXfer slot.val).touchIndex slot.val i sub
  match entFor slot.val s i sub false with
  | .error c => (c, s, [])
  | .ok e =>
    if 56 < e.size then (.badLength, s, [])
    else
      let r := e.read slot s
      (r.1, r.2.1, if r.1.ok then leBytes e.size r.2.2 else [])

/-- A WRITE of bytes. -/
def opDtpWrite (slot : Slot) (i sub : Nat) (bs : List Nat) (s : State) : Res :=
  let s := (s.abortXfer slot.val).touchIndex slot.val i sub
  match entFor slot.val s i sub true with
  | .error c => (c, s)
  | .ok e => if 56 < bs.length ∨ 56 < e.size then (.badLength, s) else e.write slot bs s

/-! ### Segmented transfers (R620 to R623) -/

/-- An entry is in a transfer. -/
def State.inXfer (s : State) (i sub : Nat) : Bool := s.dict.xfers.any fun kx => kx.2.index == i && kx.2.sub == sub

def State.setXfer (s : State) (slot : Nat) (x : Transfer) : State :=
  { s with dict := { s.dict with xfers := Assoc.place slot x (Assoc.erase slot s.dict.xfers) } }

/-- SEG_WRITE_INIT. (DEDUCED, log 111.) -/
def opSegWriteInit (slot : Slot) (port : Option Nat) (i sub total : Nat) (s : State) : Res :=
  let s := (s.abortXfer slot.val).touchIndex slot.val i sub
  match entFor slot.val s i sub true with
  | .error c => (c, s)
  | .ok _ =>
    if total = 0 ∨ 4096 < total then (.badLength, s)
    else if s.inXfer i sub then (.ownedElsewhere, s)
    else (.done, s.setXfer slot.val
      { port := port, write := true, index := i, sub := sub, total := total, bytes := [], toggle := false, last := none })

/-- A DATA of the slot's open transfer (R621): refused and the transfer ended, answered again as before, or taken. -/
def segData (slot : Slot) (write toggle : Bool) (i sub : Nat) (s : State) (k : Transfer → State → Code × State × List Nat) :
    Code × State × List Nat :=
  let s := s.touchIndex slot.val i sub
  match Assoc.find slot.val s.dict.xfers with
  | none => (.reservedEncoding, s, [])
  | some x =>
    if x.write ≠ write ∨ x.index ≠ i ∨ x.sub ≠ sub then (.reservedEncoding, s.endXfer slot.val, [])
    else if toggle = x.toggle then k x s
    else
      match x.last with
      | some bs => (.done, s, bs)
      | none => (.reservedEncoding, s.endXfer slot.val, [])

/-- SEG_WRITE_DATA (R622). -/
def opSegWriteData (slot : Slot) (toggle : Bool) (i sub : Nat) (seg : List Nat) (s : State) : Code × State × List Nat :=
  segData slot true toggle i sub s fun x s =>
    let bs := x.bytes ++ seg
    if seg.isEmpty ∨ 56 < seg.length then (.badLength, s, [])
    else if x.total < bs.length then (.reservedEncoding, s.endXfer slot.val, [])
    else if bs.length = x.total then
      let s := s.endXfer slot.val
      match entFor slot.val s i sub true with
      | .error c => (c, s, [])
      | .ok e =>
        let r := e.write slot bs s
        (r.1, r.2, [])
    else (.done, s.setXfer slot.val { x with bytes := bs, toggle := !toggle, last := some [] }, [])

/-- SEG_READ_INIT (R623): the value is taken, and its length returned as U32. -/
def opSegReadInit (slot : Slot) (port : Option Nat) (i sub : Nat) (s : State) : Code × State × List Nat :=
  let s := (s.abortXfer slot.val).touchIndex slot.val i sub
  match entFor slot.val s i sub false with
  | .error c => (c, s, [])
  | .ok e =>
    if s.inXfer i sub then (.ownedElsewhere, s, [])
    else
      let r := e.read slot s
      if !r.1.ok then (r.1, r.2.1, [])
      else
        let bs := leBytes e.size r.2.2
        (r.1, r.2.1.setXfer slot.val
            { port := port, write := false, index := i, sub := sub, total := e.size, bytes := bs, toggle := false, last := none },
          leBytes 4 e.size)

/-- SEG_READ_DATA: the next 56 bytes; the last byte ends the transfer. (DEDUCED, log 112.) -/
def opSegReadData (slot : Slot) (toggle : Bool) (i sub : Nat) (s : State) : Code × State × List Nat :=
  segData slot false toggle i sub s fun x s =>
    let bs := x.bytes.take 56
    let rest := x.bytes.drop 56
    (.done, if rest.isEmpty then s.endXfer slot.val
      else s.setXfer slot.val { x with bytes := rest, toggle := !toggle, last := some bs }, bs)

/-- ABORT (R624): its code is one of R14's. (DEDUCED, log 113.) -/
def opDtpAbort (slot : Slot) (code : Nat) (s : State) : Res :=
  if !isCode code then (.reservedEncoding, s)
  else if (Assoc.find slot.val s.dict.xfers).isSome then (.done, s.abortXfer slot.val)
  else (.alreadyDone, s)

/-- A request with an undefined CMD counts at the port that carries it (R625). -/
def opUndefinedCmd (port : Option Nat) (s : State) : Res :=
  match port with
  | some p => (.reservedEncoding, if 6 ≤ p then (s.bump (nDtpBad (p - 6))).setBits (nEvt (p - 6)) (2 ^ 4) else s)
  | none => (.reservedEncoding, s)

/-! ### Request bodies (R615 to R617) -/

/-- Q0 of a request (R615). -/
def dtpQ0 (cmd : Nat) (toggle : Bool) (i sub : Nat) : Nat := cmd * 2 ^ 28 + toggle.toNat * 2 ^ 27 + i % 2 ^ 16 * 2 ^ 8 + sub % 2 ^ 8

/-- The words of LEN and a value, padded with zero. -/
def lenWords (value : List Byte) : List Nat := value.length :: wordsOf (value.map (·.toNat))

/-- The body of a request, and the slot that sends it. -/
def dtpBody : Instr → Option (Slot × List Nat)
  | .dtpRead slot i sub => some (slot, [dtpQ0 1 false i.toNat sub.toNat])
  | .dtpWrite slot i sub value => some (slot, dtpQ0 2 false i.toNat sub.toNat :: lenWords value)
  | .segWriteInit slot i sub total => some (slot, [dtpQ0 3 false i.toNat sub.toNat, total])
  | .segWriteData slot toggle i sub segment => some (slot, dtpQ0 4 toggle i.toNat sub.toNat :: lenWords segment)
  | .segReadInit slot i sub => some (slot, [dtpQ0 5 false i.toNat sub.toNat])
  | .segReadData slot toggle i sub => some (slot, [dtpQ0 6 toggle i.toNat sub.toNat])
  | .dtpAbort slot code => some (slot, [dtpQ0 7 false 0 0, code.toNat])
  | _ => none

/-- The bytes that a body carries after LEN; none where a reserved bit is set or words are missing. -/
def lenBytes (ws : List Nat) : Option (List Byte) :=
  let q1 := ws.getD 1 0
  if ws.length < 2 ∨ 2 ^ 16 ≤ q1 ∨ 4 * (ws.length - 2) < q1 then none
  else some (((bytesOf (ws.drop 2)).take q1).map (BitVec.ofNat 8))

/-- The command that a request body spells; none for an undefined CMD, a reserved bit or a body that is too short. (DEDUCED, log 103.) -/
def dtpOf (slot : Slot) (ws : List Nat) : Option Instr :=
  let q0 := ws.headD 0
  let i := BitVec.ofNat 16 (q0 / 2 ^ 8)
  let sub := BitVec.ofNat 8 q0
  let cmd := q0 / 2 ^ 28
  let toggle := q0.testBit 27
  if ws.isEmpty ∨ q0 / 2 ^ 24 % 8 ≠ 0 ∨ (toggle ∧ cmd ≠ 4 ∧ cmd ≠ 6) then none
  else match cmd with
    | 1 => some (.dtpRead slot i sub)
    | 2 => (lenBytes ws).map (.dtpWrite slot i sub)
    | 3 => if ws.length < 2 then none else some (.segWriteInit slot i sub (ws.getD 1 0))
    | 4 => (lenBytes ws).map (.segWriteData slot toggle i sub)
    | 5 => some (.segReadInit slot i sub)
    | 6 => some (.segReadData slot toggle i sub)
    | 7 => if ws.length < 2 ∨ 2 ^ 16 ≤ ws.getD 1 0 then none else some (.dtpAbort slot (.ofNat 16 (ws.getD 1 0)))
    | _ => none

/-! ### Requests and their answers -/

/-- The response body (R618). -/
def dtpResp (q0 : Nat) (c : Code) (bs : List Nat) : List Nat := [q0, c.val * 2 ^ 16 + bs.length] ++ wordsOf bs

/-- A request comes before another (R606): accepted earlier, or in the same cycle from a lower slot. -/
def DictJob.before (a b : DictJob) : Bool := decide (a.turn < b.turn) || (a.turn == b.turn && decide (a.slot < b.slot))

/-- No request waits that comes before this one (R606). -/
def State.isFirst (s : State) (j : DictJob) : Bool := s.hst.jobs.all fun kj => !(kj.2.resp.isNone && kj.2.before j)

/-- The first accepted of some requests; of equal ones, that of the lower node. -/
def firstJob (l : List (Nat × DictJob)) : Option (Nat × DictJob) := l.find? fun kj => l.all fun x => !(x.2.before kj.2)

/-- The request of the slot that waits for its service, by its body: the first accepted of several. -/
def State.jobOf (s : State) (slot : Slot) (p : List Nat → Bool) : Option (Nat × DictJob) :=
  firstJob (s.hst.jobs.filter fun kj => kj.2.slot == slot.val && kj.2.resp.isNone && !kj.2.begun && p kj.2.req)

/-- The body spells a command. -/
def spells (slot : Slot) (i : Instr) : List Nat → Bool := fun ws => dtpOf slot ws == some i

def State.dropJob (s : State) (key : Nat) : State := { s with hst := { s.hst with jobs := Assoc.erase key s.hst.jobs } }

/-- A frame answers a CAN node (R633, R635): kept for a repeat of the request, and sent. -/
def State.canAnswer (s : State) (ref : CanNodeRef) (fn : Nat) (ws short : List Nat) : State :=
  let l := if ref.classic ∧ 2 < ws.length then short else ws
  let f := s.canBody ref.port (canId fn ref.node (s.rd (nNode ref.port)) ref.seq) (!ref.classic) l
  let kept := if fn = 3 then 2 else fn
  let s := s.setCanNode ref.port ref.node { s.canNode ref.port ref.node with
    last := some { fn := kept, seq := ref.seq, t := s.htm.time, resp := f } }
  s.canHub ref.port f

/-- The newest command that a completion of its cycle would overtake (R13, R152, R722) is one of the slot's, as yet without a reply. -/
def State.overtakes (s : State) (slot : Nat) : Bool :=
  match s.ended with
  | .turn k .. :: _ => k.val == slot
  | .cancelled k .. :: _ => k.val == slot
  | .napped k :: _ => k.val == slot
  | _ => false

/-- The response of a waiting request is ready: DICT_RESP will read it, or a DICT_RESP frame carries it (R570, R571, R634). -/
def State.respond (s : State) (key : Nat) (j : DictJob) (c : Code) (bs : List Nat) : State :=
  let q0 := j.req.headD 0
  let s := if c = .done ∧ s.overtakes j.slot then { s with ended := .replied key q0 :: s.ended } else s
  let s := s.say c (wordsOf bs)
  match j.can with
  | none => { s with hst := { s.hst with jobs := Assoc.place key { j with resp := some (dtpResp q0 c bs) } (Assoc.erase key s.hst.jobs) } }
  | some ref =>
    let s := ((s.dropJob key).wr (hLast j.slot) c.val).countPort (6 + ref.port) c
    s.canAnswer ref 3 (dtpResp q0 c bs) [q0, Code.badLength.val * 2 ^ 16]

/-- STORE or RESTORE runs. -/
def State.nvBusy (s : State) : Bool := s.dict.store.isSome || s.dict.restore.isSome

/-- The port that carries a waiting request. -/
def State.carrier (s : State) (j : DictJob) : Option Nat := match j.can with | some r => some (6 + r.port) | none => s.portOf j.slot

/-- Some request waits for the Steward, or STORE or RESTORE runs, behind which requests are held (R606, R611). -/
def State.stewardTaken (s : State) : Bool := s.nvBusy || s.hst.jobs.any fun kj => kj.2.resp.isNone

/-- A request joins those that wait, unless its slot has one outstanding (R570). -/
def State.queue (s : State) (slot : Slot) (ws : List Nat) : Res :=
  if (Assoc.find slot.val s.hst.jobs).isSome then (.busy, s)
  else (.accepted, s.enqueue slot.val { slot := slot.val, req := ws, resp := none, can := none, turn := s.nextTurn })

/-- What refuses a request that comes with its row: M10 (R236), then the want of a Steward (R230). -/
def State.refusedDtp (s : State) (slot : Slot) : Option Code :=
  if s.m10Refuses slot.val then some .notInMode else if !s.stewardUp then some .busy else none

/-- A request that comes with its row, as a frame of the slot (R550, R557, R586). -/
def dtpFrame (slot : Slot) (ws : List Nat) (s : State) (op : State → Code × State × List Nat) : State :=
  served slot s (fun t => t.refusedDtp slot) op fun t => t.touchBody slot.val ws

/-- The Steward serves a slot's request: one that waits, when none comes before it, or one that comes with its row, which is served at once
where none waits and neither STORE nor RESTORE runs, and else joins the others (R606, R611). `ws` is its body; the operation learns the
port that carries it. (DESIGN CHOICE, log 104.) -/
def steward (slot : Slot) (p : List Nat → Bool) (ws : List Nat) (s : State) (op : Option Nat → State → Code × State × List Nat) : Out :=
  .next (match s.jobOf slot p with
    | some (key, j) =>
      if s.running && s.stewardUp && !s.nvBusy && s.isFirst j then
        let r := op (s.carrier j) s
        r.2.1.respond key j r.1 r.2.2
      else s
    | none => dtpFrame slot ws s fun s =>
      if s.stewardTaken then
        let r := s.queue slot ws
        (r.1, r.2, [])
      else
        let r := op (s.portOf slot.val) s
        (r.1, r.2.1, wordsOf r.2.2))

/-- The same for a request that returns no value. -/
def stewardW (slot : Slot) (p : List Nat → Bool) (ws : List Nat) (s : State) (op : Option Nat → State → Res) : Out :=
  steward slot p ws s fun c s => let r := op c s; (r.1, r.2, [])

/-! ### STORE and RESTORE (R609 to R614) -/

def storeWord : Nat := 0x53544F52
def restoreWord : Nat := 0x5253544F

/-- The last 0x1010 result (GLB_DSTAT). (DEDUCED, log 107.) -/
def State.nvResult (s : State) (c : Code) : State := s.wr glbDstatRes c.val

/-- STORE starts: the copy it will write is not valid until its CRC word is (R611, R612). (DEDUCED, log 105; DEDUCED, log 106.) -/
def State.storeStart (s : State) (slot : Nat) : State :=
  let d := { s.dict with store := some slot }
  { s with dict := match s.newest with
      | some (_, true) => { d with copyB := none }
      | some (_, false) => { d with copyA := none }
      | none => d }

/-- RESTORE starts. -/
def State.restoreStart (s : State) (slot : Nat) : State :=
  { s with dict := { s.dict with restore := some slot, copyA := none, copyB := none } }

/-- A write of sub 1 of 0x1010 (R610): refused with a code, or started. -/
def opNv (slot : Slot) (v : Nat) (s : State) : Option Code × State :=
  let s := s.abortXfer slot.val
  match entFor slot.val s 0x1010 1 true with
  | .error c => (some c, s)
  | .ok _ =>
    if v ≠ storeWord ∧ v ≠ restoreWord then (some .reservedEncoding, s.nvResult .reservedEncoding)
    else if !(s.mode == 4 || s.mode == 5 || s.mode == 6 || s.mode == 10) then (some .notInMode, s.nvResult .notInMode)
    else if s.nvBusy then (some .busy, s.nvResult .busy)
    else (none, if v = storeWord then s.storeStart slot.val else s.restoreStart slot.val)

/-- The WRITE of a word to sub 1 of 0x1010. -/
def nvWrite (slot : Slot) (v : Nat) : Instr := .dtpWrite slot 0x1010 1 ((leBytes 4 v).map (BitVec.ofNat 8))

/-- The Steward takes a write of sub 1 of 0x1010: once started, its response waits for the end. A request that comes with the row is
answered ACCEPTED then. -/
def stewardNv (slot : Slot) (p : List Nat → Bool) (ws : List Nat) (v : Nat) (s : State) (op : State → State) : Out :=
  .next (match s.jobOf slot p with
    | some (key, j) =>
      if s.running && s.stewardUp && (s.nvBusy || s.isFirst j) then
        match opNv slot v (op s) with
        | (some c, s1) => s1.respond key j c []
        | (none, s1) => ({ s1 with hst := { s1.hst with jobs := Assoc.place key { j with begun := true } (Assoc.erase key s1.hst.jobs) } }).say .accepted
      else s
    | none => dtpFrame slot ws s fun s =>
      if !s.nvBusy && s.stewardTaken then
        let r := s.queue slot ws
        (r.1, r.2, [])
      else match opNv slot v (op s) with
        | (some c, s1) => (c, s1, [])
        | (none, s1) => (.accepted, s1, []))

/-- The end of a STORE or RESTORE answers its slot. -/
def State.nvEnd (s : State) : State :=
  let s := s.nvResult .done
  match s.hst.jobs.find? (fun kj => kj.2.begun && kj.2.resp.isNone) with
  | some (key, j) => s.respond key j .done []
  | none => s.say .done

/-- The CRC word of the new copy is written (R611): its generation is one above the newest. -/
def State.storeEnd (s : State) : State :=
  let c : NvCopy := { gen := (match s.newest with | some (n, _) => n.gen | none => 0) + 1, regs := s.storeImage, integ := s.dict.integ }
  let d := { s.dict with store := none }
  let s1 := { s with dict := match s.newest with
      | some (_, true) => { d with copyB := some c }
      | _ => { d with copyA := some c } }
  ((s1.wr glbDstatGen c.gen).setBits glbDnotice 1).nvEnd

def State.restoreEnd (s : State) : State :=
  State.nvEnd (State.setBits { s with dict := { s.dict with restore := none } } glbDnotice 8)

/-! ### The rows -/

/-- The body of a row. -/
def rowBody (i : Instr) : List Nat := match dtpBody i with | some b => b.2 | none => []

/-- The Steward serves the row's request. -/
def dtpRow (slot : Slot) (i : Instr) (s : State) (op : Option Nat → State → Code × State × List Nat) : Out :=
  steward slot (spells slot i) (rowBody i) s op
def dtpRowW (slot : Slot) (i : Instr) (s : State) (op : Option Nat → State → Res) : Out := stewardW slot (spells slot i) (rowBody i) s op

def nats (l : List Byte) : List Nat := l.map (·.toNat)

def execDtpRead (slot : Slot) (index : BitVec 16) (sub : Byte) (s : State) : Out :=
  dtpRow slot (.dtpRead slot index sub) s fun _ => opDtpRead slot index.toNat sub.toNat

def execDtpWrite (slot : Slot) (index : BitVec 16) (sub : Byte) (value : List Byte) (s : State) : Out :=
  let i : Instr := .dtpWrite slot index sub value
  if index = 0x1010 ∧ sub = 1 ∧ value.length = 4 then stewardNv slot (spells slot i) (rowBody i) (leNat (nats value)) s id
  else dtpRowW slot i s fun _ => opDtpWrite slot index.toNat sub.toNat (nats value)

def execSegWriteInit (slot : Slot) (index : BitVec 16) (sub : Byte) (total : Nat) (s : State) : Out :=
  dtpRowW slot (.segWriteInit slot index sub total) s fun c => opSegWriteInit slot c index.toNat sub.toNat total

/-- The word that a DATA completes in the slot's transfer of sub 1 of 0x1010, if it does. -/
def State.nvSegment (s : State) (slot : Slot) (toggle : Bool) (seg : List Nat) : Option Nat :=
  match Assoc.find slot.val s.dict.xfers with
  | some x =>
    if x.write ∧ x.index = 0x1010 ∧ x.sub = 1 ∧ x.toggle = toggle ∧ x.total = 4 ∧ !seg.isEmpty ∧ x.bytes.length + seg.length = 4 then
      some (leNat (x.bytes ++ seg))
    else none
  | none => none

/-- SEG_WRITE_DATA; the one that completes sub 1 of 0x1010 is its write (R610, R622). -/
def execSegWriteData (slot : Slot) (toggle : Bool) (index : BitVec 16) (sub : Byte) (segment : List Byte) (s : State) : Out :=
  let i : Instr := .segWriteData slot toggle index sub segment
  match if index = 0x1010 ∧ sub = 1 then s.nvSegment slot toggle (nats segment) else none with
  | some v => stewardNv slot (spells slot i) (rowBody i) v s fun s => s.endXfer slot.val
  | none => dtpRow slot i s fun _ => opSegWriteData slot toggle index.toNat sub.toNat (nats segment)

def execSegReadInit (slot : Slot) (index : BitVec 16) (sub : Byte) (s : State) : Out :=
  dtpRow slot (.segReadInit slot index sub) s fun c => opSegReadInit slot c index.toNat sub.toNat

def execSegReadData (slot : Slot) (toggle : Bool) (index : BitVec 16) (sub : Byte) (s : State) : Out :=
  dtpRow slot (.segReadData slot toggle index sub) s fun _ => opSegReadData slot toggle index.toNat sub.toNat

def execDtpAbort (slot : Slot) (code : BitVec 16) (s : State) : Out :=
  dtpRowW slot (.dtpAbort slot code) s fun _ => opDtpAbort slot code.toNat

/-- The CMD values that R625 leaves undefined. -/
def undefinedCmd (q0 : Nat) : Bool := q0 / 2 ^ 28 == 0 || decide (8 ≤ q0 / 2 ^ 28)

/-- A body of this Q0 that spells no command. -/
def malformed (slot : Slot) (q0 : Nat) (ws : List Nat) : Bool := ws.headD 0 == q0 && dtpOf slot ws == none

/-- An undefined CMD (R625), or a waiting request whose body has a reserved bit set. -/
def execDtpUndefinedCmd (slot : Slot) (q0 : Word) (s : State) : Out :=
  stewardW slot (malformed slot q0.toNat) [q0.toNat] s fun c s =>
    if undefinedCmd q0.toNat then opUndefinedCmd c s else (.reservedEncoding, s)

/-- A transfer's lease runs out (R620): it ends with LEASE_LOST. -/
def execTransferLeaseExpiry (slot : Slot) (s : State) : Out :=
  event (if (Assoc.find slot.val s.dict.xfers).isSome then (s.abortXfer slot.val).say .leaseLost else s)

def execStore (slot : Slot) (s : State) : Out := stewardNv slot (spells slot (nvWrite slot storeWord)) (rowBody (nvWrite slot storeWord)) storeWord s id
def execRestore (slot : Slot) (s : State) : Out := stewardNv slot (spells slot (nvWrite slot restoreWord)) (rowBody (nvWrite slot restoreWord)) restoreWord s id
def execStoreComplete (s : State) : Out := event (if s.dict.store.isSome then s.storeEnd else s)
def execRestoreComplete (s : State) : Out := event (if s.dict.restore.isSome then s.restoreEnd else s)

end Sys2Proof.Machine
end

