-- ==== Sys2Proof/Machine/CanRx.lean ====
section
/-! DEFINITION. A frame received on a CAN port (spec/14, R626, R631 to R635, R642, R644, R646, R648; spec/13, R553 to R556). -/

namespace Sys2Proof.Machine

open F

/-! ### The frame -/

def rxFn (f : CanFrame) : Nat := f.id.toNat / 2 ^ 25
def rxDest (f : CanFrame) : Nat := f.id.toNat / 2 ^ 17 % 256
def rxSrc (f : CanFrame) : Nat := f.id.toNat / 2 ^ 9 % 256
def rxSeq (f : CanFrame) : Nat := f.id.toNat % 512

/-- Its whole data words. -/
def rxWords (f : CanFrame) : List Nat := wordsOf (f.data.map (·.toNat))

/-- A received frame as an item of the receive ring (R646). -/
def State.canRxItem (s : State) (p : Nat) (f : CanFrame) : State :=
  s.give (canRx p) (canItem 1 (canF0 f.esi f.brs f.fdf f.id.toNat) f.data.length
    (time96 (ofStamp (f.sof - s.rd (nRxDly p))) (s.qual false)) (f.data.map (·.toNat)))

/-! ### The slot of a node (R550, R553, R555, R556) -/

/-- The enabled slot bound to a node of a port. -/
def State.nodeSlot (s : State) (p n : Nat) : Option Nat :=
  (List.range 15).find? fun k => s.on (hEn k) && s.portOf k == some (6 + p) && s.rd (hNode k) == n

/-- A node that matches no enabled slot is seen for the first time (R555). -/
def State.seeNode (s : State) (p n : Nat) : State :=
  if s.bit (hSeen p (n / 32)) (n % 32) then s else (s.setBits (hSeen p (n / 32)) (2 ^ (n % 32))).hostEvt 6

/-- The slot that serves a node, present from now on; an unbound node while the guest is disabled is counted. -/
def State.nodeIn (s : State) (p n : Nat) : Option Slot × State :=
  match s.nodeSlot p n with
  | some k => (some (.ofNat 17 k), s.marked k)
  | none =>
    let s := s.seeNode p n
    if s.on (hEn 15) then (some 15, s.marked 15) else (none, (s.bump (hUnbound (6 + p))).setBits (hPevt (6 + p)) 8)

/-! ### Requests -/

/-- The node's last served request comes again within 1,000 ms (R633). (DEDUCED, log 118.) -/
def State.canRepeat (s : State) (p : Nat) (f : CanFrame) : Option CanOut :=
  match (s.canNode p (rxSrc f)).last with
  | some d =>
    if d.fn = (rxFn f) ∧ d.seq = (rxSeq f) ∧ (s.htm.time + timeMod - d.t) % timeMod ≤ 1000 * 1000000 * nsU then some d.resp else none
  | none => none

/-- A data field that is a whole number of words and holds `n` of them (R635). (DEDUCED, log 116.) -/
def rxHolds (f : CanFrame) (n : Nat) : Bool := f.data.length % 4 == 0 && decide (4 * n ≤ f.data.length)

/-- The hub's result for a request counts at its port, and stands as the slot's last (R566, R574). -/
def State.canResult (s : State) (p k : Nat) (c : Code) : State := ((s.say c).wr (hLast k) c.val).countPort (6 + p) c

/-- DICT_REQ (R634, R635): handed to the Steward, or answered at once. (DEDUCED, log 117.) -/
def State.canDictReq (s : State) (p : Nat) (k : Slot) (f : CanFrame) (ref : CanNodeRef) : State :=
  let ws := (rxWords f)
  let q0 := ws.headD 0
  let now := fun (s : State) (c : Code) => (s.canResult p k.val c).canAnswer ref 3 [q0, c.val * 2 ^ 16] [q0, c.val * 2 ^ 16]
  let key := 32 + p * 256 + (rxSrc f)
  if (Assoc.find key s.hst.jobs).isSome then
    (s.canResult p k.val .busy).canHub p (s.canBody p (canId 3 (rxSrc f) (s.rd (nNode p)) (rxSeq f)) f.fdf [Code.busy.val * 2 ^ 16])
  else if !rxHolds f 1 || !rxHolds f (bodyLen q0 (ws.getD 1 0)) then now s .badLength
  else if s.m10Refuses k.val then now (s.touchBody k.val ws) .notInMode
  else if !s.stewardUp then now (s.touchBody k.val ws) .busy
  else
    let j : DictJob := { slot := k.val, req := ws.take (bodyLen q0 (ws.getD 1 0)), resp := none, can := some ref, turn := s.nextTurn }
    (s.canResult p k.val .accepted).enqueue key j

/-- What a note or mailbox op answers: a code and words. -/
def State.canNoteAnswer (s : State) (p k : Nat) (ref : CanNodeRef) (fn q0 : Nat) (c : Code) (d : List Nat) : State :=
  (s.canResult p k c).canAnswer ref fn ([q0, c.val] ++ d) [q0, Code.badLength.val]

/-- An undefined OP of a note (R642, R644). -/
def badOp (p : Nat) (s : State) : Code × State × List Nat := (.reservedEncoding, (s.bump (nDtpBad p)).setBits (nEvt p) (2 ^ 4), [])

/-- EVENT_NOTE from a node (R642). -/
def opEventNote (p : Nat) (slot : Slot) (q0 : Nat) (s : State) : Code × State × List Nat :=
  match q0 / 2 ^ 28 with
  | 1 => opEventClaim slot s
  | 2 => let r := opEventEoi slot (q0 % 2 ^ 10) s; (r.1, r.2, [])
  | _ => badOp p s

/-- MBX POST (R644): TX0, and TX1 if it comes. (DEDUCED, log 120.) -/
def opMbxPost (slot : Slot) (c : Nat) (ws : List Nat) (s : State) : Res :=
  let r := opTx0Write slot c (ws.getD 1 0) s
  if ws.length ≤ 2 ∨ !r.1.ok then r else opTx1Write slot c (ws.getD 2 0) r.2

/-- The words that an MBX op needs. -/
def mbxLen (op : Nat) : Nat := if op = 1 ∨ op = 3 ∨ op = 5 then 2 else 1

/-- MBX from a node (R644): each op as its register path. -/
def opMbxNote (p : Nat) (slot : Slot) (ws : List Nat) (s : State) : Code × State × List Nat :=
  let q0 := ws.headD 0
  let c := q0 % 64
  let w := fun (r : Res) => (r.1, r.2, [])
  match q0 / 2 ^ 28 with
  | 1 => w (opMbxPost slot c ws s)
  | 2 => opMbxTake slot c s
  | 3 => w (opMbxAck slot c (ws.getD 1 0 % 2 ^ 16) s)
  | 4 => w (opRetract slot c s)
  | 5 => w (opMbxStatWrite slot c (ws.getD 1 0 % 2 ^ 8 / 2 ^ 6 * 2 ^ 6) s)
  | _ => badOp p s

/-- EVENT_NOTE or MBX: served at once, and answered. -/
def State.canNoteIn (s : State) (p : Nat) (k : Slot) (f : CanFrame) (ref : CanNodeRef) : State :=
  let ws := (rxWords f)
  let q0 := ws.headD 0
  let need := if (rxFn f) = 5 then mbxLen (q0 / 2 ^ 28) else 1
  let r :=
    if !rxHolds f need then (.badLength, s, [])
    else if s.m10Refuses k.val then (.notInMode, s, [])
    else if (rxFn f) = 4 then opEventNote p k q0 s
    else opMbxNote p k ws s
  r.2.1.canNoteAnswer p k.val ref (rxFn f) q0 r.1 r.2.2

/-- A request to the hub's node (R632 to R635). -/
def State.canRequest (s : State) (p : Nat) (k : Slot) (f : CanFrame) : State :=
  match s.canRepeat p f with
  | some resp => s.canHub p resp
  | none =>
    let ref : CanNodeRef := { port := p, node := (rxSrc f), seq := (rxSeq f), classic := !f.fdf }
    if (rxFn f) = 2 then s.canDictReq p k f ref else s.canNoteIn p k f ref

/-! ### Receiving (R632, R648) -/

/-- A valid SRC. -/
def State.srcOk (s : State) (p : Nat) (f : CanFrame) : Bool := decide (1 ≤ (rxSrc f)) && decide ((rxSrc f) ≤ 254) && (rxSrc f) != s.rd (nNode p)

/-- A 29-bit data frame in hardware mode, from a node with slot `k` (none: not served). -/
def State.canHw (s : State) (p : Nat) (k : Option Slot) (f : CanFrame) : State :=
  if (rxDest f) ≠ s.rd (nNode p) ∧ (rxDest f) ≠ 0 then if s.on (nMonitor p) then s.canRxItem p f else s
  else if !s.srcOk p f then s.bump (nIgnored p)
  else if 7 ≤ (rxFn f) then (s.bump (nUndef p)).setBits (nEvt p) (2 ^ 3)
  else if (rxFn f) = 6 then s
  else if (rxFn f) = 2 ∨ (rxFn f) = 4 ∨ (rxFn f) = 5 then
    if (rxDest f) = 0 then s.bump (nIgnored p)
    else match k with | some k => s.canRequest p k f | none => s
  else s.bump (nIgnored p)

/-- A received frame. -/
def State.canReceive (s : State) (p : Nat) (f : CanFrame) : State :=
  if !f.ext || f.rtr then s.bump (nIgnored p)
  else
    let s := s.frameStart (6 + p)
    let (k, s) := if s.srcOk p f then s.nodeIn p (rxSrc f) else (none, s)
    if s.on (nMode p) then s.canRxItem p f else s.canHw p k f

/-- CAN_FRAME_RECEIVE: lost where the mode or the controller does not listen (R234), at bus-off too (R626). -/
def execCanFrameReceive (p : Fin 2) (f : CanFrame) (s : State) : Out :=
  event (if s.running && !s.asleep && !s.deaf && s.canSends p.val && (!f.fdf || s.on (nFdEn p.val)) then s.canReceive p.val f else s)

end Sys2Proof.Machine
end

