-- ==== Sys2Proof/Machine/Htm.lean ====
section
/-! DEFINITION. The commands of Hub Time (spec/01). -/

namespace Sys2Proof.Machine

def execSet (slot : Slot) (s : State) : Out := host slot s (opSet slot)
def execCancelSet (slot : Slot) (s : State) : Out := host slot s (opCancelSet slot)
def execStep (slot : Slot) (s : State) : Out := host slot s (opStep slot)
def execSlewStart (slot : Slot) (s : State) : Out := host slot s (opSlewStart slot)
def execSlewAbort (slot : Slot) (s : State) : Out := host slot s (opSlewAbort slot)
def execSelfCapture (slot : Slot) (s : State) : Out := hostReg slot s (opSelfCapture slot)
def execPlanSwitch (slot : Slot) (s : State) : Out := host slot s (opPlanSwitch slot)
def execHtmIncrHiWrite (slot : Slot) (v : Word) (s : State) : Out := host slot s (opIncrHiWrite v.toNat)
def execHtmIncrLoWrite (slot : Slot) (v : Word) (s : State) : Out := host slot s (opIncrLoWrite v.toNat)

end Sys2Proof.Machine
end

