-- ==== Sys2Proof/Machine/Pads.lean ====
section
/-! DEFINITION. What the hub does at its pads (spec/19, R760): each pad group in each mode, as the state of its block has it. Whether VIO33
and VIO18 are powered is not in State: it is given. (DESIGN CHOICE, log 172.) -/

namespace Sys2Proof.Machine

open F

/-- What a pad does: unpowered or without function, an input with its PULL code (0 none, 1 down, 2 up), released or at high impedance, or
driven. -/
inductive Pad where
  | off
  | input (pull : Nat)
  | z
  | low
  | high
  deriving DecidableEq, Repr

def Pad.drive (v : Bool) : Pad := if v then .high else .low
/-- An open-drain pad. -/
def Pad.openDrain (pulled : Bool) : Pad := if pulled then .low else .z
def Pad.ofLevel : Option Bool → Pad
  | some v => .drive v
  | none => .z

/-- The island holds no supply: its pads are unpowered. -/
def State.islandOff (s : State) : Bool := decide (s.mode ≤ 1)
/-- The main domain's own pads are driven: in M4 to M8 and M10 (R760). -/
def State.padsRun (s : State) : Bool := decide (4 ≤ s.mode) && decide (s.mode ≤ 10) && s.mode != 9

/-! ### Island pads -/

/-- RAILn_EN is driven high, or released; never low (R118). -/
def State.railEnPad (s : State) (n : Nat) : Pad := if s.islandOff || s.mode == 11 then .z else if s.railOn n then .high else .z

/-- RAILn_DIS is high from the disable of a rail with DIS_EN until the rail is judged down (R131), and released in M11 (R165). -/
def State.railDisPad (s : State) (n : Nat) : Pad :=
  if s.islandOff then .off
  else if s.mode == 11 then .z
  else .drive (s.qon (qDisEn n) && s.railState n == 6)

/-- An open-drain line of the island: unpowered with it, and released in M11. -/
def State.islandLine (s : State) (pulled : Bool) : Pad := if s.islandOff then .off else .openDrain (pulled && s.mode != 11)

def State.stepPad (s : State) : Pad := s.islandLine s.seq.pullStep
def State.downPad (s : State) : Pad := s.islandLine s.seq.pullDown
def State.hrstPad (s : State) (k : Nat) : Pad := s.islandLine (s.seq.hrstLow.testBit k)
/-- SEQFLT_N is low in M11 (R165) and while the hub holds it (R158, R159). -/
def State.fltPad (s : State) : Pad := if s.islandOff then .off else .openDrain (s.seq.pullFlt || s.mode == 11)

/-- HInIRQ_N, released in every mode without a served port (R559). -/
def State.i2cIrqPad (s : State) (n : Nat) : Pad := s.islandLine (s.padsRun && s.irqPin (4 + n) == some false)
/-- HInSCL and HInSDA between frames. -/
def State.i2cPad (s : State) : Pad := s.islandLine false

/-- KWAKE_N is released in M0, and follows R98 else. -/
def State.kwakePad (s : State) : Pad := .openDrain (s.kwakeLow && s.mode != 0)

/-! ### Main-domain pads, `on` being whether their bank is powered -/

/-- An L-IO or L-RD pad: unpowered in M0, M1 and M11, an input without a pull in M2, M9 and M3 (R760). -/
def State.ioPad (s : State) (on : Bool) (p : Pad) : Pad :=
  if !on || s.islandOff || s.mode == 11 then .off else if s.padsRun then p else .input 0

/-- Ownable pin p, TOUTn, mill inputs, GTnPc and GPIO: driven where its block or its OUT drives it, else an input with its PULL (R379, R443,
R591, R592). -/
def State.ownedPad (s : State) (on : Bool) (p : Nat) : Pad :=
  s.ioPad on (match s.pinDriven p with | some v => .drive v | none => .input (s.rd (pinPull p)))

def State.ppsoutPad (s : State) (on : Bool) : Pad := s.ioPad on (.drive s.ppsPin)
def State.irigoutPad (s : State) (on : Bool) : Pad := s.ioPad on (.drive s.irigPin)
def State.clkoutPad (s : State) (on : Bool) (n : Nat) : Pad := s.ioPad on (.drive (s.clkPin n))
def State.todtxdPad (s : State) (on : Bool) : Pad := s.ioPad on .high
/-- CANnSTB follows R629 in every mode in which its bank is powered. -/
def State.canStbPad (s : State) (on : Bool) (p : Nat) : Pad :=
  if !on || s.islandOff || s.mode == 11 then .off else .ofLevel (s.canStb p true)
/-- CANnTXD is recessive, high, between frames. (PRESUMED, log 172.) -/
def State.canTxdPad (s : State) (on : Bool) : Pad := s.ioPad on .high

/-! ### Radio ports, on VIORD -/

/-- RDpRST_N: low before the thaw, as R707 has it (R760). -/
def State.radioRstPad (s : State) (p : Nat) : Pad :=
  if !s.bankUp 4 || s.islandOff || s.mode == 11 then .off
  else match s.radioRst p with | some v => .drive v | none => .input 0

/-- Another L-RD pad that the hub drives. -/
def State.radioPad (s : State) (p : Pad) : Pad := s.ioPad (s.bankUp 4) p

/-- Bit i of the bytes that the last SPI instruction of port p clocked, the most significant of a byte first (R706); what it sends while
it only reads is not stated. -/
def State.mosiBit (s : State) (p i : Nat) : Bool :=
  match (s.radio p).mosi[i / 8]? with
  | some b => b.testBit (7 - i % 8)
  | none => Config.mosiIdle p

/-- The edges that RDpSCK has made n MCLK cycles after the transfer began: the first CS_SETUP cycles from there, the others SCKDIV cycles
apart, two for each bit (R706). -/
def State.sckEdges (s : State) (p n : Nat) : Nat :=
  if n < s.a (aCsSetup p) then 0 else min (16 * (s.radio p).bytes) ((n - s.a (aCsSetup p)) / s.a (aSckDiv p) + 1)

/-- The cycle of the last edge of RDpSCK. -/
def State.sckEnd (s : State) (p : Nat) : Nat := s.a (aCsSetup p) + (16 * (s.radio p).bytes - 1) * s.a (aSckDiv p)

/-- RDpSCK n cycles after the last transfer began: CPOL at rest. -/
def State.radioSckPad (s : State) (p n : Nat) : Pad := s.radioPad (.drive (s.aon (aCpol p) != (s.sckEdges p n % 2 == 1)))

/-- RDpMOSI: with CPHA 0 a bit stands before the first edge of its pair and goes with the second; with CPHA 1 it comes with the first.
(PRESUMED, log 213.) -/
def State.radioMosiPad (s : State) (p n : Nat) : Pad :=
  let e := s.sckEdges p n
  s.radioPad (.drive (
    if s.aon (aCpha p) then if e = 0 then Config.mosiIdle p else s.mosiBit p ((e - 1) / 2)
    else s.mosiBit p (e / 2)))

/-- RDpCS_N is low from the start of a transfer to CS_HOLD cycles after its last edge, and on where the instruction holds it (R706, R716). -/
def State.radioCsPad (s : State) (p n : Nat) : Pad :=
  s.radioPad (.drive !((s.radio p).cs || ((s.radio p).bytes != 0 && decide (n < s.sckEnd p + s.a (aCsHold p)))))

/-- RDpTXT is active for 1 µs from the edge that was placed (R709, R748). (DEDUCED, log 213.) -/
def State.txtActive (s : State) (p : Nat) : Bool := (s.radio p).txt.any fun t => decide (sinceStamp t s.nowStamp < 16000)
def State.radioTxtPad (s : State) (p : Nat) : Pad :=
  s.radioPad (.drive (s.txtActive p == Config.txtActive (s.a (aTxtPol p))))

/-! ### Host banks -/

/-- An L-H pad of port n. -/
def State.hostPad (s : State) (n : Nat) (p : Pad) : Pad :=
  if !s.bankUp n || s.islandOff || s.mode == 11 then .off else if s.padsRun then p else .input 0

def State.spiIrqPad (s : State) (n : Nat) : Pad := s.hostPad n (.ofLevel (s.irqPin n))
/-- HSnWAKE_N is high, or low under R560. -/
def State.wakePad (s : State) (n : Nat) : Pad := s.hostPad n (.drive (!s.wakePinLow n))
/-- HSnSDO: driven in every mode with power while CS_N is low, the ASLEEP frame's bytes among them (R234, R235, R561). -/
def State.sdoPad (s : State) (n : Nat) (csHigh : Bool) (i : Nat) : Pad :=
  if !s.bankUp n || s.islandOff || s.mode == 11 then .off else .ofLevel (s.sdoPin csHigh i)

/-- The JTAG pads outside the Shift states: TCK, TMS, TDI, TRST_N, TDO. -/
def State.jtagPads (s : State) (on : Bool) : List Pad :=
  if !on || s.islandOff || s.mode == 11 then List.replicate 5 .off else [.input 1, .input 2, .input 2, .input 2, .z]

/-! ### A bank's rise and loss (R733, R734) -/

/-- A bank rises through 1.5 V and is classified, at every rise. (DEDUCED, log 102.) -/
def execBankRise (b : Fin 5) (is33 : Bool) (s : State) : Out :=
  event { s with hst := { s.hst with bank33 := Assoc.put 0 b.val (if is33 then 2 else 1) s.hst.bank33 } }

/-- A bank is lost: a frame in progress on a host's port ends as if CS_N rose before its last byte (R565). VIORD carries none. -/
def execHostBankLost (b : BankCut) (s : State) : Out :=
  let s := match b.cut with
    | some w => if b.n.val < 4 then s.shortFrame b.n.val true w else s
    | none => s
  event { s with hst := { s.hst with bank33 := Assoc.erase b.n.val s.hst.bank33 } }

end Sys2Proof.Machine
end

