-- ==== Sys2Proof/Machine/Dispatch.lean ====
section
/-! DEFINITION. One arm per command: each is one call of its meaning. -/

namespace Sys2Proof.Machine

def exec (i : Instr) (s : State) : Host.Outcome State Fault Refusal :=
  match i with
  | .registerWrite slot addr value => Sys2Proof.Machine.execRegisterWrite slot addr value s
  | .set slot => Sys2Proof.Machine.execSet slot s
  | .cancelSet slot => Sys2Proof.Machine.execCancelSet slot s
  | .step slot => Sys2Proof.Machine.execStep slot s
  | .slewStart slot => Sys2Proof.Machine.execSlewStart slot s
  | .slewAbort slot => Sys2Proof.Machine.execSlewAbort slot s
  | .slewDone => Sys2Proof.Machine.execSlewDone s
  | .selfCapture slot => Sys2Proof.Machine.execSelfCapture slot s
  | .planSwitch slot => Sys2Proof.Machine.execPlanSwitch slot s
  | .planFail => Sys2Proof.Machine.execPlanFail s
  | .htmIncrHiWrite slot value => Sys2Proof.Machine.execHtmIncrHiWrite slot value s
  | .htmIncrLoWrite slot value => Sys2Proof.Machine.execHtmIncrLoWrite slot value s
  | .pllLock => Sys2Proof.Machine.execPllLock s
  | .islandToMclk => Sys2Proof.Machine.execIslandToMclk s
  | .pllUnlock => Sys2Proof.Machine.execPllUnlock s
  | .pllRetry => Sys2Proof.Machine.execPllRetry s
  | .keepPowerOn vmainMv vbatMv => Sys2Proof.Machine.execKeepPowerOn vmainMv vbatMv s
  | .keepReset => Sys2Proof.Machine.execKeepReset s
  | .keepTick tick => Sys2Proof.Machine.execKeepTick tick s
  | .keepTempSample temp vbatMv => Sys2Proof.Machine.execKeepTempSample temp vbatMv s
  | .keepAgeDay => Sys2Proof.Machine.execKeepAgeDay s
  | .keepAlarmFire n => Sys2Proof.Machine.execKeepAlarmFire n s
  | .kstampEdge n rising => Sys2Proof.Machine.execKstampEdge n rising s
  | .koscFail => Sys2Proof.Machine.execKoscFail s
  | .oscRunning => Sys2Proof.Machine.execOscRunning s
  | .switchToVbat => Sys2Proof.Machine.execSwitchToVbat s
  | .switchToVmain => Sys2Proof.Machine.execSwitchToVmain s
  | .switchRecordEmit => Sys2Proof.Machine.execSwitchRecordEmit s
  | .collapseOrder => Sys2Proof.Machine.execCollapseOrder s
  | .keepWindowWrite slot addr value => Sys2Proof.Machine.execKeepWindowWrite slot addr value s
  | .keepWriteApply => Sys2Proof.Machine.execKeepWriteApply s
  | .keepChgWrite slot value => Sys2Proof.Machine.execKeepChgWrite slot value s
  | .chargerLimit => Sys2Proof.Machine.execChargerLimit s
  | .fifoFlush slot => Sys2Proof.Machine.execFifoFlush slot s
  | .ageRestart slot => Sys2Proof.Machine.execAgeRestart slot s
  | .shelfArm slot => Sys2Proof.Machine.execShelfArm slot s
  | .shelfDisarm slot => Sys2Proof.Machine.execShelfDisarm slot s
  | .keepAlmHiWrite slot n value => Sys2Proof.Machine.execKeepAlmHiWrite slot n value s
  | .scanConversion code pg => Sys2Proof.Machine.execScanConversion code pg s
  | .railNotUp n => Sys2Proof.Machine.execRailNotUp n s
  | .railShort short => Sys2Proof.Machine.execRailShort short s
  | .railNotDown n => Sys2Proof.Machine.execRailNotDown n s
  | .minOffEnd n => Sys2Proof.Machine.execMinOffEnd n s
  | .railFault n ov beyond => Sys2Proof.Machine.execRailFault n ov beyond s
  | .seqstepRise downHigh => Sys2Proof.Machine.execSeqstepRise downHigh s
  | .stageStart => Sys2Proof.Machine.execStageStart s
  | .stageDone => Sys2Proof.Machine.execStageDone s
  | .seqdownChange high => Sys2Proof.Machine.execSeqdownChange high s
  | .remoteAllOff beyond => Sys2Proof.Machine.execRemoteAllOff beyond s
  | .remoteAllOffEnd => Sys2Proof.Machine.execRemoteAllOffEnd s
  | .lineWatchEnd saw => Sys2Proof.Machine.execLineWatchEnd saw s
  | .pbShort => Sys2Proof.Machine.execPbShort s
  | .pbLong beyond => Sys2Proof.Machine.execPbLong beyond s
  | .mrAssert beyond => Sys2Proof.Machine.execMrAssert beyond s
  | .mrRelease => Sys2Proof.Machine.execMrRelease s
  | .faultRetry => Sys2Proof.Machine.execFaultRetry s
  | .autoStart => Sys2Proof.Machine.execAutoStart s
  | .vinWarn => Sys2Proof.Machine.execVinWarn s
  | .vinRecover => Sys2Proof.Machine.execVinRecover s
  | .vinFault beyond => Sys2Proof.Machine.execVinFault beyond s
  | .brownOut => Sys2Proof.Machine.execBrownOut s
  | .groupUp slot g => Sys2Proof.Machine.execGroupUp slot g s
  | .groupDown slot g => Sys2Proof.Machine.execGroupDown slot g s
  | .wakein k => Sys2Proof.Machine.execWakein k s
  | .groupDemandServe g => Sys2Proof.Machine.execGroupDemandServe g s
  | .hrstRelease k => Sys2Proof.Machine.execHrstRelease k s
  | .wakeOutputTimeout k => Sys2Proof.Machine.execWakeOutputTimeout k s
  | .release slot stage => Sys2Proof.Machine.execRelease slot stage s
  | .gateTimeout => Sys2Proof.Machine.execGateTimeout s
  | .commit slot => Sys2Proof.Machine.execCommit slot s
  | .planDiscard slot => Sys2Proof.Machine.execPlanDiscard slot s
  | .forceOff slot beyond => Sys2Proof.Machine.execForceOff slot beyond s
  | .up slot => Sys2Proof.Machine.execUp slot s
  | .down slot => Sys2Proof.Machine.execDown slot s
  | .vmainArrival boot => Sys2Proof.Machine.execVmainArrival boot s
  | .adcRefConversion deviation => Sys2Proof.Machine.execAdcRefConversion deviation s
  | .scanNow slot => Sys2Proof.Machine.execScanNow slot s
  | .snap slot => Sys2Proof.Machine.execSnap slot s
  | .periodicSnap => Sys2Proof.Machine.execPeriodicSnap s
  | .mortarEntryWrite => Sys2Proof.Machine.execMortarEntryWrite s
  | .clear slot => Sys2Proof.Machine.execClear slot s
  | .clearDone => Sys2Proof.Machine.execClearDone s
  | .logScan => Sys2Proof.Machine.execLogScan s
  | .hostItemTake => Sys2Proof.Machine.execHostItemTake s
  | .nap slot => Sys2Proof.Machine.execNap slot s
  | .serviceEnter slot => Sys2Proof.Machine.execServiceEnter slot s
  | .serviceExit slot => Sys2Proof.Machine.execServiceExit slot s
  | .freeze => Sys2Proof.Machine.execFreeze s
  | .thaw phi => Sys2Proof.Machine.execThaw phi s
  | .stewardReady => Sys2Proof.Machine.execStewardReady s
  | .stewardHalt => Sys2Proof.Machine.execStewardHalt s
  | .hostCsWake n => Sys2Proof.Machine.execHostCsWake n s
  | .i2cStartWake n => Sys2Proof.Machine.execI2cStartWake n s
  | .canRxdWake n => Sys2Proof.Machine.execCanRxdWake n s
  | .stinWakeEdge n rising => Sys2Proof.Machine.execStinWakeEdge n rising s
  | .asleepFrame n => Sys2Proof.Machine.execAsleepFrame n s
  | .trimUpdate => Sys2Proof.Machine.execTrimUpdate s
  | .ppsinEdge stamp => Sys2Proof.Machine.execPpsinEdge stamp s
  | .missingSecond => Sys2Proof.Machine.execMissingSecond s
  | .zdaSentence text => Sys2Proof.Machine.execZdaSentence text s
  | .declareLock slot => Sys2Proof.Machine.execDeclareLock slot s
  | .declareUnlock slot => Sys2Proof.Machine.execDeclareUnlock slot s
  | .integClear slot => Sys2Proof.Machine.execIntegClear slot s
  | .holdoverSecond => Sys2Proof.Machine.execHoldoverSecond s
  | .glearnSample => Sys2Proof.Machine.execGlearnSample s
  | .glearnWindowEnd => Sys2Proof.Machine.execGlearnWindowEnd s
  | .glRestart slot => Sys2Proof.Machine.execGlRestart slot s
  | .fold slot => Sys2Proof.Machine.execFold slot s
  | .kcalMeasure slot => Sys2Proof.Machine.execKcalMeasure slot s
  | .kcalDone => Sys2Proof.Machine.execKcalDone s
  | .kcalAuto => Sys2Proof.Machine.execKcalAuto s
  | .keepGUpdate => Sys2Proof.Machine.execKeepGUpdate s
  | .calSecondBoundary => Sys2Proof.Machine.execCalSecondBoundary s
  | .leapWrite slot k value => Sys2Proof.Machine.execLeapWrite slot k value s
  | .localArm slot value => Sys2Proof.Machine.execLocalArm slot value s
  | .localChange => Sys2Proof.Machine.execLocalChange s
  | .cancelLocal slot => Sys2Proof.Machine.execCancelLocal slot s
  | .calAlmCtrlWrite slot n value => Sys2Proof.Machine.execCalAlmCtrlWrite slot n value s
  | .alarmSearchDone n => Sys2Proof.Machine.execAlarmSearchDone n s
  | .calAlarmFire n => Sys2Proof.Machine.execCalAlarmFire n s
  | .ppsoutPulse => Sys2Proof.Machine.execPpsoutPulse s
  | .ppsoutPulseEnd => Sys2Proof.Machine.execPpsoutPulseEnd s
  | .irigoutElement => Sys2Proof.Machine.execIrigoutElement s
  | .iriginElement lead widthNs => Sys2Proof.Machine.execIriginElement lead widthNs s
  | .clkoutEdge n => Sys2Proof.Machine.execClkoutEdge n s
  | .hpNsWrite slot n value => Sys2Proof.Machine.execHpNsWrite slot n value s
  | .clkResync slot => Sys2Proof.Machine.execClkResync slot s
  | .stinEdge n rising stamp => Sys2Proof.Machine.execStinEdge n rising stamp s
  | .stampDrain => Sys2Proof.Machine.execStampDrain s
  | .interpCal n pass => Sys2Proof.Machine.execInterpCal n pass s
  | .touEntryWrite slot n e w value => Sys2Proof.Machine.execTouEntryWrite slot n e w value s
  | .touArm slot n mask => Sys2Proof.Machine.execTouArm slot n mask s
  | .touCancel slot n mask => Sys2Proof.Machine.execTouCancel slot n mask s
  | .touCommit n e => Sys2Proof.Machine.execTouCommit n e s
  | .touTrailingEdge n => Sys2Proof.Machine.execTouTrailingEdge n s
  | .touLock n e => Sys2Proof.Machine.execTouLock n e s
  | .touCtrlWrite slot n value => Sys2Proof.Machine.execTouCtrlWrite slot n value s
  | .millEdge m a b z stamp => Sys2Proof.Machine.execMillEdge m a b z stamp s
  | .millStall m => Sys2Proof.Machine.execMillStall m s
  | .millApply slot m => Sys2Proof.Machine.execMillApply slot m s
  | .millDiscard slot m => Sys2Proof.Machine.execMillDiscard slot m s
  | .eval slot m => Sys2Proof.Machine.execEval slot m s
  | .inject slot m => Sys2Proof.Machine.execInject slot m s
  | .injHoldExpiry m => Sys2Proof.Machine.execInjHoldExpiry m s
  | .millRingOffer => Sys2Proof.Machine.execMillRingOffer s
  | .gtStart slot n => Sys2Proof.Machine.execGtStart slot n s
  | .gtStop slot n => Sys2Proof.Machine.execGtStop slot n s
  | .gtLoad slot n => Sys2Proof.Machine.execGtLoad slot n s
  | .gtApply slot n => Sys2Proof.Machine.execGtApply slot n s
  | .gtDiscard slot n => Sys2Proof.Machine.execGtDiscard slot n s
  | .capFlush slot n => Sys2Proof.Machine.execCapFlush slot n s
  | .gtTick n rising at_ => Sys2Proof.Machine.execGtTick n rising at_ s
  | .gtCompareMatch n k rising at_ => Sys2Proof.Machine.execGtCompareMatch n k rising at_ s
  | .gtExpiry n rising at_ => Sys2Proof.Machine.execGtExpiry n rising at_ s
  | .gtPulseEnd n pin => Sys2Proof.Machine.execGtPulseEnd n pin s
  | .gtTrigger n => Sys2Proof.Machine.execGtTrigger n s
  | .gtPinGate n high => Sys2Proof.Machine.execGtPinGate n high s
  | .gtCapture n c rising stamp => Sys2Proof.Machine.execGtCapture n c rising stamp s
  | .gtCapPop slot n c => Sys2Proof.Machine.execGtCapPop slot n c s
  | .gtCmpHiWrite slot n k value => Sys2Proof.Machine.execGtCmpHiWrite slot n k value s
  | .icuRound => Sys2Proof.Machine.execIcuRound s
  | .icuRecordPublish t => Sys2Proof.Machine.execIcuRecordPublish t s
  | .eventClaim way => Sys2Proof.Machine.execEventClaim way s
  | .eventEoi way source => Sys2Proof.Machine.execEventEoi way source s
  | .latchClear slot w value => Sys2Proof.Machine.execLatchClear slot w value s
  | .lbrkClear slot value => Sys2Proof.Machine.execLbrkClear slot value s
  | .targetReset slot t => Sys2Proof.Machine.execTargetReset slot t s
  | .prigrpWrite slot value => Sys2Proof.Machine.execPrigrpWrite slot value s
  | .srccfgWrite slot src value => Sys2Proof.Machine.execSrccfgWrite slot src value s
  | .tgtcfgWrite slot t value => Sys2Proof.Machine.execTgtcfgWrite slot t value s
  | .ringRead way r peek words complete => Sys2Proof.Machine.execRingRead way r peek words complete s
  | .ringWrite slot r payload wire => Sys2Proof.Machine.execRingWrite slot r payload wire s
  | .widxWrite slot r value => Sys2Proof.Machine.execWidxWrite slot r value s
  | .ridxWrite slot r value => Sys2Proof.Machine.execRidxWrite slot r value s
  | .flush slot r => Sys2Proof.Machine.execFlush slot r s
  | .rngCfgWrite slot r value => Sys2Proof.Machine.execRngCfgWrite slot r value s
  | .pinchPost way c word => Sys2Proof.Machine.execPinchPost way c word s
  | .sachetPost way c tx0 tx1 => Sys2Proof.Machine.execSachetPost way c tx0 tx1 s
  | .pinchTake way c => Sys2Proof.Machine.execPinchTake way c s
  | .sachetTake way c => Sys2Proof.Machine.execSachetTake way c s
  | .mbxAck way c code => Sys2Proof.Machine.execMbxAck way c code s
  | .retract slot c => Sys2Proof.Machine.execRetract slot c s
  | .ackedClear slot c => Sys2Proof.Machine.execAckedClear slot c s
  | .mbxBindWrite slot c value => Sys2Proof.Machine.execMbxBindWrite slot c value s
  | .readReg p addr words wire => Sys2Proof.Machine.execReadReg p addr words wire s
  | .writeReg p addr payload wire => Sys2Proof.Machine.execWriteReg p addr payload wire s
  | .readSame p addr words wire => Sys2Proof.Machine.execReadSame p addr words wire s
  | .dictReq p field body wire => Sys2Proof.Machine.execDictReq p field body wire s
  | .dictResp p words wire => Sys2Proof.Machine.execDictResp p words wire s
  | .status p wire => Sys2Proof.Machine.execStatus p wire s
  | .nop f => Sys2Proof.Machine.execNop f s
  | .badOpcode f opcode => Sys2Proof.Machine.execBadOpcode f opcode s
  | .shortFrame f sck => Sys2Proof.Machine.execShortFrame f sck s
  | .i2cStatusRead n => Sys2Proof.Machine.execI2cStatusRead n s
  | .hostReset p => Sys2Proof.Machine.execHostReset p s
  | .nodeSilence k => Sys2Proof.Machine.execNodeSilence k s
  | .leaseClaim slot id duration => Sys2Proof.Machine.execLeaseClaim slot id duration s
  | .leaseRelease slot id => Sys2Proof.Machine.execLeaseRelease slot id s
  | .leaseBreak slot id => Sys2Proof.Machine.execLeaseBreak slot id s
  | .leaseExpiry id => Sys2Proof.Machine.execLeaseExpiry id s
  | .pinClaim slot p value => Sys2Proof.Machine.execPinClaim slot p value s
  | .pinRelease slot p value => Sys2Proof.Machine.execPinRelease slot p value s
  | .slotWrite slot k value => Sys2Proof.Machine.execSlotWrite slot k value s
  | .keyhashWrite slot k value => Sys2Proof.Machine.execKeyhashWrite slot k value s
  | .lock slot value => Sys2Proof.Machine.execLock slot value s
  | .verify slot => Sys2Proof.Machine.execVerify slot s
  | .install slot => Sys2Proof.Machine.execInstall slot s
  | .activate slot => Sys2Proof.Machine.execActivate slot s
  | .fwOpDone row => Sys2Proof.Machine.execFwOpDone row s
  | .trialRevert => Sys2Proof.Machine.execTrialRevert s
  | .seclockSample high => Sys2Proof.Machine.execSeclockSample high s
  | .bankRise b is33 => Sys2Proof.Machine.execBankRise b is33 s
  | .dtpRead slot index sub => Sys2Proof.Machine.execDtpRead slot index sub s
  | .dtpWrite slot index sub value => Sys2Proof.Machine.execDtpWrite slot index sub value s
  | .segWriteInit slot index sub total => Sys2Proof.Machine.execSegWriteInit slot index sub total s
  | .segWriteData slot toggle index sub segment => Sys2Proof.Machine.execSegWriteData slot toggle index sub segment s
  | .segReadInit slot index sub => Sys2Proof.Machine.execSegReadInit slot index sub s
  | .segReadData slot toggle index sub => Sys2Proof.Machine.execSegReadData slot toggle index sub s
  | .dtpAbort slot code => Sys2Proof.Machine.execDtpAbort slot code s
  | .dtpUndefinedCmd slot q0 => Sys2Proof.Machine.execDtpUndefinedCmd slot q0 s
  | .transferLeaseExpiry slot => Sys2Proof.Machine.execTransferLeaseExpiry slot s
  | .store slot => Sys2Proof.Machine.execStore slot s
  | .storeComplete => Sys2Proof.Machine.execStoreComplete s
  | .restore slot => Sys2Proof.Machine.execRestore slot s
  | .canEnable slot p value => Sys2Proof.Machine.execCanEnable slot p value s
  | .recover slot p => Sys2Proof.Machine.execRecover slot p s
  | .tmNow slot p => Sys2Proof.Machine.execTmNow slot p s
  | .busOff p => Sys2Proof.Machine.execBusOff p s
  | .busOffRecovery p => Sys2Proof.Machine.execBusOffRecovery p s
  | .canFrameReceive p frame => Sys2Proof.Machine.execCanFrameReceive p frame s
  | .timemark p => Sys2Proof.Machine.execTimemark p s
  | .timemarkFu p sof => Sys2Proof.Machine.execTimemarkFu p sof s
  | .heartbeat p => Sys2Proof.Machine.execHeartbeat p s
  | .canTxItem p sof => Sys2Proof.Machine.execCanTxItem p sof s
  | .beacon canSend => Sys2Proof.Machine.execBeacon canSend s
  | .layoutApply slot => Sys2Proof.Machine.execLayoutApply slot s
  | .layoutDiscard slot => Sys2Proof.Machine.execLayoutDiscard slot s
  | .approve slot ticket => Sys2Proof.Machine.execApprove slot ticket s
  | .deny slot ticket retry => Sys2Proof.Machine.execDeny slot ticket retry s
  | .evict slot addr retry => Sys2Proof.Machine.execEvict slot addr retry s
  | .quarClear slot => Sys2Proof.Machine.execQuarClear slot s
  | .joinReq port req => Sys2Proof.Machine.execJoinReq port req s
  | .joinAnswer port => Sys2Proof.Machine.execJoinAnswer port s
  | .ticketTimeout ticket => Sys2Proof.Machine.execTicketTimeout ticket s
  | .syncReport port addr body => Sys2Proof.Machine.execSyncReport port addr body s
  | .keepalive port addr flags lqi batt rx => Sys2Proof.Machine.execKeepalive port addr flags lqi batt rx s
  | .leave port addr reason => Sys2Proof.Machine.execLeave port addr reason s
  | .ptlUndefinedType port type => Sys2Proof.Machine.execPtlUndefinedType port type s
  | .reportJudgement addr => Sys2Proof.Machine.execReportJudgement addr s
  | .absentTimeout addr => Sys2Proof.Machine.execAbsentTimeout addr s
  | .quarantineEnd addr => Sys2Proof.Machine.execQuarantineEnd addr s
  | .sweepArm slot n => Sys2Proof.Machine.execSweepArm slot n s
  | .sweepDisarm slot n => Sys2Proof.Machine.execSweepDisarm slot n s
  | .sweepAbort slot n => Sys2Proof.Machine.execSweepAbort slot n s
  | .sweepApply slot n => Sys2Proof.Machine.execSweepApply slot n s
  | .sweepDiscard slot n => Sys2Proof.Machine.execSweepDiscard slot n s
  | .sweepRequestWindow n => Sys2Proof.Machine.execSweepRequestWindow n s
  | .sampleReport port addr body => Sys2Proof.Machine.execSampleReport port addr body s
  | .sweepDeadline n => Sys2Proof.Machine.execSweepDeadline n s
  | .radioRestart slot p => Sys2Proof.Machine.execRadioRestart slot p s
  | .radioApply slot p => Sys2Proof.Machine.execRadioApply slot p s
  | .radioDiscard slot p => Sys2Proof.Machine.execRadioDiscard slot p s
  | .runSlot slot p k => Sys2Proof.Machine.execRunSlot slot p k s
  | .radioIrq p => Sys2Proof.Machine.execRadioIrq p s
  | .radioTxLoad p => Sys2Proof.Machine.execRadioTxLoad p s
  | .radioTick p => Sys2Proof.Machine.execRadioTick p s
  | .radioSfd p stamp => Sys2Proof.Machine.execRadioSfd p stamp s
  | .radioTxCommit p => Sys2Proof.Machine.execRadioTxCommit p s
  | .sfdMiss p => Sys2Proof.Machine.execSfdMiss p s
  | .radioTxItem p => Sys2Proof.Machine.execRadioTxItem p s
  | .scriptEnd p => Sys2Proof.Machine.execScriptEnd p s
  | .scriptXfer p miso => Sys2Proof.Machine.execScriptXfer p miso s
  | .scriptXferA p miso => Sys2Proof.Machine.execScriptXferA p miso s
  | .scriptSendFrame p => Sys2Proof.Machine.execScriptSendFrame p s
  | .scriptRecvFrame p bytes lqi rssi => Sys2Proof.Machine.execScriptRecvFrame p bytes lqi rssi s
  | .scriptPost p => Sys2Proof.Machine.execScriptPost p s
  | .scriptLoada p => Sys2Proof.Machine.execScriptLoada p s
  | .scriptAnda p => Sys2Proof.Machine.execScriptAnda p s
  | .scriptJump p => Sys2Proof.Machine.execScriptJump p s
  | .scriptWaitIrq p => Sys2Proof.Machine.execScriptWaitIrq p s
  | .scriptWaitEnd p irq => Sys2Proof.Machine.execScriptWaitEnd p irq s
  | .scriptDelay p => Sys2Proof.Machine.execScriptDelay p s
  | .scriptDelayEnd p => Sys2Proof.Machine.execScriptDelayEnd p s
  | .scriptReset p => Sys2Proof.Machine.execScriptReset p s
  | .scriptArmTxt p => Sys2Proof.Machine.execScriptArmTxt p s
  | .scriptHalt p => Sys2Proof.Machine.execScriptHalt p s
  | .scriptBadOp p => Sys2Proof.Machine.execScriptBadOp p s
  | .seqLineStall => Sys2Proof.Machine.execSeqLineStall s
  | .hostBankLost b => Sys2Proof.Machine.execHostBankLost b s
  | .restoreComplete => Sys2Proof.Machine.execRestoreComplete s
  | .estateChg p tec rec_ estate => Sys2Proof.Machine.execEstateChg p tec rec_ estate s
  | .debugHaltEnd => Sys2Proof.Machine.execDebugHaltEnd s

end Sys2Proof.Machine
end

