-- ==== Sys2Proof/WellFormed.lean ====
section
/-! DEFINITION. What the outside world can present: the bounds that the spec sets on a command's operands beyond their types. -/

namespace Sys2Proof

/-- A stamp lies in Hub Time: 48-bit seconds (R21), in 2⁻⁴ ns. -/
def stampOk (t : Stamp) : Bool := decide (t < 2 ^ 48 * 1000000000 * 16)

/-- A frame carries N = LEN + 1 words, LEN one byte (R562). -/
def wordsOk (n : Nat) : Bool := decide (1 ≤ n) && decide (n ≤ 256)

/-- The opcodes of R567. -/
def definedOpcodes : List Nat := [0x10, 0x11, 0x12, 0x20, 0x21, 0x30, 0x31, 0x40, 0x41, 0x42, 0x50, 0x51, 0x60, 0x7F]

/-- The data lengths of ISO 11898-1. -/
def isoLens : List Nat := [0, 1, 2, 3, 4, 5, 6, 7, 8, 12, 16, 20, 24, 32, 48, 64]

/-- A CAN frame as a bus can carry it (R626): an ISO length, 8 bytes at most outside the FD format, BRS and ESI only in it, and a remote
frame without data. -/
def canOk (f : CanFrame) : Bool :=
  isoLens.contains f.data.length && (f.fdf || (decide (f.data.length ≤ 8) && !f.brs && !f.esi)) && (!f.rtr || (!f.fdf && f.data.isEmpty)) &&
    stampOk f.sof && (f.ext || decide (f.id.toNat < 2 ^ 11))

/-- The command is one that can be presented. -/
def Instr.wf : Instr → Bool
  | .registerWrite .. | .set .. | .cancelSet .. | .step .. | .slewStart .. | .slewAbort .. | .slewDone | .selfCapture ..
  | .planSwitch .. | .planFail | .htmIncrHiWrite .. | .htmIncrLoWrite .. | .pllLock | .islandToMclk | .pllUnlock | .pllRetry => true
  | .keepPowerOn vmainMv vbatMv => decide (vmainMv < 2 ^ 16) && decide (vbatMv < 2 ^ 16)
  | .keepReset | .switchToVbat => true
  | .keepTick tick => stampOk tick.edge && decide (tick.vmainMv < 2 ^ 16) && decide (tick.vbatMv < 2 ^ 16)
  | .keepTempSample _ vbatMv => decide (vbatMv < 2 ^ 16)
  | .keepAgeDay | .keepAlarmFire .. | .kstampEdge .. | .koscFail | .oscRunning | .switchToVmain | .switchRecordEmit
  | .collapseOrder | .keepWindowWrite .. | .keepWriteApply | .keepChgWrite .. | .chargerLimit | .fifoFlush .. | .ageRestart ..
  | .shelfArm .. | .shelfDisarm .. | .keepAlmHiWrite .. | .scanConversion .. | .railNotUp .. | .railShort .. | .railNotDown ..
  | .minOffEnd .. | .railFault .. | .seqstepRise .. | .stageStart | .stageDone | .seqdownChange .. | .remoteAllOff ..
  | .remoteAllOffEnd | .lineWatchEnd .. | .pbShort | .pbLong .. | .mrAssert .. | .mrRelease | .faultRetry | .autoStart | .vinWarn
  | .vinRecover | .vinFault .. | .brownOut | .groupUp .. | .groupDown .. | .wakein .. | .groupDemandServe .. | .hrstRelease ..
  | .wakeOutputTimeout .. | .release .. | .gateTimeout | .commit .. | .planDiscard .. | .forceOff .. | .up .. | .down ..
  | .vmainArrival .. => true
  | .adcRefConversion deviation => decide (deviation < 2 ^ 12)
  | .scanNow .. | .snap .. | .periodicSnap | .mortarEntryWrite | .clear .. | .clearDone | .logScan | .hostItemTake | .nap ..
  | .serviceEnter .. | .serviceExit .. | .freeze | .thaw .. | .stewardReady | .stewardHalt | .hostCsWake .. | .i2cStartWake ..
  | .canRxdWake .. | .stinWakeEdge .. | .asleepFrame .. | .trimUpdate => true
  | .ppsinEdge stamp => stampOk stamp
  | .missingSecond => true
  | .zdaSentence text => decide (text.length ≤ 82)
  | .declareLock .. | .declareUnlock .. | .integClear .. | .holdoverSecond | .glearnSample | .glearnWindowEnd | .glRestart ..
  | .fold .. | .kcalMeasure .. | .kcalDone | .kcalAuto | .keepGUpdate | .calSecondBoundary | .leapWrite .. | .localArm ..
  | .localChange | .cancelLocal .. | .calAlmCtrlWrite .. | .alarmSearchDone .. | .calAlarmFire .. | .ppsoutPulse | .ppsoutPulseEnd
  | .irigoutElement => true
  | .iriginElement lead widthNs => stampOk lead && decide (widthNs < 2 ^ 32)
  | .clkoutEdge .. | .hpNsWrite .. | .clkResync .. => true
  | .stinEdge _ _ stamp => stampOk stamp
  | .stampDrain | .interpCal .. | .touEntryWrite .. | .touArm .. | .touCancel .. | .touCommit .. | .touTrailingEdge .. | .touLock ..
  | .touCtrlWrite .. => true
  | .millEdge _ _ _ _ stamp => stampOk stamp
  | .millStall .. | .millApply .. | .millDiscard .. | .eval .. | .inject .. | .injHoldExpiry .. | .millRingOffer | .gtStart ..
  | .gtStop .. | .gtLoad .. | .gtApply .. | .gtDiscard .. | .capFlush .. => true
  | .gtTick _ _ at_ => stampOk at_
  | .gtCompareMatch _ _ _ at_ => stampOk at_
  | .gtExpiry _ _ at_ => stampOk at_
  | .gtPulseEnd .. | .gtTrigger .. | .gtPinGate .. => true
  | .gtCapture _ _ _ stamp => stampOk stamp
  | .gtCapPop .. | .gtCmpHiWrite .. | .icuRound | .icuRecordPublish .. | .eventClaim .. | .eventEoi .. | .latchClear ..
  | .lbrkClear .. | .targetReset .. | .prigrpWrite .. | .srccfgWrite .. | .tgtcfgWrite .. => true
  | .ringRead _ _ _ words _ => wordsOk words
  | .ringWrite _ _ payload _ => wordsOk payload.length
  | .widxWrite .. | .ridxWrite .. | .flush .. | .rngCfgWrite .. | .pinchPost .. | .sachetPost .. | .pinchTake .. | .sachetTake ..
  | .mbxAck .. | .retract .. | .ackedClear .. | .mbxBindWrite .. => true
  | .readReg _ _ words _ => wordsOk words
  | .writeReg _ _ payload _ => wordsOk payload.length
  | .readSame _ _ words _ => wordsOk words
  | .dictReq _ _ body _ => wordsOk body.length
  | .dictResp _ words _ => wordsOk words
  | .status .. | .nop .. => true
  | .badOpcode _ opcode => !definedOpcodes.contains opcode.toNat
  | .shortFrame .. | .i2cStatusRead .. | .hostReset .. | .nodeSilence .. | .leaseClaim .. | .leaseRelease .. | .leaseBreak ..
  | .leaseExpiry .. | .pinClaim .. | .pinRelease .. | .slotWrite .. | .keyhashWrite .. | .lock .. | .verify .. | .install ..
  | .activate .. | .fwOpDone .. | .trialRevert | .seclockSample .. | .bankRise .. | .dtpRead .. => true
  | .dtpWrite _ _ _ value => decide (value.length < 2 ^ 16)
  | .segWriteInit _ _ _ total => decide (total < 2 ^ 32)
  | .segWriteData _ _ _ _ segment => decide (segment.length < 2 ^ 16)
  | .segReadInit .. | .segReadData .. | .dtpAbort .. => true
  | .dtpUndefinedCmd _ q0 => decide (q0.toNat / 2 ^ 28 = 0) || decide (8 ≤ q0.toNat / 2 ^ 28)
  | .transferLeaseExpiry .. | .store .. | .storeComplete | .restore .. | .canEnable .. | .recover .. | .tmNow .. | .busOff ..
  | .busOffRecovery .. => true
  | .canFrameReceive _ frame => canOk frame
  | .timemark .. => true
  | .timemarkFu _ sof => stampOk sof
  | .heartbeat .. => true
  | .canTxItem _ sof => stampOk sof
  | .beacon .. | .layoutApply .. | .layoutDiscard .. | .approve .. | .deny .. | .evict .. | .quarClear .. => true
  | .joinReq _ req => stampOk req.rx
  | .joinAnswer .. | .ticketTimeout .. => true
  | .syncReport _ _ body => stampOk body.rx
  | .keepalive _ _ _ _ _ rx => stampOk rx
  | .leave .. | .ptlUndefinedType .. | .reportJudgement .. | .absentTimeout .. | .quarantineEnd .. | .sweepArm .. | .sweepDisarm ..
  | .sweepAbort .. | .sweepApply .. | .sweepDiscard .. | .sweepRequestWindow .. => true
  | .sampleReport _ _ body => stampOk body.rx && decide (body.data.length < 2 ^ 16)
  | .sweepDeadline .. | .radioRestart .. | .radioApply .. | .radioDiscard .. | .runSlot .. | .radioIrq .. | .radioTxLoad ..
  | .radioTick .. => true
  | .radioSfd _ stamp => stampOk stamp
  | .radioTxCommit .. | .sfdMiss .. | .radioTxItem .. | .scriptEnd .. | .scriptXfer .. | .scriptXferA .. | .scriptSendFrame .. => true
  | .scriptRecvFrame _ bytes _ _ => decide (bytes.length ≤ 255)
  | .scriptPost .. | .scriptLoada .. | .scriptAnda .. | .scriptJump .. | .scriptWaitIrq .. | .scriptWaitEnd .. | .scriptDelay ..
  | .scriptDelayEnd .. | .scriptReset .. | .scriptArmTxt .. | .scriptHalt .. | .scriptBadOp .. | .seqLineStall
  | .restoreComplete | .estateChg .. | .debugHaltEnd => true
  | .hostBankLost b => decide (b.n.val < 4) || b.cut.isNone

end Sys2Proof
end

