-- ==== Sys2Proof/Safety.lean ====
section
/-! DEFINITION. The terms in which claims are stated: what a command answers and leaves, what it leaves unchanged, a slot whose commands
are served, a ring that takes an item, and the invariants of the hub. -/

namespace Sys2Proof.Machine

open F

/-! ### Invariants -/

/-- The Shared Buffer is in canonical form: addresses strictly rising, no zero byte listed, none outside its 1 MiB (R501). -/
def State.memOk (s : State) : Bool := Memory.wf s.sbuf && s.sbuf.all fun c => decide (c.1 < 2 ^ 20)

/-- A command that can be presented waits at every place of the queue. -/
def State.queueOk (s : State) : Bool := s.pending.all Instr.wf

/-! ### What a command leaves unchanged -/

/-- The parts of the state beside the register fields, the Shared Buffer and the queue: one for each block, and one for each unit of a
block that has several. `last` is the result that each port shows next, `wave` what the last frame carried on the wires, `hst` the rest of
the host block; the plurals name all units
of their kind at once. -/
inductive Blk where
  | answer | fresh | ended | ringSeq | port | htm | glb | keep | icu | mbx | last | wave | hst | dict | can | seq | mon | trm | stp | cal | mil | ptn
  | stins | touEnts | touOuts | mills | timers | sweeps | radios
  | stin (n : Nat) | touEnt (n e : Nat) | touOut (n : Nat) | mill (m : Nat) | timer (n : Nat) | sweep (n : Nat) | radio (p : Nat)
  deriving DecidableEq, Repr

/-- All units of a unit's kind. -/
def Blk.kind : Blk → Blk
  | .stin _ => .stins
  | .touEnt _ _ => .touEnts
  | .touOut _ => .touOuts
  | .mill _ => .mills
  | .timer _ => .timers
  | .sweep _ => .sweeps
  | .radio _ => .radios
  | b => b

/-- A part is after as it was before. Blocks with units are compared unit by unit; `stp` and `mil` are what stands beside them. -/
def Blk.same (b : Blk) (s t : State) : Prop :=
  match b with
  | .answer => t.answer = s.answer
  | .fresh => t.fresh = s.fresh
  | .ended => t.ended = s.ended
  | .ringSeq => t.ringSeq = s.ringSeq
  | .port => t.port = s.port
  | .htm => t.htm = s.htm
  | .glb => t.glb = s.glb
  | .keep => t.keep = s.keep
  | .icu => t.icu = s.icu
  | .mbx => t.mbx = s.mbx
  | .last => t.hst.portLast = s.hst.portLast
  | .wave => t.hst.status = s.hst.status ∧ t.hst.sdo = s.hst.sdo ∧ t.hst.acks = s.hst.acks
  | .hst => { t.hst with portLast := s.hst.portLast, status := s.hst.status, sdo := s.hst.sdo, acks := s.hst.acks } = s.hst
  | .dict => t.dict = s.dict
  | .can => t.can = s.can
  | .seq => t.seq = s.seq
  | .mon => t.mon = s.mon
  | .trm => t.trm = s.trm
  | .stp => { t.stp with ins := s.stp.ins } = s.stp
  | .cal => t.cal = s.cal
  | .mil => { t.mil with mills := s.mil.mills } = s.mil
  | .ptn => t.ptn = s.ptn
  | .stins | .touEnts | .touOuts | .mills | .timers | .sweeps | .radios => True
  | .stin n => t.stin n = s.stin n
  | .touEnt n e => t.touEnt n e = s.touEnt n e
  | .touOut n => t.touOut n = s.touOut n
  | .mill m => t.mill m = s.mill m
  | .timer n => t.gt n = s.gt n
  | .sweep n => t.sweep n = s.sweep n
  | .radio p => t.radio p = s.radio p

/-- What a command may change: register fields, whole register areas (from one byte address up to but without another), parts of the
state, and bytes of the Shared Buffer (any of them with `anyByte`). -/
structure Touch where
  flds    : List Fld := []
  areas   : List (Nat × Nat) := []
  blks    : List Blk := []
  bytes   : List Nat := []
  anyByte : Bool := false

/-- What either of two may change. -/
def Touch.and (w w' : Touch) : Touch :=
  { flds := w.flds ++ w'.flds, areas := w.areas ++ w'.areas, blks := w.blks ++ w'.blks, bytes := w.bytes ++ w'.bytes
    anyByte := w.anyByte || w'.anyByte }

/-- The field stands in none of the areas. -/
def Fld.outside (f : Fld) (areas : List (Nat × Nat)) : Prop := ∀ a ∈ areas, f.addr < a.1 ∨ a.2 ≤ f.addr

/-- Nothing but `w` has changed from `s` to `t`: every other register field, every other byte of the Shared Buffer, every other part of
the state, and the queue of waiting commands, are as they were. -/
structure Frame (w : Touch) (s t : State) : Prop where
  regs  : ∀ f : Fld, (∀ g ∈ w.flds, g.key ≠ f.key) → f.lo < 32 → f.outside w.areas → t.rd f = s.rd f
  mem   : w.anyByte = false → ∀ a, a < 2 ^ 20 → a ∉ w.bytes → t.sbyte a = s.sbyte a
  blks  : ∀ b : Blk, b ∉ w.blks → b.kind ∉ w.blks → b.same s t
  queue : t.pending = s.pending

/-! ### What a command answers -/

/-- A command's next state exists, and `P` holds of it. -/
def After (i : Instr) (s : State) (P : State → Prop) : Prop := ∃ t, exec i s = .next t ∧ P t

/-- The frames of a slot come to their command now: its port answers in this mode (R234 to R236), the slot is enabled (R550), no slot
word waits for its next frame, and the last RING_READ of its port has moved RIDX (R524). -/
def State.heard (s : State) (slot : Nat) : Bool :=
  s.serves slot && s.hst.bind.isEmpty && !s.m10Refuses slot && (decide (16 ≤ slot) || s.on (hEn slot)) &&
    s.hst.reads.all fun a => s.sendPort slot != some a.port

/-- A slot's commands on the hub's registers are served now: REACH grants them too (R584). -/
def State.ready (s : State) (slot : Nat) : Bool := s.heard slot && (s.outOfReach slot false).isNone

/-- The same of the registers that no dictionary entry stands for: REACH 0b01 does not grant them (R584). -/
def State.readyReg (s : State) (slot : Nat) : Bool := s.ready slot && (decide (16 ≤ slot) || s.rd (hReach slot) != 1)

/-- The slot's own fields that serving one of its commands writes (R556, R560, R566), and on a refusal of class 0x3 the port's counts
(R574). -/
def State.slotFlds (s : State) (slot : Nat) (c : Code) : List Fld :=
  (if slot < 16 then [hPresent slot, hWaking slot, hLast slot] else []) ++
  (match s.portOf slot with | some p => if c.cls = 3 then [hReject p, hCrcErr p, hPevt p] else [] | none => [])

/-- The hub served a slot's command: the answer and the last results show the code (R566), and beside them nothing but `w` has
changed. -/
structure Served (slot : Slot) (c : Code) (w : Touch) (s t : State) (d : List Nat := []) : Prop where
  answer : t.answer = { code := c, data := d }
  last   : slot.val < 16 → t.rd (hLast slot.val) = c.val
  port   : ∀ p, s.portOf slot.val = some p → p < 6 → t.lastOf p = c.val
  frame  : Frame { w with flds := s.slotFlds slot.val c ++ w.flds, blks := .answer :: .last :: w.blks } s t

/-- A slot's command that acts on nothing but its answer. -/
def Refused (i : Instr) (slot : Slot) (c : Code) (s : State) : Prop := After i s (Served slot c {} s)

/-- An event happens: beside what `w` names nothing changes, and `P` holds of the state after. -/
def Happens (i : Instr) (s : State) (w : Touch) (P : State → Prop) : Prop := After i s fun t => Frame w s t ∧ P t

/-- A slot's command is answered with `c`: beside its marks and what `w` names nothing changes, and `P` holds of the state after. -/
def Answers (i : Instr) (slot : Slot) (c : Code) (s : State) (w : Touch) (P : State → Prop) : Prop :=
  After i s fun t => Served slot c w s t ∧ P t

/-! ### Frames on the SPI and I2C ports -/

/-- Port p serves the frames of slot k now: it answers in this mode, no slot word waits for its next frame, its last RING_READ has moved
RIDX, and k is bound to it (R234, R236, R524, R550, R557). -/
def State.carries (s : State) (p : Nat) (k : Slot) : Prop :=
  s.asleep = false ∧ s.deaf = false ∧ s.portUp p = true ∧ s.hst.bind = [] ∧ (∀ a ∈ s.hst.reads, a.port ≠ p) ∧ s.portSlot p = some k ∧
  s.m10Refuses k.val = false

/-- A frame of slot k on port p, with SCK high or low at its start, was answered: the answer and the last results of port and slot show the
code (R566), the hub sent the status byte, the data filled to N words and their CRC, which a frame refused before it acted inverts (R562 to
R564), and beside them and the marks of serving nothing but `w` has changed. -/
structure Framed (p : Nat) (k : Slot) (high : Bool) (sh : Shape) (acted : Bool) (c : Code) (d : List Nat) (w : Touch) (s t : State) :
    Prop where
  answer : t.answer = { code := c, data := padTo sh d }
  last   : t.rd (hLast k.val) = c.val ∧ (p < 6 → t.lastOf p = c.val)
  mode   : p < 4 → t.rd (hMode3 p) = high.toNat
  sent   : t.hst.sdo = sentBytes p (s.statusByte p (some k)) sh acted (padTo sh d) ∧ (4 ≤ p → t.hst.acks = ackedBytes sh c)
  frame  : Frame { w with flds := hMode3 p :: s.slotFlds k.val c ++ w.flds, blks := .answer :: .last :: .wave :: w.blks } s t

/-! ### Mills -/

/-- No transition of mill `m` has come in the present cycle. Those of one cycle are decided together (R387). -/
def State.millQuiet (s : State) (m : Nat) : Bool := s.ended.all fun e => match e with | .milled k _ _ _ _ => k != m | _ => true

/-! ### Event sources -/

/-- The latch bit of source `n` has set; while the main domain is stopped the happening waits for the thaw (R468, R469). -/
def State.latched (t : State) (n : Nat) : Prop := t.bit (iLatch (n / 32)) (n % 32) = true ∨ n ∈ t.glb.pendLatch

/-- Every register field from one byte address up to another reads its reset value. -/
def State.atReset (t : State) (lo hi : Nat) : Prop := ∀ f : Fld, lo ≤ f.addr → f.addr < hi → f.lo < 32 → t.rd f = f.reset

/-! ### Rings -/

/-- Ring `r` takes an item of `n` words: it is enabled and has room (R506, R507), and WIDX stands at a word. -/
def State.takes (s : State) (r n : Nat) : Bool :=
  s.on (rEn r) && decide (s.fill r + 4 * n ≤ s.ringSize r) && decide (n ≤ 2 ^ 18) && s.rd (rWidx r) % 4 == 0

/-- A hub producer's item of `n` words goes into ring `r` at once: the ring takes it and the ring write port is idle (R724). -/
def State.accepts (s : State) (r n : Nat) : Bool := s.portIdle && s.takes r n

/-- The bytes of the Shared Buffer that an item of `n` words takes at WIDX (R506, R507). -/
def State.itemBytes (s : State) (r n : Nat) : List Nat :=
  (List.range (4 * n)).map fun j => s.ringAt r (s.rd (rWidx r) + j) % 2 ^ 20

/-- The item `ws` stands in ring `r` where WIDX was, and WIDX has passed it (R507, R513). -/
def Stored (r : Nat) (ws : List Nat) (s t : State) : Prop :=
  t.rd (rWidx r) = (s.rd (rWidx r) + 4 * ws.length) % 2 ^ 32 ∧
  t.ringGet r (s.rd (rWidx r)) ws.length = ws.map (· % 2 ^ 32)

/-- What an item of `n` words for a ring of hub producers may change: the ring, its storage at WIDX, the port. -/
def State.giveTouch (s : State) (r n : Nat) : Touch :=
  { flds := [rWidx r, rRidx r, rDropped r, rDrop r], blks := [.ringSeq, .port], bytes := s.itemBytes r n }

/-- What `n` keep records may change (R99): ring 39 while the main domain runs, else the records that wait for the thaw. -/
def State.keepRecTouch (s : State) (n : Nat) : Touch := if s.running then s.giveTouch 39 (4 * n) else { blks := [.keep] }

/-- A keep record of this kind is in ring 39, with the ring's SEQ, or waits for the thaw (R99, R115). -/
def KeepRecorded (kind detail count : Nat) (s t : State) : Prop :=
  (s.running = true → s.accepts 39 4 = true →
    Stored 39 [kind * 2 ^ 28 + detail * 2 ^ 16 + Assoc.get 0 39 s.ringSeq, count % 2 ^ 32, count / 2 ^ 32, 0] s t) ∧
  (s.running = false → t.keep.recQ = s.keep.recQ ++ [{ kind := kind, detail := detail, count := count }])

/-! ### Register writes -/

/-- A write of the register at `a` follows the type codes of its fields and starts nothing: the command registers and the words with a rule
of their own are shut out, as are the keep window, the pins and the security block, which have other statements. -/
def plainReg (a : Nat) : Bool :=
  let o := a % 2 ^ 16
  match a / 2 ^ 16 with
  | 0x00 => a != 0x104
  | 0x02 => !([0x020008, 0x02000C, 0x020020, 0x020100, 0x020108, 0x020120].contains a)
  | 0x03 => !(a == 0x030008 || a == 0x03003C || (decide (0x100 ≤ o) && decide (o < 0x180)) ||
      (decide (0x200 ≤ o) && decide (o < 0x300) && o % 0x20 == 8) || (decide (0x440 ≤ o) && decide (o < 0x480) && o % 0x10 == 4))
  | 0x04 | 0x0A => o != 8
  | 0x05 => true
  | 0x06 => decide (o < 0x280) && !(decide (o < 0x200) && (o % 0x10 == 0 || o % 0x10 == 8))
  | 0x07 => decide (o < 0x1000) && !(o % 0x100 == 0x1C) &&
      !(decide (0x40 ≤ o % 0x100) && decide (o % 0x100 < 0x80) && (o % 0x10 == 4 || o % 0x10 == 8))
  | 0x08 => decide (o < 0x1000) && milLeased (o % 0x100)
  | 0x09 => !(o == 8 || o == 0x2C)
  | 0x0B => !(o == 0 || o == 4 || (decide (0x100 ≤ o) && decide (o < 0x200)) || (decide (0x500 ≤ o) && decide (o < 0x540)) || decide (0x1000 ≤ o))
  | 0x0C => decide (0x800 ≤ o)
  | 0x0D => decide (o < 0x1000) || decide (0x1600 ≤ o)
  | 0x0E => !(o == 0x84 || o == 0x90)
  | 0x0F => !(decide (o < 0x8000) && o % 0x1000 == 8) && !(decide (0x8000 ≤ o) && decide (o < 0x9000) && o % 0x40 == 0x2C)
  | 0x10 => !(decide (o < 0x100) && (o % 0x10 == 0 || o % 0x10 == 4))
  | 0x11 => decide (o < 0x200) && !(o % 0x100 == 0) && !(o % 0x100 == 0x40)
  | _ => false

/-- The lease that a write of the register at `a` needs. -/
def leaseNeeded (a : Nat) : Option Nat :=
  let o := a % 2 ^ 16
  match a / 2 ^ 16 with
  | 0x06 | 0x07 | 0x0F => leaseOfAddr a
  | 0x08 => if o < 0x1000 ∧ milLeased (o % 0x100) = true then leaseOfAddr a else none
  | 0x09 => if planFlds.any fun f => f.addr == a then some idPlan else none
  | _ => none

/-- A word with a reserved encoding or range of its own, which what is staged beside it makes (R8): a timer's, the plan's RETRY_DELAY, the
beacon offset. -/
def State.wordBad (s : State) (a v : Nat) : Bool :=
  (a / 2 ^ 16 == 7 && s.gtBadWord (a % 2 ^ 16 / 0x100) (a % 0x100) v) || s.retryBad a v || s.bofsBad a v

/-- What follows from a register's new value beside it: the calendar's view and outputs, the learning window (R279), the log's FULL, the die
sensor's next conversions. -/
def plainTouch (a : Nat) : Touch :=
  match a / 2 ^ 16 with
  | 0x03 => { areas := [(0x030000, 0x030028), (0x030040, 0x030048)], blks := [.cal] }
  | 0x04 => { flds := [tLearning], blks := [.trm] }
  | 0x0A => { flds := [mFull, mEvt], blks := [.mon] }
  | _ => {}

/-! ### What some commands may change -/

/-- What moving the timeline may change beside Hub Time itself: the flags and latch that SET and STEP name, the states of timed edges
(R371), the calendar's view, the times of the mills' state windows (R413), and what each block holds of times (spec/17, one set or step). -/
def moveTouch : Touch :=
  { flds := [htmTimeSet, htmSetPending, htmSlewActive, htmStepGen, iLatch 14] ++ (touAll.map fun p => oState p.1 p.2) ++
      (List.range 16).flatMap fun m => [lSt m 0, lSt m 1, lSt m 2, lSt m 3]
    areas := [(0x030000, 0x030030), (0x030040, 0x030048)]
    blks := [.ended, .htm, .glb, .keep, .stins, .touEnts, .touOuts, .mills, .cal, .trm, .timers, .can, .radios] }

/-- The bytes of the Shared Buffer that ring `r` is laid out in. -/
def State.ringBytes (s : State) (r : Nat) : List Nat := (List.range (s.ringSize r)).map fun j => s.ringAt r j % 2 ^ 20

/-- What several items for rings `rs` may change, or a target's ring that is emptied and disabled: those rings and their storage, and the
groups that a record wakes (R493). -/
def State.ringsTouch (s : State) (rs : List Nat) : Touch :=
  { flds := rs.flatMap fun r => [rEn r, rWidx r, rRidx r, rDropped r, rDrop r], blks := [.ringSeq, .port, .icu, .seq]
    bytes := rs.flatMap s.ringBytes }

/-- What a planned freeze may change: the mode, the marks of the freeze, the reference outputs (R325), the committed edges of timed outputs
(R372), the learning that M5 carried on (R279), the IRQ levels kept (R494), the items that the ring write port has begun and the records
assigned but not written (R723), and the keep trim that G_AT_FREEZE zeroes (R77). -/
def State.freezeTouch (s : State) : Touch :=
  let begun := s.port.wait.filter fun it => decide (0 < it.moved)
  let items : Touch := match begun, s.icu.asg, s.icu.ringOff with
    | [], [], [] => {}
    | [it], [], [] => s.giveTouch it.ring it.words.length
    | _, asg, off => s.ringsTouch (begun.map (·.ring) ++ asg.map (·.tgt) ++ off)
  items.and
  { flds := [glbPrev, glbMode, kTimeValid, htmIslandOnMclk, tLearning, kTrimG, kParaTerm, kAgeTerm, kTrimTotal, kTrimClamped] ++
      (List.range 32).flatMap fun n => [oLevel n, oTrail n]
    blks := [.htm, .glb, .cal, .trm, .touOuts, .timers, .icu, .port] }

/-- What a thaw may change: every block that follows Hub Time (R248 to R256). The keep domain, the monitor, the mailboxes, the partner
link, CAN, the pins and the security registers are not among them. -/
def thawTouch : Touch :=
  { flds := []
    areas := [(0x100, 0x160), (0x020000, 0x020200), (0x030000, 0x030400), (0x040000, 0x041000), (0x050000, 0x051000),
      (0x060000, 0x0A0000), (0x0B0500, 0x0B0540), (0x0C0000, 0x0D0000), (0x0D1000, 0x0D1600), (0x0F0000, 0x100700),
      (0x110000, 0x110200), (0x120000, 0x1202C0)]
    blks := [.ended, .ringSeq, .port, .htm, .glb, .keep, .icu, .hst, .dict, .seq, .trm, .stp, .cal, .mil, .stins, .touEnts, .touOuts, .mills, .timers,
      .sweeps, .radios]
    anyByte := true }

/-- A host reset (R582): the slot's entry and request, its leases with what they roll back, its pins, its target's ring, its channels. -/
def hostResetTouch : Touch :=
  { flds := [iLbrk, iLatch 7, nEvt 0, nEvt 1]
    areas := [(0x060000, 0x0A0000), (0x0C0000, 0x0D0000), (0x0D1000, 0x0D1100), (0x0F0000, 0x100000), (0x100000, 0x100700),
      (0x120000, 0x1202C0)]
    blks := [.hst, .dict, .icu, .glb] }

/-- What the sequencer may change while it moves rails that it does not lower: the rails, steps and groups with their latches, the firmware
bank at a main-domain start (R596), and the host resets of the groups that are not up (R173). -/
def railTouch : Touch :=
  { flds := [iLbrk, iLatch 7, iLatch 15, nEvt 0, nEvt 1, xTrial, xNoFw, xEvt, mDropCnt, mEvt]
    areas := hostResetTouch.areas
    blks := [.hst, .dict, .icu, .glb, .seq, .mon, .trm] }

/-- What reaching off-rest out of M9 may change: the mode too. -/
def offRestTouch : Touch := { railTouch with flds := [glbPrev, glbMode] ++ railTouch.flds }

/-- What an all-off may change (R156): everything but the keep domain beside its freeze marks, the monitor's registers and the security
registers. -/
def allOffTouch : Touch :=
  { flds := [kTimeValid, kTrimG, kParaTerm, kAgeTerm, kTrimTotal, kTrimClamped, xFwBusy, mDropCnt, mEvt]
    areas := [(0, 0x010000), (0x020000, 0x0A0000), (0x0B0000, 0x130000)]
    blks := [.ringSeq, .port, .htm, .glb, .icu, .mbx, .last, .hst, .dict, .can, .seq, .mon, .trm, .stp, .cal, .mil, .ptn, .stins, .touEnts,
      .touOuts, .mills, .timers, .sweeps, .radios]
    anyByte := true }

/-- The hub after an all-off (R156 to R158): M9, no stage, every enable released, the main domain down with the timeline frozen. -/
def State.isOff (t : State) : Prop :=
  t.mode = 9 ∧ t.rd qKind = 0 ∧ t.rd qLineFlt = 1 ∧ t.rd qUpMask = 0 ∧ t.rd qGrpUp = 0 ∧ t.glb.mainUp = false ∧ t.htm.frozen = true ∧
  ∀ n : Fin 24, t.railOn n = false

end Sys2Proof.Machine
end

