-- ==== Sys2Proof/Certificates/Slice0/Obligations.lean ====
section
/-! DEFINITION. The statements put to the provers. -/

open Sys2Proof Sys2Proof.Machine Sys2Proof.Machine.F

/-- For every state and command: with the command at the front of the queue, a step is that command's effect on the hub with the rest of the
queue. (spec/00_scope.md) -/
def Obligations.StepRunsFront : Prop :=
  ∀ (s : State) (c : Instr) (rest : List Instr), s.pending = c :: rest → step s = exec c { s with pending := rest }

/-! ### Hub Time (spec/01) -/

/-- SET from a secure slot in M4, M6 or M10: with SET_APPLY 0 Hub Time takes the staged value, TIME_SET sets and no SET is pending; with
another SET_APPLY the staged time is latched and SET_PENDING sets, until CANCEL_SET drops it. STEP moves Hub Time by the signed seconds and
nanoseconds, modulo 2^48 s, and leaves TIME_SET. Each move raises STEP_GEN modulo 256 and source 472 and cancels a slew. SLEW_START takes
the offset and the rate, sets SLEW_ACTIVE and restarts the lock run; SLEW_ABORT clears SLEW_ACTIVE. In a slew's last cycle, the one that
absorbs all that remains, Hub Time moves by the increment and the remainder, SLEW_ACTIVE clears and source 473 is raised; where no
millisecond of Hub Time ends in it nothing else changes. The frame of a move names what may change beside: the states of timed edges, the
calendar's view, and the times that blocks hold. That a remainder left by SLEW_ABORT ends with a move, and the place of a SET, are the
model's choices: log entries 16, 201. (R40, R41, R42, R43, R44, R45, R46, R47) -/
def Obligations.TimelineMoves : Prop :=
  ∀ (slot : Slot) (s : State),
    (s.ready slot.val = true → s.secure slot.val = true → s.timeMode = true →
      (s.rd htmSetApply = 0 → Answers (.set slot) slot .done s moveTouch fun t =>
        t.htm.time = s.stagedTime ∧ t.htm.pend = none ∧ t.rd htmSetPending = 0 ∧ t.rd htmTimeSet = 1 ∧
        t.rd htmStepGen = (s.rd htmStepGen + 1) % 256 ∧ t.htm.slewLeft = 0 ∧ t.rd htmSlewActive = 0 ∧ t.latched 472) ∧
      (s.rd htmSetApply ≠ 0 → Answers (.set slot) slot .done s { flds := [htmSetPending], blks := [.htm] } fun t =>
        t.htm = { s.htm with pend := some { time := s.stagedTime, apply := s.rd htmSetApply } } ∧ t.rd htmSetPending = 1) ∧
      (Answers (.step slot) slot .done s moveTouch fun t =>
        (t.htm.time : Int) = (s.htm.time + s.rdS htmStepSec * (10 ^ 9 * 2 ^ 32) + s.rdS htmStepNs * 2 ^ 32) % (2 ^ 48 * 10 ^ 9 * 2 ^ 32) ∧
        t.rd htmTimeSet = s.rd htmTimeSet ∧ t.rd htmStepGen = (s.rd htmStepGen + 1) % 256 ∧ t.htm.slewLeft = 0 ∧
        t.rd htmSlewActive = 0 ∧ t.latched 472) ∧
      Answers (.slewStart slot) slot .done s { flds := [htmSlewActive, dLockRun], blks := [.htm] } fun t =>
        t.htm = { s.htm with slewLeft := s.rdS htmSlewOfs * 2 ^ 32, slewRate := s.rd htmSlewRate } ∧
        t.rd htmSlewActive = 1 ∧ t.rd dLockRun = 0) ∧
    (s.ready slot.val = true → s.secure slot.val = true →
      (s.htm.pend ≠ none → Answers (.cancelSet slot) slot .done s { flds := [htmSetPending], blks := [.htm, .ended] } fun t =>
        t.htm = { s.htm with pend := none } ∧ t.rd htmSetPending = 0) ∧
      (s.on htmSlewActive = true → Answers (.slewAbort slot) slot .done s { flds := [htmSlewActive] } fun t => t.rd htmSlewActive = 0)) ∧
    (s.running = true → s.on htmSlewActive = true → s.slewAbsorbed = s.htm.slewLeft →
      After .slewDone s fun t =>
        (t.nowMs = s.nowMs → Frame { flds := [htmSlewActive, htmSlewClamped, iLatch 14], blks := [.htm, .glb] } s t) ∧
        (t.htm.time : Int) = (s.htm.time + s.htm.incr + s.htm.slewLeft) % (2 ^ 48 * 10 ^ 9 * 2 ^ 32) ∧
        t.htm.slewLeft = 0 ∧ t.rd htmSlewActive = 0 ∧ t.latched 473)

/-- A slot that is not secure is refused SET, CANCEL_SET, STEP, SLEW_START, SLEW_ABORT and PLAN_SWITCH with SECURE_ONLY, and nothing but the
slot's own result changes. A secure slot is served SET and STEP in M4, M6 and M10, and refused them with NOT_IN_MODE in every other mode, M5
among them; CANCEL_SET with no SET pending and SLEW_ABORT with no slew active are ALREADY_DONE. SELF_CAPTURE is accepted from every slot
whose reach has the registers.  (R38, R39) -/
def Obligations.TimelineIsGuarded : Prop :=
  ∀ (slot : Slot) (s : State), s.ready slot.val = true →
    (s.secure slot.val = false → ∀ i ∈ [Instr.set slot, .cancelSet slot, .step slot, .slewStart slot, .slewAbort slot, .planSwitch slot],
      Refused i slot .secureOnly s) ∧
    (s.secure slot.val = true →
      (∀ i ∈ [Instr.set slot, .step slot],
        (s.mode ∈ [4, 6, 10] → After i s fun t => t.answer = { code := .done, data := [] }) ∧
        (s.mode ∉ [4, 6, 10] → Refused i slot .notInMode s)) ∧
      (s.htm.pend ≠ none → After (.cancelSet slot) s fun t => t.answer = { code := .done, data := [] }) ∧
      (s.htm.pend = none → Refused (.cancelSet slot) slot .alreadyDone s) ∧
      (s.on htmSlewActive = true → After (.slewAbort slot) s fun t => t.answer = { code := .done, data := [] }) ∧
      (s.on htmSlewActive = false → Refused (.slewAbort slot) slot .alreadyDone s) ∧
      (s.mode ∈ [4, 6, 10] → After (.slewStart slot) s fun t => t.answer = { code := .done, data := [] })) ∧
    (s.readyReg slot.val = true → After (.selfCapture slot) s fun t => t.answer = { code := .done, data := [] })

/-- Any slot: SELF_CAPTURE stores a quill of type 0x5 in the ring of its stamp group, with the slot's number as SOURCE, no flags, the ring's
SEQ, and Hub Time with its fraction and QUAL, that before a STEP of the same cycle; SEQ rises by one. With discipline in software mode a
write of HTM_INCR_LO is held and changes nothing else; a write of HTM_INCR_HI puts the held low word and the high byte in force when the
value lies in 0x03FEF9DB23 to 0x04010624DD, and is OUT_OF_RANGE otherwise. In hardware mode both answer NOT_IN_MODE. That the low word in
force stays where none is held is the model's choice: log entries 139, 175. (R24, R48, R49, R53, R54, R58, R61, R62) -/
def Obligations.SelfCaptureAndIncrement : Prop :=
  ∀ (slot : Slot) (v : Word) (s : State), s.ready slot.val = true →
    (s.readyReg slot.val = true → s.accepts (s.stampRing slot.val) 4 → ∀ now : Nat,
      (∀ was, .moved was true ∈ s.ended → s.ended = [.moved was true] ∧ now = was) →
      ((∀ was, .moved was true ∉ s.ended) → now = s.htm.time) →
      Answers (.selfCapture slot) slot .done s
        { flds := [rWidx (s.stampRing slot.val)], blks := [.ringSeq, .port], bytes := s.itemBytes (s.stampRing slot.val) 4 } fun t =>
        Stored (s.stampRing slot.val)
          [0x50000000 + slot.val * 2 ^ 16 + Assoc.get 0 (s.stampRing slot.val) s.ringSeq % 2 ^ 16,
           now / (10 ^ 9 * 2 ^ 32) % 2 ^ 32, now / (10 ^ 9 * 2 ^ 32) % 2 ^ 48 / 2 ^ 32 * 2 ^ 16 + now / 2 ^ 16 % 2 ^ 16,
           s.qual false * 2 ^ 30 + now / 2 ^ 32 % 10 ^ 9] s t ∧
        Assoc.get 0 (s.stampRing slot.val) t.ringSeq = (Assoc.get 0 (s.stampRing slot.val) s.ringSeq + 1) % 2 ^ 16) ∧
    (s.on dMode = true →
      Answers (.htmIncrLoWrite slot v) slot .done s { blks := [.htm] } (fun t => t.htm = { s.htm with incrHeld := some v.toNat }) ∧
      let i := v.toNat % 256 * 2 ^ 32 + s.htm.incrHeld.getD (s.htm.incr % 2 ^ 32)
      (0x03FEF9DB23 ≤ i → i ≤ 0x04010624DD → Answers (.htmIncrHiWrite slot v) slot .done s { blks := [.htm] } fun t =>
        t.htm = { s.htm with incr := i, incrHeld := none }) ∧
      (i < 0x03FEF9DB23 ∨ 0x04010624DD < i → Refused (.htmIncrHiWrite slot v) slot .outOfRange s)) ∧
    (s.on dMode = false → Refused (.htmIncrLoWrite slot v) slot .notInMode s ∧ Refused (.htmIncrHiWrite slot v) slot .notInMode s)

/-- PLAN_SWITCH from a secure slot in M4, M6 or M10, with no switch under way, no freeze requested, the keep oscillator running and
HTM_PLAN_INCR within R24, requests a planned freeze and sets PLAN_BUSY; outside R24 it answers OUT_OF_RANGE; in another mode it answers
NOT_IN_MODE, as SLEW_START does. While the PLL is being locked, its lock report sets, and on the first start the stored plan is the plan in
force and the staged one; with lock the island of a hub in M3 goes over to MCLK. Without lock in time the new plan gives way to the previous
one, and when that fails too the hub enters M3 with the Steward in reset. A loss of lock in M4, M5, M6 or M10 raises 500, freezes the
timeline and enters M3 with the Steward in reset; one while MCLK only starts in M3 takes the island off MCLK; a retry in M3 leaves the hub
there, with the PLL not locked. Where it rests on choices of the model: log entries 17, 174. (R29, R32, R34, R35, R37, R66, R230, R231,
R232, R239) -/
def Obligations.PlanSwitchAndPll : Prop :=
  ∀ (slot : Slot) (s : State),
    (s.ready slot.val = true → s.secure slot.val = true → s.timeMode = true → s.on htmPlanBusy = false → s.glb.freezeReq = none →
      s.on kOscRunning = true →
      (0x03FEF9DB23 ≤ s.planIncr → s.planIncr ≤ 0x04010624DD →
        Answers (.planSwitch slot) slot .done s { flds := [htmPlanBusy], blks := [.htm, .glb] } fun t =>
          t.rd htmPlanBusy = 1 ∧ t.htm = { s.htm with phase := .freezing } ∧
          t.glb = { s.glb with freezeReq := some .plan, freezeTick := false }) ∧
      (s.planIncr < 0x03FEF9DB23 ∨ 0x04010624DD < s.planIncr → Refused (.planSwitch slot) slot .outOfRange s)) ∧
    (s.ready slot.val = true → s.secure slot.val = true → s.timeMode = false →
      Refused (.planSwitch slot) slot .notInMode s ∧ Refused (.slewStart slot) slot .notInMode s) ∧
    (s.locking = true → Happens .pllLock s { flds := if s.htm.first then [htmPlanActive, htmPlanStage] else [], blks := [.htm] } fun t =>
      t.htm = { s.htm with pll := true } ∧
      (s.htm.first = true → t.rd htmPlanActive = s.htm.cold.1 % 8 ∧ t.rd htmPlanStage = s.htm.cold.1 % 8)) ∧
    (s.glb.mainUp = true → s.htm.pll = true → s.htm.frozen = true → s.htm.mclk = false → s.mode = 3 →
      Happens .islandToMclk s { flds := [htmIslandOnMclk], blks := [.htm, .glb] } fun t =>
        t.htm = { s.htm with mclk := true } ∧ t.rd htmIslandOnMclk = 1 ∧ t.glb = { s.glb with thawTick := false }) ∧
    (s.htm.frozen = true → s.htm.pll = false →
      (s.htm.phase = .locking → Happens .planFail s { blks := [.htm] } fun t => t.htm = { s.htm with phase := .fallback, pll := false }) ∧
      (s.htm.phase = .fallback → s.mode ∈ [4, 6, 10] →
        Happens .planFail s { flds := [glbPrev, glbMode, glbStewardReady, iLatch 15], blks := [.glb] } fun t =>
          t.mode = 3 ∧ t.rd glbPrev = s.mode ∧ t.rd glbStewardReady = 0 ∧ t.glb.back = s.mode)) ∧
    (s.running = true → s.htm.pll = true → s.mode ∈ [4, 5, 6, 10] →
      Happens .pllUnlock s (s.freezeTouch.and { flds := [glbStewardReady, iLatch 15] }) fun t =>
        t.latched 500 ∧ t.htm = { s.htm with frozen := true, mclk := false, pll := false,
                                             phase := if s.htm.phase = .freezing then .locking else s.htm.phase } ∧
        t.mode = 3 ∧ t.rd glbPrev = s.mode ∧
        t.rd glbStewardReady = 0 ∧ t.glb.lostLock = s.mode ∧ t.glb.back = (if s.mode = 5 then 6 else s.mode)) ∧
    (s.lockSeen = true → s.htm.frozen = true → s.mode = 3 →
      Happens .pllUnlock s { flds := [htmIslandOnMclk, iLatch 15], blks := [.htm, .glb] } fun t =>
        t.latched 500 ∧ t.htm.pll = false ∧ t.htm.mclk = false ∧ t.htm.frozen = true ∧ t.rd htmIslandOnMclk = 0 ∧ t.mode = 3) ∧
    (s.mode = 3 → s.glb.mainUp = true → s.htm.frozen = true → s.htm.pll = false → Happens .pllRetry s {} fun t =>
      t.htm.pll = false ∧ t.mode = 3)

/-! ### Modes, freeze and thaw (spec/05) -/

/-- A planned freeze, on the first raw keep tick after its request, keeps Hub Time where it is, takes the tick pair as the freeze pair,
stops MCLK, sets KTIME_VALID, and ends the request; a NAP enters M7 and remembers M4 or M6, a clock-plan switch reprograms the PLL. At the
thaw of a continuous timeline, on the first raw keep tick after the island runs on MCLK, and not the first thaw of a start, Hub Time is the
freeze pair's Hub Time, plus the keep ticks and F since, plus the phase of the thaw edge in 64ths of HTM_INCR, plus 7 cycles; TIME_SET is as
at the freeze and 501 is raised. Without continuity Hub Time is 0, TIME_SET clears and 502 is raised too. The mode is the one to go back to
out of M3 or M7, and unchanged otherwise. Where it rests on choices of the model: log entries 18, 19, 20. (R18, R237, R238, R242, R243,
R244, R246, spec/05_modes_sleep_makeup.md) -/
def Obligations.FreezeAndThawCarryTime : Prop :=
  ∀ (s : State) (phi : BitVec 6),
    (∀ why ∈ s.glb.freezeReq.toList, s.running = true → s.on kOscRunning = true → s.glb.freezeTick = true → s.keep.pair ≠ none →
      (why = .nap → s.mode ∈ [4, 5, 6]) →
      After .freeze s (fun t => t.htm.frozen = true ∧ t.htm.mclk = false ∧ t.glb.frz = s.keep.pair ∧ t.rd kTimeValid = 1 ∧
        t.glb.freezeReq = none) ∧
      (why = .nap → Happens .freeze s s.freezeTouch fun t =>
        t.htm = { s.htm with frozen := true, mclk := false, pll := s.htm.pll && s.on glbNapPll } ∧ t.mode = 7 ∧ t.rd glbPrev = s.mode ∧
        t.glb.back = (if s.mode = 4 then 4 else 6) ∧ t.glb.unplanned = false) ∧
      (why = .plan → Happens .freeze s s.freezeTouch fun t =>
        t.htm = { s.htm with frozen := true, mclk := false, phase := .locking, pll := false } ∧ t.mode = s.mode)) ∧
    (∀ why ∈ s.glb.freezeReq.toList, s.running = true → s.on kOscRunning = true → s.glb.freezeTick = false →
      Happens .freeze s {} fun t => t.glb.freezeReq = some why) ∧
    (s.glb.mainUp = true → s.htm.frozen = true → s.htm.mclk = true → s.on htmIslandOnMclk = true → s.htm.first = false →
      s.seq.drop = 0 → s.glb.thawTick = true ∨ s.on kTimeValid = false →
      (∀ p ∈ s.glb.frz.toList, s.on kTimeValid = true → After (.thaw phi) s fun t =>
        (t.htm.time : Int) = (p.h + roundDivI ((((s.keep.count : Int) - p.n) * 2 ^ 42 + ((s.keep.f : Int) - p.f)) * 10 ^ 9) (2 ^ 25) +
          (phi.toNat * s.htm.incr / 64 : Nat) + 7 * s.htm.incr) % (2 ^ 48 * 10 ^ 9 * 2 ^ 32) ∧
        t.rd htmTimeSet = p.set.toNat) ∧
      (s.on kTimeValid = false ∨ s.glb.frz = none → After (.thaw phi) s fun t =>
        t.htm.time = 0 ∧ t.rd htmTimeSet = 0 ∧ t.latched 502) ∧
      Happens (.thaw phi) s thawTouch fun t => t.htm.frozen = false ∧ t.latched 501 ∧
        t.mode = (if s.mode = 3 ∨ s.mode = 7 then s.glb.back else s.mode))

/-- In M7 a host chip select on a powered bank, an I2C start and a CAN edge, each while its WAKE_EN bit is set, record their cause and start
the wake; in M2 on a member that is not the master they record the cause and set WAKE_HELD. In M7 the first selected edge on a stamp input
with WAKE is kept, its keep count to come at the next raw tick, and wakes; every other selected edge while the timeline is frozen is lost,
counted in LOST_IN_NAP and flagged. A frame on a powered SPI port while the hub is asleep is answered ASLEEP and does nothing. Where it
rests on choices of the model: log entries 14, 46, 185. (R229, R233, R235, R255, R256) -/
def Obligations.WakeSourcesWake : Prop :=
  ∀ (n4 : Fin 4) (n2 : Fin 2) (n : Fin 64) (rising : Bool) (x : Stamp) (s : State),
    (∀ wc ∈ [(Instr.hostCsWake n4, n4.val), (.i2cStartWake n2, 4 + n2.val), (.canRxdWake n2, 6 + n2.val)],
      s.bit glbWakeEn wc.2 = true → s.bankUp n4 = true →
      (s.mode = 7 → Happens wc.1 s { flds := [glbWakeCause], blks := [.glb] } fun t =>
        t.bit glbWakeCause wc.2 = true ∧ t.glb = { s.glb with waking := true }) ∧
      (s.mode = 2 → s.qon qMaster = false → Happens wc.1 s { flds := [glbWakeCause, glbWakeHeld] } fun t =>
        t.bit glbWakeCause wc.2 = true ∧ t.rd glbWakeHeld = 1)) ∧
    (s.htm.frozen = true → s.glb.mainUp = true → s.edgeSel n rising = true → ∀ i ∈ [Instr.stinWakeEdge n rising, .stinEdge n rising x],
      (s.mode = 7 → s.on (sWake n) = true → s.stp.wake = none →
        Happens i s { flds := [glbWakeCause], blks := [.glb, .stp] } fun t =>
          t.stp.wake = some { input := n.val, pol := rising, count := none } ∧ t.bit glbWakeCause 11 = true ∧
          t.glb = { s.glb with waking := true }) ∧
      (s.mode ≠ 7 ∨ s.on (sWake n) = false ∨ s.stp.wake ≠ none →
        Happens i s { flds := [sNapLost n, sEvt n] } fun t =>
          t.rd (sNapLost n) = min (s.rd (sNapLost n) + 1) 65535 ∧ t.bit (sEvt n) 1 = true)) ∧
    (s.asleep = false ∨ s.bankUp n4 = false → Happens (.asleepFrame n4) s {} fun _ => True) ∧
    (s.asleep = true → s.bankUp n4 = true → Happens (.asleepFrame n4) s { blks := [.answer, .last, .wave] } fun t =>
      t.answer = { code := .asleep, data := [] } ∧ t.lastOf n4 = 0x701 ∧
      t.sdoByte 0 = 0x87 ∧ ∀ i, 0 < i → t.sdoByte i = 0xFF)

/-- From a secure slot: NAP in M4, M5 or M6, with the keep oscillator running and no switch or freeze under way, requests the freeze;
SERVICE_ENTER in M4, M5 or M6 enters M10 and SERVICE_EXIT leaves it for M4; in the other modes they answer NOT_IN_MODE. Each change of mode
shows the previous mode and raises 503. The Steward starts with the active bank, or the other where only that one authenticates, which
becomes active, and sets STEWARD_READY; with neither NO_FW sets. On trial it starts with the other bank, which becomes active when it
authenticates; when it does not, the trial is reverted in M3, or in M8. A bank that becomes active with ADVANCE set gives its version to
MINVER. The halt of the Steward sets HALTED unless the part is locked, and the end of the halt clears it. VMAIN arriving in M0 or M1 enters
M2 with the straps sampled and the sequencer at rest, and out of Shelf with SHELF_ARMED 0. Where it rests on choices of the model: log
entries 100, 139, 211. (R114, R139, R227, R228, R230, R241, R257, R595, R597, R757) -/
def Obligations.ModeCommands : Prop :=
  ∀ (slot : Slot) (boot : BitVec 3) (s : State),
    (s.readyReg slot.val = true → s.secure slot.val = true →
      (s.mode ∈ [4, 5, 6] → s.on kOscRunning = true → s.on htmPlanBusy = false → s.glb.freezeReq = none →
        Answers (.nap slot) slot .done s { blks := [.glb, .ended] } fun t => t.glb = { s.glb with freezeReq := some .nap, freezeTick := false }) ∧
      (s.mode ∈ [4, 5, 6] → s.running = true → s.glb.freezeReq ≠ some .nap →
        Answers (.serviceEnter slot) slot .done s { flds := [glbPrev, glbMode, tLearning, iLatch 15], blks := [.glb, .trm] } fun t =>
          t.mode = 10 ∧ t.rd glbPrev = s.mode ∧ t.latched 503 ∧ (s.mode = 5 → t.trm.win = none ∧ t.trm.auto = none)) ∧
      (s.mode ∉ [4, 5, 6] → Refused (.nap slot) slot .notInMode s ∧ Refused (.serviceEnter slot) slot .notInMode s) ∧
      (s.mode = 10 → s.running = true →
        Answers (.serviceExit slot) slot .done s { flds := [glbPrev, glbMode, iLatch 15], blks := [.glb] } fun t =>
          t.mode = 4 ∧ t.rd glbPrev = 10 ∧ t.latched 503) ∧
      (s.mode ≠ 10 → Refused (.serviceExit slot) slot .notInMode s)) ∧
    (s.running = true → s.on glbStewardReady = false → s.on xNoFw = false →
      let active := s.rd xBank
      let other := 1 - s.rd xBank
      let onOther := fun (t : State) => t.rd xBank = other % 2 ∧ t.rd xVer = s.bankVersion other % 2 ^ 32 ∧
        t.rd xMinVer = (if s.on xAdvance then s.bankVersion other % 2 ^ 32 else s.rd xMinVer)
      (s.on xTrial = false →
        (s.bankGood active = true →
          After .stewardReady s (fun t => t.rd glbStewardReady = 1 ∧ t.glb.loaded = true) ∧
          (s.glb.loaded = true → Happens .stewardReady s { flds := [glbStewardReady] } fun t => t.rd glbStewardReady = 1)) ∧
        (s.bankGood active = false → s.bankGood other = true →
          After .stewardReady s (fun t => t.rd glbStewardReady = 1 ∧ t.glb.loaded = true) ∧
          (s.glb.loaded = true → Happens .stewardReady s { flds := [glbStewardReady, xBank, xVer, xMinVer] } fun t =>
            t.rd glbStewardReady = 1 ∧ onOther t)) ∧
        (s.bankGood active = false → s.bankGood other = false → Happens .stewardReady s { flds := [xNoFw] } fun t => t.on xNoFw = true)) ∧
      (s.on xTrial = true →
        (s.bankGood other = true → s.glb.loaded = true →
          Happens .stewardReady s { flds := [glbStewardReady, xTrial, xBank, xVer, xMinVer] } fun t =>
            t.rd glbStewardReady = 1 ∧ t.rd xTrial = 0 ∧ onOther t) ∧
        (s.bankGood other = false → s.hst.trialNext = false → After .stewardReady s fun t =>
          t.rd glbStewardReady = 0 ∧ t.rd xTrial = 0 ∧ t.rd xBank = active ∧ t.bit xEvt 0 = true ∧
          t.mode = (if s.mode = 8 then 8 else 3) ∧ t.glb.loaded = false))) ∧
    (s.running = true → s.rd xState ≠ 2 → Happens .stewardHalt s { flds := [glbHalted] } fun t => t.rd glbHalted = 1) ∧
    Happens .debugHaltEnd s { flds := [glbHalted] } (fun t => t.rd glbHalted = 0) ∧
    (s.mode ≤ 1 → Happens (.vmainArrival boot) s
      { flds := [kShelfArmed], areas := [(0x100, 0x120), (0x154, 0x158), (0x090000, 0x0B0000)], blks := [.keep, .seq, .mon, .hst, .htm, .glb] }
      fun t => t.mode = 2 ∧ t.rd glbPrev = s.mode ∧ t.hst.boot = boot.toNat ∧ t.rd qKind = 0 ∧
        t.seq = { SeqS.init with joined := false, pullDown := false, hrstLow := maskOf (fun k => t.qon (qHrstEn k)) (List.range 4) } ∧
        t.mon = { MonS.init with log := s.mon.log, head := s.mon.head, seq := s.mon.seq, burnt := s.mon.burnt, collapse := s.mon.collapse, scanDue := true } ∧
        t.rd mScanCnt = 0 ∧ t.rd kShelfArmed = (if s.keep.shelf then 0 else s.rd kShelfArmed) ∧ ∀ n : Fin 24, t.rd (qState n) = 0)

/-! ### The keep domain (spec/02) -/

/-- While the keep domain runs, a raw tick adds KEEP_TRIM_TOTAL to F: the count rises by 1, by 2 when F reaches 2^42, by 0 when F falls
below 0, F staying in its range; with no FIFO entry, no pending SET and no unwritten switch record nothing but the supply choice, the
charger, the mirror and what waits for a tick (a freeze, a thaw, a wake edge) changes beside. On a raw tick that R78 names a temperature
sample shows in KEEP_TEMP and KEEP_TRIM_TOTAL is the saturated sum of base, parabola, age and g terms; a falling VBAT crossing of 2.20 V
sets VBAT_LOW and raises 461. On another tick it does nothing. A day of counts adds one to KEEP_AGE_DAYS. VKEEP above 1.50 V starts the
oscillator. A keep reset puts every KEEP register at its reset value and the count, F and the FIFO at zero. Where it rests on choices of the
model: log entries 22, 26, 27, 150. (R68, R72, R74, R79, R80, R88, R89, R90, R237) -/
def Obligations.KeepCountTicks : Prop :=
  ∀ (edge : Stamp) (temp : BitVec 12) (mv mv' : Nat) (s : State),
    (s.canTick = true → s.noSource mv mv' = false → s.keep.f < 2 ^ 42 →
      After (.keepTick ⟨edge, mv, mv'⟩) s (fun t => t.keep.rawTicks = s.keep.rawTicks + 1 ∧ t.keep.f < 2 ^ 42 ∧
        let x : Int := s.keep.f + s.rdS kTrimTotal
        (0 ≤ x → x < 2 ^ 42 → t.keep.count = (s.keep.count + 1) % 2 ^ 64 ∧ (t.keep.f : Int) = x) ∧
        (2 ^ 42 ≤ x → t.keep.count = (s.keep.count + 2) % 2 ^ 64 ∧ (t.keep.f : Int) = x - 2 ^ 42) ∧
        (x < 0 → t.keep.count = s.keep.count ∧ (t.keep.f : Int) = x + 2 ^ 42)) ∧
      (s.keep.fifo = [] → s.htm.pend = none → s.keep.swPend = none →
        Happens (.keepTick ⟨edge, mv, mv'⟩) s { flds := [kOnVbat, kChgActive], blks := [.keep, .glb, .stp] } fun t =>
          t.keep.judged = true ∧ t.keep.vmain = mv ∧ t.keep.vbat = mv' ∧
          t.glb = { s.glb with freezeTick := s.glb.freezeReq.isSome && s.running, thawTick := s.htm.frozen && s.on htmIslandOnMclk } ∧
          (s.keep.judged = false → (t.keep.supply = .vmain ↔ 2950 < mv)))) ∧
    (s.sampleTick = false → Happens (.keepTempSample temp mv) s {} fun _ => True) ∧
    (s.sampleTick = true → Happens (.keepTempSample temp mv) s (({
        flds := [kTemp, kParaTerm, kAgeTerm, kTrimTotal, kTrimClamped, kVbatLow, kVbatCrit, kChgActive, iLatch 14]
        blks := [.keep, .trm, .glb] } : Touch).and (s.keepRecTouch 2)) fun t =>
      t.rd kTemp = temp.toNat ∧ t.keep.vbat = mv ∧
      t.rdS kTrimTotal = satS 32 (t.rdS kTrimBase + t.rdS kParaTerm + t.rdS kAgeTerm + t.rdS kTrimG) ∧
      (s.keep.batLow = false → mv < 2200 → t.rd kVbatLow = 1 ∧ t.latched 461)) ∧
    (s.keepRuns = true → s.keep.dayEnd ≤ s.keep.count →
      Happens .keepAgeDay s { flds := [kAgeDays, kParaTerm, kAgeTerm, kTrimTotal, kTrimClamped], blks := [.keep] } fun t =>
      t.keep.dayEnd = s.keep.dayEnd + 2831155200 ∧
      t.rd kAgeDays = min (s.rd kAgeDays + 1) 65535 ∧
      (s.on kMode = false → t.rdS kAgeTerm = satS 32 (s.rdS kAgeRate * min (s.rd kAgeDays + 1) 65535))) ∧
    (s.keep.powered = true ∨ (mv ≤ 1500 ∧ mv' ≤ 1500) → Happens (.keepPowerOn mv mv') s {} fun _ => True) ∧
    (s.keep.powered = false → 1500 < mv ∨ 1500 < mv' → Happens (.keepPowerOn mv mv') s { flds := [glbPrev, glbMode], blks := [.keep] } fun t =>
      t.mode = (if s.mode = 0 then 1 else s.mode) ∧
      t.keep = { s.keep with powered := true, oscOn := true, judged := false, rawTicks := 0, vmain := mv, vbat := mv' }) ∧
    Happens .keepReset s { areas := [(0x010000, 0x011000)], blks := [.keep, .glb] } fun t =>
      t.keep.count = 0 ∧ t.keep.f = 0 ∧ t.keep.fifo = [] ∧ t.keep.powered = false ∧ t.atReset 0x010000 0x011000

/-- An enabled keep alarm whose time has come sets FIRED; it disarms when its period is 0; without WAKE_HUB it moves on by its period
otherwise, and with EVENT set it raises its source and gives one keep record. With WAKE_HUB it wakes with cause 8: a hub in M7 starts its
thaw, a member in M2 that is not the master sets WAKE_HELD, and a master at off-rest in M2 enters M3. A selected KSTAMP edge enters the FIFO
with the count and its SLEEP bit while fewer than eight wait; with eight it is lost, counted in KEEP_KSLOST, flagged in KOVF, raises 462 and
gives a record; an edge of the other polarity enters nothing. A failing oscillator clears KTIME_VALID and OSC_RUNNING, sets OSC_FAIL, raises
463 and gives a record, and the count stands; 32,768 ticks since its start set OSC_RUNNING, and fewer do not. A record goes to ring 39 while
the main domain runs, and waits for the thaw otherwise. Where it rests on choices of the model: log entries 22, 23. (R69, R70, R95, R96,
R97, R99, R100, R101, R102, R103, R115) -/
def Obligations.KeepAlarmsStampsOscillator : Prop :=
  ∀ (n : Fin 4) (rising : Bool) (s : State),
    (s.keepRuns = true → s.on (kAlmEn n) = true → s.rd (kAlmLo n) + s.rd (kAlmHi n) * 2 ^ 32 ≤ s.keep.count →
      (s.on (kAlmWakeHub n) = false → Happens (.keepAlarmFire n) s (({
          flds := [kAlmFired n, kAlmEn n, kAlmLo n, kAlmHi n, iLatch 14], blks := [.keep, .glb] } : Touch).and
            (if s.on (kAlmEvent n) then s.keepRecTouch 1 else {})) fun t =>
        t.rd (kAlmFired n) = 1 ∧
        (s.rd (kAlmPer n) = 0 → t.rd (kAlmEn n) = 0) ∧
        (s.rd (kAlmPer n) ≠ 0 → t.rd (kAlmEn n) = 1 ∧ t.rd (kAlmLo n) + t.rd (kAlmHi n) * 2 ^ 32 =
          (s.rd (kAlmLo n) + s.rd (kAlmHi n) * 2 ^ 32 + s.rd (kAlmPer n)) % 2 ^ 64) ∧
        (s.on (kAlmEvent n) = true → t.latched (456 + n) ∧ KeepRecorded 9 n.val s.keep.count s t)) ∧
      (s.on (kAlmWakeHub n) = true → After (.keepAlarmFire n) s fun t => t.rd (kAlmFired n) = 1 ∧
        (s.rd (kAlmPer n) = 0 → t.rd (kAlmEn n) = 0) ∧ (s.on (kAlmEvent n) = true → t.latched (456 + n)) ∧
        (s.mode = 7 → t.bit glbWakeCause 8 = true ∧ t.glb.waking = true) ∧
        (s.mode = 2 → s.qon qMaster = false → t.bit glbWakeCause 8 = true ∧ t.rd glbWakeHeld = 1) ∧
        (s.mode = 2 → s.qon qMaster = true → s.seq.joined = true → s.seq.pullDown = true → s.rd qKind = 0 → s.qon qHoldupEn = false →
          t.bit glbWakeCause 8 = true ∧ t.mode = 3))) ∧
    (s.keepRuns = true → s.rd (kKscfg n) = (if rising then 1 else 2) →
      (s.keep.fifo.length < 8 → Happens (.kstampEdge n rising) s { blks := [.keep] } fun t =>
        t.keep.fifo = s.keep.fifo ++ [{ input := n, count := s.keep.count, sleep := !s.running }]) ∧
      (8 ≤ s.keep.fifo.length → Happens (.kstampEdge n rising) s
        (({ flds := [kKslost n, kKovf, iLatch 14], blks := [.keep, .glb] } : Touch).and (s.keepRecTouch 1)) fun t =>
          t.keep.fifo = s.keep.fifo ∧ t.rd (kKslost n) = min (s.rd (kKslost n) + 1) 255 ∧ t.rd kKovf = 1 ∧ t.latched 462 ∧
          KeepRecorded 0xB (n.val * 2 ^ 8 + min (s.rd (kKslost n) + 1) 255) s.keep.count s t)) ∧
    (s.keepRuns = true → s.rd (kKscfg n) ≠ (if rising then 1 else 2) → Happens (.kstampEdge n rising) s { blks := [.keep] } fun t =>
      t.keep.fifo = s.keep.fifo) ∧
    (s.keepRuns = true → Happens .koscFail s
      (({ flds := [kOscFail, kTimeValid, kOscRunning, iLatch 14], blks := [.keep, .glb] } : Touch).and (s.keepRecTouch 1)) fun t =>
        t.rd kOscFail = 1 ∧ t.rd kTimeValid = 0 ∧ t.rd kOscRunning = 0 ∧ t.keepRuns = false ∧ t.keep.count = s.keep.count ∧ t.latched 463 ∧
        KeepRecorded 0xC 0 s.keep.count s t) ∧
    (s.keepRuns = true → 32768 ≤ s.keep.rawTicks → Happens .oscRunning s { flds := [kOscRunning] } fun t => t.rd kOscRunning = 1) ∧
    (s.keep.rawTicks < 32768 → Happens .oscRunning s {} fun _ => True)

/-- On VMAIN, as VMAIN falls below 2.75 V or in direct mode below VBAT by more than 30 mV, a switch to VBAT sets ON_VBAT, stops the charger
and, when the part is not armed for Shelf, leaves its record to the next tick; armed for Shelf, the part enters M0 with the record written,
the oscillator stopped, alarms, inputs and charger off and KTIME_VALID clear. At the second tick in a row with VMAIN good again ON_VBAT
clears and the log takes a record with the present count. While the main domain runs the oldest record that was not yet emitted goes to ring
39 and raises 460. At the end of M11 the keep domain goes to VBAT and the hub enters M1, or with SHELF_ARMED M0. VBAT at its limit ends the
charge. Where it rests on choices of the model: log entries 27, 148, 149. (R82, R83, R85, R86, R87, R92, R113, R115) -/
def Obligations.KeepSupplySwitches : Prop :=
  ∀ s : State,
    (s.keep.powered = true → s.keep.judged = true → s.keep.supply = .vmain → s.on kSwMode = false ∨ 30 < s.keep.vbat →
      (s.on kShelfArmed = false → Happens .switchToVbat s { flds := [kOnVbat, kChgActive], blks := [.keep] } fun t =>
        t.rd kOnVbat = 1 ∧ t.rd kChgActive = 0 ∧ t.keep.supply = .vbat ∧ t.keep.swPend = some (s.swDetail (if s.on kSwMode then 2 else 1) true) ∧
        (if s.on kSwMode then t.keep.vmain + 30 < s.keep.vbat else t.keep.vmain < 2750)) ∧
      (s.on kShelfArmed = true → After .switchToVbat s fun t =>
        t.keep.shelf = true ∧ t.keep.oscOn = false ∧ t.mode = 0 ∧ t.rd kTimeValid = 0 ∧ t.rd kShelfArmed = 0 ∧ t.rd kOscRunning = 0 ∧
        t.htm.frozen = true ∧ t.rd (kSwrecLo (s.keep.swNext % 4)) = s.keep.count % 2 ^ 32 ∧ t.rd kChgEn = 0 ∧
        ∀ n : Fin 4, t.rd (kAlmEn n) = 0 ∧ t.rd (kKscfg n) = 0)) ∧
    (s.keepRuns = true → s.keep.supply = .vbat → 2 ≤ s.keep.upRun → Happens .switchToVmain s
      { flds := [kOnVbat, kChgActive, kSwrecLo (s.keep.swNext % 4), kSwrecHi (s.keep.swNext % 4), kSwrecInfo (s.keep.swNext % 4),
          kSwrecEmitted (s.keep.swNext % 4)], blks := [.keep] } fun t =>
      t.rd kOnVbat = 0 ∧ t.keep.supply = .vmain ∧ t.rd (kSwrecInfo (s.keep.swNext % 4)) = s.swDetail 4 false ∧
      t.rd (kSwrecLo (s.keep.swNext % 4)) = s.keep.count % 2 ^ 32 ∧ t.rd (kSwrecEmitted (s.keep.swNext % 4)) = 0) ∧
    (∀ n ∈ s.unemitted.toList, s.running = true → Happens .switchRecordEmit s
      (({ flds := [kSwrecEmitted n, iLatch 14], blks := [.glb] } : Touch).and (s.keepRecTouch 1)) fun t =>
        t.latched 460 ∧ t.rd (kSwrecEmitted n) = 1 ∧
        KeepRecorded 8 (s.rd (kSwrecInfo n)) (s.rd (kSwrecLo n) + s.rd (kSwrecHi n) * 2 ^ 32) s t) ∧
    (s.running = false ∨ s.unemitted = none → Happens .switchRecordEmit s {} fun _ => True) ∧
    (s.mode = 11 → s.on kShelfArmed = false → s.keep.shelf = false → Happens .collapseOrder s
      { flds := [kOnVbat, kChgActive, glbPrev, glbMode], blks := [.keep, .seq] } fun t =>
      t.mode = 1 ∧ t.rd glbPrev = 11 ∧ (s.keep.powered = true → s.keep.supply = .vmain → t.keep.supply = .vbat ∧ t.rd kOnVbat = 1)) ∧
    (s.mode = 11 → s.on kShelfArmed = true → s.keep.powered = true → After .collapseOrder s fun t =>
      t.mode = 0 ∧ t.keep.shelf = true ∧ t.keep.oscOn = false ∧ t.rd kShelfArmed = 0 ∧ t.rd kTimeValid = 0) ∧
    Happens .chargerLimit s { flds := [kChgActive], blks := [.keep] } fun t =>
      t.rd kChgActive = 0 ∧ t.keep.vbat = max s.keep.vbat (if s.on kChgVlim then 3300 else 3000)

/-- While KEEP_BUSY is clear, a write into the window is held with its address and value, and KEEP_BUSY sets: one of any register that has a
field to write and whose values are no reserved encoding, from a secure slot or with every RWS field left as the mirror shows it; so are
FIFO_FLUSH, AGE_RESTART and SHELF_DISARM from any slot and SHELF_ARM from a secure slot. A write of read-only fields alone acts on nothing;
the charger's enable needs its key, and excludes SW_MODE 1. While KEEP_BUSY is set each answers BUSY, and outside the window
NO_SUCH_ADDRESS. When the held write takes effect KEEP_BUSY clears: every writable field takes its part of the word and a W1C field loses
the bits written 1, each backup register among them, a write of KEEP_TRIM_G but for a freeze that holds it at 0; FIFO_FLUSH empties the
FIFO, AGE_RESTART clears the days, SHELF_ARM and SHELF_DISARM set and clear SHELF_ARMED; a KEEP_ALM_LO is held, and a write of KEEP_ALM_HI
brings the held low word with it. Where it rests on choices of the model: log entries 11, 24, 25, 139, 203. (R8, R81, R93, R94, R106, R108,
R109, R113, R114, R116, R271, R766) -/
def Obligations.KeepWindowPassesOneWrite : Prop :=
  ∀ (slot : Slot) (n : Fin 4) (j : Fin 16) (a : Addr) (v : Word) (s : State),
    let w := v.toNat
    let l := keepFlds a.toNat
    let i := Instr.keepWindowWrite slot a v
    let holds := fun (c : Instr) (x : Nat × Nat) => Answers c slot .done s { flds := [kBusy], blks := [.keep] } fun t =>
      t.rd kBusy = 1 ∧ t.keep = { s.keep with win := some x }
    let applies := fun (fs : List Fld) (P : State → Prop) => Happens .keepWriteApply s { flds := kBusy :: fs, blks := [.keep] } fun t =>
      t.rd kBusy = 0 ∧ t.keep.win = none ∧ P t
    (s.ready slot.val = true →
      (s.on kBusy = false →
        (∀ iw ∈ [(Instr.fifoFlush slot, 8), (.ageRestart slot, 4), (.shelfDisarm slot, 2)], holds iw.1 (0x01000C, iw.2)) ∧
        (s.secure slot.val = true → holds (.shelfArm slot) (0x01000C, 1)) ∧
        (s.secure slot.val = false → Refused (.shelfArm slot) slot .secureOnly s) ∧
        holds (.keepAlmHiWrite slot n v) (0x010104 + 16 * n.val, w) ∧
        (s.secure slot.val = true → w / 2 ^ 24 ≠ 0xA5 → w.testBit 3 = true → Refused (.keepChgWrite slot v) slot .reservedEncoding s) ∧
        (s.secure slot.val = true → s.mrd kSwMode = 0 → w / 2 ^ 24 = 0xA5 → w % 4 ≠ 3 → holds (.keepChgWrite slot v) (0x01004C, w))) ∧
      (s.on kBusy = true → ∀ c ∈ [Instr.fifoFlush slot, .ageRestart slot, .shelfArm slot, .shelfDisarm slot, .keepAlmHiWrite slot n v,
        .keepChgWrite slot v], Refused c slot .busy s)) ∧
    (s.readyReg slot.val = true →
      (inKeepWindow a.toNat = false → Refused i slot .noSuchAddress s) ∧
      (inKeepWindow a.toNat = true → s.on kBusy = true → Refused i slot .busy s) ∧
      (s.on kBusy = false → a.toNat = 0x01000C →
        (oneCommand w 15 = false → Refused i slot .reservedEncoding s) ∧
        (oneCommand w 15 = true →
          (w % 2 = 1 → s.secure slot.val = false → Refused i slot .secureOnly s) ∧
          (w % 2 = 0 ∨ s.secure slot.val = true → holds i (0x01000C, w)))) ∧
      (s.on kBusy = false → inKeepWindow a.toNat = true → a.toNat ≠ 0x01000C →
        ((∀ f ∈ l, f.ty = .ro ∨ f.ty = .rc) → Refused i slot .done s) ∧
        (¬ (∀ f ∈ l, f.ty = .ro ∨ f.ty = .rc) →
          (s.secure slot.val = false → changesRws s.mrd w l = true → Refused i slot .secureOnly s) ∧
          (s.secure slot.val = true ∨ changesRws s.mrd w l = false →
            (anyReserved w l = true ∨ (a.toNat = 0x01004C ∧ w.testBit 3 = true ∧ w / 2 ^ 24 ≠ 0xA5) → Refused i slot .reservedEncoding s) ∧
            (anyReserved w l = false →
              (a.toNat = 0x01004C → w.testBit 3 = true → w / 2 ^ 24 = 0xA5 → s.mrd kSwMode = 1 → Refused i slot .notInMode s) ∧
              (a.toNat = 0x010000 → w.testBit 4 = true → s.mrd kChgEn = 1 → Refused i slot .notInMode s) ∧
              ((a.toNat = 0x01004C → w.testBit 3 = true → w / 2 ^ 24 = 0xA5 ∧ s.mrd kSwMode ≠ 1) →
                (a.toNat = 0x010000 → w.testBit 4 = true → s.mrd kChgEn ≠ 1) → holds i (a.toNat, w))))))) ∧
    (s.keep.win = none → Happens .keepWriteApply s {} fun _ => True) ∧
    (s.keep.win = some (0x01000C, 8) → applies [] fun t => t.keep.fifo = []) ∧
    (s.keep.win = some (0x01000C, 4) → applies [kAgeDays, kParaTerm, kAgeTerm, kTrimTotal, kTrimClamped] fun t => t.rd kAgeDays = 0) ∧
    (s.keep.win = some (0x01000C, 2) → applies [kShelfArmed] fun t => t.rd kShelfArmed = 0) ∧
    (s.keep.win = some (0x01000C, 1) → applies [kShelfArmed] fun t => t.rd kShelfArmed = 1) ∧
    (s.keep.win = some (0x010100 + 16 * n.val, w) → applies [] fun t => Assoc.find n.val t.keep.almHeld = some w) ∧
    (s.keep.win = some (0x010104 + 16 * n.val, w) → applies [kAlmLo n, kAlmHi n] fun t =>
      t.rd (kAlmHi n) = w ∧ t.rd (kAlmLo n) = (Assoc.find n.val s.keep.almHeld).getD (s.rd (kAlmLo n)) % 2 ^ 32) ∧
    (s.keep.win = some (0x010400 + 4 * j.val, w) → applies [kBkp j, kChgActive] fun t => t.rd (kBkp j) = w) ∧
    (s.keep.win = some (0x010028, w) → s.htm.frozen = true → s.on kGAtFreeze = true → applies [] fun _ => True) ∧
    (s.keep.win = some (a.toNat, w) → a.toNat ≠ 0x01000C → a.toNat / 64 ≠ 0x404 ∨ 8 ≤ a.toNat % 16 →
      a.toNat ≠ 0x010028 ∨ s.htm.frozen = false ∨ s.on kGAtFreeze = false →
      applies (l ++ [kParaTerm, kAgeTerm, kTrimTotal, kTrimClamped, kChgActive]) fun t => ∀ f ∈ l,
        (f.ty = .rw ∨ f.ty = .rws → t.rd f = f.ofWord w) ∧
        (f.ty = .w1c → ∀ i : Fin 32, (t.rd f).testBit i = ((s.rd f).testBit i && !(f.ofWord w).testBit i)))

/-! ### The sequencer (spec/03) -/

/-- While no rail is being lowered: RAMP_TO on a ramping rail makes it NOT_UP, flags it and raises 248; SHORT_T with no reading at SHORT_PCT
on a rail without ABORT_SHORT disables it, flags it in SEQ_SHORT, keeps it off and raises 249, and on a rail with it is an all-off with
cause 3 where no other of the cycle stands before it; DOWN_TO on a discharging rail flags it in SEQ_NOTDOWN, raises 248 and lets it serve
MIN_OFF; a served MIN_OFF makes it off, or SHORT while it is held off. In M2 to M10, a fault level on a running rail, a long button press,
MR_N, VIN_FAULT, which its level 0 disables, and FORCE_OFF from a secure slot, and a remote SEQFLT_N outside M9, each end in M9 with no
stage, every enable released, SEQFLT_N low, the timeline frozen and the main domain down; SEQ_LASTOFF shows the cause, the rail for a rail
fault, and the step, direction and kind of the moment; the keep domain's registers but for the freeze's marks, and the monitor's and
security registers, stay. A further cause in the cycle of an all-off shows in SEQ_LASTOFF where it comes first in the order of R161, and
adds its bit to the causes of the cycle. Where it rests on choices of the model: log entries 2, 28, 30, 154, 177. (R123, R126, R127, R128, R129,
R131, R154, R155, R156, R161, R164, R210) -/
def Obligations.RailsAreJudged : Prop :=
  ∀ (slot : Slot) (n : Fin 24) (ov : Bool) (b : BitVec 24) (s : State),
    (s.seq.drop = 0 →
      (s.railState n = 2 → Happens (.railNotUp n) s railTouch fun t =>
        t.rd (qState n) = 4 ∧ t.bit qNotUp n = true ∧ t.latched 248) ∧
      (s.railState n = 2 → s.seq.shortSeen.testBit n = false → s.qon (qAbortShort n) = false → Happens (.railShort ⟨n, b⟩) s railTouch fun t =>
        t.rd (qState n) = 6 ∧ t.bit qShort n = true ∧ t.seq.shortHold.testBit n = true ∧ t.latched 249) ∧
      (s.railState n = 2 → s.seq.shortSeen.testBit n = false → s.qon (qAbortShort n) = true → s.seq.offNow = 0 →
        Happens (.railShort ⟨n, b⟩) s allOffTouch fun t => t.isOff ∧ t.rd qOffCause = 3 ∧ t.rd qOffRail = n) ∧
      (s.railState n = 6 → Happens (.railNotDown n) s railTouch fun t =>
        t.bit qNotDown n = true ∧ t.latched 248 ∧ (s.q (qMinOff n) ≠ 0 → t.rd (qState n) = 7)) ∧
      (s.railState n = 7 → Happens (.minOffEnd n) s railTouch fun t =>
        (s.seq.shortHold.testBit n = true → t.rd (qState n) = 5) ∧
        (s.seq.shortHold.testBit n = false → s.seq.want.testBit n = false → t.rd (qState n) = 0))) ∧
    (s.canAllOff = true → s.seq.offNow ≠ 0 → ∀ ic ∈ [(Instr.remoteAllOff b, 2), (.pbLong b, 4), (.mrAssert b, 5), (.vinFault b, 7)],
      (ic.2 = 7 → s.q qVinFault ≠ 0) → Happens ic.1 s { flds := [qOffCause, qOffOv, qOffRail], blks := [.seq, .mon] } fun t =>
        t.rd qOffCause = (if offRank ic.2 < offRank (s.rd qOffCause) then ic.2 else s.rd qOffCause) ∧
        t.seq.offNow = s.seq.offNow ||| causeBit ic.2) ∧
    (s.canAllOff = true → s.seq.offNow = 0 →
      (∀ ic ∈ [(Instr.remoteAllOff b, 2), (.pbLong b, 4), (.mrAssert b, 5), (.vinFault b, 7)], (ic.2 = 2 → s.mode ≠ 9) →
        (ic.2 = 7 → s.q qVinFault ≠ 0) →
        Happens ic.1 s allOffTouch fun t => t.isOff ∧ t.rd qOffCause = ic.2 ∧ t.rd qOffRail = 0x1F ∧ t.rd qOffStep = s.rd qStep % 16 ∧ t.rd qOffDir = s.rd qDir % 2 ∧
        t.rd qOffKind = s.rd qKind % 4) ∧
      (s.railState n = 3 → Happens (.railFault n ov b) s allOffTouch fun t =>
        t.isOff ∧ t.rd qOffCause = 1 ∧ t.rd qOffRail = n ∧ t.rd qOffOv = ov.toNat) ∧
      (s.q qVinFault = 0 → Happens (.vinFault b) s {} fun _ => True) ∧
      (s.ready slot.val = true → s.secure slot.val = true → After (.forceOff slot b) s fun t =>
        t.answer = { code := .done, data := [] } ∧ t.isOff ∧ t.rd qOffCause = 6))

/-- A recognised rise of SEQSTEP with SEQDOWN_N high goes one step up, to on-rest after step 15 with 240, or turns a down stage at its own
step with 245; with SEQDOWN_N low it goes one step down, to off-rest in M2 after step 0, or turns an up stage with 245. A DOWN of the cycle
of the rise that reaches on-rest ends with ALREADY_DONE and asks for nothing. An up stage that starts holds SEQSTEP low, shows its kind,
direction and step, raises 242, and enables each of its rails whose dependency mask is empty. A down stage that starts does the same with
direction 1, enters M8 out of M3 to M6 and M10, lowers every rail of its step whatever its group, and disables at once each one that is on
and that no rail which is not down names in its dependency mask; before one with HUB_OWN is disabled, a running timeline freezes first. When
a stage's rails are done SEQSTEP is released, or the stage waits at its gate with 243. SEQSTEP low for 1 s after the release raises 246.
Where it rests on choices of the model: log entries 2, 176. (R134, R135, R137, R143, R144, R145, R147, R148, R152, R175, R176, R772) -/
def Obligations.StagesFollowTheLines : Prop :=
  ∀ (high : Bool) (slot : Slot) (d : List DownReq) (s : State),
    (s.rd qKind = 1 → s.seq.next = none → s.rd qDir = 0 → 15 ≤ s.rd qStep → s.ended = [.turn slot d false false] →
      After (.seqstepRise true) s fun t => t.rd qKind = 2 ∧ t.seq.down = d ∧ t.answer = { code := .alreadyDone, data := [] }) ∧
    (s.rd qKind = 1 → s.seq.pullStep = false → s.seq.next = none → s.turns = [] →
      (s.rd qDir = 0 → high = true → s.seq.pullDown = false → s.rd qStep < 15 →
        Happens (.seqstepRise high) s { flds := [qLineStep, qLineDown], blks := [.seq] } fun t =>
          t.seq.next = some (false, s.rd qStep + 1) ∧ t.rd qLineStep = 1 ∧ t.rd qLineDown = 0) ∧
      (s.rd qDir = 0 → high = true → s.seq.pullDown = false → 15 ≤ s.rd qStep → s.mode ≠ 8 →
        Happens (.seqstepRise high) s { flds := [qLineStep, qLineDown, qKind, qDir, qStep, iLatch 7], blks := [.seq, .glb, .ended] } fun t =>
          t.rd qKind = 2 ∧ t.rd qDir = 0 ∧ t.rd qStep = 15 ∧ t.latched 240) ∧
      (s.rd qDir = 0 → high = false ∨ s.seq.pullDown = true →
        Happens (.seqstepRise high) s { flds := [qLineStep, qLineDown, iLatch 7], blks := [.seq, .glb] } fun t =>
          t.seq.next = some (true, s.rd qStep) ∧ t.rd qLineDown = 1 ∧ t.latched 245) ∧
      (s.rd qDir = 1 → high = false ∨ s.seq.pullDown = true → 0 < s.rd qStep →
        Happens (.seqstepRise high) s { flds := [qLineStep, qLineDown], blks := [.seq] } fun t =>
          t.seq.next = some (true, s.rd qStep - 1)) ∧
      (s.rd qDir = 1 → high = true → s.seq.pullDown = false →
        Happens (.seqstepRise high) s { flds := [qLineStep, qLineDown, iLatch 7], blks := [.seq, .glb] } fun t =>
          t.seq.next = some (false, s.rd qStep) ∧ t.latched 245) ∧
      (s.rd qDir = 1 → high = false ∨ s.seq.pullDown = true → s.rd qStep = 0 → After (.seqstepRise high) s fun t =>
        t.mode = 2 ∧ t.rd qKind = 0 ∧ t.seq.pullDown = s.qon qMaster ∧ t.latched 241)) ∧
    (∀ dk ∈ s.seq.next.toList, s.seq.joined = true → s.seq.op = none → dk.1 = false →
      Happens .stageStart s { railTouch with areas := (0x100, 0x160) :: railTouch.areas } fun t =>
        t.rd qKind = 1 ∧ t.rd qDir = 0 ∧ t.rd qStep = dk.2 % 16 ∧ t.seq.pullStep = true ∧ t.seq.next = none ∧ t.latched 242 ∧
        ∀ n : Fin 24, (s.stageRails dk.2).testBit n = true → s.railState n = 0 → s.railDep n = 0 → s.seq.shortHold.testBit n = false →
          t.rd (qState n) = 2) ∧
    (∀ dk ∈ s.seq.next.toList, s.seq.joined = true → s.seq.op = none → dk.1 = true → s.mode ≠ 7 →
      let lowers := fun (n : Fin 24) => (s.stepRails dk.2).testBit n = true ∧ s.railOn n = true
      After .stageStart s (fun t => t.rd qKind = 1 ∧ t.rd qDir = 1 ∧ t.rd qStep = dk.2 % 16 ∧ t.seq.pullStep = true ∧ t.seq.next = none ∧
        t.seq.drop = s.stepRails dk.2 ∧ (s.mode ∈ [3, 4, 5, 6, 10] → t.mode = 8)) ∧
      ((∀ n : Fin 24, (s.stepRails dk.2).testBit n = true → s.qon (qHubOwn n) = false) →
        Happens .stageStart s { railTouch with flds := tLearning :: railTouch.flds, areas := (0x100, 0x160) :: railTouch.areas } fun t =>
          t.latched 242 ∧ ∀ n : Fin 24, lowers n → t.rd (qState n) = (if s.usersDown n then 6 else s.rd (qState n))) ∧
      ∀ n : Fin 24, lowers n → s.qon (qHubOwn n) = true → s.usersDown n = true → s.htm.frozen = false → s.on kOscRunning = true →
        After .stageStart s fun t => t.glb.freezeReq = some .fall ∧ t.rd (qState n) = s.rd (qState n)) ∧
    (s.rd qKind = 1 → s.seq.pullStep = true → s.on qGateWait = false → s.stageRailsDone = true → s.thawFirst = false →
      (s.gated = true → Happens .stageDone s { flds := [qGateWait, iLatch 7], blks := [.glb] } fun t =>
        t.rd qGateWait = 1 ∧ t.latched 243) ∧
      (s.gated = false → Happens .stageDone s { flds := [qGateWait], blks := [.seq] } fun t =>
        t.rd qGateWait = 0 ∧ t.seq = { s.seq with pullStep := false, freed := true })) ∧
    (s.rd qKind = 1 → s.seq.pullStep = false → s.on qLineStep = false →
      Happens .seqLineStall s { flds := [iLatch 7], blks := [.glb] } fun t => t.latched 246)

/-- A joined member at off-rest starts step 0 up when SEQDOWN_N goes high, and at on-rest step 15 down when it goes low. The end of a remote
all-off, the release of MR_N in M9, and a retry within RETRY after a rail fault, short abort or input fault of this member each end M9 in M2
at off-rest. The line watch of a member outside the set in M2 joins it at off-rest, joins a master that sees all lines high, and changes
nothing otherwise. AUTO_START at off-rest on a joined master, with no holdup holding it back, releases SEQDOWN_N and enters M3 with wake
cause 13. Where it rests on choices of the model: log entries 29, 31, 32. (R140, R145, R149, R155, R158, R159, R160, R163, R228, R229) -/
def Obligations.RestsAndStarts : Prop :=
  ∀ (high : Bool) (saw : LineView) (s : State),
    (s.seq.joined = true → s.seq.next = none → s.mode ≠ 9 →
      (high = true → s.rd qKind = 0 → Happens (.seqdownChange high) s { flds := [qLineDown], blks := [.seq] } fun t =>
        t.rd qLineDown = 0 ∧ t.seq = { s.seq with next := some (false, 0) }) ∧
      (high = false → s.rd qKind = 2 → Happens (.seqdownChange high) s { flds := [qLineDown], blks := [.seq] } fun t =>
        t.rd qLineDown = 1 ∧ t.seq = { s.seq with next := some (true, 15) })) ∧
    (s.mode = 9 → s.glb.mainUp = false →
      (s.seq.own = false → s.seq.mrLow = false → Happens .remoteAllOffEnd s offRestTouch fun t =>
        t.mode = 2 ∧ t.rd glbPrev = 9 ∧ t.rd qKind = 0 ∧ t.rd qLineFlt = 0 ∧ t.seq.pullFlt = false) ∧
      Happens .mrRelease s offRestTouch (fun t => t.mode = 2 ∧ t.rd qKind = 0 ∧ t.seq.mrLow = false) ∧
      (s.seq.mrLow = false → s.seq.own = true → s.rd qOffCause ∈ [1, 3, 7] → s.seq.retries < s.q qRetry →
        Happens .faultRetry s offRestTouch fun t => t.mode = 2 ∧ t.rd qKind = 0 ∧ t.seq.retries = s.seq.retries + 1)) ∧
    (s.mode ≠ 9 → Happens .mrRelease s { blks := [.seq] } fun t => t.seq = { s.seq with mrLow := false }) ∧
    (s.mode = 2 → s.seq.joined = false → Happens (.lineWatchEnd saw) s { blks := [.seq] } fun t =>
      t.seq = match saw with
        | .offRest => { s.seq with joined := true, pullDown := s.qon qMaster }
        | .allHigh => if s.qon qMaster then { s.seq with joined := true, pullDown := true } else s.seq
        | .other => s.seq) ∧
    (s.seq.joined = true → Happens (.lineWatchEnd saw) s {} fun _ => True) ∧
    (s.mode = 2 → s.rd qKind = 0 → s.qon qMaster = true → s.seq.joined = true → s.seq.pullDown = true → s.qon qAutoStart = true →
      (s.qon qHoldupEn && s.seq.vinLow && s.q qVinWarn != 0) = false →
      Happens .autoStart s { flds := [glbWakeCause, glbWakeHeld, glbPrev, glbMode], blks := [.seq, .glb] } fun t =>
        t.mode = 3 ∧ t.rd glbPrev = 2 ∧ t.bit glbWakeCause 13 = true ∧ t.seq = { s.seq with pullDown := false, down := [] })

/-- A short press starts the set of a master at off-rest in M2 with wake cause 10 and raises 253; out of off-rest, but in M7 and M9, it asks
for the down direction, and pulls SEQSTEP low again where it had been released and this member drives SEQDOWN_N low only now; in M9 it
clears the fault hold and leads to M2 at off-rest, but not while MR_N is low. VIN_WARN, unless its level 0 disables it, is remembered and
raises 252; with HOLDUP_EN, outside M9 and with the set started, it asks for the down direction, starts the holdup and ends a wait at a
gate; recovery ends the warning. A brown-out in M2 to M10 releases every enable, records cause 8, freezes the timeline, drops the main
domain and enters M11. Where it rests on choices of the model: log entries 29, 30. (R148, R153, R155, R158, R163, R164, R165, R229) -/
def Obligations.ButtonAndInput : Prop :=
  ∀ (s : State),
    (s.mode = 2 → s.rd qKind = 0 → s.qon qMaster = true → s.seq.joined = true → s.seq.pullDown = true →
      (s.qon qHoldupEn && s.seq.vinLow && s.q qVinWarn != 0) = false → Happens .pbShort s { flds := [glbWakeCause, glbWakeHeld, glbPrev, glbMode, iLatch 7], blks := [.seq, .glb] } fun t =>
        t.mode = 3 ∧ t.bit glbWakeCause 10 = true ∧ t.latched 253) ∧
    (s.mode ≠ 9 → s.mode ≠ 7 → s.rd qKind ≠ 0 → Happens .pbShort s { flds := [qLineStep, iLatch 7], blks := [.seq, .glb] } fun t =>
      .host ∈ t.seq.down ∧ (s.seq.pullStep = true ∨ s.seq.next = none → t.seq.pullDown = true) ∧
      (s.rd qKind = 1 → s.seq.next = none → s.seq.pullDown = false → t.seq.pullStep = true) ∧
      (s.rd qKind = 1 → s.seq.pullDown = true → t.seq.pullStep = s.seq.pullStep) ∧ t.latched 253) ∧
    (s.mode = 9 → s.glb.mainUp = false →
      (s.seq.mrLow = false → Happens .pbShort s { offRestTouch with flds := iLatch 7 :: offRestTouch.flds } fun t =>
        t.mode = 2 ∧ t.rd glbPrev = 9 ∧ t.rd qKind = 0 ∧ t.rd qLineFlt = 0 ∧ t.seq.pullFlt = false ∧ t.latched 253) ∧
      (s.seq.mrLow = true → Happens .pbShort s { flds := [iLatch 7], blks := [.glb] } fun t => t.latched 253)) ∧
    (s.q qVinWarn ≠ 0 → Happens .vinWarn s { flds := [qLineStep, qGateWait, iLatch 7, mDropCnt, mEvt], blks := [.seq, .glb, .mon] } fun t =>
      t.seq.vinLow = true ∧ t.latched 252 ∧
      (s.qon qHoldupEn = true → s.seq.holdup = false → s.setStarted = true → s.mode ≠ 9 →
        t.seq.holdup = true ∧ .holdup ∈ t.seq.down ∧ t.rd qGateWait = 0) ∧
      (s.qon qHoldupEn = false → t.seq = { s.seq with vinLow := true } ∧ t.rd qGateWait = s.rd qGateWait)) ∧
    (s.q qVinWarn = 0 → Happens .vinWarn s {} fun _ => True) ∧
    Happens .vinRecover s { blks := [.seq] } (fun t => t.seq = { s.seq with vinLow := false }) ∧
    (2 ≤ s.mode → s.mode ≤ 10 → Happens .brownOut s { allOffTouch with blks := .fresh :: .keep :: allOffTouch.blks } fun t =>
      t.mode = 11 ∧ t.keep.vmain = min s.keep.vmain 2899 ∧ t.rd qOffCause = 8 ∧ t.glb.mainUp = false ∧ t.htm.frozen = true ∧ t.seq.pullFlt = true ∧ t.rd qKind = 0 ∧
      ∀ n : Fin 24, t.rd (qState n) = 0)

/-- GROUP_UP from a secure slot, or from one bound to the group, adds a demand for a group that is neither up nor rising; for a group that
is up it adds nothing; another slot gets SECURE_ONLY. GROUP_DOWN at on-rest lowers a group without HUB_OWN rails, is BUSY elsewhere or
against a demand for the group, and NOT_IN_MODE with a HUB_OWN rail. WAKEIN demands its group. At on-rest a waiting demand is served, and
the group rises or is up. HRST is released once its group is up. WAKE_HOLD ends a wake output with 441. In M7 none of the three happens. Where it rests on choices of the
model: log entries 34, 35, 38. (R166, R167, R168, R169, R170, R171, R173, R174, R560, R771) -/
def Obligations.GroupsAreDemanded : Prop :=
  ∀ (slot : Slot) (g : Fin 8) (k : Fin 4) (j : Fin 16) (s : State),
    (s.ready slot.val = true → s.groupSlot slot.val g = true →
      (s.bit qGrpUp g = false → s.rising g = false → s.mode ≠ 2 → Answers (.groupUp slot g) slot .done s { blks := [.seq] } fun t =>
        t.seq = { s.seq with demands := s.seq.demands ||| 2 ^ g.val }) ∧
      (s.bit qGrpUp g = true ∨ s.rising g = true → Answers (.groupUp slot g) slot .done s {} fun _ => True) ∧
      (s.rd qKind ≠ 2 ∨ s.seq.next ≠ none ∨ s.seq.demands.testBit g = true → Refused (.groupDown slot g) slot .busy s) ∧
      (s.rd qKind = 2 → s.seq.next = none → s.seq.demands.testBit g = false →
        ((∃ n : Fin 24, (s.groupRails g).testBit n = true ∧ s.qon (qHubOwn n) = true) → Refused (.groupDown slot g) slot .notInMode s) ∧
        ((∀ n : Fin 24, (s.groupRails g).testBit n = true → s.qon (qHubOwn n) = false) →
          Answers (.groupDown slot g) slot .done s railTouch fun t => t.rd qKind = 3 ∨ t.latched 251))) ∧
    (s.ready slot.val = true → s.groupSlot slot.val g = false →
      Refused (.groupUp slot g) slot .secureOnly s ∧ Refused (.groupDown slot g) slot .secureOnly s) ∧
    (s.qon (qWakeEn k) = true → s.mode ≠ 2 → s.mode ≠ 7 → s.bit qGrpUp (s.q (qWakeGroup k)) = false →
      s.rising (s.q (qWakeGroup k)) = false → Happens (.wakein k) s { blks := [.seq] } fun t =>
        t.seq = { s.seq with demands := s.seq.demands ||| 2 ^ s.q (qWakeGroup k) }) ∧
    (s.mode = 7 → (∀ i ∈ [Instr.groupDemandServe g, .hrstRelease k, .wakeOutputTimeout j], Happens i s {} fun _ => True)) ∧
    (s.mode ≠ 7 → s.rd qKind = 2 → s.seq.next = none → s.seq.demands.testBit g = true →
      (s.bit qGrpUp g = true → Happens (.groupDemandServe g) s { blks := [.seq] } fun t =>
        t.seq = { s.seq with demands := s.seq.demands &&& (255 - 2 ^ g.val) }) ∧
      (s.bit qGrpUp g = false → Happens (.groupDemandServe g) s railTouch fun t =>
        t.seq.demands.testBit g = false ∧ (t.rd qKind = 3 ∧ t.bit qRising g = true ∨ t.latched 250))) ∧
    (s.qon (qHrstEn k) = true → s.groupUpNow (s.q (qHrstGroup k)) = true → s.mode ≠ 9 → s.mode ≠ 7 →
      Happens (.hrstRelease k) s { areas := [(0x100000, 0x100100)], blks := [.seq] } fun t => t.seq.hrstLow.testBit k = false) ∧
    (s.mode ≠ 7 → s.on (hWaking j) = true → Happens (.wakeOutputTimeout j) s { flds := [hWaking j, hEvt] } fun t =>
      t.rd (hWaking j) = 0 ∧ t.bit hEvt 1 = true)

/-- From a secure slot that holds the plan lease: COMMIT at a rest, on a plan that passes the checks, puts every staged plan field in force
and raises 254; it is BUSY elsewhere and OUT_OF_RANGE on a plan that does not pass; DISCARD puts the active plan back over the staged one
and raises 255 and LEASE_BROKEN. RELEASE of the waiting stage from a secure slot releases SEQSTEP, and of another stage is NOT_IN_MODE.
GATE_TO ends the wait with the down direction and 244. UP withdraws a host's DOWN, is accepted at off-rest on the master and NOT_IN_MODE on
another member, and is ALREADY_DONE on the way up; DOWN out of a rise, at on-rest or in a group operation asks for the down direction, and
is NOT_IN_MODE while the keep oscillator does not run; on the way down and at off-rest it is ALREADY_DONE; in the cycle of the rise that
reaches a rest both are ALREADY_DONE. Where it rests on choices of the model: log entry 36. (R136, R177, R178, R180, R181, R183, R772) -/
def Obligations.PlanAndGates : Prop :=
  ∀ (slot : Slot) (stage : Fin 16) (s : State),
    (s.ready slot.val = true → s.secure slot.val = true →
      (s.owner idPlan = slot.val →
        (s.rd qKind ∈ [0, 2] → s.seq.next = none → s.planBad = false →
          Answers (.commit slot) slot .done s railTouch fun t => t.latched 254 ∧ ∀ f ∈ planFlds, t.rd (qa f) = s.rd f % 2 ^ f.width) ∧
        (s.rd qKind ∉ [0, 2] ∨ s.seq.next ≠ none → Answers (.commit slot) slot .busy s { flds := [hLeft idPlan] } fun _ => True) ∧
        (s.rd qKind ∈ [0, 2] → s.seq.next = none → s.planBad = true →
          Answers (.commit slot) slot .outOfRange s { flds := [hLeft idPlan] } fun _ => True) ∧
        Answers (.planDiscard slot) slot .done s { flds := [hLeft idPlan, iLbrk, iLatch 7] ++ planFlds, blks := [.glb] } fun t =>
          t.latched 255 ∧ t.rd iLbrk = s.rd iLbrk ||| s.secureTgts ∧ ∀ f ∈ planFlds, t.rd f = s.rd (qa f) % 2 ^ f.width) ∧
      (s.owner idPlan ≠ slot.val → s.owner idPlan ≠ 0x1F →
        Refused (.commit slot) slot .ownedElsewhere s ∧ Refused (.planDiscard slot) slot .ownedElsewhere s) ∧
      (s.on qGateWait = true → s.rd qStep = stage →
        Answers (.release slot stage) slot .done s { flds := [qGateWait, hLeft idPlan], blks := [.seq] } fun t =>
          t.rd qGateWait = 0 ∧ t.seq = { s.seq with pullStep := false, freed := true }) ∧
      (s.on qGateWait = false ∨ s.rd qStep ≠ stage →
        Answers (.release slot stage) slot .notInMode s { flds := [hLeft idPlan] } fun _ => True) ∧
      (.riseDown ∉ s.ended → s.rd qKind = 0 →
        (s.qon qMaster = false → Refused (.up slot) slot .notInMode s) ∧
        (s.qon qMaster = true → Answers (.up slot) slot .done s { blks := [.seq] } fun _ => True)) ∧
      (s.rd qKind = 0 ∨ (s.rd qKind = 1 ∧ s.rd qDir = 1) → Refused (.down slot) slot .alreadyDone s) ∧
      (.riseDown ∉ s.ended → s.rd qKind = 1 → s.rd qDir = 1 → .host ∈ s.seq.down →
        Answers (.up slot) slot .done s { flds := [qLineStep], blks := [.seq, .ended] } fun t => .host ∉ t.seq.down ∧
          (s.seq.down = [.host] → s.seq.pullStep = true ∨ s.seq.next = none → t.seq.pullDown = false)) ∧
      (s.rd qKind ∈ [2, 3] ∨ (s.rd qKind = 1 ∧ s.rd qDir = 0) →
        Refused (.up slot) slot .alreadyDone s ∧
        (.riseUp ∉ s.ended → s.on kOscRunning = true →
          Answers (.down slot) slot .done s { flds := [qLineStep], blks := [.seq, .ended] } fun t => .host ∈ t.seq.down) ∧
        (.riseUp ∉ s.ended → s.on kOscRunning = false → Refused (.down slot) slot .notInMode s)) ∧
      (.riseUp ∈ s.ended → Refused (.down slot) slot .alreadyDone s) ∧
      (.riseDown ∈ s.ended → Refused (.up slot) slot .alreadyDone s)) ∧
    (s.on qGateWait = true → s.q qGateTo ≠ 0 →
      Happens .gateTimeout s { flds := [qGateWait, qLineStep, iLatch 7], blks := [.seq, .glb] } fun t =>
        t.rd qGateWait = 0 ∧ t.seq.pullStep = false ∧ .gate ∈ t.seq.down ∧ (s.seq.pullStep = true → s.rd qKind = 1 → t.seq.pullDown = true) ∧
        t.latched 244)

/-! ### Monitor and Mortar log (spec/04) -/

/-- While the scan runs and no rail is being lowered, a conversion of a slot before the last sets that slot's reading and VALID and goes on
to the next slot, or to slot 0 where it leaves the scan nothing to run for; a ramping rail without a needed power-good is on at UP_PCT; a
running rail below UV_WARN for the WARN_N-th time in a row gets its warning. The last slot ends the scan: SCANCNT rises, slot 0 is next, and
a scan that SCAN_NOW asked for leaves its record of kind 2 in ring 40. A reference conversion, which follows the last slot of a scan and
nothing else, sets ADC_UNCAL and raises 486 when it is more than 8 codes off, and clears it otherwise. SCAN_NOW is taken once and BUSY until
its scan. Where it rests on choices of the model: log entries 35, 40, 41. (R126, R187, R188, R189, R190, R198, R199, R201) -/
def Obligations.ScanJudgesAndRecords : Prop :=
  ∀ (code : BitVec 12) (pg : Bool) (dev : Nat) (slot : Slot) (s : State),
    (s.scanRuns = true →
      (s.mon.slot < 28 → s.seq.drop = 0 → Happens (.scanConversion code pg) s
          { railTouch with flds := mRead s.mon.slot :: mReadValid s.mon.slot :: mEvt :: mDropCnt :: railTouch.flds
                           blks := .trm :: railTouch.blks } fun t =>
        t.rd (mRead s.mon.slot) = code.toNat ∧ t.rd (mReadValid s.mon.slot) = 1 ∧
        t.mon.slot = (if t.scanRuns then s.mon.slot + 1 else 0) ∧
        (s.mon.slot < 24 → s.railState s.mon.slot = 2 → s.q (qTarget s.mon.slot) * s.q (qUpPct s.mon.slot) ≤ code.toNat * 100 →
          s.q (qPgMode s.mon.slot) = 0 → t.railState s.mon.slot = 3) ∧
        (s.mon.slot < 24 → s.railState s.mon.slot = 3 → code.toNat < s.q (qUvWarn s.mon.slot) →
          s.rd mWarnN ≤ Assoc.get 0 s.mon.slot s.mon.warnRun + 1 → t.bit qWarn s.mon.slot = true)) ∧
      (24 ≤ s.mon.slot → s.mon.slot < 28 → Happens (.scanConversion code pg) s
          { flds := [mRead s.mon.slot, mReadValid s.mon.slot], blks := [.mon, .trm] } fun t =>
        t.rd (mRead s.mon.slot) = code.toNat ∧ t.mon.slot = s.mon.slot + 1) ∧
      (s.mon.slot = 28 → s.running = true → s.rd mScanDiv = 0 → s.mon.scanArm = true → s.accepts 40 16 →
        Happens (.scanConversion code pg) s
          { flds := [mRead 28, mReadValid 28, mScanCnt, mEvt, rWidx 40], blks := [.mon, .trm, .ringSeq, .port],
            bytes := s.itemBytes 40 16 } fun t =>
          t.mon.slot = 0 ∧ t.mon.scanReq = false ∧ t.rd mScanCnt = (s.rd mScanCnt + 1) % 2 ^ 32 ∧
          Stored 40 ([2 * 2 ^ 28 + s.rd mAdcUncal * 2 ^ 27 + t.mon.xtBad.toNat * 2 ^ 26 + Assoc.get 0 40 s.ringSeq] ++
            time96 s.mon.start (s.qual false) ++ packScan ((List.range 29).map fun k => t.rd (mRead k)) ++ [t.rd mScanCnt]) s t) ∧
      (s.mon.slot = 0 → s.mon.next0 ≠ none → Happens (.adcRefConversion dev) s { flds := [mAdcUncal, mEvt], blks := [.mon] } fun t =>
        t.mon = { s.mon with next0 := some s.htm.time } ∧
        t.rd mAdcUncal = (if 8 < dev then 1 else 0) ∧ (8 < dev → t.bit mEvt 6 = true)) ∧
      (s.mon.slot ≠ 0 ∨ s.mon.next0 = none → Happens (.adcRefConversion dev) s {} fun _ => True)) ∧
    (s.ready slot.val = true →
      (s.mon.scanReq = false → Answers (.scanNow slot) slot .done s { blks := [.mon] } fun t =>
        t.mon = { s.mon with scanReq := true }) ∧
      (s.mon.scanReq = true → Refused (.scanNow slot) slot .busy s))

/-- SNAP from any slot and the periodic snap queue an entry of type 0x07 and 0x08; with four waiting entries and none of a lower rank the
new one is dropped and counted; in M2 with the scan stopped the entry waits for a scan, which starts. The next entry written is the one
begun, or one of the highest rank of those that wait for no scan: it stands in the head slot with the next SEQ, is committed, and raises
480; one that stop-when-full keeps out is counted and raises 481; none is written before the hub has read the log at VMAIN arrival. CLEAR is
for secure slots, and BUSY while an entry waits or is being written; at its end the log holds one committed entry and 484 is raised, or in
M2 with the scan stopped that entry waits for a scan. At VMAIN arrival the hub goes on after the newest entry. A ring-43 item of a type from
0x10 to 0x1F becomes an entry; another is counted and raises 485. Where it rests on choices of the model: log entries 35, 39, 158, 160, 178,
179. (R189, R204, R206, R207, R209, R211, R212, R214, R215, R218, R219, R220) -/
def Obligations.MortarEntries : Prop :=
  ∀ (slot : Slot) (s : State),
    (s.ready slot.val = true →
      (s.mon.queue.length < 4 → s.logFullFor 7 = false → s.entryWaits = false → Answers (.snap slot) slot .done s { blks := [.mon] } fun t =>
        t.mon = { s.mon with queue := s.mon.queue ++
          [{ type := 7, words := s.logWords 7 slot.val s.mon.causes [s.rd qUpMask, s.rd mScanCnt], waits := false, now := true }] }) ∧
      (4 ≤ s.mon.queue.length → s.logFullFor 7 = false → s.entryWaits = false → (∀ e ∈ s.mon.queue, logRank e.type ≤ 2) → Answers (.snap slot) slot .done s { flds := [mDropCnt, mEvt] }
        fun t => t.rd mDropCnt = min (s.rd mDropCnt + 1) (2 ^ 32 - 1) ∧ t.bit mEvt 1 = true) ∧
      (s.secure slot.val = true →
        (s.mon.queue = [] → s.mon.writing = none → s.mon.clearing = false → Answers (.clear slot) slot .done s { blks := [.mon] } fun t =>
          t.mon = { s.mon with clearing := true }) ∧
        (s.mon.queue ≠ [] ∨ s.mon.writing ≠ none ∨ s.mon.clearing = true → Refused (.clear slot) slot .busy s)) ∧
      (s.secure slot.val = false → Refused (.clear slot) slot .secureOnly s)) ∧
    (s.on mLogMode = false → s.rd mSnapPer ≠ 0 → s.mon.queue.length < 4 → s.logFullFor 8 = false →
      Happens .periodicSnap s { blks := [.mon] } fun t => t.mon.log = s.mon.log ∧ (s.entryWaits = true → t.scanRuns = true) ∧
        t.mon.queue = s.mon.queue ++
          [{ type := 8, words := s.logWords 8 0xFF s.mon.causes [s.rd qUpMask, s.rd mScanCnt], waits := s.entryWaits, now := true }]) ∧
    (∀ e ∈ s.mon.writing.toList, e.waits = true → Happens .mortarEntryWrite s {} fun _ => True) ∧
    (∀ e ∈ s.mon.writing.toList, e.waits = false → e.words.length = 29 → (∀ w ∈ e.words, w < 2 ^ 32) → s.mon.seq < 2 ^ 32 →
      Happens .mortarEntryWrite s { flds := [mEvt, mFull], blks := [.mon] } fun t =>
        t.mon.queue = s.mon.queue ∧ t.mon.writing = none ∧ (t.logSlot s.mon.head).take 30 = s.mon.seq :: e.words ∧
        committed (t.logSlot s.mon.head) = true ∧ t.bit mEvt 0 = true ∧ (e.type = 9 → t.bit mEvt 4 = true)) ∧
    (s.mon.writing = none → s.mon.scanDue = true → Happens .mortarEntryWrite s {} fun _ => True) ∧
    (s.mon.clearing = false → s.mon.writing = none → s.mon.scanDue = false → ∀ e ∈ (bestEnt s.readyEnts).toList,
      (s.logFullFor e.type = false → e.words.length = 29 → (∀ w ∈ e.words, w < 2 ^ 32) → s.mon.seq < 2 ^ 32 →
        Happens .mortarEntryWrite s { flds := [mEvt, mFull], blks := [.mon] } fun t =>
          (∀ x ∈ s.readyEnts, logRank e.type ≤ logRank x.type) ∧ t.mon.queue = s.mon.queue.erase e ∧
          (t.logSlot s.mon.head).take 30 = s.mon.seq :: e.words ∧ committed (t.logSlot s.mon.head) = true ∧
          t.mon.head = (s.mon.head + 1) % 2048 ∧ t.mon.seq = (if s.mon.seq = 2 ^ 32 - 1 then 1 else s.mon.seq + 1) ∧
          t.bit mEvt 0 = true) ∧
      (s.logFullFor e.type = true → Happens .mortarEntryWrite s { flds := [mEvt, mDropCnt], blks := [.mon] } fun t =>
        t.mon.queue = s.mon.queue.erase e ∧ t.mon.log = s.mon.log ∧ t.bit mEvt 1 = true)) ∧
    (s.mon.clearing = true → Happens .clearDone s { flds := [mEvt, mFull], blks := [.mon] } fun t =>
      t.mon.clearing = false ∧ (∀ n : Fin 2048, 0 < n.val → t.logEmpty n = true) ∧
      (s.entryWaits = false → t.mon.head = 1 ∧ committed (t.logSlot 0) = true ∧ t.bit mEvt 4 = true) ∧
      (s.entryWaits = true → t.mon.head = 0 ∧ t.mon.log = [] ∧ t.mon.scanWait = true ∧ t.rd mFull = 0 ∧
        ∃ e, t.mon.writing = some e ∧ e.type = 9 ∧ e.waits = true)) ∧
    (s.mon.scanDue = false → Happens .logScan s {} fun _ => True) ∧
    (s.mon.scanDue = true → Happens .logScan s { flds := [mTornFound, mEvt, mDropCnt], blks := [.mon] } fun t =>
      t.mon.scanDue = false ∧ ∀ n ∈ (s.newestOf (usedSlots s.mon.log)).toList,
        t.mon.head = (n + 1) % 2048 ∧ t.mon.seq = s.seqAfter (s.logWord (n * 32)) ∧ t.mon.log = s.mon.log) ∧
    (s.on mLogMode = true → s.running = true → s.on (rEn 43) = true → 32 ≤ s.fill 43 → s.mon.queue.length < 4 →
      Happens .hostItemTake s { flds := [rRidx 43, mHostBad, mEvt, mDropCnt], blks := [.mon] } fun t =>
        t.rd (rRidx 43) = (s.rd (rRidx 43) + 32) % 2 ^ 32 ∧
        let w := (s.ringGet 43 (s.rd (rRidx 43)) 8).headD 0
        (w / 2 ^ 24 < 0x10 ∨ 0x1F < w / 2 ^ 24 → t.mon = s.mon ∧ t.rd mHostBad = min (s.rd mHostBad + 1) 65535 ∧ t.bit mEvt 5 = true) ∧
        (0x10 ≤ w / 2 ^ 24 → w / 2 ^ 24 ≤ 0x1F → w / 2 ^ 16 % 256 = 0 → s.logFullFor (w / 2 ^ 24) = false →
          t.mon.queue.map (·.type) = s.mon.queue.map (·.type) ++ [w / 2 ^ 24]))

/-! ### Trim and discipline (spec/06) -/

/-- While the main domain runs, a trim update shows the law's total as the saturated sum of base, temperature, aging and rotation terms, the
three terms 0 in host-assisted law mode; in hardware discipline HTM_INCR is INCR_BASE plus its product with the total and the servo, clamped
to R24; in software discipline HTM_INCR stays. The keep trim's rotation term is sent through the keep window once it differs by 4,398 units,
and not while the window is busy. Where it rests on choices of the model: log entries 21, 50. (R259, R260, R261, R262, R263, R268, R270) -/
def Obligations.TrimLawSetsIncrement : Prop :=
  ∀ (s : State), s.running = true →
    After .trimUpdate s (fun t => Frame
        { flds := [tFallback, tEvt, tTemp, tG, tGStale, tTermT, tTermA, tTermG, tMainTotal], blks := [.htm, .trm] } s t ∧
      t.rdS tMainTotal = satS 32 (s.rdS tMainBase + t.rdS tTermT + t.rdS tTermA + t.rdS tTermG) ∧
      (s.on tMode = true → t.rd tTermT = 0 ∧ t.rd tTermA = 0 ∧ t.rd tTermG = 0) ∧
      (s.on tMode = false → t.rdS tTermA = satS 32 (s.rdS tAgeRate * s.mrd kAgeDays) ∧
        t.rdS tTermG = satS 32 (roundDivI (s.rdS tGsensMain * t.rd tG) 16)) ∧
      (s.rd tGmill = 0x1F → t.rd tG = 0) ∧
      (s.hwDiscipline = true → (t.htm.incr : Int) = max 0x03FEF9DB23 (min 0x04010624DD
        (s.trm.base + roundDivI (s.trm.base * (t.rdS tMainTotal + s.rdS dServo)) (2 ^ 42)))) ∧
      (s.hwDiscipline = false → t.htm = s.htm)) ∧
    (s.on kBusy = false → 4398 ≤ (satS 32 (roundDivI (s.rdS tGsensKeep * s.rd tG) 16) - s.trm.gSent).natAbs →
      Happens .keepGUpdate s { flds := [kBusy], blks := [.keep, .trm] } fun t =>
        t.rd kBusy = 1 ∧ t.trm.gSent = satS 32 (roundDivI (s.rdS tGsensKeep * s.rd tG) 16) ∧
        t.keep = { s.keep with win := some (0x010028, toBits 32 t.trm.gSent) }) ∧
    (s.on kBusy = true → Happens .keepGUpdate s {} fun _ => True)

/-- KCAL_MEASURE in M5 or M10 starts a measurement at the newest tick pair, is BUSY while one runs and NOT_IN_MODE elsewhere; at its end
KMEAS shows how fast the trimmed keep count ran, KCAL_DONE sets, and no trim changes. Automatic calibration takes the measured error off
KEEP_TRIM_BASE through the keep window. In M5 with a learner on, each second adds a sample; a window that ends unobserved keeps the
sensitivities and flags each learner; one that is observed moves the sensitivity and, in the same step, the integrator the other way, within
SERVO_MAX; GL_RESTART drops the window. FOLD in M5 or M10 from a secure slot adds I to TRM_MAIN_BASE and clears it. Where it rests on
choices of the model: log entries 51, 52, 139. (R272, R273, R274, R275, R276, R277, R278, R279, R303) -/
def Obligations.CalibrationAndLearning : Prop :=
  ∀ (slot : Slot) (s : State),
    (s.ready slot.val = true →
      (s.mode = 5 ∨ s.mode = 10 → s.on tKcalBusy = false →
        Answers (.kcalMeasure slot) slot .done s { flds := [tKcalBusy], blks := [.trm] } fun t =>
          t.rd tKcalBusy = 1 ∧ t.trm = { s.trm with kcal := s.keep.pair, kcalT := 0, kcalN := 0 }) ∧
      (s.mode = 5 ∨ s.mode = 10 → s.on tKcalBusy = true → Refused (.kcalMeasure slot) slot .busy s) ∧
      (s.mode ≠ 5 → s.mode ≠ 10 → Refused (.kcalMeasure slot) slot .notInMode s) ∧
      (s.readyReg slot.val = true → Answers (.glRestart slot) slot .done s { flds := [tLearning], blks := [.trm] } fun t =>
        t.rd tLearning = 0 ∧ t.trm.win = none) ∧
      (s.secure slot.val = true → s.mode = 5 ∨ s.mode = 10 → Answers (.fold slot) slot .done s
          { flds := [tMainBase, dServo, dInteg, dEvt, tTermT, tTermA, tTermG, tMainTotal] } fun t =>
        t.rdS tMainBase = satS 32 (s.rdS tMainBase + s.rdS dInteg) ∧ t.rd dInteg = 0 ∧
        t.rdS dServo = satAt s.servoMax (s.rdS dServo - s.rdS dInteg)) ∧
      (s.secure slot.val = true → s.mode ≠ 5 → s.mode ≠ 10 → Refused (.fold slot) slot .notInMode s) ∧
      (s.secure slot.val = false → Refused (.fold slot) slot .secureOnly s)) ∧
    (s.running = true → s.on tKcalBusy = true → s.trm.kcal ≠ none → s.keep.pair ≠ none → Happens .kcalDone s
        { flds := [tKmeas, tKmeasTemp, tEvt, tKcalBusy], blks := [.trm] } fun t =>
      t.rd tKcalBusy = 0 ∧ t.bit tEvt 4 = true ∧
      ∀ p ∈ s.trm.kcal.toList, ∀ q ∈ s.keep.pair.toList, t.rdS tKmeas = satS 32 (epsilon42 p q)) ∧
    (s.running = true → s.mode = 5 → s.on tKcalAuto = true → s.on kMode = false → s.on kBusy = false →
      Happens .kcalAuto s { flds := [kBusy], blks := [.keep, .trm] } fun t => ∀ q ∈ s.keep.pair.toList, t.trm.auto = some q ∧
        ∀ p ∈ s.trm.auto.toList, t.rd kBusy = 1 ∧
          t.keep.win = some (0x010024, toBits 32 (satS 32 (s.rdS kTrimBase - epsilon42 p q)))) ∧
    (s.running = true → s.mode = 5 → s.on tGlMain = true ∨ s.on tGlKeep = true →
      Happens .glearnSample s { flds := [tLearning], blks := [.trm, .fresh] } fun t =>
        t.rd tLearning = 1 ∧ (t.trm.win.getD .empty).n = (s.trm.win.getD .empty).n + 1 ∧
        (t.trm.win.getD .empty).sym = (s.trm.win.getD .empty).sym + s.rdS dServo ∧
        (∀ p ∈ s.trm.gPair.toList, ∀ q ∈ s.keep.pair.toList,
          (t.trm.win.getD .empty).syk = (s.trm.win.getD .empty).syk - epsilon42 p q ∧ t.trm.gPair = some q)) ∧
    (s.running = true → s.mode = 5 → ∀ w ∈ s.trm.win.toList, s.rd tGlWin ≤ w.n →
      (w.observed = false → Happens .glearnWindowEnd s { flds := [tGlExc, tUnobsMain, tUnobsKeep, tEvt], blks := [.trm, .fresh] } fun t =>
        t.bit tEvt 0 = true ∧ (s.on tGlMain = true → t.rd tUnobsMain = 1) ∧ (s.on tGlKeep = true → t.rd tUnobsKeep = 1)) ∧
      (w.observed = true → s.on tGlKeep = false → s.on tGlMain = true → Happens .glearnWindowEnd s
          { flds := [tGlExc, tSlopeMain, tGsensMain, dInteg, dServo, dEvt, tUnobsMain, tTermT, tTermA, tTermG, tMainTotal, tEvt],
            blks := [.trm, .fresh, .htm] } fun t =>
        t.bit tEvt 1 = true ∧ t.rd tUnobsMain = 0 ∧
        t.rdS dInteg = satAt s.servoMax (s.rdS dInteg - roundDivI ((t.rdS tGsensMain - s.rdS tGsensMain) * s.rd tG) 16)))

/-- With DSRC 4 and no SET pending a PPSIN edge is taken, and the servo takes it in the next cycle. In hardware discipline in M4, not locked
and with AUTO_ACQ off, its phase to the nearest whole second then shows, I and S take the proportional and integral parts, each saturated at
SERVO_MAX, and the hub locks to M5 with 476 once LOCK_N edges in a row lie within LOCK_THR and Hub Time is set and not slewing; while a slew
runs LOCK_RUN is 0. While STATE is 2 an edge beyond PPS_WIN is an outlier: it is counted and moves neither the servo nor the lock. A ZDA
sentence with a bad checksum or form is counted; one whose TAI second the leap table gives labels the edge before it with ZDA_REL 0, or
waits for the next with ZDA_REL 1; text that is no ZDA sentence changes nothing. Where it rests on choices of the model: log entries 53, 54,
57, 161, 162. (R47, R260, R281, R282, R286, R288, R289, R293, spec/06_trim_discipline.md) -/
def Obligations.DisciplineServoAndLock : Prop :=
  ∀ (stamp : Stamp) (text : List Byte) (s : State), s.running = true →
    (s.rd dSrc = 4 → s.htm.pend = none → s.trm.held = none → s.trm.due = none →
      (s.mode = 4 → s.rd dState ≠ 2 → s.hwDiscipline = true → s.on dAutoAcq = false →
        Happens (.ppsinEdge stamp) s { blks := [.trm] } fun e =>
          let t := e.servoDue
          let th := (s.theta (stamp * 2 ^ 28)).1
          let i := satAt s.servoMax (s.rdS dInteg - servoPart (s.rd dKi) th)
          t.rdS dPhase = satS 32 (roundDivI th (2 ^ 12)) ∧ t.rd dPpsPresent = 1 ∧ t.rdS dInteg = i ∧
          t.rdS dServo = satAt s.servoMax (i - servoPart (s.rd dKp) th) ∧
          t.rd dLockRun =
            (if th.natAbs ≤ s.rd dLockThr * 2 ^ 16 ∧ s.on htmSlewActive = false then min 255 (s.rd dLockRun + 1) else 0) ∧
          (s.on htmTimeSet = true → s.on htmSlewActive = false → s.rd dLockN ≤ t.rd dLockRun →
            t.mode = 5 ∧ t.rd dState = 2 ∧ t.latched 476) ∧
          (t.rd dLockRun < s.rd dLockN → t.mode = 4)) ∧
      (s.rd dState = 2 → s.rd dPpsWin * 2 ^ 16 < (s.theta (stamp * 2 ^ 28)).1.natAbs →
        Happens (.ppsinEdge stamp) s { flds := [dOutliers, dEvt], blks := [.trm] } fun e =>
          e.rd dOutliers = min (s.rd dOutliers + 1) 65535 ∧ e.bit dEvt 0 = true ∧
          Frame ((e.giveTouch 41 8).and { flds := [dTodOk], blks := [.trm] }) e e.servoDue)) ∧
    (∀ y m d hh mi ss l : Nat, parseZda (text.map (·.toNat)) = .good y m d hh mi ss → s.taiOf 0 (daysOf y m d) hh mi ss = some l →
      dateOf (daysOf y m d).toNat = (y, m, d) → s.rd dSrc = 1 → s.trm.due = none →
      (s.on dZdaRel = true → Happens (.zdaSentence text) s { blks := [.trm] } fun t => t.trm = { s.trm with label := some l }) ∧
      (s.on dZdaRel = false → s.trm.held = none → Happens (.zdaSentence text) s {} fun _ => True) ∧
      (s.on dZdaRel = false → ∀ x ∈ s.trm.held.toList, x.outlier = true → Happens (.zdaSentence text) s
          ((s.giveTouch 41 8).and { flds := [dTodOk, dEvt], blks := [.trm] }) fun t =>
        t.trm.held = none ∧ t.rd dTodOk = (if l = x.n then 1 else 0) ∧ (l ≠ x.n → t.bit dEvt 2 = true))) ∧
    (parseZda (text.map (·.toNat)) = .bad → Happens (.zdaSentence text) s { flds := [dTodBad, dEvt] } fun t =>
      t.rd dTodBad = min (s.rd dTodBad + 1) 65535 ∧ t.bit dEvt 3 = true) ∧
    (parseZda (text.map (·.toNat)) = .other → Happens (.zdaSentence text) s {} fun _ => True)

/-- A missing second raises MISSING, clears PPS_PRESENT, and in hardware discipline lets S be I; the LOSS_N-th in a row in M5 unlocks with
cause 1 to M6 and raises 477. In software discipline from a secure slot DECLARE_LOCK, while no slew runs, moves M4 or M6 to M5, and
DECLARE_UNLOCK moves M5 to M6 with cause 5; elsewhere they answer NOT_IN_MODE. INTEG_CLEAR clears I. A second in M6 raises HOLD_TIME by one
and leaves M6 for M4 when the uncertainty passes HOLD_LIMIT with cause 7, or the time HOLD_MAX with cause 6; I keeps its value. Where it
rests on choices of the model: log entries 43, 56. (R47, R283, R289, R294, R298, R299, R300, R301) -/
def Obligations.UnlockAndHoldover : Prop :=
  ∀ (slot : Slot) (s : State),
    (s.running = true → s.rd dSrc ≠ 0 → s.trm.held = none → s.trm.due = none →
      (s.trm.missRun + 1 < s.rd dLossN → s.hwDiscipline = true → After .missingSecond s fun t =>
        t.bit dEvt 1 = true ∧ t.rd dPpsPresent = 0 ∧ t.trm.missRun = s.trm.missRun + 1 ∧ t.mode = s.mode ∧
        t.rdS dInteg = satAt s.servoMax (s.rdS dInteg) ∧ t.rdS dServo = satAt s.servoMax (s.rdS dInteg)) ∧
      (s.rd dLossN ≤ s.trm.missRun + 1 → s.mode = 5 → After .missingSecond s fun t =>
        t.mode = 6 ∧ t.rd glbPrev = 5 ∧ t.rd dLastUnlock = 1 ∧ t.rd dState = 3 ∧ t.rd dHoldTime = 0 ∧ t.latched 477)) ∧
    (s.ready slot.val = true → s.secure slot.val = true → s.running = true →
      (s.on dMode = true → s.on htmSlewActive = false → s.mode = 4 ∨ s.mode = 6 →
        Answers (.declareLock slot) slot .done s { flds := [dState, glbPrev, glbMode, iLatch 14, iLatch 15], blks := [.glb] } fun t =>
          t.mode = 5 ∧ t.rd glbPrev = s.mode ∧ t.rd dState = 2 ∧ t.latched 476) ∧
      (s.on dMode = false ∨ s.on htmSlewActive = true ∨ (s.mode ≠ 4 ∧ s.mode ≠ 6) → Refused (.declareLock slot) slot .notInMode s) ∧
      (s.mode = 5 → Answers (.declareUnlock slot) slot .done s
          { flds := [dLockRun, dLastUnlock, dState, dHoldFreq, dHoldTime, dHoldUnc, dInteg, dServo, dEvt, tLearning, glbPrev, glbMode,
              iLatch 14, iLatch 15], blks := [.trm, .glb] } fun t =>
        t.mode = 6 ∧ t.rd dLastUnlock = 5 ∧ t.rd dHoldTime = 0 ∧ t.latched 477) ∧
      (s.mode ≠ 5 → Refused (.declareUnlock slot) slot .notInMode s) ∧
      Answers (.integClear slot) slot .done s { flds := [dInteg] } fun t => t.rd dInteg = 0) ∧
    (s.ready slot.val = true → s.secure slot.val = false → ∀ i ∈ [Instr.declareLock slot, .declareUnlock slot, .integClear slot],
      Refused i slot .secureOnly s) ∧
    (s.running = true → s.mode = 6 →
      (s.holdUnc (s.rd dHoldTime + 1) ≤ s.rd dHoldLimit * 2 ^ 16 → s.rd dHoldTime + 1 ≤ s.rd dHoldMax →
        Happens .holdoverSecond s { flds := [dHoldTime, dHoldUnc] } fun t =>
          t.rd dHoldTime = (s.rd dHoldTime + 1) % 2 ^ 32 ∧
          t.rd dHoldUnc = min (2 ^ 32 - 1) (roundDiv (s.holdUnc (s.rd dHoldTime + 1)) (2 ^ 16))) ∧
      (s.rd dHoldLimit * 2 ^ 16 < s.holdUnc (s.rd dHoldTime + 1) → Happens .holdoverSecond s
          { flds := [dHoldTime, dHoldUnc, dLastUnlock, dState, glbPrev, glbMode, iLatch 14, iLatch 15], blks := [.glb] } fun t =>
        t.mode = 4 ∧ t.rd dLastUnlock = 7 ∧ t.latched 477) ∧
      (s.holdUnc (s.rd dHoldTime + 1) ≤ s.rd dHoldLimit * 2 ^ 16 → s.rd dHoldMax ≠ 0 → s.rd dHoldMax < s.rd dHoldTime + 1 →
        Happens .holdoverSecond s
          { flds := [dHoldTime, dHoldUnc, dLastUnlock, dState, glbPrev, glbMode, iLatch 14, iLatch 15], blks := [.glb] } fun t =>
          t.mode = 4 ∧ t.rd dLastUnlock = 6 ∧ t.latched 477))

/-! ### Calendar and reference outputs (spec/07) -/

/-- At a new second the view words describe it together, with CAL_VSEC twice; outside the view's range all six read 0; a leap change at this
second sets LEAP_APPLIED; each output runs that EN and GATE allow. PPSOUT goes active when Hub Time reaches a boundary plus PPS_OFS, and
inactive WIDTH µs after that; an IRIGOUT element follows the last one when its instant comes, with markers at its positions and a new frame,
that of the next second, after element 99; a CLKOUT edge at its instant toggles the level and, where ALIGN plans no restart, the next stands
one half-period after it, a rising one taking a written half-period. Before its instant none of them does anything. CLK_RESYNC waits for the
boundary. HP_NS from 8 to 500,000,000 from a secure slot waits for the rising edge; another value is a reserved encoding. Where it rests on
choices of the model: log entries 62, 63. (R311, R312, R317, R324, R326, R327, R328, R333, R334) -/
def Obligations.SecondBoundaryAndOutputs : Prop :=
  ∀ (slot : Slot) (n : Fin 4) (v : Word) (s : State),
    (s.running = true →
      (s.cal.sec ≠ some s.nowSec → Happens .calSecondBoundary s
          { flds := [cView 0, cView 1, cView 2, cView 3, cView 4, cView 5, cViewValid, cLeapNow, cLeapSoon, cTaiUtc, cLeapNextLo, cLeapNextHi,
              cEvt, cAlmBusy], blks := [.cal] } fun t =>
        t.cal.sec = some s.nowSec ∧ (s.leapHere s.nowSec = true → t.bit cEvt 0 = true) ∧
        (∀ i : Fin 6, t.cal.on.testBit i = s.refAllowed i) ∧
        (s.viewValid = false → ∀ i : Fin 6, t.rd (cView i) = 0) ∧
        (s.viewValid = true → t.rd (cView 0) = s.nowSec % 2 ^ 32 ∧ t.rd (cView 5) = s.nowSec % 2 ^ 32 ∧
          (∀ f ∈ (s.fields 0 s.nowSec).toList, t.rd (cView 1) = f.dateWord % 2 ^ 32 ∧ t.rd (cView 2) = f.timeWord % 2 ^ 32) ∧
          (∀ f ∈ (s.fields 1 s.nowSec).toList, t.rd (cView 3) = f.dateWord % 2 ^ 32 ∧ t.rd (cView 4) = f.timeWord % 2 ^ 32))) ∧
      (s.refRuns 0 = true →
        let k : Int := ((s.htm.time : Int) - s.rdS cPpsOfs * 2 ^ 28) / (10 ^ 9 * 2 ^ 32)
        ((s.cal.ppsNext : Int) ≤ k → Happens .ppsoutPulse s { blks := [.cal] } fun t => t.cal = { s.cal with
          pps := true, ppsNext := k.toNat + 1
          ppsEnd := k * (10 ^ 9 * 2 ^ 32) + s.rdS cPpsOfs * 2 ^ 28 + s.rd cPpsWidth * 1000 * 2 ^ 32 }) ∧
        (k < s.cal.ppsNext → Happens .ppsoutPulse s {} fun _ => True)) ∧
      (s.cal.pps = true → s.cal.ppsEnd ≤ s.htm.time → Happens .ppsoutPulseEnd s { blks := [.cal] } fun t =>
        t.cal = { s.cal with pps := false }) ∧
      (s.htm.time < s.cal.ppsEnd → Happens .ppsoutPulseEnd s {} fun _ => True) ∧
      (s.refRuns 1 = true →
        let at_ : Int := s.irigTurn.1 * (10 ^ 9 * 2 ^ 32) + s.rdS cIrigOfs * 2 ^ 28 + s.irigTurn.2 * (10 ^ 7 * 2 ^ 32)
        (at_ ≤ s.htm.time → Happens .irigoutElement s { blks := [.cal] } fun t =>
          t.cal = { s.cal with irig := t.cal.irig } ∧ t.cal.irig ≠ none ∧
          ∀ q ∈ t.cal.irig.toList, (isMarkPos q.2.1 = true → q.2.2 = 2) ∧
            (∀ p ∈ s.cal.irig.toList, (p.2.1 < 99 → q.1 = p.1 ∧ q.2.1 = p.2.1 + 1) ∧ (99 ≤ p.2.1 → q.1 = p.1 + 1 ∧ q.2.1 = 0)) ∧
            (s.cal.irig = none → q.1 = s.cal.irigNext ∧ q.2.1 = 0)) ∧
        (s.htm.time < at_ → Happens .irigoutElement s {} fun _ => True)) ∧
      (s.refRuns (2 + n) = true → s.htm.time < (s.clk n).next * 2 ^ 16 → Happens (.clkoutEdge n) s {} fun _ => True) ∧
      (s.refRuns (2 + n) = true → (s.clk n).next * 2 ^ 16 ≤ s.htm.time → Happens (.clkoutEdge n) s { blks := [.cal] } fun t =>
        t.cal = { s.cal with clk := t.cal.clk } ∧ (∀ k : Fin 4, k ≠ n → t.clk k = s.clk k) ∧
        (t.clk n).level = !(s.clk n).level ∧ (t.clk n).last = roundDiv (s.clk n).next (2 ^ 12) ∧
        (t.clk n).hp = (if (s.clk n).level then (s.clk n).hp else (s.clk n).pend.getD (s.clk n).hp) ∧
        ((s.clk n).restart = none → (t.clk n).next = (s.clk n).next + (t.clk n).hp))) ∧
    (s.ready slot.val = true →
      Answers (.clkResync slot) slot .done s { blks := [.cal] } (fun t => t.cal = { s.cal with resync := true }) ∧
      (s.secure slot.val = true →
        (8 ≤ v.toNat % 2 ^ 29 → v.toNat % 2 ^ 29 ≤ 500000000 → Answers (.hpNsWrite slot n v) slot .done s
            { flds := [cClkHpNs n], blks := [.cal] } fun t =>
          t.rd (cClkHpNs n) = v.toNat % 2 ^ 29 ∧
          (t.clk n).pend = some (v.toNat % 2 ^ 29 * 2 ^ 16 + s.rd (cClkHpFrac n)) ∧
          (s.clkDue n = false → t.clk n = { s.clk n with pend := (t.clk n).pend })) ∧
        (v.toNat % 2 ^ 29 < 8 ∨ 500000000 < v.toNat % 2 ^ 29 → Refused (.hpNsWrite slot n v) slot .reservedEncoding s)))

/-- A write of a leap entry from a secure slot that meets R315 takes effect and sets TABLE_CHANGED; one that does not is OUT_OF_RANGE and
changes nothing. CAL_LOCAL_AT_HI arms the change; at its second LOCAL_OFS takes LOCAL_NEXT, LOCAL_PENDING clears and LOCAL_CHANGED sets;
CANCEL_LOCAL disarms it, but for a change that is due, which applies with ALREADY_DONE. A write of CAL_ALM_CTRL takes the held date and time
and starts a search while the alarm is enabled and the view valid, or is a reserved encoding; one that clears EN in the cycle of the firing
is ALREADY_DONE, and the alarm has fired; the search ends with CAL_ALM_NEXT at the match, or with 0, NEVER and ALARM_NEVER; an alarm whose
second is reached sets FIRED, with LATE set when it was passed otherwise and clear when not. An IRIGIN element of a bad width ends its frame
and counts it; two markers open a frame; others extend it. Where it rests on choices of the model: log entry 60. (R314, R315, R317, R318,
R319, R320, R321, R323, R329) -/
def Obligations.CalendarTableAndAlarms : Prop :=
  ∀ (slot : Slot) (k : Fin 32) (n : Fin 8) (v : Word) (lead : Stamp) (w : Nat) (s : State),
    (s.ready slot.val = true → s.secure slot.val = true →
      (s.leapOk k (v.toNat % 2 ^ 18) (v.toNat / 2 ^ 24) = true → Answers (.leapWrite slot k v) slot .done s
          { flds := [cLeapMjd k, cLeapOfs k], areas := [(0x030000, 0x030028), (0x030040, 0x030048)], blks := [.cal] } fun t =>
        t.rd (cLeapMjd k) = v.toNat % 2 ^ 18 ∧ t.rd (cLeapOfs k) = v.toNat / 2 ^ 24 ∧ t.bit cEvt 4 = true) ∧
      (s.leapOk k (v.toNat % 2 ^ 18) (v.toNat / 2 ^ 24) = false → Refused (.leapWrite slot k v) slot .outOfRange s) ∧
      Answers (.localArm slot v) slot .done s { flds := [cLocalAtHi, cLocalPending] } fun t =>
        t.rd cLocalAtHi = v.toNat % 2 ^ 16 ∧ t.rd cLocalPending = 1) ∧
    (s.ready slot.val = true →
      (s.on cLocalPending = true → s.localDue = false →
        Answers (.cancelLocal slot) slot .done s { flds := [cLocalPending] } fun t => t.rd cLocalPending = 0) ∧
      (s.localDue = true → Answers (.cancelLocal slot) slot .alreadyDone s
          { flds := [cLocalOfs], areas := [(0x030000, 0x030028), (0x030040, 0x030048)], blks := [.cal] } fun t =>
        t.rd cLocalOfs = s.rd cLocalNext % 2 ^ 12 ∧ t.rd cLocalPending = 0 ∧ t.bit cEvt 1 = true) ∧
      (s.on cLocalPending = false → Refused (.cancelLocal slot) slot .alreadyDone s) ∧
      let a : AlmSpec := { date := s.rd (cAlmDate n) * 2 ^ 4, time := s.rd (cAlmTime n) * 2 ^ 5, mask := v.toNat / 2 ^ 6 % 2 ^ 7,
                           scale := v.toNat / 2 ^ 4 % 4 }
      (a.scale = 3 ∨ a.reserved = true → Refused (.calAlmCtrlWrite slot n v) slot .reservedEncoding s) ∧
      (a.scale ≠ 3 → a.reserved = false → s.almDue n = true → v.toNat % 2 = 0 → v.toNat.testBit 13 = false →
        Answers (.calAlmCtrlWrite slot n v) slot .alreadyDone s
          { flds := [cAlmMask n, cAlmScale n, cAlmOneshot n, cAlmEn n, cAlmFired n, cAlmLate n, cAlmNever n, cAlmBusy],
            blks := [.cal, .ended] } fun t => t.rd (cAlmEn n) = 0 ∧ t.rd (cAlmFired n) = 1) ∧
      (a.scale ≠ 3 → a.reserved = false → s.almDue n = false → ∀ c ∈ [Code.done, .alreadyDone],
        (c = .done ↔ Ended.alarm n ∉ s.ended ∨ v.toNat % 2 = 1) → Answers (.calAlmCtrlWrite slot n v) slot c s
          { flds := [cAlmMask n, cAlmScale n, cAlmOneshot n, cAlmEn n, cAlmFired n, cAlmLate n, cAlmNever n, cAlmBusy], blks := [.cal] }
        fun t => t.rd (cAlmEn n) = v.toNat % 2 ∧ t.rd (cAlmMask n) = v.toNat / 2 ^ 6 % 2 ^ 7 ∧ t.almSpec n = a ∧
          (v.toNat.testBit 13 = true → t.rd (cAlmFired n) = 0) ∧
          (v.toNat % 2 = 1 → s.viewValid = true → (t.alm n).search = some (s.nowSec + 1) ∧ t.bit cAlmBusy n = true))) ∧
    (s.running = true →
      (s.on cLocalPending = true → s.rd cLocalAtLo + s.rd cLocalAtHi * 2 ^ 32 ≤ s.nowSec → Happens .localChange s
          { flds := [cLocalOfs], areas := [(0x030000, 0x030028), (0x030040, 0x030048)], blks := [.cal] } fun t =>
        t.rd cLocalOfs = s.rd cLocalNext % 2 ^ 12 ∧ t.rd cLocalPending = 0 ∧ t.bit cEvt 1 = true) ∧
      (s.viewValid = true →
        (∀ t0 ∈ (s.alm n).search.toList, Happens (.alarmSearchDone n) s
            { flds := [cAlmBusy, cAlmNextLo n, cAlmNextHi n, cAlmNever n, cEvt], blks := [.cal] } fun t =>
          t.bit cAlmBusy n = false ∧
          (∀ m ∈ (s.almFirst (s.almSpec n) t0).toList, m < 2 ^ 48 → t.almNext n = m ∧ t.rd (cAlmNever n) = 0) ∧
          (s.almFirst (s.almSpec n) t0 = none → t.almNext n = 0 ∧ t.rd (cAlmNever n) = 1 ∧ t.bit cEvt 3 = true)) ∧
        (s.on (cAlmEn n) = true → (s.alm n).search = none → s.on (cAlmNever n) = false → s.almNext n ≠ 0 → s.almNext n ≤ s.nowSec →
          Happens (.calAlarmFire n) s { flds := [cAlmLate n, cAlmFired n, cAlmEn n, cAlmBusy], blks := [.cal, .ended] } fun t =>
            t.rd (cAlmFired n) = 1 ∧ t.rd (cAlmLate n) = (s.alm n).owed.toNat ∧ t.ended = .alarm n :: s.ended ∧
            (s.on (cAlmOneshot n) = true → t.rd (cAlmEn n) = 0))) ∧
      (w < 1000000 ∨ 9500000 < w → s.cal.inFrame ≠ none → Happens (.iriginElement lead w) s { flds := [cInBad, cEvt], blks := [.cal] } fun t =>
        t.cal = { s.cal with inMark := false, inFrame := none } ∧ t.rd cInBad = min (s.rd cInBad + 1) 65535 ∧ t.bit cEvt 2 = true) ∧
      (6500000 ≤ w → w ≤ 9500000 → s.cal.inMark = true → s.cal.inFrame = none → s.rd dSrc ≠ 3 →
        Happens (.iriginElement lead w) s { blks := [.cal] } fun t =>
          t.cal = { s.cal with inMark := true, inFrame := some (lead, [2]) }) ∧
      (1000000 ≤ w → w < 6500000 → ∀ f ∈ s.cal.inFrame.toList, f.2.length ≠ 99 → Happens (.iriginElement lead w) s { blks := [.cal] }
        fun t => t.cal = { s.cal with
          inMark := false, inFrame := some (f.1, (if w < 3500000 then 0 else 1) :: f.2) }))

/-! ### Stamp inputs and timed outputs (spec/08) -/

/-- On an input in hardware mode a selected edge at least 8 ns after the last accepted one joins the FIFO with its stamp, the crossing less
STP_SKEW, while fewer than four wait; a nearer one, or one that meets four, is dropped: counted, flagged, OVF_BEFORE on the next quill. In
MODE 1 it overwrites STP_LAST and OVERRUN marks an unread stamp. Other edges change nothing. The drain of the one waiting edge stores its
quill, and with ANGLE on an acquired mill the angle quill behind it, in the input group's ring; a mill without acquisition gives the time
quill alone and counts NOACQ, as it stands when the drain takes the edge. With DGL an edge waits in the filter, and one that ends a pulse
shorter than DGL × 4 ns goes with it. Edges are near each other by their crossings, whatever the skew. A passed calibration clears the UNCAL
bit of an input or of a mill's input, the third failure in a row sets it, each failure raising 505. Where it rests on choices of the model:
log entries 64, 65, 66, 67, 68, 202. (R337, R338, R339, R341, R342, R343, R346, R347, R348, R349, R351, R352) -/
def Obligations.StampedEdges : Prop :=
  ∀ (n : Fin 64) (rising : Bool) (x : Stamp) (s : State),
    let since := fun (l x : Nat) => (((x : Int) - l) % (2 ^ 48 * 10 ^ 9 * 2 ^ 4)).toNat
    (s.glb.mainUp = true → s.htm.frozen = false → s.rd (sDgl n) ≠ 0 →
      ((s.stin n).filt = [] → Happens (.stinEdge n rising x) s { blks := [.stin n] } fun t =>
        t.stin n = { s.stin n with filt := [(x, rising)] }) ∧
      (∀ g ∈ (s.stin n).filt.getLast?.toList,
        (since g.1 x < s.rd (sDgl n) * 4 * 2 ^ 4 → Happens (.stinEdge n rising x) s { blks := [.stin n] } fun t =>
          t.stin n = { s.stin n with filt := (s.stin n).filt.dropLast }) ∧
        (s.rd (sDgl n) * 4 * 2 ^ 4 ≤ since g.1 x → Happens (.stinEdge n rising x) s { blks := [.stin n] } fun t =>
          t.stin n = { s.stin n with filt := (s.stin n).filt ++ [(x, rising)] }))) ∧
    (s.glb.mainUp = true → s.htm.frozen = false → s.edgeSel n rising = true → s.rd (sDgl n) = 0 → (s.stin n).filt = [] →
      let t0 := (((x : Int) - s.rdS (sSkew n)) % (2 ^ 48 * 10 ^ 9 * 2 ^ 4)).toNat
      ((∀ l ∈ (s.stin n).last.toList, 128 ≤ since l x) →
        (s.on (sMode n) = false → (s.stin n).fifo.length < 4 → Happens (.stinEdge n rising x) s { blks := [.stin n] } fun t =>
          t.stin n = { s.stin n with
            last := some x, ovf := false
            fifo := (s.stin n).fifo ++ [{ t := t0, pol := rising, ovf := (s.stin n).ovf, uncal := s.stUncal n }] }) ∧
        (s.on (sMode n) = false → 4 ≤ (s.stin n).fifo.length → Happens (.stinEdge n rising x) s
            { flds := [sDropped n, sEvt n], blks := [.stin n] } fun t =>
          t.stin n = { s.stin n with last := some x, ovf := true } ∧ t.rd (sDropped n) = min (s.rd (sDropped n) + 1) 65535 ∧
          t.bit (sEvt n) 0 = true) ∧
        (s.on (sMode n) = true → Happens (.stinEdge n rising x) s
            { flds := [sLast n 0, sLast n 1, sLast n 2, sLastCnt n, sLastPol n, sLastOverrun n], blks := [.stin n] } fun t =>
          t.rd (sLast n 0) = secOf (t0 * 2 ^ 28) % 2 ^ 32 ∧ t.rd (sLast n 2) = s.qual (s.stUncal n) * 2 ^ 30 + nsOf (t0 * 2 ^ 28) ∧
          t.rd (sLastCnt n) = (s.rd (sLastCnt n) + 1) % 2 ^ 16 ∧ t.rd (sLastPol n) = rising.toNat ∧ (t.stin n).unread = true ∧
          ((s.stin n).unread = true → t.rd (sLastOverrun n) = 1))) ∧
      (∀ l ∈ (s.stin n).last.toList, since l x < 128 → Happens (.stinEdge n rising x) s
          { flds := [sDropped n, sEvt n], blks := [.stin n] } fun t =>
        t.stin n = { s.stin n with ovf := true } ∧ t.rd (sDropped n) = min (s.rd (sDropped n) + 1) 65535)) ∧
    (s.edgeSel n rising = false → s.rd (sDgl n) = 0 → (s.stin n).filt = [] → Happens (.stinEdge n rising x) s {} fun _ => True) ∧
    (s.running = true → s.on (sMode n) = false → (∀ k : Fin 64, k ≠ n → (s.stin k).fifo = []) → ∀ e ∈ (s.stin n).fifo.head?.toList, (s.stin n).fifo = [e] →
      let r := 8 + n.val / 8
      let q := timeQuill n e (s.qual e.uncal) (Assoc.get 0 r s.ringSeq)
      (s.on (sAngle n) = false → s.accepts r 4 → Happens .stampDrain s
          { flds := [rWidx r, sEvt n], blks := [.stin n, .stp, .ringSeq, .port], bytes := s.itemBytes r 4 } fun t =>
        Stored r q s t ∧ (t.stin n).fifo = []) ∧
      (s.on (sAngle n) = true → s.on (lAcq (s.rd (sMill n))) = true → s.accepts r 8 → Happens .stampDrain s
          { flds := [rWidx r, sEvt n], blks := [.stin n, .stp, .ringSeq, .port], bytes := s.itemBytes r 8 } fun t =>
        Stored r (q ++ angleQuill n (s.rd (sMill n)) e (angle64 (s.evalMill (s.rd (sMill n)) (e.t * 2 ^ 28)).th)
          ((Assoc.get 0 r s.ringSeq + 1) % 2 ^ 16)) s t ∧ (t.stin n).fifo = []) ∧
      (s.on (sAngle n) = true → s.on (lAcq (s.rd (sMill n))) = false → s.accepts r 4 → Happens .stampDrain s
          { flds := [rWidx r, sEvt n, sNoacq n], blks := [.stin n, .stp, .ringSeq, .port], bytes := s.itemBytes r 4 } fun t =>
        Stored r q s t ∧ t.rd (sNoacq n) = min (s.rd (sNoacq n) + 1) 65535 ∧ t.bit (sEvt n) 2 = true)) ∧
    (s.running = true →
      let cnt := if n.val = 63 then [sCalCnt] else []
      Happens (.interpCal (n.castLE (by decide)) true) s { flds := sUncal (n.val / 32) :: cnt, blks := [.stin n] } (fun t =>
        t.stUncal n = false ∧ t.stin n = { s.stin n with fails := 0 } ∧ (n.val = 63 → t.rd sCalCnt = (s.rd sCalCnt + 1) % 2 ^ 16)) ∧
      Happens (.interpCal (n.castLE (by decide)) false) s { flds := sUncal (n.val / 32) :: iLatch 15 :: cnt, blks := [.stin n, .glb] } (fun t =>
        t.latched 505 ∧ (2 ≤ (s.stin n).fails → t.stUncal n = true) ∧ ((s.stin n).fails < 2 → t.stUncal n = s.stUncal n)) ∧
      ∀ k : Fin 48,
        Happens (.interpCal ⟨64 + k.val, by omega⟩ true) s { flds := [lUncal (k.val / 3)], blks := [.stp] } (fun t =>
          t.stp.uncal.testBit k = false) ∧
        Happens (.interpCal ⟨64 + k.val, by omega⟩ false) s { flds := [lUncal (k.val / 3), iLatch 15], blks := [.stp, .glb] } fun t =>
          t.latched 505 ∧ (2 ≤ Assoc.get 0 k.val s.stp.fails → t.stp.uncal.testBit k = true ∧ t.rd (lUncal (k.val / 3)) = 1))

/-- For the slot that holds the output's lease: a write of an entry word outside ARMED and LOCKED, the nanoseconds of a time up to
999,999,999, takes effect and stages the entry, more nanoseconds are OUT_OF_RANGE, and is BUSY in these; ARM moves the named entries, all
STAGED and in range, to ARMED, is NOT_IN_MODE while EN is 0, SRC is 1 or a named entry is not staged, and OUT_OF_RANGE for a bad WIDTH or
nanoseconds; CANCEL empties staged and cancels armed and locked entries, ALREADY_DONE if one was done or is in its commit cycle, which it
executes all the same; EN 0 cancels all and puts the pin at IDLE, MODE 1 shows FORCE. A mask of zero is a reserved encoding. Another slot
gets OWNED_ELSEWHERE, and LEASE_LOST when nobody holds the output. Where it rests on choices of the model: log entries 12, 71, 73. (R22,
R356, R357, R358, R373, R374, R375, R376, R377, R381) -/
def Obligations.TimedOutputEntries : Prop :=
  ∀ (slot : Slot) (n : Fin 32) (e : Fin 8) (v : Word) (mask : BitVec 8) (s : State), s.ready slot.val = true →
    (s.owner (idTou n) = slot.val →
      (s.rd (oState n e) ≠ 2 → s.rd (oState n e) ≠ 3 →
        (∀ wf ∈ [((1 : Fin 8), oW1 n e), (2, oW2 n e), (4, oFrac n e), (5, oWidth n e)],
          Answers (.touEntryWrite slot n e wf.1 v) slot .done s { flds := [hLeft (idTou n), oState n e, wf.2] } fun t =>
            t.rd (oState n e) = 1 ∧ t.rd wf.2 = wf.2.ofWord v.toNat) ∧
        (s.on (oKind n e) = true ∨ v.toNat ≤ 999999999 →
          Answers (.touEntryWrite slot n e 3 v) slot .done s { flds := [hLeft (idTou n), oState n e, oNs n e] } fun t =>
            t.rd (oState n e) = 1 ∧ t.rd (oNs n e) = (oNs n e).ofWord v.toNat) ∧
        (s.on (oKind n e) = false → 999999999 < v.toNat →
          Answers (.touEntryWrite slot n e 3 v) slot .outOfRange s { flds := [hLeft (idTou n)] } fun _ => True) ∧
        Answers (.touEntryWrite slot n e 0 v) slot .done s { flds := [hLeft (idTou n), oState n e, oAction n e, oKind n e, oMill n e] }
          fun t => t.rd (oState n e) = 1 ∧ t.rd (oAction n e) = v.toNat / 2 ^ 6 % 4 ∧ t.rd (oKind n e) = v.toNat / 2 ^ 4 % 2 ∧
            t.rd (oMill n e) = v.toNat % 2 ^ 4) ∧
      (s.rd (oState n e) ≠ 2 → s.rd (oState n e) ≠ 3 → ∀ w ∈ [(6 : Fin 8), 7],
        Answers (.touEntryWrite slot n e w v) slot .done s { flds := [hLeft (idTou n), oState n e] } fun t => t.rd (oState n e) = 1) ∧
      (s.rd (oState n e) = 2 ∨ s.rd (oState n e) = 3 → ∀ w : Fin 8,
        Answers (.touEntryWrite slot n e w v) slot .busy s { flds := [hLeft (idTou n)] } fun _ => True) ∧
      (mask ≠ 0 → s.on (oEn n) = true → s.on (oSrc n) = false → (∀ k : Fin 8, mask.toNat.testBit k = true → s.rd (oState n k) = 1) →
        ((∀ k : Fin 8, mask.toNat.testBit k = true → s.touBadEntry n k = false) →
          Answers (.touArm slot n mask) slot .done s
            { flds := hLeft (idTou n) :: (List.range 8).map (oState n), blks := .ended :: (List.range 8).map (.touEnt n) } fun t =>
            ∀ k : Fin 8, t.rd (oState n k) = if mask.toNat.testBit k then 2 else s.rd (oState n k)) ∧
        (∀ k : Fin 8, mask.toNat.testBit k = true → s.rd (oWidth n k) < 8 ∨ 1000000000 < s.rd (oWidth n k) →
          Answers (.touArm slot n mask) slot .outOfRange s { flds := [hLeft (idTou n)] } fun _ => True)) ∧
      (mask ≠ 0 → s.on (oEn n) = false ∨ s.on (oSrc n) = true ∨ (∃ k : Fin 8, mask.toNat.testBit k = true ∧ s.rd (oState n k) ≠ 1) →
        Answers (.touArm slot n mask) slot .notInMode s { flds := [hLeft (idTou n)] } fun _ => True) ∧
      (mask = 0 → Answers (.touArm slot n mask) slot .reservedEncoding s { flds := [hLeft (idTou n)] } (fun _ => True) ∧
        Answers (.touCancel slot n mask) slot .reservedEncoding s { flds := [hLeft (idTou n)] } fun _ => True) ∧
      (mask ≠ 0 → (∀ k : Fin 8, s.touAtCommit n k = false) → ∀ c ∈ [Code.done, .alreadyDone],
        (c = .done ↔ ∀ k : Fin 8, mask.toNat.testBit k = true → s.rd (oState n k) ∈ [1, 2, 3]) →
        Answers (.touCancel slot n mask) slot c s { flds := hLeft (idTou n) :: (List.range 8).map (oState n) } fun t =>
          ∀ k : Fin 8, t.rd (oState n k) = if mask.toNat.testBit k then
            (if s.rd (oState n k) = 1 then 0 else if s.rd (oState n k) = 2 ∨ s.rd (oState n k) = 3 then 7 else s.rd (oState n k))
            else s.rd (oState n k)) ∧
      (s.touAtCommit n e = true → mask.toNat = 2 ^ e.val → (∀ k : Fin 8, k ≠ e → s.touAtCommit n k = false) →
        Answers (.touCancel slot n mask) slot .alreadyDone s
          { flds := [hLeft (idTou n), oState n e, oEvt n], blks := [.touOut n, .ended] } fun t =>
            t.rd (oState n e) ∈ (if s.on (oDropLate n) then [4, 5, 6] else [4, 5])) ∧
      (v.toNat / 2 ^ 29 % 2 = s.rd (oSrc n) → v.toNat.testBit 31 = false → (∀ k : Fin 8, s.touAtCommit n k = false) → ∀ c ∈ [Code.done, .alreadyDone],
          (c = .done ↔ ∀ k : Fin 8, Ended.entry n k ∉ s.ended) → Answers (.touCtrlWrite slot n v) slot c s
          { flds := [hLeft (idTou n), oEn n, oMode n, oSrc n, oIdle n, oDropLate n, oForce n, oEvtDone n, oLevel n, oTrail n] ++
              (List.range 8).map (oState n), blks := [.touOut n] } fun t =>
        t.rd (oEn n) = 0 ∧ t.rd (oLevel n) = v.toNat / 2 ^ 28 % 2 ∧ t.rd (oTrail n) = 0 ∧
        ∀ k : Fin 8, t.rd (oState n k) = if s.rd (oState n k) = 2 ∨ s.rd (oState n k) = 3 then 7 else s.rd (oState n k)) ∧
      (v.toNat / 2 ^ 29 % 2 = s.rd (oSrc n) → v.toNat.testBit 31 = true → v.toNat.testBit 30 = true → Answers (.touCtrlWrite slot n v) slot
          .done s { flds := [hLeft (idTou n), oEn n, oMode n, oSrc n, oIdle n, oDropLate n, oForce n, oEvtDone n, oLevel n],
                    blks := [.touOut n, .ended] } fun t => t.rd (oLevel n) = v.toNat / 2 ^ 26 % 2)) ∧
    (s.owner (idTou n) ≠ slot.val → ∀ i ∈ [Instr.touEntryWrite slot n e 1 v, .touArm slot n mask, .touCancel slot n mask, .touCtrlWrite slot n v],
      (s.owner (idTou n) = 0x1F → Refused i slot .leaseLost s) ∧ (s.owner (idTou n) ≠ 0x1F → Refused i slot .ownedElsewhere s))

/-- In its commit cycle, with no other edge of the output near, a due entry goes to the delay line, placed at its instant plus the skew,
rounded to 62.5 ps: an entry on time is DONE, a late one is LATE, placed 64 ns after Hub Time, or with DROP_LATE is DROPPED with nothing
placed. Before that cycle, which for a late entry is the one after it became due, nothing happens, and no trailing edge comes before its
instant, nor within 8 ns behind an edge that has come. When Hub Time has reached its instant a placed edge comes: a drive sets the level in
hardware mode, a toggle inverts it, a pulse drives away from IDLE and leaves its trailing edge after WIDTH. The trailing edge returns the
pin to IDLE, and where it had to be moved COLLIDE sets in the timer whose pulse it ends. An armed predicted entry that does not wait, of an
acquired mill, locks 2 µs before its prediction. Where it rests on choices of the model: log entries 69, 70, 72, 164. (R360, R361, R362,
R364, R365, R367, R369) -/
def Obligations.TimedOutputCommits : Prop :=
  ∀ (n : Fin 32) (e : Fin 8) (s : State), s.running = true →
    (∀ t0 ∈ (s.touInstant n e).toList, s.touRuns n = true → s.touDue n e = true →
      let at_ := place62 ((((t0 : Int) + s.rdS (oSkew n) * 2 ^ 28) % (2 ^ 48 * 10 ^ 9 * 2 ^ 32)).toNat)
      let onTime := s.htm.time + 64 * 2 ^ 32 ≤ at_
      (at_ < s.htm.time + 64 * 2 ^ 32 + s.effIncr → (onTime ∨ s.touFresh n e = false) → (∀ k : Fin 8, k ≠ e → s.touAtCommit n k = false) →
        (s.touOut n).last = none → (s.touOut n).line = [] → (s.touOut n).trail = none →
        (onTime ∨ s.on (oDropLate n) = false → Happens (.touCommit n e) s
            { flds := [oState n e, oEvt n], blks := [.touOut n, .ended] } fun t =>
          let place := if onTime then at_ else place62 ((s.htm.time + 64 * 2 ^ 32) % (2 ^ 48 * 10 ^ 9 * 2 ^ 32))
          t.rd (oState n e) = (if onTime then 4 else 5) ∧ t.bit (oEvt n) (if onTime then 0 else 1) = true ∧
          t.touOut n = { s.touOut n with
            last := some place
            line := [{ t := place, action := s.rd (oAction n e), width := s.rd (oWidth n e), rank := if onTime then e.val else 0 }] }) ∧
        (¬onTime → s.on (oDropLate n) = true → Happens (.touCommit n e) s
            { flds := [oState n e, oEvt n], blks := [.ended] } fun t => t.rd (oState n e) = 6 ∧ t.bit (oEvt n) 2 = true)) ∧
      (s.htm.time + 64 * 2 ^ 32 + s.effIncr ≤ at_ ∨ (¬onTime ∧ s.touFresh n e = true) → Happens (.touCommit n e) s {} fun _ => True)) ∧
    (∀ g : TouEdge, (s.touOut n).line = [g] → (s.touOut n).trail = none → s.on (oMode n) = false →
      (s.htm.time < g.t → s.touArrive n = s) ∧
      (g.t ≤ s.htm.time → Frame { flds := [oLevel n, oTrail n], blks := [.touOut n] } s (s.touArrive n) ∧
        ((s.touArrive n).touOut n).line = [] ∧
        (g.action = 0 ∨ g.action = 1 → (s.touArrive n).rd (oLevel n) = g.action) ∧
        (g.action = 2 → (s.touArrive n).rd (oLevel n) = (1 - (s.touOut n).level) % 2) ∧
        (g.action = 3 → (s.touArrive n).rd (oLevel n) = 1 - s.rd (oIdle n) ∧ (s.touArrive n).rd (oTrail n) = 1 ∧
          ((s.touArrive n).touOut n).trail = some (g.t + g.width * 2 ^ 32)))) ∧
    (∀ tr ∈ (s.touOut n).trail.toList,
      let at_ := match (s.touOut n).came with | some l => if l < tr then max tr (l + 8 * 2 ^ 32) else tr | none => tr
      (at_ ≤ s.htm.time → s.on (oMode n) = false → Happens (.touTrailingEdge n) s
          { flds := [oLevel n, oTrail n] ++ ((s.touOut n).trailOf.map gEvt).toList, blks := [.touOut n] } fun t =>
        t.rd (oLevel n) = s.rd (oIdle n) % 2 ∧ t.rd (oTrail n) = 0 ∧ (t.touOut n).trail = none ∧
        (t.touOut n).last = some (max at_ ((s.touOut n).last.getD 0)) ∧ (t.touOut n).came = some at_ ∧
        (at_ ≠ tr → ∀ k ∈ (s.touOut n).trailOf.toList, t.bit (gEvt k) 10 = true)) ∧
      (s.htm.time < at_ → Happens (.touTrailingEdge n) s {} fun _ => True)) ∧
    (∀ p ∈ (s.touEnt n e).pred.toList, s.touRuns n = true → s.rd (oState n e) = 2 → s.on (oKind n e) = true → (s.touEnt n e).wait = false →
      s.on (lAcq (s.rd (oMill n e))) = true →
      (p ≤ s.htm.time + 2000 * 2 ^ 32 → Happens (.touLock n e) s { flds := [oState n e], blks := [.ended] } fun t =>
        t.rd (oState n e) = 3) ∧
      (s.htm.time + 2000 * 2 ^ 32 < p → Happens (.touLock n e) s {} fun _ => True))

/-! ### Mills (spec/09) -/

/-- Where the mill sees its balls as they stand, and for the first transition of its cycle: on a mill that is not enabled an edge only
changes the levels of its assigned inputs. With DGL a transition waits in the input's filter, and one that ends a pulse shorter than DGL × 4
ns goes with it. On an enabled quadrature mill without DGL a change of both inputs at once is a QERR: counted, flagged, INDEXED and a
tracking mill's ACQ clear. On a toothed mill without references an edge of TPOL moves the count by one in its direction; in hardware mode an
edge within 80 ns of the last is held and flagged RATE_LIMIT, the first taken after a seed sets the phase with speed 0, and the second the
speed, one rounded quotient, both shown in the state window's words. In host-assisted mode the estimator is idle. Where it rests on choices
of the model: log entries 49, 75, 76, 78, 165, 166. (R383, R384, R387, R388, R391, R393, R395, R396, R402, R403, R407, R409) -/
def Obligations.MillEdgesMoveTheEstimator : Prop :=
  ∀ (m : Fin 16) (a b z : Bool) (x : Stamp) (s : State), s.running = true →
    let since := fun (t0 : Nat) => ((((x * 2 ^ 28 : Nat) : Int) - t0) % (2 ^ 48 * 10 ^ 9 * 2 ^ 32)).toNat
    (s.lq m (lDgl m) ≠ 0 → s.milPin m 0 = true → b = (s.mill m).ball.testBit 1 → z = (s.mill m).ball.testBit 2 →
      a ≠ (s.mill m).ball.testBit 0 →
      ((s.mill m).filt = [] → Happens (.millEdge m a b z x) s { blks := [.mill m] } fun t =>
        t.mill m = { (s.mill m).atBalls a b z with filt := [(0, x * 2 ^ 28)] }) ∧
      (∀ t0 : Nat, (s.mill m).filt = [(0, t0)] →
        (since t0 < s.lq m (lDgl m) * 4 * 2 ^ 32 → Happens (.millEdge m a b z x) s { blks := [.mill m] } fun t =>
          t.mill m = { (s.mill m).atBalls a b z with filt := [] }) ∧
        (s.lq m (lDgl m) * 4 * 2 ^ 32 ≤ since t0 → Happens (.millEdge m a b z x) s { blks := [.mill m] } fun t =>
          t.mill m = { (s.mill m).atBalls a b z with filt := [(0, t0), (0, x * 2 ^ 28)] }))) ∧
    (s.lq m (lDgl m) = 0 → (s.mill m).filt = [] → (s.mill m).atBalls (s.mill m).a (s.mill m).b (s.mill m).z = s.mill m → s.millQuiet m = true →
    (s.lon m (lEn m) = false → Happens (.millEdge m a b z x) s { blks := [.mill m, .ended] } fun t =>
      t.mill m = { (s.mill m).atBalls a b z with
        a := if s.milPin m 0 then a else (s.mill m).a
        b := if s.milPin m 1 then b else (s.mill m).b
        z := if s.milPin m 2 then z else (s.mill m).z }) ∧
    (s.lon m (lEn m) = true → s.lq m (lSrc m) = 0 → (∀ i : Fin 3, s.lon m (lQen m i) = false ∧ s.milPin m i = true) →
      a ≠ (s.mill m).a → b ≠ (s.mill m).b → z = (s.mill m).z → Happens (.millEdge m a b z x) s
        { flds := [lQerr m, lEvt m, lState m, lAcq m, lRdrop m, lIndexed m], blks := [.mill m, .touEnts, .ended] } fun t =>
      t.rd (lQerr m) = min (s.rd (lQerr m) + 1) 65535 ∧ t.bit (lEvt m) 5 = true ∧ t.rd (lIndexed m) = 0 ∧
      (s.lon m (lMode m) = false → s.rd (lState m) = 2 → t.rd (lState m) = 1 ∧ t.rd (lAcq m) = 0 ∧ t.bit (lEvt m) 1 = true)) ∧
    (s.lon m (lEn m) = true → s.lq m (lSrc m) = 1 → s.lq m (lMissing m) = 0 → s.lon m (lZref m) = false → s.lq m (lDirSrc m) = 0 →
      (∀ i : Fin 3, s.lon m (lQen m i) = false ∧ s.milPin m i = true) → a ≠ (s.mill m).a → a = !s.lon m (lTpol m) →
      (s.mill m).started = true → (s.mill m).held = none →
      After (.millEdge m a b z x) s (fun t =>
        (t.mill m).cnt = (s.mill m).cnt + (if s.lon m (lReverse m) then -1 else 1) ∧ (t.mill m).lastT = some (x * 2 ^ 28) ∧
        (t.mill m).anchor = (s.mill m).anchor ∧ (s.rd (lState m) = 3 → s.lon m (lMode m) = true → t.rd (lState m) = 1) ∧
        (s.lon m (lMode m) = true → (t.mill m).kept = (s.mill m).kept) ∧
        (s.lon m (lMode m) = false → x * 2 ^ 28 < (s.mill m).ready →
          (t.mill m).kept = (s.mill m).kept ∧ t.bit (lEvt m) 8 = true ∧
          (t.mill m).held = some { t := x * 2 ^ 28, pos := t.millPos m, isRef := false }) ∧
        (s.lon m (lMode m) = false → (s.mill m).ready ≤ x * 2 ^ 28 → (t.mill m).ready = x * 2 ^ 28 + 80 * 2 ^ 32 ∧
          (s.rd (lAcq m) = 0 → s.lq m (lAcqN m) ≠ 0 → ∀ k ∈ (t.mill m).kept.head?.toList,
            ((s.mill m).seed = 0 → k = { t := x * 2 ^ 28, th := t.millPos m * 2 ^ 16, w := 0, a := 0 } ∧ (t.mill m).seed = 1) ∧
            ((s.mill m).seed = 1 → ∀ j ∈ (s.mill m).kept.head?.toList, k.th = t.millPos m * 2 ^ 16 ∧ k.a = 0 ∧
              k.w = roundDivI (phaseDiff (t.millPos m * 2 ^ 16) j.th * (10 ^ 9 * 2 ^ 32)) (x * 2 ^ 28 - j.t)) ∧
            t.rd (lSt m 4) = angle64 k.th / 2 ^ 32 ∧ t.rd (lSt m 5) = angle64 k.th % 2 ^ 32 ∧ t.rd (lSt m 6) = q16 k.w ∧
            t.rd (lSt m 7) = q16 k.a)))))

/-- For the slot that holds the mill, while no transition waits in a filter: APPLY within range makes every staged field active and restarts
the mill with INDEXED and ACQ 0 when a field that defines its counting changed, and is OUT_OF_RANGE otherwise; DISCARD puts the active
fields back and raises LEASE_BROKEN to the secure targets; EVAL shows angle, speed and acceleration at its epoch with VALID as ACQ; INJECT
in MODE 1 within 10 s of Hub Time takes the state and sets ACQ, is OUT_OF_RANGE farther off and NOT_IN_MODE in MODE 0. A stall, STALL_T
after the last counted edge, enters STATE 3, flags it, and in hardware mode clears ACQ; the state window shows speed and acceleration 0.
INJ_HOLD after the last INJECT ACQ clears and LOST is flagged. A waiting record goes to ring 36, 8 cycles at least after the offer before.
Where it rests on choices of the model: log entries 74, 76, 77, 78, 139. (R399, R403, R408, R410, R411, R414, R415, R416, R418, R419,
R421) -/
def Obligations.MillCommands : Prop :=
  ∀ (slot : Slot) (m : Fin 16) (s : State),
    (s.ready slot.val = true → s.owner (idMill m) = slot.val → (s.mill m).filt = [] →
      (s.millBad m = false → Answers (.millApply slot m) slot .done s
          { flds := [hLeft (idMill m), lState m, lIndexed m, lAcq m, lDir m, lEvt m, lRdrop m] ++ (List.range 8).map (lSt m) ++
              (millFlds m).map (la m), blks := [.mill m] } fun t =>
        (∀ f ∈ millFlds m, t.rd (la m f) = s.rd f % 2 ^ f.width) ∧
        ((∃ f ∈ millCore m, s.rd f ≠ s.lq m f) → t.rd (lState m) = s.rd (lEn m) % 2 ∧ t.rd (lIndexed m) = 0 ∧ t.rd (lAcq m) = 0)) ∧
      (s.millBad m = true → Answers (.millApply slot m) slot .outOfRange s { flds := [hLeft (idMill m)] } fun _ => True) ∧
      Answers (.millDiscard slot m) slot .done s { flds := hLeft (idMill m) :: iLbrk :: millFlds m } (fun t =>
        (∀ f ∈ millFlds m, t.rd f = s.lq m f % 2 ^ f.width) ∧ t.rd iLbrk = s.rd iLbrk ||| s.secureTgts) ∧
      (s.readyReg slot.val = true → Answers (.eval slot m) slot .done s
          { flds := [hLeft (idMill m), lEval m 0, lEval m 1, lEval m 2, lEval m 3, lEvalDone m, lEvalValid m] } (fun t =>
        let k := s.evalMill m (mkTime (s.rd (lEvalSecLo m) + s.rd (lEvalSecHi m) * 2 ^ 32) (s.rd (lEvalNs m)) 0)
        t.rd (lEval m 0) * 2 ^ 32 + t.rd (lEval m 1) = angle64 k.th ∧ t.rd (lEval m 2) = q16 k.w ∧ t.rd (lEval m 3) = q16 k.a ∧
        t.rd (lEvalDone m) = 1 ∧ t.rd (lEvalValid m) = s.rd (lAcq m) % 2)) ∧
      (s.lon m (lMode m) = true → ((s.injEpoch m : Int) - s.htm.time).natAbs ≤ 10 * (10 ^ 9 * 2 ^ 32) → Answers (.inject slot m) slot .done s
          { flds := [hLeft (idMill m), lAcq m, lDir m, lEvt m], blks := [.mill m] } fun t =>
        t.rd (lAcq m) = 1 ∧ t.rd (lDir m) = s.rd (lInj m 2) / 2 ^ 31 % 2 ∧ (t.mill m).injAt = s.htm.time ∧ (t.mill m).inj ≠ none ∧ ∀ k ∈ (t.mill m).inj.toList, k.t = s.injEpoch m ∧
          k.th = (s.rd (lInj m 0) * 2 ^ 32 + s.rd (lInj m 1)) * 2 ^ 16 ∧ k.w = signedOf 32 (s.rd (lInj m 2)) * 2 ^ 32 ∧
          k.a = signedOf 32 (s.rd (lInj m 3)) * 2 ^ 32) ∧
      (s.lon m (lMode m) = true → 10 * (10 ^ 9 * 2 ^ 32) < ((s.injEpoch m : Int) - s.htm.time).natAbs →
        Answers (.inject slot m) slot .outOfRange s { flds := [hLeft (idMill m)] } fun _ => True) ∧
      (s.lon m (lMode m) = false → Answers (.inject slot m) slot .notInMode s { flds := [hLeft (idMill m)] } fun _ => True)) ∧
    (s.running = true →
      (s.lon m (lEn m) = true → s.rd (lState m) ≠ 3 → (s.mill m).since + s.lq m (lStallT m) * (10 ^ 6 * 2 ^ 32) ≤ s.htm.time → Happens (.millStall m) s
          { flds := [lState m, lAcq m, lDir m, lEvt m, lRdrop m] ++ (List.range 8).map (lSt m), blks := [.mill m] } fun t =>
        t.rd (lState m) = 3 ∧ t.bit (lEvt m) 2 = true ∧ (s.lon m (lMode m) = false → t.rd (lAcq m) = 0) ∧
        ∀ k ∈ (t.mill m).kept.head?.toList, k.w = 0 ∧ k.a = 0 ∧ t.rd (lSt m 6) = 0 ∧ t.rd (lSt m 7) = 0) ∧
      (s.lon m (lMode m) = true → s.on (lAcq m) = true → s.rd (lInjHold m) ≠ 0 →
        (s.mill m).injAt + s.rd (lInjHold m) * (10 ^ 6 * 2 ^ 32) ≤ s.htm.time → Happens (.injHoldExpiry m) s
          { flds := [lAcq m, lEvt m, lRdrop m], blks := [.mill m] } fun t => t.rd (lAcq m) = 0 ∧ t.bit (lEvt m) 1 = true) ∧
      (s.mil.gap = 0 → s.mil.next = m → s.accepts 36 4 → ∀ r ∈ (s.mill m).recs.head?.toList, Happens .millRingOffer s
          { flds := [rWidx 36], blks := [.mill m, .mil, .ringSeq, .port], bytes := s.itemBytes 36 4 } fun t =>
        Stored 36 [r.kind * 2 ^ 28 + m * 2 ^ 24 + r.detail * 2 ^ 16 + Assoc.get 0 36 s.ringSeq, secOf r.t % 2 ^ 32,
          secOf r.t / 2 ^ 32 * 2 ^ 16 + r.rev % 2 ^ 16, nsOf r.t] s t ∧ (t.mill m).recs = (s.mill m).recs.tail ∧ t.mil.gap = 8))

/-! ### General timers (spec/10) -/

/-- A tick that is due by a running timer's own source (GT_DIV cycles, the next aligned instant, GT_DIV edges of its mill) makes the count
one more, or one less for a free-running timer on a mill that moves negative; with none due nothing happens, and a LOAD in the cycle
discards it. With no compare enabled: a tick that does not expire changes the count and what its source has used up alone; an expiry sets
EXPIRED, and the one-shot goes to 0 and runs on with RELOAD, and otherwise stops in STATE 1 with REARM and STATE 0 without. A tick to the
value of an enabled compare sets its flag, moves the compare by a period, and with its pin an output in MODE 0 places its action on the
pin's delay line; in MODE 1 it places none. A placed edge comes at its instant: a drive leaves its level, a toggle the other, a pulse the
opposite of IDLE and a trailing edge PW × 8 ns later. An edge of the selected polarity at an assigned clock pin without DGL is one unit, and
a GLITCH when the level before it lasted less than 8 ns; a timer clocked by its master ignores it. Where it rests on choices of the model:
log entries 81, 83. (R423, R424, R425, R426, R427, R430, R431, R434, R437, R438, R460) -/
def Obligations.TimerTicksCountAndMatch : Prop :=
  ∀ (n : Fin 16) (k : Fin 4) (rising : Bool) (x : Stamp) (s : State),
    (s.g (gSrc n) ≠ 3 → s.gtDue n = none → Happens (.gtTick n rising x) s {} fun _ => True) ∧
    (s.g (gSrc n) ≠ 3 → ∀ d ∈ (s.gtDue n).toList,
      (Ended.load n ∈ s.ended → Happens (.gtTick n rising x) s { flds := [gPhase n], blks := [.timer n] } fun t =>
        (t.gt n).count = (s.gt n).count) ∧
      (Ended.load n ∉ s.ended →
        ((∀ j : Fin 4, s.gon (gCmpEn n j) = false) →
          (s.tickExpires n = false → Happens (.gtTick n rising x) s { flds := [gPhase n], blks := [.timer n] } fun t =>
            t.gt n = { s.gt n with count := s.tickTo n, tickAt := if s.g (gSrc n) = 1 then d else (s.gt n).tickAt } ∧
            t.rd (gPhase n) = (if s.g (gSrc n) = 1 then 0 else s.rd (gPhase n) - s.g (gDiv n)) ∧
            (s.gon (gRun n) = true ∨ s.g (gSrc n) ≠ 2 ∨ (s.mill (s.g (gMill n))).dirNeg ≠ some true →
              (t.gt n).count = ((s.gt n).count + 1) % 2 ^ 64) ∧
            (s.gon (gRun n) = false → s.g (gSrc n) = 2 → (s.mill (s.g (gMill n))).dirNeg = some true → 0 < (s.gt n).count →
              (s.gt n).count < 2 ^ 64 → (t.gt n).count = (s.gt n).count - 1)) ∧
          (s.tickExpires n = true → Happens (.gtExpiry n rising x) s
              { flds := gPhase n :: gEvt n :: (List.range 16).map gState, blks := [.timers, .ended] } fun t =>
            t.bit (gEvt n) 4 = true ∧
            (s.gon (gRun n) = false → (t.gt n).count = s.tickTo n) ∧
            (s.gon (gRun n) = true → s.gon (gReload n) = true → (t.gt n).count = 0 ∧ t.gtState n = 2) ∧
            (s.gon (gRun n) = true → s.gon (gReload n) = false → t.gtState n = if s.gon (gRearm n) then 1 else 0))) ∧
        (s.gon (gCmpEn n k) = true → s.gtCmp n k = s.tickTo n → (∀ j : Fin 4, j ≠ k → s.gon (gCmpEn n j) = false) →
          After (.gtCompareMatch n k rising x) s fun t =>
            t.bit (gEvt n) k = true ∧ (s.tickExpires n = false → (t.gt n).count = s.tickTo n) ∧
            (s.rd (gCmpPer n k) = 0 → t.gtCmp n k = s.gtCmp n k) ∧
            (s.rd (gCmpPer n k) ≠ 0 → s.tickUp n = true → t.gtCmp n k = (s.gtCmp n k + s.rd (gCmpPer n k)) % 2 ^ 64) ∧
            (s.gon (gMode n) = false → s.g (gCmpOut n k) = 1 → s.gon (gPdir n 0) = true → s.g (gCmpAct n k) ≠ 0 → (s.gt n).line = [] →
              (s.gt n).last = [] → (s.gt n).trail = [] → (t.gt n).line =
                [(0, { t := place62 (if s.g (gSrc n) ≤ 1 then d + 64 * 2 ^ 32 else max d s.htm.time + 64 * 2 ^ 32), timer := some n.val
                       action := actCode (s.g (gCmpAct n k)), width := s.g (gCmpPw n k) * 8, rank := 4 * n.val + k.val })]) ∧
            (s.gon (gMode n) = true → (t.gt n).line = (s.gt n).line)))) ∧
    (∀ (c : Fin 2) (g : TouEdge), (s.gt n).line = [(c.val, g)] → Assoc.find c.val (s.gt n).trail = none →
      (s.htm.time < g.t → s.gtArrive n = s) ∧
      (g.t ≤ s.htm.time → Frame { blks := [.timer n] } s (s.gtArrive n) ∧ ((s.gtArrive n).gt n).line = [] ∧
        (g.action = 0 ∨ g.action = 1 → Assoc.get 0 c.val ((s.gtArrive n).gt n).lvl = g.action) ∧
        (g.action = 2 → Assoc.get 0 c.val ((s.gtArrive n).gt n).lvl = 1 - Assoc.get 0 c.val (s.gt n).lvl) ∧
        (g.action = 3 → Assoc.get 0 c.val ((s.gtArrive n).gt n).lvl = 1 - s.g (gIdle n c) ∧
          Assoc.find c.val ((s.gtArrive n).gt n).trail = some (g.t + g.width * 2 ^ 32)))) ∧
    (s.g (gSrc n) = 3 → s.running = true →
      let lvl := gPin n (s.g (gEpin n))
      let after := fun (l : Nat) => (((x : Int) - l) % (2 ^ 48 * 10 ^ 9 * 2 ^ 4)).toNat
      (s.gtPinOn n (s.g (gEpin n)) = false → Happens (.gtTick n rising x) s { flds := [lvl] } fun t => t.rd lvl = rising.toNat) ∧
      (s.gtPinOn n (s.g (gEpin n)) = true → s.g (gDgl n) = 0 → (s.gt n).clk = [] →
        (s.g (gEedge n)).testBit (if rising then 0 else 1) = true →
        (s.g (gSlave n) = 4 → Happens (.gtTick n rising x) s { flds := [lvl], blks := [.timer n] } fun t =>
          t.gt n = { s.gt n with clkAt := some x }) ∧
        (s.g (gSlave n) ≠ 4 → ∀ l ∈ (s.gt n).clkAt.toList, after l < 128 →
          Happens (.gtTick n rising x) s { flds := [lvl, gEvt n], blks := [.timer n] } fun t =>
            t.bit (gEvt n) 11 = true ∧ t.gt n = { s.gt n with clkAt := some x }) ∧
        ((∀ l ∈ (s.gt n).clkAt.toList, 128 ≤ after l) → s.gtCounts n = true → s.rd (gPhase n) + 1 < s.g (gDiv n) →
          Happens (.gtTick n rising x) s { flds := [lvl, gPhase n], blks := [.timer n] } fun t =>
            t.rd (gPhase n) = s.rd (gPhase n) + 1 ∧ t.gt n = { s.gt n with clkAt := some x } ∧ t.rd lvl = rising.toNat) ∧
        ((∀ l ∈ (s.gt n).clkAt.toList, 128 ≤ after l) → s.gtCounts n = true → s.rd (gPhase n) + 1 = s.g (gDiv n) →
          (∀ j : Fin 4, s.gon (gCmpEn n j) = false) → s.tickExpires n = false → Ended.load n ∉ s.ended →
          Happens (.gtTick n rising x) s { flds := [lvl, gPhase n], blks := [.timer n] } fun t =>
            t.rd (gPhase n) = 0 ∧ t.gt n = { s.gt n with clkAt := some x, count := ((s.gt n).count + 1) % 2 ^ 64 })))

/-- For the slot that holds the timer, with no tick due: START runs it, the one-shot from 0; STOP stops it, and answers ALREADY_DONE in the
cycle of the expiry tick, also when that tick is still due; LOAD takes the load value; APPLY of a staged configuration without a foreign
output, which is OWNED_ELSEWHERE, or an input named as output, which is NOT_IN_MODE, makes every staged field active; DISCARD puts the
active fields back and raises LEASE_BROKEN; CAP_FLUSH empties the queues; GT_CMP_HI changes the compare as one. A selected edge at an
assigned, enabled capture channel without DGL joins its queue with Hub Time and count and flags it, or goes to ring 42 with SPILL 2; one too
near is a GLITCH, one that meets four with SPILL 0 is CAP_OVF. A read of the queue takes its head, and for a slot of REACH 0b11 nothing. A
reset slave goes to 0 in a cycle after the pulse; a gated timer follows its pin; a pulse ends at IDLE at its trailing edge, 8 ns behind an
edge that came nearer before it and then with COLLIDE. Where it rests on choices of the model: log entries 79, 80, 82, 83, 139, 164. (R430,
R431, R432, R433, R436, R437, R439, R446, R447, R448, R452, spec/10_general_timers.md) -/
def Obligations.TimerCommands : Prop :=
  ∀ (slot : Slot) (n : Fin 16) (k : Fin 4) (c : Fin 2) (v : Word) (rising : Bool) (x : Stamp) (s : State),
    (s.ready slot.val = true → s.owner (idTimer n) = slot.val →
      (s.gtDue n = none →
        (s.g (gSlave n) ≠ 3 → s.g (gSlave n) ≠ 5 → Answers (.gtStart slot n) slot .done s
            { flds := hLeft (idTimer n) :: gPhase n :: (List.range 16).map gState, blks := [.timers, .ended] } fun t =>
          (s.gon (gRun n) = true → t.gtState n = 2 ∧ (t.gt n).count = 0 ∧ t.rd (gPhase n) = 0) ∧
          (s.gon (gRun n) = false → s.gtState n < 2 → t.gtState n = 2 ∧ (t.gt n).count = (s.gt n).count)) ∧
        (Ended.timer n ∉ s.ended → Answers (.gtStop slot n) slot .done s
          { flds := hLeft (idTimer n) :: (List.range 16).map gState, blks := [.timers] } fun t => t.gtState n = 0) ∧
        (Ended.timer n ∈ s.ended → Answers (.gtStop slot n) slot .alreadyDone s { flds := [hLeft (idTimer n)] } fun _ => True) ∧
        Answers (.gtLoad slot n) slot .done s { flds := [hLeft (idTimer n)], blks := [.timer n, .ended] } (fun t =>
          t.gt n = { s.gt n with count := s.rd (gLoadLo n) + s.rd (gLoadHi n) * 2 ^ 32 } ∧ t.ended = .load n :: s.ended) ∧
        (s.gtForeign slot n = false → s.gtInput n = false → Answers (.gtApply slot n) slot .done s
            { flds := [hLeft (idTimer n), gPhase n] ++ (List.range 16).map gState ++ (timerFlds n).map ga,
              blks := [.timers] } fun t => ∀ f ∈ timerFlds n, t.rd (ga f) = s.rd f % 2 ^ f.width) ∧
        Answers (.gtCmpHiWrite slot n k v) slot .done s { flds := [hLeft (idTimer n)], blks := [.timer n] } fun t =>
          t.gtCmp n k = (v.toNat * 2 ^ 32 + (Assoc.find k.val (s.gt n).held).getD (s.gtCmp n k % 2 ^ 32)) % 2 ^ 64) ∧
      (s.gtDue n ≠ none → s.gon (gRun n) = true → s.tickExpires n = true → Ended.load n ∉ s.ended → After (.gtStop slot n) s fun t =>
        t.answer = { code := .alreadyDone, data := [] } ∧ t.bit (gEvt n) 4 = true) ∧
      (s.gtForeign slot n = true → Answers (.gtApply slot n) slot .ownedElsewhere s { flds := [hLeft (idTimer n)] } fun _ => True) ∧
      (s.gtForeign slot n = false → s.gtInput n = true →
        Answers (.gtApply slot n) slot .notInMode s { flds := [hLeft (idTimer n)] } fun _ => True) ∧
      Answers (.gtDiscard slot n) slot .done s { flds := hLeft (idTimer n) :: iLbrk :: timerFlds n } (fun t =>
        (∀ f ∈ timerFlds n, t.rd f = s.g f % 2 ^ f.width) ∧ t.rd iLbrk = s.rd iLbrk ||| s.secureTgts) ∧
      Answers (.capFlush slot n) slot .done s { flds := [hLeft (idTimer n)], blks := [.timer n] } fun t =>
        t.gt n = { s.gt n with caps := [] }) ∧
    (s.heard slot.val = true → slot.val < 16 → s.rd (hReach slot.val) = 3 → After (.gtCapPop slot n c) s (Served slot .done {} s · [0])) ∧
    (s.heard slot.val = true → slot.val = 16 ∨ s.rd (hReach slot.val) ≠ 3 →
      (Assoc.get [] c.val (s.gt n).caps = [] →
        After (.gtCapPop slot n c) s (Served slot .empty { flds := [hLeft (idTimer n)] } s · [0])) ∧
      ∀ e ∈ (Assoc.get [] c.val (s.gt n).caps).head?.toList, After (.gtCapPop slot n c) s fun t =>
        Served slot .done { flds := [hLeft (idTimer n)], blks := [.timer n] } s t [e.count / 2 ^ 32] ∧
        Assoc.get [] c.val (t.gt n).caps = (Assoc.get [] c.val (s.gt n).caps).tail) ∧
    (s.running = true →
      let after := fun (l : Nat) => (((x : Int) - l) % (2 ^ 48 * 10 ^ 9 * 2 ^ 4)).toNat
      (s.gtPinOn n c = false → Happens (.gtCapture n c rising x) s { flds := [gPin n c] } fun t => t.rd (gPin n c) = rising.toNat) ∧
      (s.gon (gCapEn n c) = true → s.g (gCapSrc n c) = 0 → s.gtPinOn n c = true → (s.g (gCapEdge n c)).testBit (if rising then 0 else 1) = true →
        s.gtDue n = none → s.g (gCapDgl n c) = 0 → (s.gt n).capHeld c = [] →
        ((∀ l ∈ (Assoc.find c.val (s.gt n).capAt).toList, 128 ≤ after l) →
          (s.g (gCapSpill n c) < 2 → (Assoc.get [] c.val (s.gt n).caps).length < 4 → Happens (.gtCapture n c rising x) s
              { flds := [gEvt n, gPin n c], blks := [.timers, .ended] } fun t =>
            t.bit (gEvt n) (5 + c) = true ∧ Assoc.get [] c.val (t.gt n).caps = Assoc.get [] c.val (s.gt n).caps ++
              [{ t := x * 2 ^ 28, qual := s.qual (s.gtUncal n c), count := (s.gt n).count }]) ∧
          (s.g (gCapSpill n c) = 2 → s.accepts 42 8 → Happens (.gtCapture n c rising x) s
              { flds := [gEvt n, gPin n c, rWidx 42], blks := [.timers, .ended, .ringSeq, .port], bytes := s.itemBytes 42 8 } fun t =>
            t.bit (gEvt n) (5 + c) = true ∧ Stored 42 ([2 ^ 28 + n.val * 2 ^ 24 + c.val * 2 ^ 23 + (s.gtUncal n c).toNat * 2 ^ 21 + Assoc.get 0 42 s.ringSeq] ++
              time96 (x * 2 ^ 28) (s.qual (s.gtUncal n c)) ++ [(s.gt n).count % 2 ^ 32, (s.gt n).count / 2 ^ 32, 0, 0]) s t) ∧
          (s.g (gCapSpill n c) = 0 → 4 ≤ (Assoc.get [] c.val (s.gt n).caps).length → Happens (.gtCapture n c rising x) s
              { flds := [gEvt n, gPin n c], blks := [.timer n] } fun t => t.bit (gEvt n) 7 = true ∧ (t.gt n).caps = (s.gt n).caps)) ∧
        (∀ l ∈ (Assoc.find c.val (s.gt n).capAt).toList, after l < 128 → Happens (.gtCapture n c rising x) s
            { flds := [gEvt n, gPin n c], blks := [.timer n] } fun t => t.bit (gEvt n) 11 = true ∧ (t.gt n).caps = (s.gt n).caps)) ∧
      ((s.gt n).trig = none ∨ Ended.pulse n ∈ s.ended → Happens (.gtTrigger n) s {} fun _ => True) ∧
      ((s.gt n).trig ≠ none → Ended.pulse n ∉ s.ended → s.g (gSlave n) = 2 → (∀ j : Fin 2, s.gon (gCapEn n j) = false) →
        Happens (.gtTrigger n) s { flds := [gPhase n], blks := [.timer n, .ended] } fun t =>
          (t.gt n).count = 0 ∧ (t.gt n).trig = none ∧ t.rd (gPhase n) = 0) ∧
      (s.gtPinOn n 0 = true → Happens (.gtPinGate n rising) s { flds := gPin n 0 :: (List.range 16).map gState, blks := [.timers] } fun t =>
        (t.gt n).pin0 = rising ∧
        (s.g (gSlave n) = 5 → s.gtState n = 2 ∨ s.gtState n = 3 → t.gtState n = if rising then 2 else 3)) ∧
      (∀ tr ∈ (Assoc.find c.val (s.gt n).trail).toList,
        let at_ := match Assoc.find c.val (s.gt n).came with | some l => if l < tr then max tr (l + 8 * 2 ^ 32) else tr | none => tr
        (s.htm.time < at_ → Happens (.gtPulseEnd n c) s {} fun _ => True) ∧
        (at_ ≤ s.htm.time → Happens (.gtPulseEnd n c) s { flds := if at_ = tr then [] else [gEvt n], blks := [.timer n] } fun t =>
          Assoc.find c.val (t.gt n).trail = none ∧ Assoc.get 0 c.val (t.gt n).lvl = s.g (gIdle n c) ∧
          Assoc.find c.val (t.gt n).came = some at_ ∧ (at_ ≠ tr → t.bit (gEvt n) 10 = true))))

/-! ### Event controller (spec/11) -/

/-- A round assigns the source that some target accepts and no other such source beats in priority, the lower number on a tie, to a target
that accepts it; without one nothing changes. The record of the first assignment to a target goes to the target's ring with its RSEQ, the
priority, the source and the nanoseconds of Hub Time, joins the queue, and RSEQ rises by one modulo 256. While a record or an item waits for
the ring write port a drained quill and a mill's record wait behind it with their block; a record waits for the end of a burst, and the port
serves no other producer while a record waits. An item of the only waiting producer begins at the next grant, its words one a cycle. Where
it rests on choices of the model: log entry 171. (R473, R477, R479, R724) -/
def Obligations.RoundsAssignTheBest : Prop :=
  ∀ (g : Fin 8) (s : State), s.running = true →
    let waits := fun (b r : Nat) (ws : List Nat) => { s.port with wait := s.port.wait ++ [{ blk := b, ring := r, words := ws, moved := 0 }] }
    (s.winner = none → Happens .icuRound s {} fun _ => True) ∧
    (∀ n ∈ s.winner.toList, Happens .icuRound s { blks := [.icu] } fun t =>
      (∀ m : Fin 512, (∃ j : Fin 8, s.canAssign j m = true) → s.srcPrio m < s.srcPrio n ∨ (s.srcPrio m = s.srcPrio n ∧ n ≤ m)) ∧
      t.icu.asg.length = s.icu.asg.length + 1 ∧
      ∀ a ∈ t.icu.asg.getLast?.toList, a.src = n ∧ a.prio = s.srcPrio n ∧ s.canAssign a.tgt n = true) ∧
    (∀ a ∈ (s.icu.asg.find? (·.tgt == g.val)).toList, 3 ≤ s.rd (rSize g) → s.rd (rWidx g) % 4 = 0 → s.on (iWakeEn g) = false →
      s.icu.ringOff = [] → s.portHeld = false → Happens (.icuRecordPublish g) s
        { flds := [rWidx g], blks := [.icu, .can], bytes := s.itemBytes g 2 } fun t =>
      Stored g [(s.tgt g).rseq * 2 ^ 24 + a.prio * 2 ^ 16 + a.src, nsOf s.htm.time] s t ∧ t.icu.asg = s.icu.asg.erase a ∧
      t.tgt g = { s.tgt g with rseq := ((s.tgt g).rseq + 1) % 256, queue := (s.tgt g).queue ++
        [{ seq := (s.tgt g).rseq, prio := a.prio, src := a.src, ns := nsOf s.htm.time }] }) ∧
    (s.portIdle = false →
      (∀ n : Fin 64, (∀ k : Fin 64, k ≠ n → (s.stin k).fifo = []) → s.on (sAngle n) = false →
        ∀ e ∈ (s.stin n).fifo.head?.toList, (s.stin n).fifo = [e] →
        let r := 8 + n.val / 8
        Happens .stampDrain s { flds := [sEvt n], blks := [.stin n, .stp, .ringSeq, .port] } fun t =>
          (t.stin n).fifo = [] ∧ t.port = waits 5 r (timeQuill n e (s.qual e.uncal) (Assoc.get 0 r s.ringSeq))) ∧
      ∀ m : Fin 16, s.mil.gap = 0 → s.mil.next = m → ∀ r ∈ (s.mill m).recs.head?.toList,
        Happens .millRingOffer s { blks := [.mill m, .mil, .ringSeq, .port] } fun t =>
          (t.mill m).recs = (s.mill m).recs.tail ∧ t.port = waits 8 36
            [r.kind * 2 ^ 28 + m.val * 2 ^ 24 + r.detail * 2 ^ 16 + Assoc.get 0 36 s.ringSeq, secOf r.t % 2 ^ 32,
              secOf r.t / 2 ^ 32 * 2 ^ 16 + r.rev % 2 ^ 16, nsOf r.t]) ∧
    (s.portHeld = true → Happens (.icuRecordPublish g) s {} fun _ => True) ∧
    (s.portHeld = false → s.icu.asg ≠ [] → s.portCycle = { s with port := { s.port with run := 0 } }) ∧
    (∀ it : PortItem, s.icu.asg = [] → s.port.wait = [it] → it.blk < 256 → it.blk ≠ s.port.last → it.moved + 1 < it.words.length →
      s.portCycle = { s with port := { last := it.blk, run := 1, wait := [{ it with moved := it.moved + 1 }] } })

/-- EVENT_CLAIM from a slot bound to a target it may reach: an empty queue answers EMPTY with 0x3FF and 0, a stack of 8 BUSY with the same
words; the head record of a source still raised and unmasked is returned and stacked with the higher of its priority and the running one;
one no longer raised is returned as source 1023 and counted. EVENT_EOI of the source on top of the stack pops it; of another, of 1023 or on
an empty stack it answers NOT_IN_MODE and flags EOI_BAD. A slot that is not secure is refused a secure target with SECURE_ONLY. RESET of a
target empties its queue and stack and releases its ring's records, and carries out a disable that waits for it. Where it rests on choices
of the model: log entry 84. (R484, R485, R486, R487, R488, R489, R491) -/
def Obligations.ClaimsAndEndsOfService : Prop :=
  ∀ (slot : Slot) (src : BitVec 10) (g : Fin 8) (s : State), s.heard slot.val = true →
    let k := s.rd (hTarget slot.val)
    (slot.val < 16 → s.secure slot.val = true ∨ s.on (iSecure k) = false →
      ((s.tgt k).queue = [] → After (.eventClaim ⟨slot, none⟩) s (Served slot .empty { flds := [iClaimNs k], blks := [.can] } s · [0x3FF, 0])) ∧
      (∀ r ∈ (s.tgt k).queue.head?.toList,
        (8 ≤ (s.tgt k).stack.length → After (.eventClaim ⟨slot, none⟩) s fun t =>
          Served slot .busy { flds := [iClaimNs k, iNotice], blks := [.can] } s t [0x3FF, 0] ∧ t.bit iNotice 1 = true) ∧
        ((s.tgt k).stack.length < 8 → s.raisedFor k r.src = true → s.tmask r.src k = true → After (.eventClaim ⟨slot, none⟩) s fun t =>
          Served slot .done { flds := [iClaimNs k, rRidx k], blks := [.icu, .can] } s t [r.seq * 2 ^ 24 + r.prio * 2 ^ 16 + r.src, r.ns] ∧
          t.rd (rRidx k) = (s.rd (rRidx k) + 8) % 2 ^ 32 ∧ (t.tgt k).queue = (s.tgt k).queue.tail ∧
          (t.tgt k).stack = { r with prio := ((s.runPrio k).map (max · r.prio)).getD r.prio } :: (s.tgt k).stack) ∧
        ((s.tgt k).stack.length < 8 → s.raisedFor k r.src = false ∨ s.tmask r.src k = false → After (.eventClaim ⟨slot, none⟩) s fun t =>
          Served slot .done { flds := [iClaimNs k, rRidx k, iSpur k, iNotice], blks := [.icu, .can] } s t
            [r.seq * 2 ^ 24 + r.prio * 2 ^ 16 + 1023, r.ns] ∧
          (t.tgt k) = { s.tgt k with queue := (s.tgt k).queue.tail } ∧ t.rd (iSpur k) = min (s.rd (iSpur k) + 1) 65535)) ∧
      (∀ r ∈ (s.tgt k).stack.head?.toList, r.src = src.toNat → src.toNat ≠ 1023 →
        Answers (.eventEoi ⟨slot, none⟩ src) slot .done s { blks := [.icu] } fun t =>
          t.tgt k = { s.tgt k with stack := (s.tgt k).stack.tail }) ∧
      ((s.tgt k).stack = [] ∨ src.toNat = 1023 ∨ (∀ r ∈ (s.tgt k).stack.head?.toList, r.src ≠ src.toNat) →
        Answers (.eventEoi ⟨slot, none⟩ src) slot .notInMode s { flds := [iNotice] } fun t => t.bit iNotice 2 = true)) ∧
    (slot.val < 16 → s.secure slot.val = false → s.on (iSecure k) = true →
      Refused (.eventClaim ⟨slot, none⟩) slot .secureOnly s ∧ Refused (.eventEoi ⟨slot, none⟩ src) slot .secureOnly s) ∧
    (s.ready slot.val = true → s.secure slot.val = true → s.icu.asg = [] → Answers (.targetReset slot g) slot .done s
        { flds := [rRidx g, rEn g], blks := [.icu, .can] } fun t =>
      t.tgt g = { s.tgt g with queue := [], stack := [] } ∧ t.rd (rRidx g) = s.rd (rWidx g) ∧
      t.rd (rEn g) = if g.val ∈ s.icu.ringOff then 0 else s.rd (rEn g)) ∧
    (∀ a, s.ready slot.val = true → s.secure slot.val = true → s.icu.asg = [a] → a.tgt = g.val → s.on (iWakeEn g) = false →
      g.val ∉ s.icu.ringOff → Answers (.targetReset slot g) slot .done s
        { flds := [rWidx g, rRidx g], blks := [.icu, .can], bytes := s.itemBytes g 2 } fun t =>
      t.icu.asg = [] ∧ t.tgt g = { rseq := ((s.tgt g).rseq + 1) % 256, queue := [], stack := [] } ∧
      t.rd (rWidx g) = (s.rd (rWidx g) + 8) % 2 ^ 32 ∧ t.rd (rRidx g) = t.rd (rWidx g))

/-- A latch bit clears where 1 is written, from a slot that is not secure only for sources its own target receives, and SECURE_ONLY else.
LEASE_BROKEN bits clear from a secure slot. PRIGRP changes only while no target's stack holds a record, else BUSY. A secure slot writes PRIO
and TMASK of a source; another slot changes only its target's bit, and SECURE_ONLY else. A target's configuration is written by a secure
slot or one bound to it; an unbound one gets OWNED_ELSEWHERE. Where it rests on choices of the model: log entry 11. (R468, R470, R472, R491,
R497, R498) -/
def Obligations.EventRegisters : Prop :=
  ∀ (slot : Slot) (w : Fin 16) (src : Fin 512) (g : Fin 8) (v : Word) (s : State), s.ready slot.val = true →
    (s.secure slot.val = true →
      Answers (.latchClear slot w v) slot .done s { flds := [iLatch w] } (fun t => ∀ b : Fin 32,
        t.bit (iLatch w) b = (s.bit (iLatch w) b && !v.toNat.testBit b)) ∧
      Answers (.lbrkClear slot v) slot .done s { flds := [iLbrk] } (fun t => ∀ b : Fin 8,
        t.bit iLbrk b = (s.bit iLbrk b && !v.toNat.testBit b)) ∧
      ((∀ j : Fin 8, (s.tgt j).stack = []) → Answers (.prigrpWrite slot v) slot .done s { flds := [iPrigrp] } fun t =>
        t.rd iPrigrp = v.toNat % 8) ∧
      ((∃ j : Fin 8, (s.tgt j).stack ≠ []) → Refused (.prigrpWrite slot v) slot .busy s) ∧
      Answers (.srccfgWrite slot src v) slot .done s { flds := [iPrio src, iTmask src] } (fun t =>
        t.rd (iPrio src) = v.toNat / 2 ^ 16 % 256 ∧ t.rd (iTmask src) = v.toNat % 256) ∧
      Answers (.tgtcfgWrite slot g v) slot .done s { flds := [iSecure g, iWakeEn g, iWakePrio g, iQlimit g, iMode g, iGdis g] } fun t =>
        t.rd (iSecure g) = v.toNat / 2 ^ 31 ∧ t.rd (iWakePrio g) = v.toNat / 2 ^ 16 % 256 ∧ t.rd (iGdis g) = v.toNat % 2) ∧
    (s.secure slot.val = false → slot.val < 16 →
      Refused (.lbrkClear slot v) slot .secureOnly s ∧
      (v.toNat % 8 ≠ s.rd iPrigrp → Refused (.prigrpWrite slot v) slot .secureOnly s) ∧
      ((∃ b : Fin 32, isLatched (32 * w.val + b.val) = true ∧ v.toNat.testBit b = true ∧ s.bit (iLatch w) b = true ∧
          s.tmask (32 * w.val + b.val) (s.rd (hTarget slot.val)) = false) → Refused (.latchClear slot w v) slot .secureOnly s) ∧
      (v.toNat / 2 ^ 16 % 256 = s.rd (iPrio src) → (v.toNat % 256) ^^^ s.rd (iTmask src) = 2 ^ s.rd (hTarget slot.val) → src.val ≠ 496 →
        Answers (.srccfgWrite slot src v) slot .done s { flds := [iPrio src, iTmask src] } fun t => t.rd (iTmask src) = v.toNat % 256) ∧
      (v.toNat / 2 ^ 16 % 256 ≠ s.rd (iPrio src) → Refused (.srccfgWrite slot src v) slot .secureOnly s) ∧
      (s.rd (hTarget slot.val) ≠ g.val → Refused (.tgtcfgWrite slot g v) slot .ownedElsewhere s ∧
        Refused (.targetReset slot g) slot .ownedElsewhere s))

/-! ### Rings and mailboxes (spec/12) -/

/-- For the consumer of an enabled ring without SECURE: RING_READ of a fixed ring with at least one item that fits returns as many whole
items as fit, zero behind them, and moves RIDX past them unless it peeks; with less than an item it is EMPTY. For the producer RING_WRITE of
one fixed item with room stores it and moves WIDX. WIDX and RIDX move by whole items within room and fill, and are OUT_OF_RANGE otherwise; a
RIDX that goes back is ALREADY_DONE. FLUSH makes RIDX the published WIDX and discards an item that the ring write port has begun, with
PARTIAL and PCOUNT; a RING_WRITE frame that it meets in its cycle, before or after it, is discarded whole and ABORTED. A frame, RIDX or WIDX
of a disabled ring answers NOT_IN_MODE, that of another slot OWNED_ELSEWHERE, a ring from 48 NO_SUCH_ADDRESS; an enabled ring's CFG takes
only the disable, else BUSY. Where it rests on choices of the model: log entries 15, 88, 89, 139, 168. (R507, R508, R509, R510, R514, R515,
R520, R521, R523, R524) -/
def Obligations.RingsMoveWholeItems : Prop :=
  ∀ (slot : Slot) (q : Fin 64) (r : Fin 48) (n : Nat) (ws : List Word) (v : Word) (peek : Bool) (s : State), s.heard slot.val = true →
    let ready := s.ready slot.val = true
    let readyReg := s.readyReg slot.val = true
    (q.val = r.val → 8 ≤ r.val → s.on (rSecure r) = false → s.on (rVar r) = false →
      let sz := 4 * 2 ^ s.rd (rIsz r)
      (s.rd (rCons r) = slot.val → s.on (rEn r) = true →
        (1 ≤ n → n ≤ 64 → s.fill r < 2 ^ 20 → sz ≤ s.fill r → sz ≤ 4 * n →
          After (.ringRead ⟨slot, none⟩ q peek n true) s fun t =>
            let k := min (4 * n / sz) (s.fill r / sz)
            Served slot .done { flds := if peek then [] else [rRidx r] } s t
              (s.ringGet r (s.rd (rRidx r)) (k * sz / 4) ++ List.replicate (n - k * sz / 4) 0) ∧
            (peek = false → t.rd (rRidx r) = (s.rd (rRidx r) + k * sz) % 2 ^ 32)) ∧
        (1 ≤ n → n ≤ 64 → s.fill r < sz → After (.ringRead ⟨slot, none⟩ q peek n true) s (Served slot .empty {} s · (List.replicate n 0))) ∧
        (let adv := (v.toNat + 2 ^ 32 - s.rd (rRidx r)) % 2 ^ 32
         readyReg → (adv ≤ s.fill r → adv % sz = 0 → adv < 2 ^ 31 → Answers (.ridxWrite slot r v) slot .done s { flds := [rRidx r] } fun t =>
            t.rd (rRidx r) = v.toNat) ∧
         (2 ^ 31 ≤ adv → Refused (.ridxWrite slot r v) slot .alreadyDone s) ∧
         (s.fill r < adv ∨ adv % sz ≠ 0 → adv < 2 ^ 31 → Refused (.ridxWrite slot r v) slot .outOfRange s))) ∧
      (s.rd (rProd r) = slot.val → s.on (rEn r) = true →
        (ws.length = 2 ^ s.rd (rIsz r) → ws.length ≤ 64 → .flush r.val ∉ s.ended → s.takes r ws.length →
          Answers (.ringWrite slot q ws none) slot .done s
            { flds := [rWidx r], blks := [.ended], bytes := s.itemBytes r ws.length } fun t => Stored r (ws.map (·.toNat)) s t ∧
            .write r.val slot.val (s.rd (rWidx r)) (s.rd (rDropped r)) (s.rd (rDrop r)) ∈ t.ended) ∧
        (ws.length = 2 ^ s.rd (rIsz r) → ws.length ≤ 64 → .flush r.val ∈ s.ended → Answers (.ringWrite slot q ws none) slot .aborted s
            { flds := [rPartial r, rPcount r] } fun t =>
          t.rd (rPartial r) = 1 ∧ t.rd (rPcount r) = min (s.rd (rPcount r) + 1) 65535) ∧
        (0 < ws.length → ws.length < 2 ^ s.rd (rIsz r) → ws.length ≤ 64 → Refused (.ringWrite slot q ws none) slot .badLength s) ∧
        (let adv := (v.toNat + 2 ^ 32 - s.rd (rWidx r)) % 2 ^ 32
         readyReg → (s.fill r ≤ s.ringSize r → adv ≤ s.ringSize r - s.fill r → adv % sz = 0 →
            Answers (.widxWrite slot r v) slot .done s { flds := [rWidx r] } fun t => t.rd (rWidx r) = v.toNat ∨ 2 ^ 32 ≤ s.rd (rWidx r)) ∧
         (s.ringSize r - s.fill r < adv ∨ adv % sz ≠ 0 → Refused (.widxWrite slot r v) slot .outOfRange s))) ∧
      (∀ c ∈ [Code.notInMode, .ownedElsewhere], let turns := fun (role : Fld) => (c = .notInMode → s.rd role = slot.val ∧ s.on (rEn r) = false) ∧
          (c = .ownedElsewhere → s.rd role ≠ slot.val ∧ s.rd role ≠ 0x1F)
        (turns (rCons r) →
          (1 ≤ n → n ≤ 64 → After (.ringRead ⟨slot, none⟩ q peek n true) s (Served slot c {} s · (List.replicate n 0))) ∧
          (readyReg → Refused (.ridxWrite slot r v) slot c s)) ∧
        (turns (rProd r) →
          (1 ≤ ws.length → ws.length ≤ 64 → Refused (.ringWrite slot q ws none) slot c s) ∧
          (readyReg → Refused (.widxWrite slot r v) slot c s))) ∧
      (ready → r.val < 16 ∨ 24 ≤ r.val ∨ (s.radio (r.val - 16)).rx = none → s.rd (rCons r) = slot.val →
        (∀ it : PortItem, s.ended = [] → s.port.wait = [it] → it.ring = r.val → 0 < it.moved → Answers (.flush slot r) slot .done s
            { flds := [rRidx r, rPartial r, rPcount r], blks := [.ended, .port] } fun t => t.rd (rRidx r) = s.rd (rWidx r) % 2 ^ 32 ∧
          t.port.wait = [] ∧ t.rd (rPartial r) = 1 ∧ t.rd (rPcount r) = min (s.rd (rPcount r) + 1) 65535) ∧
        ((∀ it ∈ s.port.wait, it.ring = r.val → it.moved = 0) → s.ended = [] → Answers (.flush slot r) slot .done s { flds := [rRidx r], blks := [.ended] } fun t =>
          t.rd (rRidx r) = s.rd (rWidx r) % 2 ^ 32 ∧ t.ended = [.flush r.val]) ∧
        (∀ (k : Fin 16) (w : Word), (∀ it ∈ s.port.wait, it.ring = r.val → it.moved = 0) → k.val ≠ slot.val → s.ended = [.write r.val k.val w.toNat 0 0] → Answers (.flush slot r) slot .done s
            { flds := [rRidx r, rWidx r, rDropped r, rDrop r, rPartial r, rPcount r] ++ s.slotFlds k.val .aborted,
              blks := [.ended, .last] } fun t =>
          t.rd (rWidx r) = w.toNat ∧ t.rd (rRidx r) = w.toNat ∧ t.rd (rPartial r) = 1 ∧
          t.rd (rPcount r) = min (s.rd (rPcount r) + 1) 65535 ∧ t.rd (hLast k.val) = Code.aborted.val))) ∧
    (48 ≤ q.val → 1 ≤ n → n ≤ 64 →
      After (.ringRead ⟨slot, none⟩ q peek n true) s (Served slot .noSuchAddress {} s · (List.replicate n 0))) ∧
    (ready → s.secure slot.val = true → s.on (rEn r) = true →
      (8 ≤ r.val → v.toNat < 2 ^ 31 → (∀ f ∈ (rngCfgFlds r).tail, f.ty = .rws → f.ofWord v.toNat = s.rd f ∧ f.isReserved (s.rd f) = false) →
        Answers (.rngCfgWrite slot r v) slot .done s { flds := [rEn r], blks := [.can] } fun t => t.rd (rEn r) = 0) ∧
      (2 ^ 31 ≤ v.toNat → (∀ f ∈ rngCfgFlds r, f.isReserved (f.ofWord v.toNat) = false) →
        Refused (.rngCfgWrite slot r v) slot .busy s))

/-- On an enabled channel that the slot sees: the sender's post on an EMPTY channel stores the word or pair with the slot's stamp, raises
PSEQ by one and moves it to FULL or POSTED with MAIL; on another state it is FULL and counted. The receiver's take returns stamp, words and
clears MAIL: a Pinch leaves EMPTY with SPACE, a Sachet TAKEN; with nothing waiting it is EMPTY, with stamp and the second word as they stand
and RX0 0. In TAKEN an acknowledgement with a code of R14 leaves ACKED with RET, and a clear of ACKED leaves EMPTY. RETRACT takes a waiting
message back. A post by a slot that is not the sender, and a take or an acknowledgement by one that is not the receiver, gets
OWNED_ELSEWHERE, each on a disabled channel NOT_IN_MODE, a refused take with zero words, and slots that are not secure see no channel from
32 on. An enabled channel's binding takes only the disable. Where it rests on choices of the model: log entries 90, 139. (R529, R530, R531,
R532, R534, R535, R536, R537, R538, R539, R542) -/
def Obligations.MailboxesCarryOneMessage : Prop :=
  ∀ (slot : Slot) (c : Fin 64) (w x1 v : Word) (code : BitVec 16) (s : State), s.heard slot.val = true →
    let ready := s.ready slot.val = true
    (s.chanSeen slot.val c = true → s.on (bEn c) = true →
      (s.rd (bSend c) = slot.val → s.rd (bRecv c) ≠ 16 ∨ s.on glbStewardReady = true → s.postWakes c = false →
        (s.rd (bState c) = 0 →
          (s.on (bForm c) = false → Answers (.pinchPost ⟨slot, none⟩ c w) slot .done s
              { flds := [bId c, bPseq c, bState c, bMail c], blks := [.mbx, .can] } fun t =>
            t.rd (bState c) = 1 ∧ t.rd (bMail c) = 1 ∧ t.rd (bPseq c) = (s.rd (bPseq c) + 1) % 256 ∧ t.rx0 c = w.toNat ∧
            t.rd (bId c) = ((s.secure slot.val).toNat * 2 ^ 7 + (if slot.val = 16 then 3 else s.rd (hClass slot.val)) % 4 * 2 ^ 5 + slot.val) % 256) ∧
          (s.on (bForm c) = true → w.toNat % 2 ^ 20 + x1.toNat % 2 ^ 20 ≤ 2 ^ 20 → w.toNat % 4 = 0 → x1.toNat % 2 ^ 20 ≠ 0 →
            s.rangeRead (s.rd (bRecv c)) (w.toNat % 2 ^ 20) (x1.toNat % 2 ^ 20) = true → Answers (.sachetPost ⟨slot, none⟩ c w x1) slot .done s
              { flds := [bId c, bPseq c, bState c, bMail c], blks := [.mbx, .can] } fun t =>
            t.rd (bState c) = 2 ∧ t.rd (bMail c) = 1 ∧ t.rx0 c = w.toNat % 2 ^ 20 ∧ t.rx1 c = x1.toNat)) ∧
        (s.rd (bState c) ≠ 0 → s.on (bForm c) = true → w.toNat % 2 ^ 20 + x1.toNat % 2 ^ 20 ≤ 2 ^ 20 → w.toNat % 4 = 0 →
          x1.toNat % 2 ^ 20 ≠ 0 → s.rangeRead (s.rd (bRecv c)) (w.toNat % 2 ^ 20) (x1.toNat % 2 ^ 20) = true →
          Answers (.sachetPost ⟨slot, none⟩ c w x1) slot .full s { flds := [bRefused c] } fun t =>
            t.rd (bRefused c) = min (s.rd (bRefused c) + 1) 65535) ∧
        (s.rd (bState c) ≠ 0 → s.on (bForm c) = false → Answers (.pinchPost ⟨slot, none⟩ c w) slot .full s { flds := [bRefused c] } fun t =>
          t.rd (bRefused c) = min (s.rd (bRefused c) + 1) 65535)) ∧
      (ready → s.rd (bSend c) = slot.val →
        (s.rd (bState c) = 1 ∨ s.rd (bState c) = 2 → Answers (.retract slot c) slot .done s { flds := [bState c, bMail c], blks := [.can] } fun t =>
          t.rd (bState c) = 0 ∧ t.rd (bMail c) = 0) ∧
        (s.rd (bState c) ≠ 1 → s.rd (bState c) ≠ 2 → Refused (.retract slot c) slot .alreadyDone s) ∧
        (s.readyReg slot.val = true → s.on (bAcked c) = true → Answers (.ackedClear slot c) slot .done s { flds := [bState c, bAcked c], blks := [.can] } fun t =>
          t.rd (bState c) = 0 ∧ t.rd (bAcked c) = 0)) ∧
      (s.rd (bRecv c) = slot.val →
        (s.rd (bState c) = 1 → After (.pinchTake ⟨slot, none⟩ c) s fun t =>
          Served slot .done { flds := [bRefused c, bState c, bMail c, bSpace c], blks := [.can] } s t [s.rxid c, 0, s.rx0 c] ∧
          t.rd (bState c) = 0 ∧ t.rd (bMail c) = 0 ∧ t.rd (bSpace c) = 1) ∧
        (s.rd (bState c) = 2 → After (.sachetTake ⟨slot, none⟩ c) s fun t =>
          Served slot .done { flds := [bRefused c, bState c, bMail c], blks := [.can] } s t [s.rxid c, s.rx1 c, s.rx0 c] ∧
          t.rd (bState c) = 3 ∧ t.rd (bMail c) = 0) ∧
        (s.rd (bState c) ≠ 1 → s.rd (bState c) ≠ 2 → After (.pinchTake ⟨slot, none⟩ c) s (Served slot .empty { flds := [bRefused c] } s ·
          [s.rxid c, s.rx1 c, 0])) ∧
        (isCode code.toNat = true → s.rd (bState c) = 3 → Answers (.mbxAck ⟨slot, none⟩ c code) slot .done s
            { flds := [bRet c, bState c, bAcked c], blks := [.can] } fun t =>
          t.rd (bRet c) = code.toNat ∧ t.rd (bState c) = 4 ∧ t.rd (bAcked c) = 1) ∧
        (isCode code.toNat = true → s.rd (bState c) ≠ 3 → Refused (.mbxAck ⟨slot, none⟩ c code) slot .notInMode s) ∧
        (isCode code.toNat = false → Refused (.mbxAck ⟨slot, none⟩ c code) slot .reservedEncoding s)) ∧
      (s.rd (bSend c) ≠ slot.val → Refused (.pinchPost ⟨slot, none⟩ c w) slot .ownedElsewhere s ∧
        Refused (.sachetPost ⟨slot, none⟩ c w x1) slot .ownedElsewhere s ∧ (ready → Refused (.retract slot c) slot .ownedElsewhere s)) ∧
      (s.rd (bRecv c) ≠ slot.val → Refused (.mbxAck ⟨slot, none⟩ c code) slot .ownedElsewhere s ∧
        ∀ i ∈ [Instr.pinchTake ⟨slot, none⟩ c, .sachetTake ⟨slot, none⟩ c], After i s (Served slot .ownedElsewhere {} s · [0, 0, 0])) ∧
      (ready → s.secure slot.val = true → (∀ f ∈ bindFlds c, f.isReserved (f.ofWord v.toNat) = false) →
        (v.toNat < 2 ^ 31 → (∀ f ∈ (bindFlds c).tail, f.ofWord v.toNat = s.rd f) → Answers (.mbxBindWrite slot c v) slot .done s
            { flds := [bEn c, bState c, bMail c, bSpace c, bAcked c], blks := [.mbx, .can] } fun t => t.rd (bEn c) = 0 ∧ t.rd (bState c) = 0) ∧
        (2 ^ 31 ≤ v.toNat → Refused (.mbxBindWrite slot c v) slot .busy s))) ∧
    (s.chanSeen slot.val c = true → s.on (bEn c) = false → Refused (.pinchPost ⟨slot, none⟩ c w) slot .notInMode s ∧
      Refused (.sachetPost ⟨slot, none⟩ c w x1) slot .notInMode s ∧ Refused (.mbxAck ⟨slot, none⟩ c code) slot .notInMode s ∧
      ∀ i ∈ [Instr.pinchTake ⟨slot, none⟩ c, .sachetTake ⟨slot, none⟩ c], After i s (Served slot .notInMode {} s · [0, 0, 0])) ∧
    (s.secure slot.val = false → 32 ≤ c.val → Refused (.pinchPost ⟨slot, none⟩ c w) slot .noSuchAddress s ∧
      (ready → Refused (.mbxBindWrite slot c v) slot .noSuchAddress s))

/-! ### Registers, frames, slots and leases (spec/00, spec/13) -/

/-- A write by a slot: an address not a multiple of 4 gives NO_SUCH_ADDRESS. With REACH 0b11 every address does, with 0b01 every one outside
the Shared Buffer, a command row on a register that no dictionary entry stands for too, and with 0b10 every write is READ_ONLY. With the
reach, a word of the Shared Buffer in a region the slot may write stores its four bytes, SECURE_ONLY or OWNED_ELSEWHERE without the right;
an address outside every block gives NO_SUCH_ADDRESS, the log window READ_ONLY, GLB_REV DONE with no change. A write of any other register
with fields, but the words with a rule of their own (the keep window, the pins, the security block, and those that commands or events of
their own row cover), is refused without the lease that the register needs, or by its fields' rule, and else gives every RW and RWS field
its part of the word and takes the bits written 1 from every W1C field: so in the blocks of Hub Time, the calendar, the trim, stamp inputs,
timed outputs, timers, mills, the plan and the sequencer, the monitor, the event controller, mailboxes, rings, the partner link, radios and
sweeps, the hosts and CAN. SNAP_PER takes its value from a secure slot, and another's change of it is SECURE_ONLY; a VIN_SCALE below 4096 is
dropped whole and counted in the port's REJECT; a slew rate of 0 or above 1000 is OUT_OF_RANGE. HST_EVT loses the bits written 1. Where it
rests on choices of the model: log entries 6, 11, 12, 13, 37, 79, 125, 139, 140. (R4, R8, R9, R503, R574, R584, R766, R767,
spec/00_scope.md) -/
def Obligations.RegisterWrites : Prop :=
  ∀ (slot : Slot) (a : Addr) (n : Fin 262144) (v : Word) (s : State), s.heard slot.val = true →
    let r := n.val / 4096
    let sb := Instr.registerWrite slot (BitVec.ofNat 24 (0x400000 + 4 * n.val)) v
    let reach := s.reach slot.val
    (a.toNat % 4 ≠ 0 → Refused (.registerWrite slot a v) slot .noSuchAddress s) ∧
    (a.toNat % 4 = 0 →
      (reach = 3 ∨ (reach = 1 ∧ (a.toNat < 0x400000 ∨ 0x500000 ≤ a.toNat)) → Refused (.registerWrite slot a v) slot .noSuchAddress s) ∧
      (reach = 2 → Answers (.registerWrite slot a v) slot .readOnly s { flds := (leaseOfAddr a.toNat).toList.map hLeft } fun _ => True)) ∧
    (reach < 2 →
      (s.secure slot.val = false → s.on (sbufSecure r) = true → Refused sb slot .secureOnly s) ∧
      (s.secure slot.val = true ∨ s.on (sbufSecure r) = false →
        ((s.rd (sbufWr r)).testBit slot.val = false → Refused sb slot .ownedElsewhere s) ∧
        ((s.rd (sbufWr r)).testBit slot.val = true → Answers sb slot .done s { bytes := (List.range 4).map (4 * n.val + ·) } fun t =>
          t.sword (4 * n.val) = v.toNat))) ∧
    (reach = 1 → ∀ (r : Fin 48) (c : Fin 64) (q : Fin 176) (m : Fin 16),
      (∀ i ∈ [Instr.selfCapture slot, .nap slot, .serviceEnter slot, .serviceExit slot, .glRestart slot, .widxWrite slot r v, .ridxWrite slot r v,
          .ackedClear slot c, .keepWindowWrite slot a v, .pinClaim slot q v, .pinRelease slot q v], Refused i slot .noSuchAddress s) ∧
      Answers (.eval slot m) slot .noSuchAddress s { flds := [hLeft (idMill m)] } fun _ => True) ∧
    (reach = 0 →
      (0x540000 ≤ a.toNat → Refused (.registerWrite slot a v) slot .noSuchAddress s) ∧
      (a.toNat % 4 = 0 → 0x500000 ≤ a.toNat → a.toNat < 0x540000 → Refused (.registerWrite slot a v) slot .readOnly s) ∧
      Refused (.registerWrite slot 0x000004 v) slot .done s ∧
      (let l := fldsAt a.toNat
       let left := (leaseOfAddr a.toNat).toList.map hLeft
       plainReg a.toNat = true → l ≠ [] →
        (∀ i ∈ (leaseNeeded a.toNat).toList, s.owner i ≠ slot.val → (i = idPlan → s.secure slot.val = true) → s.wordBad a.toNat v.toNat = false →
          Refused (.registerWrite slot a v) slot (if s.owner i = 0x1F then .leaseLost else .ownedElsewhere) s) ∧
        ((∀ i ∈ (leaseNeeded a.toNat).toList, s.owner i = slot.val ∧ (i = idPlan → s.secure slot.val = true)) →
          (a.toNat / 2 ^ 16 = 5 → s.secure slot.val = true ∨ 0x050400 ≤ a.toNat ∨ 8 ≤ a.toNat % 16 ∨
            s.rd (hStgrp slot.val) = a.toNat % 2 ^ 16 / 0x80) → s.wordBad a.toNat v.toNat = false →
          (∀ c ∈ (s.wordRefused slot.val v.toNat l).toList, Answers (.registerWrite slot a v) slot c s { flds := left } fun _ => True) ∧
          (s.wordRefused slot.val v.toNat l = none →
            Answers (.registerWrite slot a v) slot .done s ((plainTouch a.toNat).and { flds := left ++ l }) fun t => ∀ f ∈ l,
              (f.ty = .rw ∨ f.ty = .rws → t.rd f = f.ofWord v.toNat) ∧
              (f.ty = .w1c → ∀ b : Fin 32, (t.rd f).testBit b = ((s.rd f).testBit b && !(f.ofWord v.toNat).testBit b))))) ∧
      Answers (.registerWrite slot 0x100380 v) slot .done s { flds := [hEvt, hEvtEn] } (fun t =>
        t.rd hEvtEn = v.toNat / 2 ^ 16 % 256 ∧ ∀ b : Fin 8, t.bit hEvt b = (s.bit hEvt b && !v.toNat.testBit b)) ∧
      (s.secure slot.val = true →
        Answers (.registerWrite slot 0x0A0024 v) slot .done s { flds := [mSnapPer] } (fun t => t.rd mSnapPer = v.toNat % 2 ^ 16) ∧
        (v.toNat % 2 ^ 16 < 4096 → After (.registerWrite slot 0x0A002C v) s fun t => Served slot .reservedEncoding {} s t ∧
          ∀ p ∈ (s.portOf slot.val).toList, t.rd (hReject p) = min (s.rd (hReject p) + 1) 65535) ∧
        (v.toNat % 2 ^ 10 = 0 ∨ 1000 < v.toNat % 2 ^ 10 → Refused (.registerWrite slot 0x020030 v) slot .outOfRange s)) ∧
      (s.secure slot.val = false → v.toNat % 2 ^ 16 ≠ s.rd mSnapPer → Refused (.registerWrite slot 0x0A0024 v) slot .secureOnly s))

/-- On a port that serves a slot with full REACH: WRITE_REG of one word to the Shared Buffer stores it with the right and is refused
without; READ_REG and READ_SAME of one word return the word with the right to read it, else zero; a read of an unimplemented address returns
DONE and zero. A CRC that fails gives BAD_CRC and zero words and counts in CRCERR; LEN 0 or above 64 words gives BAD_LENGTH. A refused word
leaves its index in FAILIDX. In every state the bytes of a whole frame of these opcodes, LEN 0 to 63, spell its command. Where it rests on
choices of the model: log entries 12, 15, 193. (R9, R503, R562, R564, R567, R568, R569, R574, spec/13_hosts_ownership.md) -/
def Obligations.RegisterFrames : Prop :=
  ∀ (p : Port) (a : Addr) (n : Fin 262144) (v : Word) (k : Nat) (vs : List Word) (w : Wire) (s : State),
    (∀ (soon : Bool) (pad : List Nat),
      let spelt := fun (l : Nat) (covered pad : List Nat) (i : Wire → Instr) => s.frameCommand p w.high soon (covered ++ crc8 covered :: pad) =
        some (i { high := w.high, soon := soon, rsv := 0, len := BitVec.ofNat 8 (l - 1), crc := BitVec.ofNat 8 (crc8 covered) })
      (1 ≤ k → k ≤ 64 → 5 + 4 * k ≤ pad.length → spelt k (headerBytes 0x10 a.toNat (k - 1)) pad (.readReg p a k) ∧
        spelt k (headerBytes 0x12 a.toNat (k - 1)) pad (.readSame p a k)) ∧
      (1 ≤ vs.length → vs.length ≤ 64 → spelt vs.length (headerBytes 0x11 a.toNat (vs.length - 1) ++ bytesOf (vs.map (·.toNat))) []
        (.writeReg p a vs))) ∧
    ∀ c ∈ (s.portSlot p.val).toList, s.carries p.val c → s.reach c.val = 0 →
      let r := n.val / 4096
      let at_ : Addr := BitVec.ofNat 24 (0x400000 + 4 * n.val)
      let mayRd := (s.secure c.val || !s.on (sbufSecure r)) && (s.rd (sbufRd r)).testBit c.val
      let mayWr := (s.secure c.val || !s.on (sbufSecure r)) && (s.rd (sbufWr r)).testBit c.val
      let e : Code := if s.secure c.val || !s.on (sbufSecure r) then .ownedElsewhere else .secureOnly
      let q := vs.map (·.toNat)
      let fits := fun (op : Nat) (x : Addr) (l : Nat) (ws : List Nat) => wireFits w (headerBytes op x.toNat (l - 1)) ws
      let is := fun (l : Nat) (acted : Bool) (x : Code) (d : List Nat) => Framed p.val c w.high (.read l) acted x d {} s
      (tooSoon p.val w = false →
        (fits 0x10 at_ 1 [] = true →
          (mayRd = true → After (.readReg p at_ 1 w) s (is 1 true .done [s.sword (4 * n.val)])) ∧
          (mayRd = false → After (.readReg p at_ 1 w) s (is 1 true e [0]))) ∧
        (fits 0x12 at_ 1 [] = true →
          (mayRd = true → After (.readSame p at_ 1 w) s (is 1 true .done [s.sword (4 * n.val)])) ∧
          (mayRd = false → After (.readSame p at_ 1 w) s (is 1 true e [0]))) ∧
        (fits 0x10 a 1 [] = true →
          (a.toNat % 4 = 0 → 0x540000 ≤ a.toNat → After (.readReg p a 1 w) s (is 1 true .done [0])) ∧
          (a.toNat % 4 ≠ 0 → After (.readReg p a 1 w) s (is 1 true .noSuchAddress [0]))) ∧
        (fits 0x12 a 1 [] = true → a.toNat % 4 ≠ 0 → After (.readSame p a 1 w) s (is 1 true .noSuchAddress [0])) ∧
        (1 ≤ k → k ≤ 64 → fits 0x10 a k [] = false → After (.readReg p a k w) s fun t => is k false .badCrc [] t ∧
          t.rd (hCrcErr p.val) = min (s.rd (hCrcErr p.val) + 1) 65535) ∧
        (k = 0 ∨ 64 < k → After (.readReg p a k w) s (is k false .badLength []) ∧ After (.readSame p a k w) s (is k false .badLength [])) ∧
        (s.mode ≠ 10 ∨ s.secure c.val = true →
          (fits 0x11 at_ 1 [v.toNat] = true →
            (mayWr = true → After (.writeReg p at_ [v] w) s fun t => t.sword (4 * n.val) = v.toNat ∧
              Framed p.val c w.high (.write 1) true .done [] { bytes := (List.range 4).map (4 * n.val + ·) } s t) ∧
            (mayWr = false → After (.writeReg p at_ [v] w) s fun t =>
              Framed p.val c w.high (.write 1) true e [] { blks := [.hst] } s t ∧ Assoc.get 0 c.val t.hst.failIdx = 0)) ∧
          (q ≠ [] → q.length ≤ 64 → fits 0x11 a q.length q = false →
            After (.writeReg p a vs w) s (Framed p.val c w.high (.write q.length) false .badCrc [] {} s)) ∧
          (q = [] ∨ 64 < q.length → After (.writeReg p a vs w) s (Framed p.val c w.high (.write q.length) false .badLength [] {} s)))) ∧
      (tooSoon p.val w = true → After (.readReg p a k w) s (is k false .busy []) ∧ After (.readSame p a k w) s (is k false .busy []) ∧
        After (.writeReg p a vs w) s (Framed p.val c w.high (.write q.length) false .busy [] {} s))

/-- On a port that serves a slot, without anything else changing but the marks of serving: STATUS returns its two words and NOP none, and
both leave the last result; STATUS with a bad CRC returns zeros and an inverted CRC. A frame sooner than 300 ns after the last is BUSY, one
whose LEN the opcode does not take BAD_LENGTH, one with a reserved address bit RESERVED_ENCODING, also for the EVENT, MBX and RING opcodes.
An undefined opcode gives BAD_OPCODE. A frame cut short, or cut by the loss of its bank, sets SHORT and leaves the last result; on an I2C
port its bytes stand acknowledged. An I2C read with no header returns the status byte and the last result. DICT_REQ of a request whose Q0
repeats the address is ACCEPTED and becomes the slot's outstanding request; a second is BUSY. DICT_RESP is EMPTY without a request, BUSY
while the Steward works, BAD_LENGTH for a response longer than asked, and returns a complete response padded, with its code as the result. A
RING_READ frame copies, and RIDX moves when CS_N rises. The bytes of a frame spell NOP, an undefined opcode, or a frame cut short. Where it
rests on choices of the model: log entries 12, 14, 15, 136, 137, 144, 169, 187, 191, 193. (R523, R524, R562, R564, R565, R568, R570, R571,
R572, R573, R575, R579) -/
def Obligations.OtherFrames : Prop :=
  ∀ (p : Port) (n : Fin 2) (o : Byte) (ws : List Word) (k : Nat) (h : Wire) (s : State),
    ∀ c ∈ (s.portSlot p.val).toList, s.carries p.val c →
      let w : Touch := { flds := [hMode3 p.val, hPresent c.val, hWaking c.val], blks := [.answer, .wave] }
      let no : Touch := { w with flds := [hMode3 p.val, hReject p.val, hCrcErr p.val, hPevt p.val] }
      let st := s.statusByte p.val (some c)
      let fits := fun (op l : Nat) (q : List Nat) => wireFits h (headerBytes op (wireReserved h 0) l) q
      (tooSoon p.val h = false →
        (h.len = 1 → fits 0x60 1 [] = true → wireReserved h 0 = 0 →
          Happens (.status p h) s w fun t => t.answer = { code := .done, data := s.statusWords p.val (some c) } ∧
            t.hst.sdo = sentBytes p.val st (.read 2) true (s.statusWords p.val (some c))) ∧
        (h.len = 1 → fits 0x60 1 [] = false → Happens (.status p h) s no fun t =>
          t.answer = { code := .badCrc, data := [0, 0] } ∧ t.bit (hPevt p.val) 1 = true ∧
          t.hst.sdo = sentBytes p.val st (.read 2) false [0, 0]) ∧
        (h.len = 1 → fits 0x60 1 [] = true → wireReserved h 0 ≠ 0 → Happens (.status p h) s no fun t =>
          t.answer = { code := .reservedEncoding, data := [0, 0] }) ∧
        (h.len ≠ 1 → Happens (.status p h) s no fun t => t.answer = { code := .badLength, data := [0, 0] }) ∧
        Happens (.nop ⟨p, h⟩) s w (fun t => t.answer = { code := .done, data := [] } ∧ t.hst.status = st) ∧
        Happens (.shortFrame ⟨p, h⟩ true) s no (fun t =>
          t.answer = { code := .badLength, data := [] } ∧ t.bit (hPevt p.val) 2 = true ∧ (4 ≤ p.val → t.hst.acks = h.rsv.toNat)) ∧
        (∀ m : Fin 5, m.val = p.val → m.val < 4 → Happens (.hostBankLost ⟨m, some h⟩) s { no with blks := .hst :: no.blks } fun t =>
          t.answer = { code := .badLength, data := [] } ∧ t.bit (hPevt p.val) 2 = true ∧ t.bankUp m = false) ∧
        (s.mode ≠ 10 ∨ s.secure c.val = true →
          (opcodes.contains o.toNat = false →
            After (.badOpcode ⟨p, h⟩ o) s (Framed p.val c h.high .one false .badOpcode [] {} s)) ∧
          (let q := ws.map (·.toNat)
           bodyLen (q.headD 0) (q.getD 1 0) ≤ q.length → q.length ≤ 16 → let f : BitVec 24 := BitVec.ofNat 24 (q.headD 0)
            wireFits h (headerBytes 0x20 f.toNat (q.length - 1)) q = true →
            (s.stewardUp = true → Assoc.find c.val s.hst.jobs = none → After (.dictReq p f ws h) s fun t =>
              Framed p.val c h.high (.write q.length) true .accepted [] { blks := [.hst, .ended] } s t ∧
              Assoc.find c.val t.hst.jobs = some { slot := c.val, req := q, resp := none, can := none, turn := s.nextTurn }) ∧
            ((Assoc.find c.val s.hst.jobs).isSome = true →
              After (.dictReq p f ws h) s (Framed p.val c h.high (.write q.length) true .busy [] {} s))) ∧
          (1 ≤ k → k ≤ 64 → fits 0x21 (k - 1) [] = true → wireReserved h 0 = 0 →
            let is := Framed p.val c h.high (.read k) true
            (Assoc.find c.val s.hst.jobs = none → After (.dictResp p k h) s (is .empty [] {} s)) ∧
            ∀ j ∈ (Assoc.find c.val s.hst.jobs).toList,
              (j.resp = none → After (.dictResp p k h) s (is .busy [] {} s)) ∧
              ∀ r ∈ j.resp.toList,
                (k < r.length → After (.dictResp p k h) s fun t => is .badLength [] {} s t ∧
                  Assoc.find c.val t.hst.jobs = some j) ∧
                (r.length ≤ k → After (.dictResp p k h) s fun t =>
                  is (codeOf (r.getD 1 0 / 2 ^ 16)) r { blks := [.hst] } s t ∧ Assoc.find c.val t.hst.jobs = none)))) ∧
      (tooSoon p.val h = true → Happens (.status p h) s no (fun t => t.answer = { code := .busy, data := [0, 0] }) ∧
        Happens (.nop ⟨p, h⟩) s no (fun t => t.answer = { code := .busy, data := [] })) ∧
      Happens (.shortFrame ⟨p, h⟩ false) s { flds := [hMode3 p.val], blks := [.wave] } (fun _ => True) ∧
      (p.val = 4 + n.val → Happens (.i2cStatusRead n) s { blks := [.answer, .wave] } fun t =>
        t.answer = { code := .done, data := [st, s.lastOf p.val % 256, s.lastOf p.val / 256] } ∧
        t.hst.sdo = [st, s.lastOf p.val % 256, s.lastOf p.val / 256]) ∧
      (∀ (slot : Slot) (r q : Fin 64) (x y : Word) (code : BitVec 16) (src : BitVec 10) (peek : Bool), s.sendPort slot.val = some p.val →
        (s.mode ≠ 10 ∨ s.secure c.val = true) →
        let rd := [(Instr.eventClaim ⟨slot, some h⟩, 2), (.pinchTake ⟨slot, some h⟩ r, 3), (.sachetTake ⟨slot, some h⟩ r, 3)]
        let wr := [(Instr.eventEoi ⟨slot, some h⟩ src, 1), (.pinchPost ⟨slot, some h⟩ r x, 1), (.sachetPost ⟨slot, some h⟩ r x y, 2),
          (.mbxAck ⟨slot, some h⟩ r code, 1)]
        (tooSoon p.val h = true →
          (∀ i ∈ (.ringRead ⟨slot, some h⟩ q peek k true, k) :: rd,
            After i.1 s (Framed p.val c h.high (.read i.2) false .busy [] {} s)) ∧
          ∀ i ∈ (.ringWrite slot q ws (some h), ws.length) :: wr,
            After i.1 s (Framed p.val c h.high (.write i.2) false .busy [] {} s)) ∧
        (tooSoon p.val h = false →
          (∀ i ∈ rd, h.len.toNat ≠ i.2 - 1 → After i.1 s (Framed p.val c h.high (.read i.2) false .badLength [] {} s)) ∧
          (∀ i ∈ wr, h.len.toNat ≠ i.2 - 1 → After i.1 s (Framed p.val c h.high (.write i.2) false .badLength [] {} s)) ∧
          (h.len = 1 → fits 0x50 1 [] = true → wireReserved h 0 ≠ 0 →
            After (.eventClaim ⟨slot, some h⟩) s (Framed p.val c h.high (.read 2) false .reservedEncoding [] {} s)) ∧
          (h.len = 1 → fits 0x50 1 [] = true → wireReserved h 0 = 0 → s.on (iSecure (s.rd (hTarget c.val))) = false →
            (s.tgt (s.rd (hTarget c.val))).queue = [] → After (.eventClaim ⟨slot, some h⟩) s
              (Framed p.val c h.high (.read 2) true .empty [0x3FF, 0]
                { flds := [iClaimNs (s.rd (hTarget c.val))], blks := [.can] } s)) ∧
          (wireFits h (headerBytes 0x31 (q.val + wireReserved h 0x3F) (ws.length - 1)) (ws.map (·.toNat)) = false → ws ≠ [] →
            ws.length ≤ 64 → After (.ringWrite slot q ws (some h)) s (Framed p.val c h.high (.write ws.length) false .badCrc [] {} s)) ∧
          (48 ≤ q.val → 1 ≤ k → k ≤ 64 → wireReserved h 0x13F = 0 →
            wireFits h (headerBytes 0x30 (q.val + if peek then 256 else 0) (k - 1)) [] = true →
            After (.ringRead ⟨slot, some h⟩ q peek k true) s (Framed p.val c h.high (.read k) true .noSuchAddress [] {} s)) ∧
          (let sz := 4 * 2 ^ s.rd (rIsz q)
           8 ≤ q.val → q.val < 48 → s.on (rSecure q) = false → s.on (rVar q) = false → s.on (rEn q) = true → s.rd (rCons q) = c.val →
            sz ≤ s.fill q → k ≤ 64 → 4 * k = sz → wireReserved h 0x13F = 0 →
            wireFits h (headerBytes 0x30 q.val (k - 1)) [] = true → After (.ringRead ⟨slot, some h⟩ q false k true) s fun t =>
              Framed p.val c h.high (.read k) true .done (s.ringGet q (s.rd (rRidx q)) k) { blks := [.hst] } s t ∧
              t.hst.reads = s.hst.reads ++ [{ port := p.val, ring := q.val, upTo := (s.rd (rRidx q) + sz) % 2 ^ 32 }]))) ∧
      (∀ a ∈ s.hst.reads, s.hst.reads = [a] → s.on (rEn a.ring) = true → s.ridxRefused a.ring a.upTo = none →
        Frame { flds := [rRidx a.ring], blks := [.hst] } s (s.ringRises fun _ => true) ∧
        (s.ringRises fun _ => true).rd (rRidx a.ring) = a.upTo % 2 ^ 32) ∧
      (∀ (soon : Bool) (bs : List Nat),
        let spells := fun (b : List Nat) (i : OnPort → Instr) => ∃ g : Wire, s.frameCommand p h.high soon b = some (i ⟨p, g⟩)
        spells [] (.shortFrame · false) ∧ spells (0x7F :: bs) .nop ∧
        (opcodes.contains o.toNat = false → spells (o.toNat :: bs) (.badOpcode · o)) ∧
        (opcodes.contains o.toNat = true → o.toNat ≠ 0x7F → o.toNat ≠ 0x30 → bs.length < 5 → spells (o.toNat :: bs) (.shortFrame · true)))

/-- A host-reset pattern on a powered port with an enabled slot, in every mode with the main domain but M2 and M7, and the silence of a
present CAN node, clear PRESENT, end the slot's request, its leases and its pins, acknowledge its taken Sachets and raise source 440, or 447
for the silence; nothing outside what R582 names changes. On a port with no slot nothing changes. Where it rests on choices of the model:
log entry 3. (R541, R556, R581, R582, R583, R644) -/
def Obligations.HostResets : Prop :=
  ∀ (p : Port) (k : Fin 15) (s : State), s.deaf = false → s.hst.bind = [] →
    let ended := fun (c i : Nat) (t : State) => t.rd (hPresent c) = 0 ∧ t.bit hEvt i = true ∧
      (∀ id ∈ leaseIds, t.owner id ≠ c) ∧ (∀ q : Fin 176, t.rd (pinOwner q) ≠ c) ∧
      (∀ b : Fin 64, s.on (bEn b) = true → s.rd (bRecv b) = c → s.rd (bState b) = 3 → t.rd (bState b) = 4 ∧ t.rd (bRet b) = Code.aborted.val) ∧
      (∀ j ∈ t.hst.jobs, j.2.slot ≠ c)
    (s.mode ≠ 2 → s.mode ≠ 7 → s.portUp p.val = true → s.glb.mainUp = true →
      (∀ c ∈ (s.portSlot p.val).toList, Happens (.hostReset p) s hostResetTouch (ended c.val 0)) ∧
      (s.portSlot p.val = none → Happens (.hostReset p) s {} fun _ => True)) ∧
    (s.running = true → s.on (hEn k) = true → s.rd (hClass k) = 2 → s.on (hPresent k) = true →
      Happens (.nodeSilence ⟨k.val, by omega⟩) s hostResetTouch (ended k.val 7)) ∧
    (s.on (hPresent k) = false → Happens (.nodeSilence ⟨k.val, by omega⟩) s {} fun _ => True)

/-- For a resource id, with the Steward up and BUSY else: D from 10 to 60,000 ms makes a slot owner or renews it, but the guest gets
NOT_IN_MODE; held by another it is OWNED_ELSEWHERE and raises source 443; another value is OUT_OF_RANGE. The owner's 0 releases, 0 on a free
lease is ALREADY_DONE. A secure slot breaks a held lease, ALREADY_DONE on a free one; from another slot its value is OUT_OF_RANGE. Expiry
ends it and raises source 442. At each end there is no owner, LEASE_BROKEN sets for every secure target, and the resource rolls back: the
staged fields are the active ones, or no timed-output entry is STAGED; nothing else changes. An id of no resource is NO_SUCH_INDEX. Where it
rests on choices of the model: log entries 3, 92, 93. (R183, R378, R416, R462, R470, R585, R586, R587, R588, R686, R719) -/
def Obligations.LeasesNameOneOwner : Prop :=
  ∀ (slot : Slot) (id : Fin 160) (d : Word) (s : State),
    let i := id.val
    let areas := if i = 0 then [(0x090000, 0x0A0000)] else if i < 0x20 then [(0x070000 + (i - 0x10) * 0x100, 0x070000 + (i - 0xF) * 0x100)]
      else if i < 0x30 then [(0x080000 + (i - 0x20) * 0x100, 0x080000 + (i - 0x1F) * 0x100)]
      else if i < 0x40 then [(0x0F0000 + (i - 0x30) * 0x1000, 0x0F0000 + (i - 0x2F) * 0x1000)]
      else if i < 0x80 then [(0x0F8000 + (i - 0x40) * 0x40, 0x0F8000 + (i - 0x3F) * 0x40)]
      else [(0x060004 + (i - 0x80) * 0x10, 0x060008 + (i - 0x80) * 0x10)]
    let w : Touch := { flds := [hOwner i, hLeft i, iLbrk] ++ if i = 0 then [iLatch 7] else [], areas := areas, blks := if i = 0 then [.glb] else [] }
    let ended := fun (t : State) => t.owner i = 0x1F ∧ (∀ g : Fin 8, s.on (iSecure g) = true → t.bit iLbrk g = true) ∧
      (i = 0 → t.differs qa planFlds = false) ∧ (0x10 ≤ i → i < 0x20 → t.differs ga (timerFlds (i - 0x10)) = false) ∧
      (0x20 ≤ i → i < 0x30 → t.differs (la (i - 0x20)) (millFlds (i - 0x20)) = false) ∧
      (0x30 ≤ i → i < 0x38 → t.differs aa (radioFlds (i - 0x30)) = false) ∧
      (0x40 ≤ i → i < 0x80 → t.differs wa (sweepFlds (i - 0x40)) = false) ∧
      (0x80 ≤ i → ∀ e : Fin 8, t.rd (oState (i - 0x80) e) ≠ 1)
    let all := fun (c : Code) => Refused (.leaseClaim slot id d) slot c s ∧ Refused (.leaseRelease slot id) slot c s ∧
      Refused (.leaseBreak slot id) slot c s
    (s.heard slot.val = true → s.stewardUp = false → all .busy) ∧
    (s.heard slot.val = true → s.stewardUp = true → ∀ c ∈ (s.outOfReach slot.val true).toList, all c) ∧
    (s.ready slot.val = true → s.stewardUp = true → isLeaseId i = false → all .noSuchIndex) ∧
    (s.ready slot.val = true → s.stewardUp = true → isLeaseId i = true →
      (slot.val = 15 → 10 ≤ d.toNat → d.toNat ≤ 60000 → Refused (.leaseClaim slot id d) slot .notInMode s) ∧
      (slot.val ≠ 15 → 10 ≤ d.toNat → d.toNat ≤ 60000 → s.owner i = slot.val ∨ s.owner i = 0x1F →
        Answers (.leaseClaim slot id d) slot .done s { flds := [hOwner i, hLeft i], blks := [.hst] } fun t =>
          t.owner i = slot.val ∧ t.rd (hLeft i) = d.toNat) ∧
      (slot.val ≠ 15 → 10 ≤ d.toNat → d.toNat ≤ 60000 → s.owner i ≠ slot.val → s.owner i ≠ 0x1F →
        Answers (.leaseClaim slot id d) slot .ownedElsewhere s { flds := [hEvt] } fun t => t.bit hEvt 3 = true) ∧
      ((0 < d.toNat ∧ d.toNat < 10) ∨ (60000 < d.toNat ∧ d.toNat < 2 ^ 32 - 1) → Refused (.leaseClaim slot id d) slot .outOfRange s) ∧
      (s.owner i = slot.val → Answers (.leaseRelease slot id) slot .done s w ended) ∧
      (s.owner i = 0x1F → Refused (.leaseRelease slot id) slot .alreadyDone s) ∧
      (s.secure slot.val = true → s.owner i ≠ 0x1F → Answers (.leaseBreak slot id) slot .done s w ended) ∧
      (s.secure slot.val = true → s.owner i = 0x1F → Refused (.leaseBreak slot id) slot .alreadyDone s) ∧
      (s.secure slot.val = false → Refused (.leaseBreak slot id) slot .outOfRange s)) ∧
    (s.running = true → s.owner i ≠ 0x1F → isLeaseId i = true →
      Happens (.leaseExpiry id) s { w with flds := hEvt :: w.flds } fun t => ended t ∧ t.bit hEvt 2 = true) ∧
    (s.owner i = 0x1F → Happens (.leaseExpiry id) s {} fun _ => True)

/-- A slot that reaches the registers (log entry 139) writes the configuration of a pin that is free or its own: with FUNC 1 only while it
holds the lease of what the pin serves, else NOT_IN_MODE; with FUNC 3 only if secure, else SECURE_ONLY; PULL, FUNC, DIR and OUT take the
word's bits, the slot becomes owner (R589), and none with FUNC 0, as on a free pin (log entry 97). Another slot's pin answers
OWNED_ELSEWHERE; the guest slot, which owns nothing (R554), gets NOT_IN_MODE for any FUNC but 0; FUNC 1 on a GPIO pin, FUNC 2 or 3 on
another, and PULL 3 are reserved encodings (R590). (R554, R589, R590) -/
def Obligations.PinsNameOneOwner : Prop :=
  ∀ (slot : Slot) (p : Fin 176) (v : Word) (s : State), s.readyReg slot.val = true →
    let func := v.toNat / 2 ^ 22 % 4
    let pull := v.toNat / 2 ^ 24 % 4
    let gpio := 112 ≤ p.val
    let mine := s.rd (pinOwner p) = slot.val ∨ s.rd (pinOwner p) = 0x1F
    ∀ i ∈ [Instr.pinClaim slot p v, .pinRelease slot p v],
      (mine → (gpio ∧ func = 1) ∨ (¬ gpio ∧ (func = 2 ∨ func = 3)) ∨ pull = 3 → Refused i slot .reservedEncoding s) ∧
      (¬ ((gpio ∧ func = 1) ∨ (¬ gpio ∧ (func = 2 ∨ func = 3)) ∨ pull = 3) →
        (¬ mine → Refused i slot .ownedElsewhere s) ∧
        (mine → slot.val = 15 → func ≠ 0 → Refused i slot .notInMode s) ∧
        (mine → slot.val ≠ 15 → func = 1 → s.owner (pinLease p) ≠ slot.val → Refused i slot .notInMode s) ∧
        (mine → slot.val ≠ 15 → func = 3 → s.secure slot.val = false → Refused i slot .secureOnly s) ∧
        (mine → (func ≠ 0 → slot.val ≠ 15) → (func = 1 → s.owner (pinLease p) = slot.val) → (func = 3 → s.secure slot.val = true) →
          Answers i slot .done s { flds := [pinOwner p, pinPull p, pinFunc p, pinDir p, pinOut p] } fun t =>
            t.rd (pinOwner p) = (if func = 0 then 0x1F else slot.val) ∧ t.rd (pinFunc p) = func ∧ t.rd (pinPull p) = pull ∧
            t.rd (pinDir p) = v.toNat / 2 ^ 21 % 2 ∧ t.rd (pinOut p) = v.toNat / 2 ^ 20 % 2))

/-- A secure slot's HST_SLOT[k] without a reserved encoding, a change of SECURE before SECLOCK has been high for 10 ms, or a binding the
table does not take, is answered DONE and waits; the three answer RESERVED_ENCODING, NOT_IN_MODE and OUT_OF_RANGE. Another slot changes
nothing: SECURE_ONLY. At the next frame start of the port the waiting word's fields stand; a change of EN, CLASS, PORT or NODE ends the
slot's leases and pins and raises source 445. Without a port the word stands at once. Where it rests on choices of the model: log entries
94, 95, 96. (R551, R557, R560, R766, spec/13_hosts_ownership.md) -/
def Obligations.SlotWordsWaitForAFrame : Prop :=
  ∀ (slot : Slot) (k : Fin 15) (v : Word) (p : Port) (h : Wire) (s : State),
    let w := v.toNat &&& 0xFFFFFFF0
    let res := (slotWordFlds k).any (fun f => f.isReserved (f.ofWord w)) || (decide (w / 2 ^ 4 % 4 = 1) && decide (w / 2 ^ 28 % 4 ≠ 0))
    let sw := Instr.slotWrite slot ⟨k.val, by omega⟩ v
    let rebound := fun (t : State) => t.bit hEvt 5 = true ∧ (∀ id ∈ leaseIds, t.owner id ≠ k.val) ∧ ∀ q : Fin 176, t.rd (pinOwner q) ≠ k.val
    (s.ready slot.val = true → s.secure slot.val = true →
      (res = true → Refused sw slot .reservedEncoding s) ∧
      (res = false → w / 2 ^ 30 % 2 ≠ s.slotWord k / 2 ^ 30 % 2 → s.hst.seclock < 100 → Refused sw slot .notInMode s) ∧
      (res = false → w / 2 ^ 30 % 2 = s.slotWord k / 2 ^ 30 % 2 ∨ 100 ≤ s.hst.seclock →
        (s.badBinding k w = true → Refused sw slot .outOfRange s) ∧
        (s.badBinding k w = false → s.on (hEn k) = true ∨ 2 ^ 31 ≤ w → Answers sw slot .done s { blks := [.hst] } fun t => t.slotWord k = w) ∧
        (s.badBinding k w = false → s.on (hEn k) = false → w < 2 ^ 31 → packWord s.rd (slotWordFlds k) &&& bindMask = w &&& bindMask →
          Answers sw slot .done s { flds := slotWordFlds k, blks := [.hst] } fun t => ∀ f ∈ slotWordFlds k, t.rd f = f.ofWord w))) ∧
    (s.ready slot.val = true → s.secure slot.val = false → (∃ f ∈ slotWordFlds k, f.ofWord w ≠ f.ofWord (s.slotWord k)) →
      Refused sw slot .secureOnly s) ∧
    (s.asleep = false → s.deaf = false → s.portUp p.val = true → (s.slotPorts k).contains p.val = true →
      (∀ a ∈ s.hst.reads, a.port ≠ p.val) → ∀ x ∈ (Assoc.find k.val s.hst.bind).toList,
        Happens (.nop ⟨p, h⟩) s { hostResetTouch with
          flds := hMode3 p.val :: nEvt 0 :: nEvt 1 :: hostResetTouch.flds, blks := .answer :: .wave :: hostResetTouch.blks } fun t =>
          (∀ f ∈ slotWordFlds k, t.rd f = f.ofWord x) ∧
          (packWord s.rd (slotWordFlds k) &&& bindMask ≠ x &&& bindMask → rebound t))

/-- A secure slot writes SEC_KEYHASH only in OPEN with SECLOCK high for 10 ms: the word stands, and with all eight written the state is
PROVISIONED. LOCK with KEY 0x4C moves PROVISIONED to LOCKED under the same conditions; another KEY is reserved. VERIFY, INSTALL and ACTIVATE
of a secure slot in M10 are ACCEPTED and set BUSY; out of M10 NOT_IN_MODE; while BUSY, BUSY. Completion clears BUSY, sets DONE and RESULT
and raises source 498; an installed good image gives the other bank its VERSION. A trial bank that fails restarts on the other bank and sets
REVERTED. A SECLOCK sample counts or restarts the 10 ms; a bank rises or is lost, VIORD too, and is classified at each rise. An ownable pin
is an input without a pull in M2, M3 and M9, unpowered in M0, M1 and M11, and with FUNC 0 an input with its PULL else; the radio pads are
unpowered without VIORD and in M0, M1 and M11, and else RDpSCK rests at CPOL before the first and after the last edge of a transfer, RDpCS_N
being low from its start. Where it rests on choices of the model: log entries 3, 99, 100, 101, 102, 172, 211, 213. (R591, R593, R594, R596,
R597, R706, R733, R734, R759, R760) -/
def Obligations.SecurityAndFirmware : Prop :=
  ∀ (slot : Slot) (i p : Fin 8) (v : Word) (yes : Bool) (b : Fin 5) (s : State),
    (s.ready slot.val = true → s.secure slot.val = true →
      (s.rd xState = 0 → 100 ≤ s.hst.seclock →
        Answers (.keyhashWrite slot i v) slot .done s { flds := [xKeyHash i, xState, xEvt], blks := [.hst] } fun t =>
          t.rd (xKeyHash i) = v.toNat ∧ t.rd xState = if s.hst.keyMask ||| 2 ^ i.val = 255 then 1 else 0) ∧
      (s.rd xState ≠ 0 ∨ s.hst.seclock < 100 → Refused (.keyhashWrite slot i v) slot .notInMode s) ∧
      (v.toNat / 2 ^ 24 ≠ 0x4C → Refused (.lock slot v) slot .reservedEncoding s) ∧
      (v.toNat / 2 ^ 24 = 0x4C → v.toNat % 2 = 1 →
        (s.rd xState = 1 → 100 ≤ s.hst.seclock → Answers (.lock slot v) slot .done s { flds := [xState, xEvt] } fun t => t.rd xState = 2) ∧
        (s.rd xState ≠ 1 ∨ s.hst.seclock < 100 → Refused (.lock slot v) slot .notInMode s)) ∧
      ∀ c ∈ [Instr.verify slot, .install slot, .activate slot],
        (s.mode = 10 → s.on xFwBusy = false → Answers c slot .accepted s { flds := [xFwBusy], blks := [.hst] } fun t => t.on xFwBusy = true) ∧
        (s.mode = 10 → s.on xFwBusy = true → Refused c slot .busy s) ∧ (s.mode ≠ 10 → Refused c slot .notInMode s)) ∧
    (s.ready slot.val = true → s.secure slot.val = false → v.toNat ≠ s.rd (xKeyHash i) → Refused (.keyhashWrite slot i v) slot .secureOnly s) ∧
    (s.on xFwBusy = true → Happens (.fwOpDone ()) s { flds := [xFwBusy, xFwDone, xFwResult, iLatch 15], blks := [.hst, .glb] } fun t =>
      t.on xFwBusy = false ∧ t.on xFwDone = true ∧ t.latched 498 ∧
      let r := if s.hst.fwOp = 3 then Code.done else s.imageResult
      t.rd xFwResult = r.val ∧ (s.hst.fwOp = 2 → r = .done → t.bank (1 - s.rd xBank) = .image s.fwImage) ∧
      (s.hst.fwOp = 3 → t.hst.trialNext = true)) ∧
    (s.on xFwBusy = false → Happens (.fwOpDone ()) s {} fun _ => True) ∧
    (s.on xTrial = true → s.running = true → s.on glbStewardReady = false → Happens .trialRevert s
        { allOffTouch with flds := [xTrial, xNoFw, xEvt] ++ allOffTouch.flds } fun t =>
      t.mode = (if s.mode = 8 then 8 else 3) ∧ t.on xTrial = s.hst.trialNext ∧ t.rd xBank = s.rd xBank ∧ t.on xNoFw = false ∧ t.bit xEvt 0 = true ∧ t.latched 498) ∧
    (2 ≤ s.mode → s.mode ≤ 10 → Happens (.seclockSample yes) s { flds := [xSeclock, xEvt], blks := [.hst] } fun t =>
      t.hst.seclock = (if yes then min (s.hst.seclock + 1) 100 else 0) ∧ t.on xSeclock = yes ∧
      (s.on xSeclock ≠ yes → t.bit xEvt 3 = true)) ∧
    Happens (.bankRise b yes) s { blks := [.hst] } (fun t => t.bankUp b = true ∧ ∀ j : Fin 5, j ≠ b → t.bankUp j = s.bankUp j) ∧
    Happens (.hostBankLost ⟨b, none⟩) s { blks := [.hst] } (fun t => t.bankUp b = false ∧ ∀ j : Fin 5, j ≠ b → t.bankUp j = s.bankUp j) ∧
    (s.bankUp 4 = false ∨ s.mode ∈ [0, 1, 11] → s.radioRstPad p = .off ∧ s.radioTxtPad p = .off ∧
      ∀ m : Nat, s.radioSckPad p m = .off ∧ s.radioMosiPad p m = .off ∧ s.radioCsPad p m = .off) ∧
    (s.bankUp 4 = true → s.mode ∈ [4, 5, 6, 7, 8, 10] → s.a (aSckDiv p) ≠ 0 → 0 < (s.radio p).bytes →
      (∀ m : Nat, s.a (aCsSetup p) + (16 * (s.radio p).bytes - 1) * s.a (aSckDiv p) ≤ m → s.radioSckPad p m = .drive (s.aon (aCpol p))) ∧
      ∀ m : Nat, m < s.a (aCsSetup p) → s.radioSckPad p m = .drive (s.aon (aCpol p)) ∧ s.radioCsPad p m = .low) ∧
    (∀ q : Fin 176,
      (s.mode ∈ [2, 3, 9] → s.ownedPad true q = .input 0 ∧ s.ppsoutPad true = .input 0) ∧
      (s.mode ∈ [0, 1, 11] → s.ownedPad true q = .off ∧ s.ppsoutPad true = .off) ∧
      (s.mode ∈ [4, 5, 6, 7, 8, 10] →
        (s.rd (pinFunc q) = 0 → s.ownedPad true q = .input (s.rd (pinPull q))) ∧
        (112 ≤ q.val → s.rd (pinFunc q) = 2 → s.on (pinDir q) = true → s.ownedPad true q = .drive (s.on (pinOut q)))))

/-! ### The dictionary and its store (spec/14) -/

/-- With no request waiting and no transfer open: a refused index, subindex or access answers with its code, and changes nothing but the
lease of the resource an index belongs to. An integrator entry takes four bytes and reads them back; other lengths are BAD_LENGTH. The
expert windows give the register: MON_SNAP_PER takes its value from a secure slot. An entry longer than 56 bytes is BAD_LENGTH. Every other
READ or WRITE answers with what the entry's reading or writing gives. While another slot's request waits, a READ is ACCEPTED and joins it. A
READ that waits in DICT_REQ is answered into its response: Q0, code and length, value, once no request accepted before it waits. Where it
rests on choices of the model: log entries 104, 108. (R584, R586, R599, R601, R604, R606, R607, R608, R616, R617, R618, R619) -/
def Obligations.DictionaryEntries : Prop :=
  ∀ (slot : Slot) (i : BitVec 16) (sub : Byte) (n : Fin 1024) (v : Word) (bs : List Byte) (s : State),
    s.heard slot.val = true → s.stewardUp = true → s.dict.store = none → Assoc.find slot.val s.dict.xfers = none →
      let err := fun (w : Bool) => (match entFor slot.val s i.toNat sub.toNat w with | .error c => some c | .ok _ => none : Option Code)
      let ix : BitVec 16 := BitVec.ofNat 16 (0x7000 + n.val)
      let le : List Byte := (leBytes 4 v.toNat).map (BitVec.ofNat 8)
      let at_ := (s.frameIn slot.val).touchIndex slot.val i.toNat sub.toNat
      let q := dtpQ0 1 false ix.toNat 0
      (s.hst.jobs = [] →
        (∀ c ∈ (err false).toList, After (.dtpRead slot i sub) s (Served slot c { areas := [(0x100400, 0x100700)] } s)) ∧
        ((i = 0x1010 → sub = 1 → bs.length ≠ 4) →
          ∀ c ∈ (err true).toList, After (.dtpWrite slot i sub bs) s (Served slot c { areas := [(0x100400, 0x100700)] } s)) ∧
        (∀ e ∈ (entFor slot.val s i.toNat sub.toNat false).toOption.toList,
          (56 < e.size → After (.dtpRead slot i sub) s (Served slot .badLength { areas := [(0x100400, 0x100700)] } s)) ∧
          (e.size ≤ 56 → let r := e.read slot at_
            After (.dtpRead slot i sub) s (· = State.finish slot (r.1, r.2.1) (wordsOf (if r.1.ok then leBytes e.size r.2.2 else []))))) ∧
        ((i = 0x1010 → sub ≠ 1) → ∀ e ∈ (entFor slot.val s i.toNat sub.toNat true).toOption.toList,
          (56 < bs.length ∨ 56 < e.size → After (.dtpWrite slot i sub bs) s (Served slot .badLength { areas := [(0x100400, 0x100700)] } s)) ∧
          (bs.length ≤ 56 → e.size ≤ 56 →
            After (.dtpWrite slot i sub bs) s (· = State.finish slot (e.write slot (bs.map (·.toNat)) at_)))) ∧
        (s.reach slot.val < 2 →
          After (.dtpRead slot ix 0) s (Served slot .done {} s · [Assoc.get 0 n.val s.dict.integ % 2 ^ 32]) ∧
          Answers (.dtpWrite slot ix 0 le) slot .done s { blks := [.dict] } (fun t => t.dict.integ = Assoc.put 0 n.val v.toNat s.dict.integ) ∧
          (bs.length ≠ 4 → Refused (.dtpWrite slot ix 0 bs) slot .badLength s)) ∧
        (s.reach slot.val = 0 → s.secure slot.val = true → Answers (.dtpWrite slot 0x6280 9 le) slot .done s { flds := [mSnapPer] } fun t =>
          t.rd mSnapPer = v.toNat % 2 ^ 16)) ∧
      (s.stewardTaken = true → (∀ kj ∈ s.hst.jobs, kj.1 ≠ slot.val ∧ kj.2.slot ≠ slot.val) → s.m10Refuses slot.val = false →
        Answers (.dtpRead slot i sub) slot .accepted s { blks := [.hst, .ended] } fun t => Assoc.find slot.val t.hst.jobs =
          some { slot := slot.val, req := [dtpQ0 1 false i.toNat sub.toNat], resp := none, can := none, turn := s.nextTurn }) ∧
      (s.reach slot.val < 2 → s.running = true →
        ∀ kj ∈ (s.jobOf slot (spells slot (.dtpRead slot ix 0))).toList, kj.2.can = none → kj.2.req = [q] →
          (s.isFirst kj.2 = false → Happens (.dtpRead slot ix 0) s {} fun _ => True) ∧
          (s.isFirst kj.2 = true → Happens (.dtpRead slot ix 0) s { blks := [.answer, .hst] } fun t =>
            (Assoc.find kj.1 t.hst.jobs).bind (·.resp) =
              some [q, Code.done.val * 2 ^ 16 + 4, Assoc.get 0 n.val s.dict.integ % 2 ^ 32]))

/-- An INIT of a readable or writable entry opens the slot's transfer, and is OWNED_ELSEWHERE for an entry that is in one; a total of 0 or
above 4,096 is BAD_LENGTH. A segment in turn is staged; the one that completes the total writes the entry, one beyond it ends the transfer;
a repeated toggle is answered again, and any other mismatch ends the transfer with RESERVED_ENCODING. Reading returns 56 bytes at a time and
ends with the last. ABORT ends the transfer, and without one is ALREADY_DONE. An undefined CMD is counted in DTP_BAD of a CAN port. A READ
from a slot with a transfer ends it first. An expired transfer ends with LEASE_LOST. Where it rests on choices of the model: log entries
104, 111, 112, 113. (R608, R617, R618, R620, R621, R622, R623, R624, R625) -/
def Obligations.SegmentedTransfers : Prop :=
  ∀ (slot : Slot) (n : Fin 1024) (tg : Bool) (total : Nat) (seg : List Byte) (code : BitVec 16) (q0 : Word) (s : State),
    let ix : BitVec 16 := BitVec.ofNat 16 (0x7000 + n.val)
    let i := 0x7000 + n.val
    let ab : Touch :=
      { flds := match (Assoc.find slot.val s.dict.xfers).bind (·.port) with | some p => if 6 ≤ p then [nEvt (p - 6)] else [] | none => []
        blks := [.dict] }
    let gone := fun (t : State) => Assoc.find slot.val t.dict.xfers = none ∧ t.dict.integ = s.dict.integ
    let bs := seg.map (·.toNat)
    (s.heard slot.val = true → s.stewardUp = true → s.dict.store = none → s.hst.jobs = [] → s.reach slot.val < 2 →
      (Assoc.find slot.val s.dict.xfers = none →
        (total = 0 ∨ 4096 < total → Refused (.segWriteInit slot ix 0 total) slot .badLength s) ∧
        (s.inXfer i 0 = true → Refused (.segReadInit slot ix 0) slot .ownedElsewhere s ∧
          (0 < total → total ≤ 4096 → Refused (.segWriteInit slot ix 0 total) slot .ownedElsewhere s)) ∧
        (s.inXfer i 0 = false →
          (0 < total → total ≤ 4096 → Answers (.segWriteInit slot ix 0 total) slot .done s { blks := [.dict] } fun t =>
            Assoc.find slot.val t.dict.xfers =
              some { port := s.portOf slot.val, write := true, index := i, sub := 0, total := total, bytes := [], toggle := false, last := none }) ∧
          After (.segReadInit slot ix 0) s fun t => Served slot .done { blks := [.dict] } s t [4] ∧ Assoc.find slot.val t.dict.xfers =
            some { port := s.portOf slot.val, write := false, index := i, sub := 0, total := 4
                   bytes := leBytes 4 (Assoc.get 0 n.val s.dict.integ), toggle := false, last := none }) ∧
        Answers (.segReadData slot tg ix 0) slot .reservedEncoding s {} gone ∧
        Answers (.segWriteData slot tg ix 0 seg) slot .reservedEncoding s {} gone ∧
        (isCode code.toNat = true → Refused (.dtpAbort slot code) slot .alreadyDone s)) ∧
      (isCode code.toNat = false → Refused (.dtpAbort slot code) slot .reservedEncoding s) ∧
      (undefinedCmd q0.toNat = true → Answers (.dtpUndefinedCmd slot q0) slot .reservedEncoding s
          { flds := match s.portOf slot.val with | some p => if 6 ≤ p then [nDtpBad (p - 6), nEvt (p - 6)] else [] | none => [] } fun t =>
        ∀ p ∈ (s.portOf slot.val).toList, 6 ≤ p → t.rd (nDtpBad (p - 6)) = min (s.rd (nDtpBad (p - 6)) + 1) 65535) ∧
      ∀ x ∈ (Assoc.find slot.val s.dict.xfers).toList,
        (isCode code.toNat = true → Answers (.dtpAbort slot code) slot .done s ab gone) ∧
        (After (.dtpRead slot ix 0) s fun t => Served slot .done ab s t [Assoc.get 0 n.val s.dict.integ % 2 ^ 32] ∧ gone t) ∧
        (x.index ≠ i ∨ x.write = false → Answers (.segWriteData slot tg ix 0 seg) slot .reservedEncoding s { blks := [.dict] } gone) ∧
        (x.index ≠ i ∨ x.write = true → Answers (.segReadData slot tg ix 0) slot .reservedEncoding s { blks := [.dict] } gone) ∧
        (x.write = true → x.index = i → x.sub = 0 →
          (tg = x.toggle → 0 < bs.length → bs.length ≤ 56 →
            (x.bytes.length + bs.length < x.total → Answers (.segWriteData slot tg ix 0 seg) slot .done s { blks := [.dict] } fun t =>
              Assoc.find slot.val t.dict.xfers = some { x with bytes := x.bytes ++ bs, toggle := !tg, last := some [] } ∧
              t.dict.integ = s.dict.integ) ∧
            (x.total < x.bytes.length + bs.length → Answers (.segWriteData slot tg ix 0 seg) slot .reservedEncoding s { blks := [.dict] } gone) ∧
            (x.bytes.length + bs.length = x.total → x.total = 4 → Answers (.segWriteData slot tg ix 0 seg) slot .done s { blks := [.dict] } fun t =>
              Assoc.find slot.val t.dict.xfers = none ∧ t.dict.integ = Assoc.put 0 n.val (leNat (x.bytes ++ bs)) s.dict.integ)) ∧
          (tg ≠ x.toggle → (x.last.isSome = true → Refused (.segWriteData slot tg ix 0 seg) slot .done s) ∧
            (x.last = none → Answers (.segWriteData slot tg ix 0 seg) slot .reservedEncoding s { blks := [.dict] } gone))) ∧
        (x.write = false → x.index = i → x.sub = 0 →
          (tg = x.toggle → After (.segReadData slot tg ix 0) s fun t =>
            Served slot .done { blks := [.dict] } s t (wordsOf (x.bytes.take 56)) ∧ Assoc.find slot.val t.dict.xfers =
              if x.bytes.length ≤ 56 then none
              else some { x with bytes := x.bytes.drop 56, toggle := !tg, last := some (x.bytes.take 56) }) ∧
          (tg ≠ x.toggle → ∀ l ∈ x.last.toList, After (.segReadData slot tg ix 0) s (Served slot .done {} s · (wordsOf l))))) ∧
    (Assoc.find slot.val s.dict.xfers ≠ none → Happens (.transferLeaseExpiry slot) s { ab with blks := [.answer, .dict] } fun t =>
      t.answer = { code := .leaseLost, data := [] } ∧ gone t) ∧
    (Assoc.find slot.val s.dict.xfers = none → Happens (.transferLeaseExpiry slot) s {} fun _ => True)

/-- With no request waiting, a secure slot's STORE or RESTORE in M4, M5, M6 or M10 starts (ACCEPTED, the model's answer until the end, log
entry 105), the copy it will write becoming invalid; in another mode NOT_IN_MODE, while one runs BUSY, from another slot SECURE_ONLY. The
completion of STORE makes the copy that was not the newest valid with the next generation and the kept values, sets STORED and answers DONE;
that of RESTORE leaves no copy, changes no value in force, and sets its flag. Where it rests on choices of the model: log entries 105, 106,
107. (R609, R610, R611, R612, R614) -/
def Obligations.StoreAndRestore : Prop :=
  ∀ (slot : Slot) (k : Slot) (s : State),
    let gen := (match s.newest with | some (c, _) => c.gen | none => 0)
    (s.ready slot.val = true → s.stewardUp = true → s.hst.jobs = [] → s.reach slot.val = 0 → Assoc.find slot.val s.dict.xfers = none →
      (s.secure slot.val = false → Refused (.store slot) slot .secureOnly s ∧ Refused (.restore slot) slot .secureOnly s) ∧
      (s.secure slot.val = true →
        (s.mode ≠ 4 → s.mode ≠ 5 → s.mode ≠ 6 → s.mode ≠ 10 → Answers (.store slot) slot .notInMode s { flds := [glbDstatRes] } (fun _ => True) ∧
          Answers (.restore slot) slot .notInMode s { flds := [glbDstatRes] } fun _ => True) ∧
        (s.mode = 4 ∨ s.mode = 5 ∨ s.mode = 6 ∨ s.mode = 10 →
          (s.nvBusy = true → Answers (.store slot) slot .busy s { flds := [glbDstatRes] } (fun _ => True) ∧
            Answers (.restore slot) slot .busy s { flds := [glbDstatRes] } fun _ => True) ∧
          (s.nvBusy = false →
            Answers (.store slot) slot .accepted s { blks := [.dict] } (fun t => t.dict.store = some slot.val ∧
              (∀ c ∈ s.newest.toList, if c.2 then t.dict.copyB = none ∧ t.dict.copyA = s.dict.copyA
                else t.dict.copyA = none ∧ t.dict.copyB = s.dict.copyB)) ∧
            Answers (.restore slot) slot .accepted s { blks := [.dict] } fun t => t.dict.restore = some slot.val ∧ t.newest = none)))) ∧
    (s.dict.store = some k.val → s.hst.jobs = [] → Happens .storeComplete s
        { flds := [glbDstatRes, glbDstatGen, glbDnotice], blks := [.answer, .dict] } fun t =>
      t.dict.store = none ∧ t.answer = { code := .done, data := [] } ∧ t.bit glbDnotice 0 = true ∧ t.dict.integ = s.dict.integ ∧
      let c : NvCopy := { gen := gen + 1, regs := s.storeImage, integ := s.dict.integ }
      (if s.newest.any (·.2) then t.dict.copyB = some c ∧ t.dict.copyA = s.dict.copyA
       else t.dict.copyA = some c ∧ t.dict.copyB = s.dict.copyB)) ∧
    (s.dict.store = none → Happens .storeComplete s {} fun _ => True) ∧
    (s.dict.restore = some k.val → s.hst.jobs = [] → Happens .restoreComplete s
        { flds := [glbDstatRes, glbDnotice], blks := [.answer, .dict] } fun t =>
      t.dict = { s.dict with restore := none } ∧ t.answer = { code := .done, data := [] } ∧ t.bit glbDnotice 3 = true) ∧
    (s.dict.restore = none → Happens .restoreComplete s {} fun _ => True)

/-! ### CAN (spec/14) -/

/-- A secure slot's CAN_CTRL takes its fields; EN rises only with bit times in bounds and starts the controller error-active with counts 0,
and its fall stops it; MODE's change to 1 drops the port's requests and waiting TIMEMARKs. RECOVER acts at bus-off. TM_NOW, and TIMEMARK at
its instant, send the payload of R639 with the port's SEQ; the good end of the oldest sends its follow-up with the SOF instant, which
CAN_LASTSOF shows. A HEARTBEAT carries mode, flags and seconds. A published transmit item is sent and reported in the receive ring, with ESI
where the port is error-passive, or discarded and counted. Bus-off discards the waiting TIMEMARKs; recovery and fault confinement set
ESTATE, with ESTATE_CHG on a change. CANnSTB is high in M2, M3, M7 and M9 and low while the controller runs, with VIO33 powered. Where it
rests on choices of the model: log entries 119, 170, 194, 195. (R626, R627, R629, R630, R636, R637, R638, R639, R640, R646, R647, R649) -/
def Obligations.CanPortsRunAndSend : Prop :=
  ∀ (slot : Slot) (p : Fin 2) (v : Word) (a b : Byte) (e : Fin 3) (sof : Nat) (s : State),
    let c := s.canPort p
    let id := fun (fn seq : Nat) => canId fn 0 (s.rd (nNode p)) seq
    let mark : CanOut := s.canBody p (id 0 c.tmSeq) (s.on (nFdEn p)) [s.qual false * 2 ^ 30 + s.rd cLeapSoon * 2 ^ 29 + s.rd cTaiUtc * 2 ^ 16 +
      s.rd htmStepGen * 2 ^ 8, s.rd (nTmPeriod p)]
    let sofs := time96 (ofStamp (sof - s.rd (nRxDly p))) (s.qual false)
    (s.ready slot.val = true → s.secure slot.val = true → 1 ≤ v.toNat % 256 → v.toNat % 256 ≤ 254 →
      (2 ^ 31 ≤ v.toNat → s.bitTimesOk p = false → Refused (.canEnable slot p v) slot .reservedEncoding s) ∧
      (v.toNat < 2 ^ 31 ∨ s.bitTimesOk p = true → Answers (.canEnable slot p v) slot .done s
          { flds := canCtrlFlds p ++ [nTec p, nRec p, nEstate p, nEvt p], blks := [.can, .hst] } fun t =>
        (∀ f ∈ canCtrlFlds p, t.rd f = f.ofWord v.toNat) ∧
        ((nMode p).ofWord v.toNat = 1 → s.on (nMode p) = false → (t.canPort p).tmWait = [] ∧
          ∀ kj ∈ t.hst.jobs, ∀ r ∈ kj.2.can.toList, r.port ≠ p.val) ∧
        (s.on (nEn p) = false → 2 ^ 31 ≤ v.toNat → t.rd (nEstate p) = 0 ∧ t.rd (nTec p) = 0 ∧ t.rd (nRec p) = 0) ∧
        (s.on (nEn p) = true → v.toNat < 2 ^ 31 → t.rd (nEstate p) = 4))) ∧
    (s.ready slot.val = true → s.secure slot.val = true → v.toNat % 256 = 0 ∨ v.toNat % 256 = 255 →
      Refused (.canEnable slot p v) slot .reservedEncoding s) ∧
    (s.ready slot.val = true → s.secure slot.val = false → (∃ f ∈ canCtrlFlds p, f.ofWord v.toNat ≠ s.rd f) →
      Refused (.canEnable slot p v) slot .secureOnly s) ∧
    (s.ready slot.val = true →
      (s.rd (nEstate p) = 3 → Answers (.recover slot p) slot .done s { blks := [.can] } fun t => (t.canPort p) = { c with recov := true }) ∧
      (s.rd (nEstate p) ≠ 3 → Refused (.recover slot p) slot .alreadyDone s) ∧
      (s.canTalks p = true → Answers (.tmNow slot p) slot .done s { blks := [.can] } fun t =>
        t.canPort p = { c with tmSeq := (c.tmSeq + 1) % 512, tmWait := c.tmWait ++ [c.tmSeq], sent := c.sent ++ [mark] }) ∧
      (s.canTalks p = false → Refused (.tmNow slot p) slot .notInMode s)) ∧
    (s.running = true → s.canTalks p = true →
      (s.on (nTmEn p) = true → s.tmDue p = true → Happens (.timemark p) s { blks := [.can] } fun t =>
        t.canPort p = { c with tmSeq := (c.tmSeq + 1) % 512, tmWait := c.tmWait ++ [c.tmSeq], sent := c.sent ++ [mark] }) ∧
      (s.on (nTmEn p) = false ∨ s.tmDue p = false → Happens (.timemark p) s {} fun _ => True) ∧
      (c.tmWait = [] → Happens (.timemarkFu p sof) s {} fun _ => True) ∧
      (∀ q ∈ c.tmWait.head?.toList, Happens (.timemarkFu p sof) s
          { flds := [nLastSof p 0, nLastSof p 1, nLastSof p 2, nLastSeq p], blks := [.can] } fun t =>
        t.canPort p = { c with tmWait := c.tmWait.tail, sent := c.sent ++ [s.canBody p (id 1 q) true (q :: sofs)] } ∧
        [t.rd (nLastSof p 0), t.rd (nLastSof p 1), t.rd (nLastSof p 2)] = sofs.map (· % 2 ^ 32)) ∧
      (s.rd (nHb p) ≠ 0 → Happens (.heartbeat p) s { blks := [.can] } fun t =>
        (t.canPort p).hbSeq = (c.hbSeq + 1) % 512 ∧
        ((∀ k : Fin 15, s.on (hEn k) = true → s.irq (s.rd (hTarget k)) = false ∧ s.attnMask k = 0) → (t.canPort p).sent =
          c.sent ++ [s.canBody p (id 6 c.hbSeq) (s.on (nFdEn p)) [s.mode + s.rd glbStewardReady * 2 ^ 4 + s.rd htmTimeSet * 2 ^ 5 +
            s.rd dState * 2 ^ 6 + s.rd htmStepGen * 2 ^ 8, secOf s.htm.time % 2 ^ 32]])) ∧
      (s.rd (nHb p) = 0 → Happens (.heartbeat p) s {} fun _ => True)) ∧
    (s.running = true → s.canSends p = true →
      let r := canTx p
      let i := s.rd (rRidx r)
      let w := s.ringWord r i
      let ws := s.ringGet r (i + 4) ((w % 2 ^ 16 + 3) / 4)
      let n := ws.getD 1 0 % 2 ^ 7
      let fdf := (ws.headD 0).testBit 29
      let esi := fdf && (s.rd (nEstate p) == 2 || (ws.headD 0).testBit 31)
      s.on (rEn r) = true → 4 ≤ s.fill r → s.itemSize r i ≤ s.fill r →
        (s.canTxBad p (w / 2 ^ 24) (w % 2 ^ 16) (ws.headD 0) n = true →
          Happens (.canTxItem p sof) s { flds := [rRidx r, nTxBad p, nEvt p] } fun t =>
            t.rd (rRidx r) = (i + s.itemSize r i) % 2 ^ 32 ∧ t.rd (nTxBad p) = min (s.rd (nTxBad p) + 1) 65535 ∧ t.bit (nEvt p) 6 = true) ∧
        (s.canTxBad p (w / 2 ^ 24) (w % 2 ^ 16) (ws.headD 0) n = false → s.accepts (canRx p) 6 →
          Happens (.canTxItem p sof) s { flds := [rRidx r, rWidx (canRx p)], blks := [.port, .can], bytes := s.itemBytes (canRx p) 6 } fun t =>
            t.rd (rRidx r) = (i + s.itemSize r i) % 2 ^ 32 ∧
            (t.canPort p).sent = c.sent ++
              [{ id := ws.headD 0 % 2 ^ 29, esi := esi, fdf := fdf, brs := (ws.headD 0).testBit 30, data := ((bytesOf ws).drop 20).take n }] ∧
            Stored (canRx p) ([2 * 2 ^ 24 + 20, esi.toNat * 2 ^ 31 + ws.headD 0 % 2 ^ 31, n] ++ sofs) s t)) ∧
    (s.canSends p = true →
      Happens (.busOff p) s { flds := [nEstate p, nEvt p], blks := [.can] } (fun t => t.rd (nEstate p) = 3 ∧ t.bit (nEvt p) 1 = true ∧
        (t.canPort p).tmWait = [] ∧ (c.tmWait ≠ [] → t.bit (nEvt p) 2 = true ∧ t.bit (nEvt p) 7 = true)) ∧
      Happens (.estateChg p a b e) s { flds := [nTec p, nRec p, nEstate p, nEvt p] } fun t =>
        t.rd (nTec p) = a.toNat ∧ t.rd (nRec p) = b.toNat ∧ t.rd (nEstate p) = e.val ∧ (s.rd (nEstate p) ≠ e.val → t.bit (nEvt p) 0 = true)) ∧
    (s.on (nEn p) = true → s.rd (nEstate p) = 3 →
      (s.on (nAutoRecov p) = true ∨ c.recov = true → Happens (.busOffRecovery p) s
          { flds := [nTec p, nRec p, nEstate p, nEvt p], blks := [.can] } fun t =>
        t.rd (nEstate p) = 0 ∧ t.rd (nTec p) = 0 ∧ t.rd (nRec p) = 0 ∧ t.bit (nEvt p) 0 = true) ∧
      (s.on (nAutoRecov p) = false → c.recov = false → Happens (.busOffRecovery p) s {} fun _ => True)) ∧
    s.canStb p false = none ∧ (s.mode ∈ [2, 3, 7, 9] → s.canStb p true = some true) ∧
    (s.mode ∉ [2, 3, 7, 9] → s.canRuns p = true → s.canStb p true = some false)

/-- At a running controller: 11-bit and remote frames count in IGNORED. A 29-bit frame from a valid node marks its slot present, or is seen
(446) and counted unbound. In host-assisted mode it goes to the receive ring with its SOF instant. In hardware mode a frame for another node
goes there only with MONITOR; a bad SRC, TIMEMARK, TIMEMARK_FU, DICT_RESP and broadcast requests count in IGNORED, FN 7 to 15 in UNDEF; a
HEARTBEAT does nothing. A request that repeats the node's last is answered with the kept response. A DICT_REQ with its body becomes the
node's outstanding request; a second is BUSY; a short body is BAD_LENGTH. A note with an undefined OP is RESERVED_ENCODING and counts in
DTP_BAD; a CLAIM on an empty queue answers EMPTY; a TAKE without mail too, with RXID, whose REFUSED it clears. Where it rests on choices of
the model: log entries 116, 117, 118, 120. (R484, R538, R555, R556, R626, R632, R633, R634, R635, R642, R644, R646) -/
def Obligations.CanFramesAreJudged : Prop :=
  ∀ (p : Fin 2) (f : CanFrame) (s : State), s.running = true → s.asleep = false → s.deaf = false → s.canSends p = true → s.hst.bind = [] →
    (f.fdf = true → s.on (nFdEn p) = true) →
    let me := s.rd (nNode p)
    let slot := (s.nodeSlot p (rxSrc f)).orElse fun _ => if s.on (hEn 15) then some 15 else none
    let marks := (match s.nodeSlot p (rxSrc f) with
      | some k => [hPresent k, hWaking k]
      | none => [hSeen p (rxSrc f / 32), hEvt, hUnbound (6 + p), hPevt (6 + p), hPresent 15, hWaking 15])
    let item := [0x01000000 + 20 + f.data.length, canF0 f.esi f.brs f.fdf f.id.toNat, f.data.length] ++
      time96 (ofStamp (f.sof - s.rd (nRxDly p))) (s.qual false) ++ wordsOf (f.data.map (·.toNat))
    let passed := s.accepts (canRx p) item.length → Happens (.canFrameReceive p f) s
      { flds := rWidx (canRx p) :: marks, blks := [.port], bytes := s.itemBytes (canRx p) item.length } fun t => Stored (canRx p) item s t
    let counted := fun (c : Fld) (w : List Fld) => Happens (.canFrameReceive p f) s { flds := c :: nEvt p :: w } fun t =>
      t.rd c = min (s.rd c + 1) 65535
    let q0 := (rxWords f).headD 0
    let sent := (s.canPort p).sent
    let reply := fun (fn : Nat) (ws : List Nat) => sent ++ [s.canBody p (canId fn (rxSrc f) me (rxSeq f)) f.fdf ws]
    (f.ext = false ∨ f.rtr = true → counted (nIgnored p) []) ∧
    (f.ext = true → f.rtr = false → s.srcOk p f = true → s.on (nMode p) = true → passed) ∧
    (f.ext = true → f.rtr = false → s.on (nMode p) = false →
      (rxDest f ≠ me → rxDest f ≠ 0 → s.srcOk p f = true → (s.on (nMonitor p) = true → passed) ∧
        (s.on (nMonitor p) = false → Happens (.canFrameReceive p f) s { flds := marks } fun t =>
          (∀ k ∈ slot.toList, t.on (hPresent k) = s.on (hEn k)) ∧
          (s.nodeSlot p (rxSrc f) = none → t.bit (hSeen p (rxSrc f / 32)) (rxSrc f % 32) = true) ∧
          (slot = none → t.rd (hUnbound (6 + p)) = min (s.rd (hUnbound (6 + p)) + 1) 65535 ∧ t.bit (hPevt (6 + p)) 3 = true))) ∧
      (rxDest f = me ∨ rxDest f = 0 →
        (s.srcOk p f = false → counted (nIgnored p) []) ∧
        (s.srcOk p f = true →
          (7 ≤ rxFn f → counted (nUndef p) marks) ∧
          (rxFn f = 0 ∨ rxFn f = 1 ∨ rxFn f = 3 → counted (nIgnored p) marks) ∧
          (rxFn f = 6 ∨ slot = none ∧ rxDest f = me ∧ me ≠ 0 ∧ rxFn f ∈ [2, 4, 5] →
            Happens (.canFrameReceive p f) s { flds := marks } fun _ => True) ∧
          (rxDest f = 0 → rxFn f ∈ [2, 4, 5] → counted (nIgnored p) marks) ∧
          (me ≠ 0 → rxDest f = me → rxFn f ∈ [2, 4, 5] → ∀ k ∈ slot.toList, k ≤ 15 →
            let w : Touch := { flds := marks ++ [hLast k, hReject (6 + p), hCrcErr (6 + p), hPevt (6 + p)], blks := [.answer, .can] }
            (∀ o ∈ (s.canRepeat p f).toList, Happens (.canFrameReceive p f) s { flds := marks, blks := [.can] } fun t =>
              (t.canPort p).sent = sent ++ [o]) ∧
            (s.canRepeat p f = none → s.m10Refuses k = false →
              (rxFn f = 2 → Assoc.find (32 + p * 256 + rxSrc f) s.hst.jobs = none → s.stewardUp = true →
                (rxHolds f (bodyLen q0 ((rxWords f).getD 1 0)) = true → 4 ≤ f.data.length →
                  Happens (.canFrameReceive p f) s { w with blks := [.answer, .hst, .ended] } fun t => t.rd (hLast k) = Code.accepted.val ∧
                    Assoc.find (32 + p * 256 + rxSrc f) t.hst.jobs =
                      some { slot := k, req := (rxWords f).take (bodyLen q0 ((rxWords f).getD 1 0)), resp := none,
                             can := some { port := p, node := rxSrc f, seq := rxSeq f, classic := !f.fdf },
                             turn := s.nextTurn }) ∧
                (rxHolds f 1 = false ∨ rxHolds f (bodyLen q0 ((rxWords f).getD 1 0)) = false →
                  Happens (.canFrameReceive p f) s w fun t => (t.canPort p).sent = reply 3 [q0, Code.badLength.val * 2 ^ 16])) ∧
              (rxFn f = 2 → (Assoc.find (32 + p * 256 + rxSrc f) s.hst.jobs).isSome = true →
                Happens (.canFrameReceive p f) s w fun t => (t.canPort p).sent = reply 3 [Code.busy.val * 2 ^ 16] ∧ t.rd (hLast k) = Code.busy.val) ∧
              (rxFn f = 4 → rxHolds f 1 = true → 3 ≤ q0 / 2 ^ 28 → Happens (.canFrameReceive p f) s
                  { w with flds := nDtpBad p :: nEvt p :: w.flds } fun t =>
                (t.canPort p).sent = reply 4 [q0, Code.reservedEncoding.val] ∧ t.rd (nDtpBad p) = min (s.rd (nDtpBad p) + 1) 65535) ∧
              (rxFn f = 4 → rxHolds f 1 = true → q0 / 2 ^ 28 = 1 → f.fdf = true → (s.tgt (s.rd (hTarget k))).queue = [] →
                (s.secure k = true ∨ s.on (iSecure (s.rd (hTarget k))) = false) → Happens (.canFrameReceive p f) s
                  { w with flds := iClaimNs (s.rd (hTarget k)) :: w.flds } fun t =>
                (t.canPort p).sent = reply 4 [q0, Code.empty.val, 0x3FF, 0] ∧ t.rd (hLast k) = Code.empty.val) ∧
              (rxFn f = 5 → rxHolds f 1 = true → q0 / 2 ^ 28 = 2 → f.fdf = true → s.chanSeen k (q0 % 64) = true → s.on (bEn (q0 % 64)) = true →
                s.rd (bRecv (q0 % 64)) = k → s.rd (bState (q0 % 64)) = 0 → Happens (.canFrameReceive p f) s
                  { w with flds := bRefused (q0 % 64) :: w.flds } fun t =>
                (t.canPort p).sent = reply 5 [q0, Code.empty.val, s.rxid (q0 % 64), 0, 0] ∧ t.rd (bRefused (q0 % 64)) = 0))))))

/-! ### The partner link (spec/15) -/

/-- A beacon instant gives each enabled port whose edge was placed its SEQ, another a counted skip, puts a pending layout in force with a
new LGEN, and is kept for reports. A layout is checked and waits, or is discarded. JOIN_REQ: reserved CAPS count as BAD_HDR; with JOIN_OPEN
0 or for an EUI granted in this discovery window nothing happens; for a new EUI a parent that is no relay, and then a full table or slots,
are denied; in host-approved mode it gets a ticket and an item, or BUSY at 8; else it gets the lowest free address with its slot. APPROVE
grants a ticket, DENY and the timeout deny it; an unknown one is ALREADY_DONE. Answers go to the port in the window as data frames of the
PAN whose sequence number the spec does not state. Where it rests on choices of the model: log entries 121, 126, 141. (R654, R656, R657,
R665, R666, R667, R668, R680, R681, spec/15_partner_link.md) -/
def Obligations.PartnersJoin : Prop :=
  ∀ (slot : Slot) (p : Fin 8) (r : JoinReq) (tk : Byte) (rt : Byte) (can : BitVec 8) (s : State),
    let gives := fun (n : Nat) => (s.giveTouch 38 n).and { flds := [pEvt p], blks := [.ptn] }
    let deny := fun (q : JoinReq) (n c : Nat) => ptlDown 0x12 (s.joinRoute q.parent.toNat) 0xFFF (le64 q.eui.toNat ++ le16 q.nonce.toNat ++ [n, c])
    let said := fun (q : Nat) (d : List Nat) (t : State) => t.ptn.answers = s.ptn.answers ++ [{ port := q, data := d, sf := s.superframe s.htm.time }]
    let grants := fun (q : Nat) (j : JoinReq) (t : State) => ∀ a ∈ s.freeAddr.toList, ∀ k ∈ (s.reportSlot q 0).toList, (s.ptr a).state = 0 →
      ((t.ptr a).state = 2 ∧ (t.ptr a).eui = j.eui.toNat ∧ (t.ptr a).port = q ∧ (t.ptr a).depth = j.depth.toNat ∧ (t.ptr a).parent = j.parent.toNat ∧
        ((t.ptr a).phase, (t.ptr a).slot) = k ∧ (t.ptr a).relay = s.relaySlot q 0 j.depth.toNat j.parent.toNat (j.caps.getLsbD 0)) ∧
      t.bit (pEvt q) 4 = true ∧ t.ptn.answers.length = s.ptn.answers.length + 1 ∧
      (s.accepts 38 8 → Stored 38 (varItem 0x11 (le16 a ++ [0, 2, 0, q, 0, 0] ++ le64 j.eui.toNat ++ s.time96b s.htm.time)) s t)
    (∀ b ∈ (s.beaconAt s.htm.time).toList, s.beaconDue b.2 = true → s.swp = [] → s.ended.contains .layout = false →
      let out := can.toNat &&& s.beaconOut b.2
      Happens (.beacon can) s
        { flds := pLgen :: layoutFlds.map pa ++ (List.range 8).flatMap (fun q => [pSeq q, pSkips q, pEvt q]), blks := [.ptn] } fun t =>
      (∀ q : Fin 8, s.bit pPorts q = true → (out.testBit q = true → t.rd (pSeq q) = b.1 % 2 ^ 16) ∧
        (out.testBit q = false → t.rd (pSkips q) = min (s.rd (pSkips q) + 1) 65535 ∧ t.bit (pEvt q) 0 = true)) ∧
      t.ptn.beacons.head? = some { seq := b.1 % 2 ^ 16, tb := b.2, ports := s.rd pPorts &&& out, gen := s.rd htmStepGen } ∧
      ∀ l ∈ s.ptn.layout.toList, t.rd pLgen = (s.rd pLgen + 1) % 256 ∧ t.ptn.layout = none ∧
        (l.length = layoutFlds.length → ∀ fv ∈ layoutFlds.zip l, t.rd (pa fv.1) = fv.2 % 2 ^ fv.1.width)) ∧
    ((∀ b ∈ (s.beaconAt s.htm.time).toList, s.beaconDue b.2 = false) → Happens (.beacon can) s {} fun _ => True) ∧
    (s.ready slot.val = true →
      (s.secure slot.val = true →
        (s.layoutOk = true → Answers (.layoutApply slot) slot .done s { blks := [.ptn, .ended] } fun t =>
          t.ptn = { s.ptn with layout := some (layoutFlds.map s.rd) }) ∧
        (s.layoutOk = false → Refused (.layoutApply slot) slot .outOfRange s) ∧
        Answers (.layoutDiscard slot) slot .done s { flds := layoutFlds } fun t => ∀ f ∈ layoutFlds, t.rd f = s.rd (pa f) % 2 ^ f.width) ∧
      (s.secure slot.val = false → Refused (.layoutApply slot) slot .secureOnly s ∧ Refused (.layoutDiscard slot) slot .secureOnly s ∧
        (s.rd (rCons 38) ≠ slot.val → Refused (.approve slot tk) slot .secureOnly s ∧ Refused (.deny slot tk rt) slot .secureOnly s)) ∧
      (s.secure slot.val = true ∨ s.rd (rCons 38) = slot.val →
        (s.ptn.tickets.find? (·.ticket == tk.toNat) = none → Refused (.approve slot tk) slot .alreadyDone s ∧
          Refused (.deny slot tk rt) slot .alreadyDone s) ∧
        ∀ k ∈ (s.ptn.tickets.find? (·.ticket == tk.toNat)).toList,
          (Answers (.deny slot tk rt) slot .done s { flds := [pEvt k.port], blks := [.ptn] } fun t =>
            said k.port (deny k.req 2 rt.toNat) t ∧ t.ptn.tickets = s.ptn.tickets.filter (·.ticket != tk.toNat)) ∧
          (s.parentOk k.port k.req = false → Answers (.approve slot tk) slot .done s { flds := [pEvt k.port], blks := [.ptn] }
            (said k.port (deny k.req 5 0))) ∧
          (s.parentOk k.port k.req = true → s.ptnFull k.port = false →
            Answers (.approve slot tk) slot .done s ((s.giveTouch 38 8).and { flds := [pEvt k.port], blks := [.ptn] })
              (grants k.port k.req)))) ∧
    (s.running = true → ∀ k ∈ (s.ptn.tickets.find? (·.ticket == tk.toNat)).toList,
      Happens (.ticketTimeout tk) s { flds := [pEvt k.port], blks := [.ptn] } (said k.port (deny k.req 3 10))) ∧
    (s.running = true → Happens (.joinAnswer p) s { blks := [.ptn, .radio p, .fresh] } fun t =>
      t.ptn = { s.ptn with answers := s.ptn.answers.filter fun f => !s.answerDue p f } ∧ (s.rd (aState p) = 1 ∨ s.rd (aState p) = 2 →
        let old := (s.radio p).queue
        (t.radio p).queue.take old.length = old ∧
        ((t.radio p).queue.drop old.length).map (fun f => { f with data := f.data.set 2 0 }) =
          (s.ptn.answers.filter (s.answerDue p)).map fun f =>
            { kind := .link, inst := none, data := macFrame (s.rd pPan) 0 (ptlDst f.data) f.data })) ∧
    (s.ptnHears p = true →
      (4 ≤ r.caps.toNat → Happens (.joinReq p r) s { flds := [pBadHdr p, pEvt p] } fun t =>
        t.rd (pBadHdr p) = min (s.rd (pBadHdr p) + 1) 65535 ∧ t.bit (pEvt p) 2 = true) ∧
      (r.caps.toNat < 4 → s.on pJoinOpen = false ∨ s.ptn.granted.contains r.eui.toNat = true → Happens (.joinReq p r) s {} fun _ => True) ∧
      (r.caps.toNat < 4 → s.on pJoinOpen = true → s.ptn.granted.contains r.eui.toNat = false →
        (s.ptn.table.find? fun kx => kx.2.state != 0 && kx.2.eui == r.eui.toNat) = none →
        (s.parentOk p r = false → Happens (.joinReq p r) s { flds := [pEvt p], blks := [.ptn] } (said p (deny r 5 0))) ∧
        (s.parentOk p r = true → s.ptnFull p = true → Happens (.joinReq p r) s { flds := [pEvt p], blks := [.ptn] } fun t =>
          said p (deny r 1 60) t ∧ t.bit (pEvt p) 11 = true) ∧
        (s.parentOk p r = true → s.ptnFull p = false → s.on pJoinMode = true → 8 ≤ s.ptn.tickets.length →
          Happens (.joinReq p r) s { flds := [pEvt p], blks := [.ptn] } (said p (deny r 4 10))) ∧
        (s.parentOk p r = true → s.ptnFull p = false → s.on pJoinMode = true → s.ptn.tickets.length < 8 →
          Happens (.joinReq p r) s (gives 10) fun t =>
            t.ptn.tickets = s.ptn.tickets ++ [{ ticket := s.newTicket, port := p, req := r }] ∧ t.bit (pEvt p) 3 = true ∧
            (s.accepts 38 10 → Stored 38 (s.ticketItem s.newTicket p r) s t)) ∧
        (s.parentOk p r = true → s.ptnFull p = false → s.on pJoinMode = false →
          Happens (.joinReq p r) s (gives 8) (grants p r))))

/-- A SYNC_REPORT of a joined partner on a port the link hears sets what its frame tells; of a partner at depth 1 that names a kept beacon
it sets OFFSET and DELAY by R670, with the alert above its limit; in raw mode they stay. A KEEPALIVE sets flags, LQI and battery. A frame
with reserved bits, or of no partner, counts as BAD_HDR; an undefined TYPE in UNDEF. The judgement of a heard partner makes it PRESENT with
MISS 0, of a silent one counts a miss and at ABSENT_N makes it ABSENT; grace passes first. LEAVE, EVICT and the absent timeout of a silent
partner put the entry in quarantine with its flag; its end frees it. Where it rests on choices of the model: log entries 3, 122, 123, 124.
(R653, R669, R670, R672, R673, R674, R675, R677, R678, R679, R680) -/
def Obligations.PartnersReportAndLeave : Prop :=
  ∀ (slot : Slot) (p : Fin 8) (a : BitVec 12) (y : SyncBody) (fl lqi rt : Byte) (batt : BitVec 16) (rx : Nat) (s : State),
    let x := s.ptr a.toNat
    let items := fun (n : Nat) => (s.giveTouch 38 n).and { flds := (List.range 8).map pEvt, blks := [.ptn] }
    let moves := items (8 * (s.ptn.table.length + 1))
    let told := fun (b l : Nat) (i : Nat) (q : Partner) => q.batt = b ∧ q.lqi = l ∧ q.heard = true ∧ q.state = x.state ∧
      q.last = time96 (ofStamp i) (s.qual false)
    let bad := fun (t : State) => t.rd (pBadHdr p) = min (s.rd (pBadHdr p) + 1) 65535 ∧ t.bit (pEvt p) 2 = true
    let away := moves.and { blks := [.radios, .fresh] }
    (s.ptnHears p = true →
      (x.joined = true → x.parent = 0 →
        (fl.toNat < 16 → Happens (.keepalive p a fl lqi batt rx) s { blks := [.ptn] } fun t =>
          told batt.toNat lqi.toNat rx (t.ptr a.toNat) ∧ (t.ptr a.toNat).flags % 4 = fl.toNat / 2 % 4) ∧
        (y.flags.toNat < 16 →
          (s.reportBeacon p a.toNat y.bseq.toNat = none → Happens (.syncReport p a y) s
              (if s.on pOfsMode then (items 16).and { blks := [.fresh] } else { blks := [.ptn] }) fun t =>
            told y.batt.toNat y.lqi.toNat y.rx (t.ptr a.toNat) ∧ (t.ptr a.toNat).offset = x.offset ∧ (t.ptr a.toNat).rate = x.rate) ∧
          ∀ b ∈ (s.reportBeacon p a.toNat y.bseq.toNat).toList,
            (s.on pOfsMode = true → Happens (.syncReport p a y) s (items 16) fun t =>
              told y.batt.toNat y.lqi.toNat y.rx (t.ptr a.toNat) ∧ (t.ptr a.toNat).offset = x.offset ∧ (t.ptr a.toNat).rate = x.rate ∧
              (s.accepts 38 16 → Stored 38 (s.rawSync p a.toNat b.2 y) s t)) ∧
            (s.on pOfsMode = false → x.depth = 1 → Happens (.syncReport p a y) s { flds := [pEvt x.port], blks := [.ptn, .fresh] } fun t =>
              let ra := signedOf 64 ((y.rB.toNat + 2 ^ 64 - h64 b.2) % 2 ^ 64)
              let rc := signedOf 64 ((h64 (ofStamp y.rx) + 2 ^ 64 - y.tR.toNat) % 2 ^ 64) * 16 + (y.rx % 16 : Nat)
              let q := t.ptr a.toNat
              told y.batt.toNat y.lqi.toNat y.rx q ∧ q.offset = roundAway (ra * 16 - rc) 32 ∧ q.delay = roundAway (ra * 16 + rc) 32 ∧
              (q.flags.testBit 2 = true ↔ s.rd pOfsLim ≠ 0 ∧ s.rd pOfsLim < q.offset.natAbs) ∧
              (s.rd pOfsLim ≠ 0 → s.rd pOfsLim < q.offset.natAbs → t.bit (pEvt x.port) 12 = true))) ∧
        (rt.toNat ≤ 3 → Happens (.leave p a rt) s moves fun t =>
          (t.ptr a.toNat).state = 1 ∧ (t.ptr a.toNat).relay = none ∧ t.bit (pEvt x.port) 9 = true)) ∧
      (x.joined = false ∨ 16 ≤ fl.toNat → Happens (.keepalive p a fl lqi batt rx) s { flds := [pBadHdr p, pEvt p], blks := [.ptn] } bad) ∧
      (x.joined = false ∨ 16 ≤ y.flags.toNat → Happens (.syncReport p a y) s { flds := [pBadHdr p, pEvt p], blks := [.ptn] } bad) ∧
      (x.joined = false ∨ 3 < rt.toNat → Happens (.leave p a rt) s { flds := [pBadHdr p, pEvt p], blks := [.ptn] } bad) ∧
      (ptlTypes.contains fl.toNat = false → Happens (.ptlUndefinedType p fl) s { flds := [pUndef p, pEvt p] } fun t =>
        t.rd (pUndef p) = min (s.rd (pUndef p) + 1) 65535 ∧ t.bit (pEvt p) 1 = true)) ∧
    (s.running = true → s.on pEn = true → (s.path a.toNat).contains a.toNat = false → ∀ b ∈ s.ptn.beacons.head?.toList,
      let x := { x with judged := some b.tb }
      (s.judgeDue (s.ptr a.toNat) b = true →
        (0 < x.grace → Happens (.reportJudgement a) s { blks := [.ptn] } fun t => t.ptr a.toNat = { x with grace := x.grace - 1 }) ∧
        (x.grace = 0 → x.heard = true → Happens (.reportJudgement a) s moves fun t =>
          t.ptr a.toNat = { x with state := 3, miss := 0, reports := min (x.reports + 1) 65535, heard := false } ∧
          (x.state = 4 ∨ x.state = 5 → t.bit (pEvt x.port) 10 = true)) ∧
        (x.grace = 0 → x.heard = false → x.state ≠ 5 → Happens (.reportJudgement a) s moves fun t =>
          let gone := decide (x.state ≤ 3) && decide (s.rd (pa pAbsentN) ≤ min (x.miss + 1) 255)
          t.ptr a.toNat = { x with state := if gone then 4 else x.state, miss := min (x.miss + 1) 255, missed := min (x.missed + 1) 65535 } ∧
          (gone = true → t.bit (pEvt x.port) 6 = true))) ∧
      (s.judgeDue (s.ptr a.toNat) b = false ∨ (x.grace = 0 ∧ x.heard = false ∧ x.state = 5) →
        Happens (.reportJudgement a) s {} fun _ => True)) ∧
    (s.running = true → x.state = 4 ∨ x.state = 5 →
      (x.heard = false → Happens (.absentTimeout a) s away fun t => (t.ptr a.toNat).state = 1 ∧ t.bit (pEvt x.port) 8 = true) ∧
      (x.heard = true → (s.path a.toNat).contains a.toNat = false →
        Happens (.absentTimeout a) s moves fun t =>
          (t.ptr a.toNat).state = 3 ∧ t.bit (pEvt x.port) 10 = true)) ∧
    (s.running = true → x.state = 1 → Happens (.quarantineEnd a) s (items 8) fun t =>
      t.ptr a.toNat = Partner.init ∧
      (s.accepts 38 8 → Stored 38 (varItem 0x11 (le16 a.toNat ++ [1, 0, 5, x.port, 0, 0] ++ le64 x.eui ++ s.time96b s.htm.time)) s t)) ∧
    (x.state ≠ 1 → Happens (.quarantineEnd a) s {} fun _ => True) ∧
    (s.ready slot.val = true →
      (s.secure slot.val = true →
        (x.joined = true → Answers (.evict slot a rt) slot .done s away fun t => (t.ptr a.toNat).state = 1 ∧ t.bit (pEvt x.port) 8 = true) ∧
        (x.joined = false → Refused (.evict slot a rt) slot .alreadyDone s)) ∧
      (s.secure slot.val = false → Refused (.evict slot a rt) slot .secureOnly s ∧ Refused (.quarClear slot) slot .secureOnly s))

/-- QUAR_CLEAR of a secure slot is answered DONE: every entry in QUARANTINE is FREE after it, and every entry in another state is as it was.
(R682) -/
def Obligations.QuarantineIsCleared : Prop :=
  ∀ (slot : Slot) (a : BitVec 12) (s : State), s.ready slot.val = true → s.secure slot.val = true →
    Answers (.quarClear slot) slot .done s
      ((s.giveTouch 38 (8 * s.ptn.table.length)).and { blks := [.ptn] }) fun t =>
        ((s.ptr a.toNat).state = 1 → (t.ptr a.toNat).state = 0) ∧ ((s.ptr a.toNat).state ≠ 1 → t.ptr a.toNat = s.ptr a.toNat)

/-! ### Sweeps and radio ports (spec/16) -/

/-- Only the lease holder commands a sweep. ARM of a sweep in MODE 0 opens RUN 0 at TRIG, ALREADY_DONE when armed; DISARM clears ARMED;
ABORT closes the open run as ABORTED and takes its waiting requests from the ports, ALREADY_DONE without one or at its DEADLINE; APPLY
copies a good definition, OUT_OF_RANGE or NOT_IN_MODE else; DISCARD copies back. At a beacon instant a waiting run without partners closes
as LATE, sends its request with its deadline, or waits. A later window sends the next requests. While MODE 1 is active no run asks or ends.
A report in MODE 1 goes to ring 37, in MODE 0 without an open run it is stray, from a listed partner it is stored and taken, and the last
LAST closes the run. A run past its DEADLINE closes and the next opens, or none; in the cycle of a close ABORT is ALREADY_DONE, and DISARM
leaves no further run. Where it rests on choices of the model: log entries 127, 128. (R684, R686, R687, R688, R689, R692, R697, R698, R699,
R701, R703, R705) -/
def Obligations.SweepsRunAndClose : Prop :=
  ∀ (slot : Slot) (n : Fin 64) (p : Fin 8) (a : BitVec 12) (y : SampleBody) (can : BitVec 8) (s : State),
    let id := idSweep n
    let x := s.sweep n
    let lw : Touch := { flds := [hLeft id] }
    let closes := fun (m i : Nat) => (s.giveTouch 37 (13 + i)).and { flds := [wRun m, wPhase m, wArmed m], blks := [.sweep m, .ended] }
    let per := s.w (wPerLo n) + s.w (wPerHi n)
    let passed := fun (k : Run) => !s.won (wMode n) && k.requested && decide (k.deadline ≤ s.htm.time)
    let item := fun (st : Nat) (t : Nat) (skip stray : Nat) => varItem 0x20 ([n.val, st] ++ le16 (s.rd (wRun n)) ++ s.time96b t ++
      s.time96b s.htm.time ++
      List.replicate 12 0 ++ le16 skip ++ le16 stray ++ le16 0xFFF ++ [0, 0])
    let closed := fun (ab : Bool) (t : State) =>
      (x.again = false → s.on (wArmed n) = false ∨ (per = 0 ∧ ab = true) → (t.sweep n).run = none ∧ t.rd (wPhase n) = 0 ∧
        t.on (wArmed n) = s.on (wArmed n)) ∧
      (x.again = false → per = 0 → ab = false → (t.sweep n).run = none ∧ t.rd (wPhase n) = 0 ∧ t.on (wArmed n) = false) ∧
      (x.again = false → s.on (wArmed n) = true → 0 < per → t.rd (wRun n) = (s.rd (wRun n) + 1) % 2 ^ 16 ∧ t.rd (wPhase n) = 1 ∧
        (t.sweep n).trig = s.nextTrig n)
    (s.ready slot.val = true →
      (s.owner id = 0x1F → Refused (.sweepArm slot n) slot .leaseLost s ∧ Refused (.sweepDisarm slot n) slot .leaseLost s ∧
        Refused (.sweepAbort slot n) slot .leaseLost s ∧ Refused (.sweepApply slot n) slot .leaseLost s ∧
          Refused (.sweepDiscard slot n) slot .leaseLost s) ∧
      (s.owner id ≠ 0x1F → s.owner id ≠ slot.val → Refused (.sweepArm slot n) slot .ownedElsewhere s ∧
        Refused (.sweepDisarm slot n) slot .ownedElsewhere s ∧ Refused (.sweepAbort slot n) slot .ownedElsewhere s ∧
        Refused (.sweepApply slot n) slot .ownedElsewhere s ∧ Refused (.sweepDiscard slot n) slot .ownedElsewhere s) ∧
      (s.owner id = slot.val →
        (s.on (wArmed n) = true → Answers (.sweepArm slot n) slot .alreadyDone s lw fun _ => True) ∧
        (s.on (wArmed n) = false → s.won (wMode n) = true → Answers (.sweepArm slot n) slot .done s { flds := [hLeft id, wArmed n] } fun t =>
          t.on (wArmed n) = true) ∧
        (s.on (wArmed n) = false → s.won (wMode n) = false → x.run = none → Answers (.sweepArm slot n) slot .done s
            { flds := [hLeft id, wArmed n, wRun n, wPhase n], blks := [.sweep n] } fun t =>
          t.on (wArmed n) = true ∧ t.rd (wRun n) = 0 ∧ t.rd (wPhase n) = 1 ∧ (t.sweep n).trig = s.trigOf n ∧
            (t.sweep n).run.any (!·.requested) = true) ∧
        (s.sweptNow n = none → Answers (.sweepDisarm slot n) slot .done s { flds := [hLeft id, wArmed n], blks := [.sweep n] } fun t =>
          t.on (wArmed n) = false ∧ (t.sweep n).run = x.run) ∧
        (∀ r ∈ (s.sweptNow n).toList, Answers (.sweepDisarm slot n) slot .done s
            { flds := [hLeft id, wArmed n, wRun n, wPhase n], blks := [.sweep n] } fun t =>
          t.on (wArmed n) = false ∧ (∀ k ∈ (t.sweep n).run.toList, k.requested = true) ∧
          ((∃ k ∈ x.run.toList, k.requested = false) → t.rd (wRun n) = r % 2 ^ 16 ∧ t.rd (wPhase n) = 0)) ∧
        (x.run = none ∨ s.sweptNow n ≠ none → (∀ k ∈ x.run.toList, passed k = false) →
          Answers (.sweepAbort slot n) slot .alreadyDone s lw fun _ => True) ∧
        (∀ k ∈ x.run.toList, passed k = true → Answers (.sweepAbort slot n) slot .alreadyDone s ((closes n (4 * k.members.length)).and lw) fun t =>
          closed false t ∧ (k.members = [] → s.accepts 37 13 → Stored 37 (item 0 k.t k.skipped k.stray) s t)) ∧
        (s.sweptNow n = none → ∀ k ∈ x.run.toList, passed k = false → k.requested = true ∨ s.won (wForm n) = false →
          Answers (.sweepAbort slot n) slot .done s ((closes n (4 * k.members.length)).and { lw with blks := [.radios] }) fun t =>
          closed true t ∧ (k.members = [] → s.accepts 37 13 → Stored 37 (item 2 k.t k.skipped k.stray) s t) ∧
          ∀ q : Fin 8, (t.radio q).queue = (s.radio q).queue.filter fun f => !f.isReq n (s.rd (wRun n))) ∧
        (s.sweepBad n = true → Answers (.sweepApply slot n) slot .outOfRange s lw fun _ => True) ∧
        (s.sweepBad n = false → s.on (wForm n) = true → s.beaconMills.contains (s.rd (wMill n)) = false →
          Answers (.sweepApply slot n) slot .notInMode s lw fun _ => True) ∧
        (s.sweepBad n = false → s.on (wForm n) = false ∨ s.beaconMills.contains (s.rd (wMill n)) = true →
          Answers (.sweepApply slot n) slot .done s { flds := hLeft id :: (sweepFlds n).map wa } fun t =>
            ∀ f ∈ sweepFlds n, t.rd (wa f) = s.rd f % 2 ^ f.width) ∧
        Answers (.sweepDiscard slot n) slot .done s { flds := hLeft id :: iLbrk :: sweepFlds n } fun t =>
          (∀ f ∈ sweepFlds n, t.rd f = s.rd (wa f) % 2 ^ f.width) ∧ t.rd iLbrk = s.rd iLbrk ||| s.secureTgts)) ∧
    (∀ b ∈ (s.beaconAt s.htm.time).toList, s.beaconDue b.2 = true → s.swp = [(n.val, x)] → x.again = false →
      s.won (wMode n) = false → s.won (wForm n) = false → s.won (wListSrc n) = false → s.ptnOn (s.w (wPort n)) = [] → s.w (wPort n) < 8 → s.bit pPorts (s.w (wPort n)) = true →
      s.ptn.layout = none → s.ptn.beacons = [] → ∀ k ∈ x.run.toList, k.requested = false →
        let lead := s.w (wLead n) * 1000 * nsU
        Happens (.beacon can) s ((closes n 0).and
            { flds := wSkipped n :: (List.range 8).flatMap (fun q => [pSeq q, pSkips q, pEvt q])
              blks := [.ptn, .radio (s.w (wPort n)), .fresh] }) fun t =>
          (x.trig < b.2 + lead → closed false t ∧ (s.accepts 37 13 → Stored 37 (item 3 x.trig 0 k.stray) s t)) ∧
          (b.2 + lead ≤ x.trig → x.trig < b.2 + s.bpNs * nsU + lead → t.rd (wPhase n) = 2 ∧ (∀ j ∈ (t.sweep n).run.toList,
            j.requested = true ∧ j.t = x.trig ∧ j.deadline = (x.trig + s.w (wDlMs n) * 1000000 * nsU) % timeMod ∧ j.members = [])) ∧
          (b.2 + s.bpNs * nsU + lead ≤ x.trig → t.rd (wPhase n) = s.rd (wPhase n) ∧ (t.sweep n).run = some { k with t := x.trig, skipped := 0 })) ∧
    (s.running = true → ∀ k ∈ x.run.toList,
      (s.won (wMode n) = false → k.requested = true → k.toSend ≠ [] → k.win ≠ s.superframe s.htm.time →
        Happens (.sweepRequestWindow n) s { blks := [.sweep n, .radio (s.w (wPort n)), .fresh] } fun t =>
          (t.sweep n).run = some { k with toSend := k.toSend.drop (s.w (wReqWin n)), win := s.superframe s.htm.time } ∧
          (s.rd (aState (s.w (wPort n))) = 1 ∨ s.rd (aState (s.w (wPort n))) = 2 → (t.radio (s.w (wPort n))).queue.length =
            (s.radio (s.w (wPort n))).queue.length + (k.toSend.take (s.w (wReqWin n))).length)) ∧
      (s.won (wMode n) = true ∨ k.requested = false ∨ k.toSend = [] ∨ k.win = s.superframe s.htm.time → Happens (.sweepRequestWindow n) s {} fun _ => True) ∧
      (passed k = true → Happens (.sweepDeadline n) s (closes n (4 * k.members.length)) fun t =>
        closed false t ∧ (k.members = [] → s.accepts 37 13 → Stored 37 (item 0 k.t k.skipped k.stray) s t)) ∧
      (passed k = false → Happens (.sweepDeadline n) s {} fun _ => True)) ∧
    (s.ptnHears p = true → (s.ptr a.toNat).joined = true → (s.ptr a.toNat).parent = 0 → y.status.toNat ≤ 3 → y.data.length ≤ 78 →
      let m := y.sweep.val
      let it := s.sampleItem p a.toNat y
      (s.won (wMode m) = true → Happens (.sampleReport p a y) s ((s.giveTouch 37 it.length).and { blks := [.ptn] }) fun t =>
        (t.ptr a.toNat).heard = true ∧ (s.accepts 37 it.length → Stored 37 it s t)) ∧
      (s.won (wMode m) = false → (s.sweep m).run = none → Happens (.sampleReport p a y) s { flds := [wStray m], blks := [.ptn, .sweep m] } fun t =>
        (t.ptr a.toNat).heard = true ∧ t.rd (wStray m) = min (s.rd (wStray m) + 1) 65535) ∧
      (s.won (wMode m) = false → ∀ k ∈ (s.sweep m).run.toList,
        let ms := k.members.map fun q => if q.addr = a.toNat then q.take y else q
        (runTakes k (s.rd (wRun m)) a.toNat y = false → Happens (.sampleReport p a y) s { flds := [wStray m], blks := [.ptn, .sweep m] } fun t =>
          (t.sweep m).run = some { k with stray := min (k.stray + 1) 65535 } ∧ t.rd (wStray m) = min (s.rd (wStray m) + 1) 65535) ∧
        (runTakes k (s.rd (wRun m)) a.toNat y = true → ms.all (·.last.isSome) = false →
          Happens (.sampleReport p a y) s ((s.giveTouch 37 it.length).and { blks := [.ptn, .sweep m] }) fun t =>
            (t.sweep m).run = some { k with members := ms } ∧ (s.accepts 37 it.length → Stored 37 it s t)) ∧
        (runTakes k (s.rd (wRun m)) a.toNat y = true → ms.all (·.last.isSome) = true →
          Happens (.sampleReport p a y) s ((closes m (it.length + 4 * k.members.length)).and { blks := [.ptn] }) fun t =>
            (s.on (wArmed m) = false → (s.sweep m).again = false → (t.sweep m).run = none ∧ t.rd (wPhase m) = 0))))

/-- Only the lease holder commands a port. RESTART of an enabled port starts INIT again; APPLY copies the staged configuration and script
and starts INIT, BUSY while a slot runs; DISCARD copies back; RUN_SLOT starts a slot in MODE 1, only slot 7 in MODE 0, else NOT_IN_MODE.
RDpIRQ after an RDpTXT edge ends the transmission with TX_DONE, while receiving starts RX_READ; TICK starts its slot. An SFD edge stamps the
sent or the received frame; a missing one sets SFD_MISS. The commit, 64 ns before the edge, places an armed edge and abandons a timed frame
that is not armed or whose edge lies behind. With VIORD up RDpRST_N is low while EN is 0, an input in M2 and M9, and unpowered in M0, M1 and
M11. A TX_LOAD takes the hub's frame. An item of the transmit ring waits or is a bad item. Where it rests on choices of the model: log
entries 130, 132, 172, 199, 213. (R707, R708, R709, R711, R712, R713, R714, R715, R718, R719, R760) -/
def Obligations.RadioPortsRun : Prop :=
  ∀ (slot : Slot) (p k : Fin 8) (stamp : Nat) (s : State),
    let id := idRadio p
    let x := s.radio p
    let st := s.rd (aState p)
    let reports := s.giveTouch (16 + p) 5
    let run : List Fld := [aState p, aSlot p, aPc p]
    let init := fun (t : State) => if s.aon (aMode p) then t.rd (aState p) = 1 else
      t.rd (aState p) = 2 ∧ t.rd (aSlot p) = 0 ∧ t.rd (aPc p) = t.a (aEntry p 0) % 256
    let starts := fun (j : Nat) (t : State) => t.rd (aState p) = 2 ∧ t.rd (aSlot p) = j ∧ t.rd (aPc p) = s.a (aEntry p j) % 256
    let words := fun (i q : Nat) => (time96 (ofStamp i) q).map (· % 2 ^ 32)
    (s.ready slot.val = true →
      (s.owner id = 0x1F → Refused (.radioRestart slot p) slot .leaseLost s ∧ Refused (.radioApply slot p) slot .leaseLost s ∧
        Refused (.radioDiscard slot p) slot .leaseLost s ∧ Refused (.runSlot slot p k) slot .leaseLost s) ∧
      (s.owner id ≠ 0x1F → s.owner id ≠ slot.val → Refused (.radioRestart slot p) slot .ownedElsewhere s ∧
        Refused (.radioApply slot p) slot .ownedElsewhere s ∧ Refused (.radioDiscard slot p) slot .ownedElsewhere s ∧
        Refused (.runSlot slot p k) slot .ownedElsewhere s) ∧
      (s.owner id = slot.val →
        (s.aon (aEn p) = true → Answers (.radioRestart slot p) slot .done s
          (reports.and { flds := hLeft id :: aTxLate p :: aEvt p :: run, blks := [.radio p] }) init) ∧
        (s.aon (aEn p) = false → Answers (.radioRestart slot p) slot .done s { flds := [hLeft id] } fun _ => True) ∧
        (st = 2 → Answers (.radioApply slot p) slot .busy s { flds := [hLeft id] } fun _ => True) ∧
        (st ≠ 2 → Answers (.radioApply slot p) slot .done s { flds := hLeft id :: run ++ (radioFlds p).map aa, blks := [.radio p] } fun t =>
          (∀ f ∈ radioFlds p, t.rd (aa f) = s.rd f % 2 ^ f.width) ∧ (s.rd (aEn p) % 2 = 0 → t.rd (aState p) = 0 ∧ (t.radio p).queue = []) ∧
          (s.rd (aEn p) % 2 = 1 → s.aon (aEn p) = false → s.rd (aMode p) % 2 = 0 → t.rd (aState p) = 2 ∧ t.rd (aSlot p) = 0)) ∧
        Answers (.radioDiscard slot p) slot .done s { flds := hLeft id :: iLbrk :: radioFlds p } (fun t =>
          (∀ f ∈ radioFlds p, t.rd f = s.rd (aa f) % 2 ^ f.width) ∧ t.rd iLbrk = s.rd iLbrk ||| s.secureTgts) ∧
        ((s.aon (aMode p) = false ∧ k.val ≠ 7) ∨ (st ≠ 1 ∧ st ≠ 2) → Answers (.runSlot slot p k) slot .notInMode s
          { flds := [hLeft id] } fun _ => True) ∧
        (s.aon (aMode p) = true ∨ k.val = 7 → st = 1 → Answers (.runSlot slot p k) slot .done s
          { flds := hLeft id :: run, blks := [.radio p] } (starts k)) ∧
        (s.aon (aMode p) = true ∨ k.val = 7 → st = 2 → Answers (.runSlot slot p k) slot .done s { flds := [hLeft id], blks := [.radio p] } fun t =>
          t.radio p = { x with starts := x.starts ||| 2 ^ k.val }))) ∧
    (s.radioOn p = true →
      (x.sent = true → Happens (.radioIrq p) s (reports.and { flds := aEvt p :: run, blks := [.radio p] }) fun t =>
        t.bit (aEvt p) 2 = true ∧ (t.radio p).due = none ∧ (t.radio p).sent = false ∧ (s.aon (aMode p) = false → st = 1 → starts 5 t) ∧
        (∀ f ∈ x.due.toList, f.kind = .host ∨ f.kind = .hostTimed → s.accepts (16 + p) 5 →
          Stored (16 + p) (varItem 2 (s.time96b (ofStamp (f.inst.getD 0)) ++ [0, 0, 0, 0])) s t)) ∧
      (x.sent = false → x.recv = true → s.aon (aMode p) = false → Happens (.radioIrq p) s { flds := run, blks := [.radio p] } fun t =>
        (st = 1 → starts 2 t) ∧ (st = 2 → t.radio p = { x with starts := x.starts ||| 2 ^ 2 })) ∧
      (x.sent = false → x.recv = false ∨ s.aon (aMode p) = true → Happens (.radioIrq p) s {} fun _ => True) ∧
      (s.a (aTickMs p) ≠ 0 → s.aon (aMode p) = false → st = 1 → Happens (.radioTick p) s { flds := run, blks := [.radio p] } (starts 6)) ∧
      (s.a (aTickMs p) = 0 ∨ s.aon (aMode p) = true → Happens (.radioTick p) s {} fun _ => True) ∧
      (x.await = true → Happens (.radioSfd p stamp) s { flds := [aLastTx p 0, aLastTx p 1, aLastTx p 2], blks := [.radio p] } fun t =>
        t.radio p = { x with await := false } ∧
        (List.range 3).map (fun i => t.rd (aLastTx p i)) = words ((x.due.bind (·.inst)).getD stamp) (s.qual false)) ∧
      (x.await = false → x.recv = true → Happens (.radioSfd p stamp) s
        { flds := [aLastRx p 0, aLastRx p 1, aLastRx p 2], blks := [.radio p] } fun t =>
        t.radio p = { x with sfd := some (stamp - s.a (aRxLat p), s.qual (s.sfdUncal p)) } ∧
        (List.range 3).map (fun i => t.rd (aLastRx p i)) = words (stamp - s.a (aRxLat p)) (s.qual (s.sfdUncal p))) ∧
      (x.await = true → Happens (.sfdMiss p) s { flds := [aEvt p], blks := [.radio p] } fun t =>
        t.bit (aEvt p) 8 = true ∧ t.radio p = { x with await := false }) ∧
      (x.await = false → Happens (.sfdMiss p) s {} fun _ => True) ∧
      (∀ f ∈ x.due.toList,
        ((∃ i ∈ f.inst.toList, s.commitDue p i = false) → Happens (.radioTxCommit p) s {} fun _ => True) ∧
        ((∀ i ∈ f.inst.toList, s.commitDue p i = true ∧ s.nowStamp + s.a (aTxLat p) ≤ i) → x.armed = true →
          let at_ := f.inst.getD (s.nowStamp + 1024 + s.a (aTxLat p))
          Happens (.radioTxCommit p) s { blks := [.radio p] } fun t => t.radio p = { x with
            due := some { f with inst := some at_ }, armed := false, await := true, sent := true, recv := false
            txt := some (at_ - s.a (aTxLat p)), placed := if f.kind = .beacon then some at_ else x.placed }) ∧
        ((∃ i ∈ f.inst.toList, s.commitDue p i = true ∧ (x.armed = false ∨ i < s.nowStamp + s.a (aTxLat p))) → x.sent = false →
          Happens (.radioTxCommit p) s (reports.and { flds := [aTxLate p, aEvt p], blks := [.radio p] }) fun t =>
          (t.radio p).due = none ∧ t.rd (aTxLate p) = min (s.rd (aTxLate p) + 1) 65535 ∧ t.bit (aEvt p) 3 = true)) ∧
      (x.due = none → s.linkPort p = false → (∀ f ∈ x.queue, f.kind = .link) → ∀ f ∈ x.queue.head?.toList,
        Happens (.radioTxLoad p) s { flds := run, blks := [.radio p] } fun t => (t.radio p).due = some f ∧ (t.radio p).queue = x.queue.erase f ∧
          (s.aon (aMode p) = false → st = 1 → starts 3 t)) ∧
      (let r := 24 + p.val
       let i := s.rd (rRidx r)
       let n := min (s.itemSize r i) (s.fill r)
       let ws := s.ringGet r i (n / 4)
       let h := ws.getD 0 0
       let bs := (bytesOf (ws.drop 1)).take (h % 2 ^ 16)
       s.on (rEn r) = true → 4 ≤ s.fill r →
        (h / 2 ^ 24 = 1 → h / 2 ^ 16 % 256 = 0 → 4 + h % 2 ^ 16 ≤ n → 1 ≤ bs.length → bs.length ≤ 125 →
          Happens (.radioTxItem p) s { flds := [rRidx r], blks := [.radio p] } fun t =>
            t.radio p = { x with queue := x.queue ++ [{ kind := .host, inst := none, data := bs }] } ∧ t.rd (rRidx r) = (i + n) % 2 ^ 32) ∧
        (3 ≤ h / 2 ^ 24 ∨ h / 2 ^ 24 = 0 → Happens (.radioTxItem p) s
          (reports.and { flds := [rRidx r, aTxBad p, aEvt p], blks := [.fresh] }) fun t =>
          t.rd (rRidx r) = (i + n) % 2 ^ 32 ∧ t.rd (aTxBad p) = min (s.rd (aTxBad p) + 1) 65535 ∧ t.bit (aEvt p) 5 = true))) ∧
    (s.bankUp 4 = true → s.mode ∉ [0, 1, 2, 9, 11] → s.aon (aEn p) = false → s.radioRstPad p = .low) ∧
    (s.bankUp 4 = true → s.mode ∉ [0, 1, 2, 9, 11] → s.aon (aEn p) = true → s.radioRstPad p = .drive x.rst) ∧
    (s.bankUp 4 = true → s.mode ∈ [2, 9] → s.radioRstPad p = .input 0) ∧
    (s.bankUp 4 = false ∨ s.mode ∈ [0, 1, 11] → s.radioRstPad p = .off)

/-- At a running slot without a wait the word at PC is executed and PC moves on: XFER and XFER_A send a byte, place the received one in A
and hold or raise CS_N; SEND_FRAME sends the due frame and its FCS, after its length with LENBYTE; RECV_FRAME makes a new item of A bytes,
LQI and RSSI as META says; POST publishes it with the last receive SFD, or sets NOSFD, or RX_BAD for an impossible length; LOADA, ANDA,
JUMP, WAIT_IRQ, DELAY, RESET and ARM_TXT act on A, PC, T and the pins; END ends the slot and takes the next start; HALT halts with its code,
an undefined word with PC kept. The ends of WAIT_IRQ and DELAY let the engine go on, T telling a timeout. Where it rests on choices of the
model: log entries 131, 132, 133, 134, 141. (R712, R714, R716, R717, spec/16_sweeps_radio.md) -/
def Obligations.ScriptEngine : Prop :=
  ∀ (p : Fin 8) (miso : Byte) (bytes : List Byte) (lqi rssi : Byte) (irq : Bool) (s : State),
    let x := s.radio p
    let w := s.word p
    let pc := (s.rd (aPc p) + 1) % 256
    let now := fun (op : Nat) => s.atInstr p = true ∧ scriptOk w = true ∧ w / 2 ^ 24 = op
    let gets := fun (y : RadS) (t : State) => t.radio p = y ∧ t.rd (aPc p) = pc
    let here : Touch := { flds := [aPc p], blks := [.radio p] }
    let halts := (s.giveTouch (16 + p) 5).and { flds := [aState p, aEvt p, aTxLate p, aHaltCode p, aPc p], blks := [.radio p] }
    let halted := fun (t : State) => t.rd (aState p) = 3 ∧ (t.radio p).starts = 0 ∧ (t.radio p).queue = [] ∧
      (x.armed = true → x.due ≠ none → t.rd (aTxLate p) = min (s.rd (aTxLate p) + 1) 65535 ∧ t.bit (aEvt p) 3 = true ∧ (t.radio p).due = none)
    let add := if s.aon (aMode p) then 0 else if s.rd (aSlot p) = 0 ∨ (s.rd (aSlot p) = 5 ∧ s.noTx p = true) then 2 else
      if s.rd (aSlot p) = 3 then 16 else 0
    (now 0 → Happens (.scriptEnd p) s { flds := [aState p, aSlot p, aPc p], blks := [.radio p] } fun t =>
      (lowestBit (x.starts ||| add) = none → t.rd (aState p) = 1 ∧ (t.radio p).starts = x.starts ||| add) ∧
      ∀ j ∈ (lowestBit (x.starts ||| add)).toList, t.rd (aState p) = 2 ∧ t.rd (aSlot p) = j ∧ t.rd (aPc p) = s.a (aEntry p j) % 256 ∧
        (t.radio p).starts = (x.starts ||| add) - 2 ^ j) ∧
    (now 1 → Happens (.scriptXfer p miso) s here (gets { x with a := miso.toNat, cs := w.testBit 8, mosi := [w % 256], bytes := 1 })) ∧
    (now 2 → Happens (.scriptXferA p miso) s here (gets { x with a := miso.toNat, cs := w.testBit 8, mosi := [x.a % 256], bytes := 1 })) ∧
    (now 3 → let out := match x.due with
        | some f => (if w.testBit 9 then [(f.data.length + 2) % 256] else []) ++ f.data ++ fcs f.data
        | none => []
      Happens (.scriptSendFrame p) s here (gets { x with cs := w.testBit 8, mosi := out, bytes := out.length })) ∧
    (now 4 → bytes.length = x.a → Happens (.scriptRecvFrame p bytes lqi rssi) s { here with blks := [.radio p, .fresh] } fun t =>
      t.rd (aPc p) = pc ∧ t.radio p = { x with cs := w.testBit 8, mosi := [], bytes := x.a + w / 2 ^ 9 % 4, rx := (t.radio p).rx } ∧ (∀ i ∈ (t.radio p).rx.toList,
        i.psdu = bytes.map (·.toNat) ∧ (1 ≤ w / 2 ^ 9 % 4 → i.lqi = lqi.toNat) ∧ (w / 2 ^ 9 % 4 = 2 → i.rssi = rssi.toNat)) ∧
      (t.radio p).rx.isSome = true) ∧
    (now 5 →
      (x.rx = none → Happens (.scriptPost p) s here (gets x)) ∧
      (∀ i ∈ x.rx.toList,
        (x.sfd = none → Happens (.scriptPost p) s { here with flds := [aPc p, aNosfd p, aEvt p] } fun t => gets { x with rx := none } t ∧
          t.rd (aNosfd p) = min (s.rd (aNosfd p) + 1) 65535 ∧ t.bit (aEvt p) 0 = true) ∧
        ∀ aq ∈ x.sfd.toList,
          (i.psdu.length < 3 ∨ 127 < i.psdu.length → Happens (.scriptPost p) s { here with flds := [aPc p, aEvt p] } fun t =>
            gets { x with rx := none } t ∧ t.bit (aEvt p) 1 = true) ∧
          (let it := varItem 1 ((time96 (ofStamp aq.1) aq.2).flatMap le32 ++ [i.lqi, i.rssi, i.psdu.length, 0] ++ i.psdu.take (i.psdu.length - 2))
           3 ≤ i.psdu.length → i.psdu.length ≤ 127 →
            (s.aon (aRaw p) = true ∨ s.linkTakes p (i.psdu.take (i.psdu.length - 2)) = false → s.accepts (16 + p) it.length →
              Happens (.scriptPost p) s
                { flds := [aPc p, rWidx (16 + p), pBadHdr p, pEvt p], blks := [.port, .radio p, .ptn], bytes := s.itemBytes (16 + p) it.length }
                fun t => gets { x with rx := none } t ∧ Stored (16 + p) it s t ∧
                  (s.ptlOf (i.psdu.take (i.psdu.length - 2)) = none → t.ptn = s.ptn ∧ t.rd (pBadHdr p) = s.rd (pBadHdr p))) ∧
            (s.aon (aRaw p) = false → s.linkTakes p (i.psdu.take (i.psdu.length - 2)) = true →
              Happens (.scriptPost p) s here (gets { x with rx := none }))))) ∧
    (now 6 → Happens (.scriptLoada p) s here (gets { x with a := w % 256 })) ∧
    (now 7 → Happens (.scriptAnda p) s here (gets { x with a := x.a &&& (w % 256) })) ∧
    (now 8 → Happens (.scriptJump p) s { flds := [aPc p] } fun t =>
      let c := w / 2 ^ 8 % 8
      t.rd (aPc p) = if c = 0 ∨ (c = 1 ∧ x.a = 0) ∨ (c = 2 ∧ x.a ≠ 0) ∨ (c = 3 ∧ x.t = true) then w % 256 else pc) ∧
    (now 9 → Happens (.scriptWaitIrq p) s here (gets { x with wait := true })) ∧
    (now 10 → Happens (.scriptDelay p) s here (gets { x with delay := true })) ∧
    (now 11 → Happens (.scriptReset p) s here (gets { x with rst := w.testBit 0 })) ∧
    (now 12 → Happens (.scriptArmTxt p) s here (gets { x with armed := true })) ∧
    (now 13 → Happens (.scriptHalt p) s halts fun t => halted t ∧ t.rd (aHaltCode p) = w % 256 ∧ t.bit (aEvt p) 7 = true ∧
      t.rd (aPc p) = s.rd (aPc p) % 256) ∧
    (s.atInstr p = true → scriptOk w = false → Happens (.scriptBadOp p) s halts fun t => halted t ∧ t.bit (aEvt p) 6 = true ∧
      t.rd (aPc p) = s.rd (aPc p)) ∧
    (s.radioOn p = true → x.wait = true → Happens (.scriptWaitEnd p irq) s { blks := [.radio p] } fun t =>
      t.radio p = { x with wait := false, t := !irq }) ∧
    (s.radioOn p = true → x.delay = true → Happens (.scriptDelayEnd p) s { blks := [.radio p] } fun t => t.radio p = { x with delay := false }) ∧
    (s.atInstr p = false → Happens (.scriptEnd p) s {} (fun _ => True) ∧ Happens (.scriptBadOp p) s {} fun _ => True)

/-! ### The whole hub -/

/-- For every dictionary request that can be presented, in each of the seven defined forms and with every operand at every value: the body
that carries it (Q0, and the LEN and value words where the form has them) is read back as that command and no other. (R615, R617, R620,
spec/14_dictionary_fieldbus.md) -/
def Obligations.DtpBodiesSpellTheirCommand : Prop :=
  ∀ (i : Instr) (slot : Slot) (ws : List Nat), i.wf = true → dtpBody i = some (slot, ws) → dtpOf slot ws = some i

/-- From every state whose Shared Buffer lists rising addresses below 1 MiB and no zero byte, each step of the hub, whatever command is in
front and on an empty queue too, gives a state of which the same holds. (R501, spec/12_mailboxes_rings.md) -/
def Obligations.SharedBufferStaysCanonical : Prop :=
  ∀ (s t : State), s.memOk = true → step s = .next t → t.memOk = true

/-- State.reset: the Shared Buffer is in canonical form and each of its bytes reads 0 (that an unwritten byte reads 0 is the model's choice,
log entry 6); no command waits, so every waiting command is well formed. (R501, spec/12_mailboxes_rings.md) -/
def Obligations.ResetMeetsTheInvariants : Prop :=
  State.reset.memOk = true ∧ State.reset.queueOk = true ∧ State.reset.pending = [] ∧ ∀ a : Nat, State.reset.sbyte a = 0
end

