-- ==== Sys2Proof/Laws/Assoc.lean ====
section
/-! SUPPORT. The laws of sparse data: a key reads back what was put, every other key is as before, and the canonical form is kept. -/

namespace Sys2Proof.Machine.Assoc

variable {V : Type}

theorem find_erase_same (k : Nat) (l : List (Nat × V)) : find k (erase k l) = none := by
  induction l with
  | nil => rfl
  | cons p t ih =>
    obtain ⟨b, v⟩ := p
    simp only [erase]
    split
    · exact ih
    · next h => simp [find, h, ih]

theorem find_erase_ne {j k : Nat} (h : j ≠ k) (l : List (Nat × V)) : find j (erase k l) = find j l := by
  induction l with
  | nil => rfl
  | cons p t ih =>
    obtain ⟨b, v⟩ := p
    simp only [erase, find]
    split
    · next hb => subst hb; simp [Ne.symm h, ih]
    · simp [find, ih]

theorem find_place_same (k : Nat) (v : V) (l : List (Nat × V)) (h : find k l = none) : find k (place k v l) = some v := by
  induction l with
  | nil => simp [place, find]
  | cons p t ih =>
    obtain ⟨b, w⟩ := p
    simp only [find] at h
    split at h
    · cases h
    · next hb =>
      simp only [place]
      split
      · simp [find]
      · simp [find, hb, ih h]

theorem find_place_ne {j k : Nat} (h : j ≠ k) (v : V) (l : List (Nat × V)) : find j (place k v l) = find j l := by
  induction l with
  | nil => simp [place, find, Ne.symm h]
  | cons p t ih =>
    obtain ⟨b, w⟩ := p
    simp only [place]
    split
    · simp [find, Ne.symm h]
    · simp [find, ih]

@[simp] theorem get_put_same [DecidableEq V] (d : V) (k : Nat) (v : V) (l : List (Nat × V)) : get d k (put d k v l) = v := by
  unfold get put
  split
  · next h => simp [find_erase_same, h]
  · simp [find_place_same _ _ _ (find_erase_same k l)]

theorem get_put_ne [DecidableEq V] (d e : V) {j k : Nat} (h : j ≠ k) (v : V) (l : List (Nat × V)) : get e j (put d k v l) = get e j l := by
  unfold get put
  split
  · rw [find_erase_ne h]
  · rw [find_place_ne h, find_erase_ne h]

theorem allAbove_erase {a : Nat} (k : Nat) (l : List (Nat × V)) (h : allAbove a l = true) : allAbove a (erase k l) = true := by
  induction l with
  | nil => rfl
  | cons p t ih =>
    obtain ⟨b, v⟩ := p
    simp only [allAbove, Bool.and_eq_true, decide_eq_true_eq] at h
    simp only [erase]
    split
    · exact ih h.2
    · simp [allAbove, h.1, ih h.2]

theorem allAbove_place {a k : Nat} (hk : a < k) (v : V) (l : List (Nat × V)) (h : allAbove a l = true) :
    allAbove a (place k v l) = true := by
  induction l with
  | nil => simp [place, allAbove, hk]
  | cons p t ih =>
    obtain ⟨b, w⟩ := p
    simp only [allAbove, Bool.and_eq_true, decide_eq_true_eq] at h
    simp only [place]
    split
    · simp [allAbove, hk, h.1, h.2]
    · simp [allAbove, h.1, ih h.2]

theorem allAbove_mono {a b : Nat} (hab : a ≤ b) (l : List (Nat × V)) (h : allAbove b l = true) : allAbove a l = true := by
  induction l with
  | nil => rfl
  | cons p t ih =>
    obtain ⟨c, w⟩ := p
    simp only [allAbove, Bool.and_eq_true, decide_eq_true_eq] at h ⊢
    exact ⟨by omega, ih h.2⟩

theorem wf_erase [DecidableEq V] (d : V) (k : Nat) (l : List (Nat × V)) (h : wf d l = true) : wf d (erase k l) = true := by
  induction l with
  | nil => rfl
  | cons p t ih =>
    obtain ⟨b, v⟩ := p
    simp only [wf, Bool.and_eq_true] at h
    simp only [erase]
    split
    · exact ih h.2
    · simp only [wf, Bool.and_eq_true]
      exact ⟨⟨allAbove_erase k t h.1.1, h.1.2⟩, ih h.2⟩

theorem wf_place [DecidableEq V] (d : V) (k : Nat) (v : V) (hv : v ≠ d) (l : List (Nat × V)) (hk : find k l = none) (h : wf d l = true) :
    wf d (place k v l) = true := by
  induction l with
  | nil => simp [place, wf, allAbove, hv]
  | cons p t ih =>
    obtain ⟨b, w⟩ := p
    simp only [find] at hk
    split at hk
    · cases hk
    · next hb =>
      simp only [wf, Bool.and_eq_true] at h
      simp only [place]
      split
      · next hlt =>
        simp only [wf, allAbove, Bool.and_eq_true, decide_eq_true_eq] at h ⊢
        exact ⟨⟨⟨hlt, allAbove_mono (by omega) t h.1.1⟩, hv⟩, h⟩
      · simp only [wf, Bool.and_eq_true]
        exact ⟨⟨allAbove_place (by omega) v t h.1.1, h.1.2⟩, ih hk h.2⟩

/-- Putting a value keeps the canonical form. -/
theorem wf_put [DecidableEq V] (d : V) (k : Nat) (v : V) (l : List (Nat × V)) (h : wf d l = true) : wf d (put d k v l) = true := by
  unfold put
  split
  · exact wf_erase d k l h
  · next hv => exact wf_place d k v hv _ (find_erase_same k l) (wf_erase d k l h)

theorem all_erase (k : Nat) (p : Nat × V → Bool) (l : List (Nat × V)) (h : l.all p = true) : (erase k l).all p = true := by
  induction l with
  | nil => rfl
  | cons q t ih =>
    obtain ⟨b, v⟩ := q
    simp only [List.all_cons, Bool.and_eq_true] at h
    simp only [erase]
    split
    · exact ih h.2
    · simp [List.all_cons, h.1, ih h.2]

theorem all_place (k : Nat) (v : V) (p : Nat × V → Bool) (hp : p (k, v) = true) (l : List (Nat × V)) (h : l.all p = true) :
    (place k v l).all p = true := by
  induction l with
  | nil => simp [place, hp]
  | cons q t ih =>
    obtain ⟨b, w⟩ := q
    simp only [List.all_cons, Bool.and_eq_true] at h
    simp only [place]
    split
    · simp [List.all_cons, hp, h.1, h.2]
    · simp [List.all_cons, h.1, ih h.2]

/-- What holds of every entry and of the new one holds of every entry after. -/
theorem all_put [DecidableEq V] (d : V) (k : Nat) (v : V) (p : Nat × V → Bool) (hp : p (k, v) = true) (l : List (Nat × V)) (h : l.all p = true) :
    (put d k v l).all p = true := by
  unfold put
  split
  · exact all_erase k p l h
  · exact all_place k v p hp _ (all_erase k p l h)

end Sys2Proof.Machine.Assoc
end

