-- ==== Sys2Proof/Laws/State.lean ====
section
/-! SUPPORT. The small laws of the state: what each update leaves of every field, and that a register field reads back what was written
while every other reads as before. -/

namespace Sys2Proof.Machine

/-! ### wr -/

@[simp] theorem State.wr_sbuf (s : State) (f : Fld) (v : Nat) : (s.wr f v).sbuf = s.sbuf := rfl
@[simp] theorem State.wr_answer (s : State) (f : Fld) (v : Nat) : (s.wr f v).answer = s.answer := rfl
@[simp] theorem State.wr_fresh (s : State) (f : Fld) (v : Nat) : (s.wr f v).fresh = s.fresh := rfl
@[simp] theorem State.wr_ended (s : State) (f : Fld) (v : Nat) : (s.wr f v).ended = s.ended := rfl
@[simp] theorem State.wr_ringSeq (s : State) (f : Fld) (v : Nat) : (s.wr f v).ringSeq = s.ringSeq := rfl
@[simp] theorem State.wr_port (s : State) (f : Fld) (v : Nat) : (s.wr f v).port = s.port := rfl
@[simp] theorem State.wr_htm (s : State) (f : Fld) (v : Nat) : (s.wr f v).htm = s.htm := rfl
@[simp] theorem State.wr_glb (s : State) (f : Fld) (v : Nat) : (s.wr f v).glb = s.glb := rfl
@[simp] theorem State.wr_keep (s : State) (f : Fld) (v : Nat) : (s.wr f v).keep = s.keep := rfl
@[simp] theorem State.wr_icu (s : State) (f : Fld) (v : Nat) : (s.wr f v).icu = s.icu := rfl
@[simp] theorem State.wr_mbx (s : State) (f : Fld) (v : Nat) : (s.wr f v).mbx = s.mbx := rfl
@[simp] theorem State.wr_hst (s : State) (f : Fld) (v : Nat) : (s.wr f v).hst = s.hst := rfl
@[simp] theorem State.wr_dict (s : State) (f : Fld) (v : Nat) : (s.wr f v).dict = s.dict := rfl
@[simp] theorem State.wr_can (s : State) (f : Fld) (v : Nat) : (s.wr f v).can = s.can := rfl
@[simp] theorem State.wr_seq (s : State) (f : Fld) (v : Nat) : (s.wr f v).seq = s.seq := rfl
@[simp] theorem State.wr_mon (s : State) (f : Fld) (v : Nat) : (s.wr f v).mon = s.mon := rfl
@[simp] theorem State.wr_trm (s : State) (f : Fld) (v : Nat) : (s.wr f v).trm = s.trm := rfl
@[simp] theorem State.wr_stp (s : State) (f : Fld) (v : Nat) : (s.wr f v).stp = s.stp := rfl
@[simp] theorem State.wr_tou (s : State) (f : Fld) (v : Nat) : (s.wr f v).tou = s.tou := rfl
@[simp] theorem State.wr_mil (s : State) (f : Fld) (v : Nat) : (s.wr f v).mil = s.mil := rfl
@[simp] theorem State.wr_cal (s : State) (f : Fld) (v : Nat) : (s.wr f v).cal = s.cal := rfl
@[simp] theorem State.wr_gtm (s : State) (f : Fld) (v : Nat) : (s.wr f v).gtm = s.gtm := rfl
@[simp] theorem State.wr_ptn (s : State) (f : Fld) (v : Nat) : (s.wr f v).ptn = s.ptn := rfl
@[simp] theorem State.wr_swp (s : State) (f : Fld) (v : Nat) : (s.wr f v).swp = s.swp := rfl
@[simp] theorem State.wr_rad (s : State) (f : Fld) (v : Nat) : (s.wr f v).rad = s.rad := rfl
@[simp] theorem State.wr_pending (s : State) (f : Fld) (v : Nat) : (s.wr f v).pending = s.pending := rfl

/-! ### say -/

@[simp] theorem State.say_regs (s : State) (c : Code) (d : List Nat) : (s.say c d).regs = s.regs := rfl
@[simp] theorem State.say_sbuf (s : State) (c : Code) (d : List Nat) : (s.say c d).sbuf = s.sbuf := rfl
@[simp] theorem State.say_fresh (s : State) (c : Code) (d : List Nat) : (s.say c d).fresh = s.fresh := rfl
@[simp] theorem State.say_ended (s : State) (c : Code) (d : List Nat) : (s.say c d).ended = s.ended := rfl
@[simp] theorem State.say_ringSeq (s : State) (c : Code) (d : List Nat) : (s.say c d).ringSeq = s.ringSeq := rfl
@[simp] theorem State.say_port (s : State) (c : Code) (d : List Nat) : (s.say c d).port = s.port := rfl
@[simp] theorem State.say_htm (s : State) (c : Code) (d : List Nat) : (s.say c d).htm = s.htm := rfl
@[simp] theorem State.say_glb (s : State) (c : Code) (d : List Nat) : (s.say c d).glb = s.glb := rfl
@[simp] theorem State.say_keep (s : State) (c : Code) (d : List Nat) : (s.say c d).keep = s.keep := rfl
@[simp] theorem State.say_icu (s : State) (c : Code) (d : List Nat) : (s.say c d).icu = s.icu := rfl
@[simp] theorem State.say_mbx (s : State) (c : Code) (d : List Nat) : (s.say c d).mbx = s.mbx := rfl
@[simp] theorem State.say_hst (s : State) (c : Code) (d : List Nat) : (s.say c d).hst = s.hst := rfl
@[simp] theorem State.say_dict (s : State) (c : Code) (d : List Nat) : (s.say c d).dict = s.dict := rfl
@[simp] theorem State.say_can (s : State) (c : Code) (d : List Nat) : (s.say c d).can = s.can := rfl
@[simp] theorem State.say_seq (s : State) (c : Code) (d : List Nat) : (s.say c d).seq = s.seq := rfl
@[simp] theorem State.say_mon (s : State) (c : Code) (d : List Nat) : (s.say c d).mon = s.mon := rfl
@[simp] theorem State.say_trm (s : State) (c : Code) (d : List Nat) : (s.say c d).trm = s.trm := rfl
@[simp] theorem State.say_stp (s : State) (c : Code) (d : List Nat) : (s.say c d).stp = s.stp := rfl
@[simp] theorem State.say_tou (s : State) (c : Code) (d : List Nat) : (s.say c d).tou = s.tou := rfl
@[simp] theorem State.say_mil (s : State) (c : Code) (d : List Nat) : (s.say c d).mil = s.mil := rfl
@[simp] theorem State.say_cal (s : State) (c : Code) (d : List Nat) : (s.say c d).cal = s.cal := rfl
@[simp] theorem State.say_gtm (s : State) (c : Code) (d : List Nat) : (s.say c d).gtm = s.gtm := rfl
@[simp] theorem State.say_ptn (s : State) (c : Code) (d : List Nat) : (s.say c d).ptn = s.ptn := rfl
@[simp] theorem State.say_swp (s : State) (c : Code) (d : List Nat) : (s.say c d).swp = s.swp := rfl
@[simp] theorem State.say_rad (s : State) (c : Code) (d : List Nat) : (s.say c d).rad = s.rad := rfl
@[simp] theorem State.say_pending (s : State) (c : Code) (d : List Nat) : (s.say c d).pending = s.pending := rfl

/-! ### setByte -/

@[simp] theorem State.setByte_regs (s : State) (a : Nat) (b : BitVec 8) : (s.setByte a b).regs = s.regs := rfl
@[simp] theorem State.setByte_answer (s : State) (a : Nat) (b : BitVec 8) : (s.setByte a b).answer = s.answer := rfl
@[simp] theorem State.setByte_fresh (s : State) (a : Nat) (b : BitVec 8) : (s.setByte a b).fresh = s.fresh := rfl
@[simp] theorem State.setByte_ended (s : State) (a : Nat) (b : BitVec 8) : (s.setByte a b).ended = s.ended := rfl
@[simp] theorem State.setByte_ringSeq (s : State) (a : Nat) (b : BitVec 8) : (s.setByte a b).ringSeq = s.ringSeq := rfl
@[simp] theorem State.setByte_port (s : State) (a : Nat) (b : BitVec 8) : (s.setByte a b).port = s.port := rfl
@[simp] theorem State.setByte_htm (s : State) (a : Nat) (b : BitVec 8) : (s.setByte a b).htm = s.htm := rfl
@[simp] theorem State.setByte_glb (s : State) (a : Nat) (b : BitVec 8) : (s.setByte a b).glb = s.glb := rfl
@[simp] theorem State.setByte_keep (s : State) (a : Nat) (b : BitVec 8) : (s.setByte a b).keep = s.keep := rfl
@[simp] theorem State.setByte_icu (s : State) (a : Nat) (b : BitVec 8) : (s.setByte a b).icu = s.icu := rfl
@[simp] theorem State.setByte_mbx (s : State) (a : Nat) (b : BitVec 8) : (s.setByte a b).mbx = s.mbx := rfl
@[simp] theorem State.setByte_hst (s : State) (a : Nat) (b : BitVec 8) : (s.setByte a b).hst = s.hst := rfl
@[simp] theorem State.setByte_dict (s : State) (a : Nat) (b : BitVec 8) : (s.setByte a b).dict = s.dict := rfl
@[simp] theorem State.setByte_can (s : State) (a : Nat) (b : BitVec 8) : (s.setByte a b).can = s.can := rfl
@[simp] theorem State.setByte_seq (s : State) (a : Nat) (b : BitVec 8) : (s.setByte a b).seq = s.seq := rfl
@[simp] theorem State.setByte_mon (s : State) (a : Nat) (b : BitVec 8) : (s.setByte a b).mon = s.mon := rfl
@[simp] theorem State.setByte_trm (s : State) (a : Nat) (b : BitVec 8) : (s.setByte a b).trm = s.trm := rfl
@[simp] theorem State.setByte_stp (s : State) (a : Nat) (b : BitVec 8) : (s.setByte a b).stp = s.stp := rfl
@[simp] theorem State.setByte_tou (s : State) (a : Nat) (b : BitVec 8) : (s.setByte a b).tou = s.tou := rfl
@[simp] theorem State.setByte_mil (s : State) (a : Nat) (b : BitVec 8) : (s.setByte a b).mil = s.mil := rfl
@[simp] theorem State.setByte_cal (s : State) (a : Nat) (b : BitVec 8) : (s.setByte a b).cal = s.cal := rfl
@[simp] theorem State.setByte_gtm (s : State) (a : Nat) (b : BitVec 8) : (s.setByte a b).gtm = s.gtm := rfl
@[simp] theorem State.setByte_ptn (s : State) (a : Nat) (b : BitVec 8) : (s.setByte a b).ptn = s.ptn := rfl
@[simp] theorem State.setByte_swp (s : State) (a : Nat) (b : BitVec 8) : (s.setByte a b).swp = s.swp := rfl
@[simp] theorem State.setByte_rad (s : State) (a : Nat) (b : BitVec 8) : (s.setByte a b).rad = s.rad := rfl
@[simp] theorem State.setByte_pending (s : State) (a : Nat) (b : BitVec 8) : (s.setByte a b).pending = s.pending := rfl

/-! ### setMill -/

@[simp] theorem State.setMill_regs (s : State) (m : Nat) (x : MillS) : (s.setMill m x).regs = s.regs := rfl
@[simp] theorem State.setMill_sbuf (s : State) (m : Nat) (x : MillS) : (s.setMill m x).sbuf = s.sbuf := rfl
@[simp] theorem State.setMill_answer (s : State) (m : Nat) (x : MillS) : (s.setMill m x).answer = s.answer := rfl
@[simp] theorem State.setMill_fresh (s : State) (m : Nat) (x : MillS) : (s.setMill m x).fresh = s.fresh := rfl
@[simp] theorem State.setMill_ended (s : State) (m : Nat) (x : MillS) : (s.setMill m x).ended = s.ended := rfl
@[simp] theorem State.setMill_ringSeq (s : State) (m : Nat) (x : MillS) : (s.setMill m x).ringSeq = s.ringSeq := rfl
@[simp] theorem State.setMill_port (s : State) (m : Nat) (x : MillS) : (s.setMill m x).port = s.port := rfl
@[simp] theorem State.setMill_htm (s : State) (m : Nat) (x : MillS) : (s.setMill m x).htm = s.htm := rfl
@[simp] theorem State.setMill_glb (s : State) (m : Nat) (x : MillS) : (s.setMill m x).glb = s.glb := rfl
@[simp] theorem State.setMill_keep (s : State) (m : Nat) (x : MillS) : (s.setMill m x).keep = s.keep := rfl
@[simp] theorem State.setMill_icu (s : State) (m : Nat) (x : MillS) : (s.setMill m x).icu = s.icu := rfl
@[simp] theorem State.setMill_mbx (s : State) (m : Nat) (x : MillS) : (s.setMill m x).mbx = s.mbx := rfl
@[simp] theorem State.setMill_hst (s : State) (m : Nat) (x : MillS) : (s.setMill m x).hst = s.hst := rfl
@[simp] theorem State.setMill_dict (s : State) (m : Nat) (x : MillS) : (s.setMill m x).dict = s.dict := rfl
@[simp] theorem State.setMill_can (s : State) (m : Nat) (x : MillS) : (s.setMill m x).can = s.can := rfl
@[simp] theorem State.setMill_seq (s : State) (m : Nat) (x : MillS) : (s.setMill m x).seq = s.seq := rfl
@[simp] theorem State.setMill_mon (s : State) (m : Nat) (x : MillS) : (s.setMill m x).mon = s.mon := rfl
@[simp] theorem State.setMill_trm (s : State) (m : Nat) (x : MillS) : (s.setMill m x).trm = s.trm := rfl
@[simp] theorem State.setMill_stp (s : State) (m : Nat) (x : MillS) : (s.setMill m x).stp = s.stp := rfl
@[simp] theorem State.setMill_tou (s : State) (m : Nat) (x : MillS) : (s.setMill m x).tou = s.tou := rfl
@[simp] theorem State.setMill_cal (s : State) (m : Nat) (x : MillS) : (s.setMill m x).cal = s.cal := rfl
@[simp] theorem State.setMill_gtm (s : State) (m : Nat) (x : MillS) : (s.setMill m x).gtm = s.gtm := rfl
@[simp] theorem State.setMill_ptn (s : State) (m : Nat) (x : MillS) : (s.setMill m x).ptn = s.ptn := rfl
@[simp] theorem State.setMill_swp (s : State) (m : Nat) (x : MillS) : (s.setMill m x).swp = s.swp := rfl
@[simp] theorem State.setMill_rad (s : State) (m : Nat) (x : MillS) : (s.setMill m x).rad = s.rad := rfl
@[simp] theorem State.setMill_pending (s : State) (m : Nat) (x : MillS) : (s.setMill m x).pending = s.pending := rfl

/-! ### setTouEnt -/

@[simp] theorem State.setTouEnt_regs (s : State) (n e : Nat) (x : TouEnt) : (s.setTouEnt n e x).regs = s.regs := rfl
@[simp] theorem State.setTouEnt_sbuf (s : State) (n e : Nat) (x : TouEnt) : (s.setTouEnt n e x).sbuf = s.sbuf := rfl
@[simp] theorem State.setTouEnt_answer (s : State) (n e : Nat) (x : TouEnt) : (s.setTouEnt n e x).answer = s.answer := rfl
@[simp] theorem State.setTouEnt_fresh (s : State) (n e : Nat) (x : TouEnt) : (s.setTouEnt n e x).fresh = s.fresh := rfl
@[simp] theorem State.setTouEnt_ended (s : State) (n e : Nat) (x : TouEnt) : (s.setTouEnt n e x).ended = s.ended := rfl
@[simp] theorem State.setTouEnt_ringSeq (s : State) (n e : Nat) (x : TouEnt) : (s.setTouEnt n e x).ringSeq = s.ringSeq := rfl
@[simp] theorem State.setTouEnt_port (s : State) (n e : Nat) (x : TouEnt) : (s.setTouEnt n e x).port = s.port := rfl
@[simp] theorem State.setTouEnt_htm (s : State) (n e : Nat) (x : TouEnt) : (s.setTouEnt n e x).htm = s.htm := rfl
@[simp] theorem State.setTouEnt_glb (s : State) (n e : Nat) (x : TouEnt) : (s.setTouEnt n e x).glb = s.glb := rfl
@[simp] theorem State.setTouEnt_keep (s : State) (n e : Nat) (x : TouEnt) : (s.setTouEnt n e x).keep = s.keep := rfl
@[simp] theorem State.setTouEnt_icu (s : State) (n e : Nat) (x : TouEnt) : (s.setTouEnt n e x).icu = s.icu := rfl
@[simp] theorem State.setTouEnt_mbx (s : State) (n e : Nat) (x : TouEnt) : (s.setTouEnt n e x).mbx = s.mbx := rfl
@[simp] theorem State.setTouEnt_hst (s : State) (n e : Nat) (x : TouEnt) : (s.setTouEnt n e x).hst = s.hst := rfl
@[simp] theorem State.setTouEnt_dict (s : State) (n e : Nat) (x : TouEnt) : (s.setTouEnt n e x).dict = s.dict := rfl
@[simp] theorem State.setTouEnt_can (s : State) (n e : Nat) (x : TouEnt) : (s.setTouEnt n e x).can = s.can := rfl
@[simp] theorem State.setTouEnt_seq (s : State) (n e : Nat) (x : TouEnt) : (s.setTouEnt n e x).seq = s.seq := rfl
@[simp] theorem State.setTouEnt_mon (s : State) (n e : Nat) (x : TouEnt) : (s.setTouEnt n e x).mon = s.mon := rfl
@[simp] theorem State.setTouEnt_trm (s : State) (n e : Nat) (x : TouEnt) : (s.setTouEnt n e x).trm = s.trm := rfl
@[simp] theorem State.setTouEnt_stp (s : State) (n e : Nat) (x : TouEnt) : (s.setTouEnt n e x).stp = s.stp := rfl
@[simp] theorem State.setTouEnt_mil (s : State) (n e : Nat) (x : TouEnt) : (s.setTouEnt n e x).mil = s.mil := rfl
@[simp] theorem State.setTouEnt_cal (s : State) (n e : Nat) (x : TouEnt) : (s.setTouEnt n e x).cal = s.cal := rfl
@[simp] theorem State.setTouEnt_gtm (s : State) (n e : Nat) (x : TouEnt) : (s.setTouEnt n e x).gtm = s.gtm := rfl
@[simp] theorem State.setTouEnt_ptn (s : State) (n e : Nat) (x : TouEnt) : (s.setTouEnt n e x).ptn = s.ptn := rfl
@[simp] theorem State.setTouEnt_swp (s : State) (n e : Nat) (x : TouEnt) : (s.setTouEnt n e x).swp = s.swp := rfl
@[simp] theorem State.setTouEnt_rad (s : State) (n e : Nat) (x : TouEnt) : (s.setTouEnt n e x).rad = s.rad := rfl
@[simp] theorem State.setTouEnt_pending (s : State) (n e : Nat) (x : TouEnt) : (s.setTouEnt n e x).pending = s.pending := rfl

/-! ### setTouOut -/

@[simp] theorem State.setTouOut_regs (s : State) (n : Nat) (x : TouOut) : (s.setTouOut n x).regs = s.regs := rfl
@[simp] theorem State.setTouOut_sbuf (s : State) (n : Nat) (x : TouOut) : (s.setTouOut n x).sbuf = s.sbuf := rfl
@[simp] theorem State.setTouOut_answer (s : State) (n : Nat) (x : TouOut) : (s.setTouOut n x).answer = s.answer := rfl
@[simp] theorem State.setTouOut_fresh (s : State) (n : Nat) (x : TouOut) : (s.setTouOut n x).fresh = s.fresh := rfl
@[simp] theorem State.setTouOut_ended (s : State) (n : Nat) (x : TouOut) : (s.setTouOut n x).ended = s.ended := rfl
@[simp] theorem State.setTouOut_ringSeq (s : State) (n : Nat) (x : TouOut) : (s.setTouOut n x).ringSeq = s.ringSeq := rfl
@[simp] theorem State.setTouOut_port (s : State) (n : Nat) (x : TouOut) : (s.setTouOut n x).port = s.port := rfl
@[simp] theorem State.setTouOut_htm (s : State) (n : Nat) (x : TouOut) : (s.setTouOut n x).htm = s.htm := rfl
@[simp] theorem State.setTouOut_glb (s : State) (n : Nat) (x : TouOut) : (s.setTouOut n x).glb = s.glb := rfl
@[simp] theorem State.setTouOut_keep (s : State) (n : Nat) (x : TouOut) : (s.setTouOut n x).keep = s.keep := rfl
@[simp] theorem State.setTouOut_icu (s : State) (n : Nat) (x : TouOut) : (s.setTouOut n x).icu = s.icu := rfl
@[simp] theorem State.setTouOut_mbx (s : State) (n : Nat) (x : TouOut) : (s.setTouOut n x).mbx = s.mbx := rfl
@[simp] theorem State.setTouOut_hst (s : State) (n : Nat) (x : TouOut) : (s.setTouOut n x).hst = s.hst := rfl
@[simp] theorem State.setTouOut_dict (s : State) (n : Nat) (x : TouOut) : (s.setTouOut n x).dict = s.dict := rfl
@[simp] theorem State.setTouOut_can (s : State) (n : Nat) (x : TouOut) : (s.setTouOut n x).can = s.can := rfl
@[simp] theorem State.setTouOut_seq (s : State) (n : Nat) (x : TouOut) : (s.setTouOut n x).seq = s.seq := rfl
@[simp] theorem State.setTouOut_mon (s : State) (n : Nat) (x : TouOut) : (s.setTouOut n x).mon = s.mon := rfl
@[simp] theorem State.setTouOut_trm (s : State) (n : Nat) (x : TouOut) : (s.setTouOut n x).trm = s.trm := rfl
@[simp] theorem State.setTouOut_stp (s : State) (n : Nat) (x : TouOut) : (s.setTouOut n x).stp = s.stp := rfl
@[simp] theorem State.setTouOut_mil (s : State) (n : Nat) (x : TouOut) : (s.setTouOut n x).mil = s.mil := rfl
@[simp] theorem State.setTouOut_cal (s : State) (n : Nat) (x : TouOut) : (s.setTouOut n x).cal = s.cal := rfl
@[simp] theorem State.setTouOut_gtm (s : State) (n : Nat) (x : TouOut) : (s.setTouOut n x).gtm = s.gtm := rfl
@[simp] theorem State.setTouOut_ptn (s : State) (n : Nat) (x : TouOut) : (s.setTouOut n x).ptn = s.ptn := rfl
@[simp] theorem State.setTouOut_swp (s : State) (n : Nat) (x : TouOut) : (s.setTouOut n x).swp = s.swp := rfl
@[simp] theorem State.setTouOut_rad (s : State) (n : Nat) (x : TouOut) : (s.setTouOut n x).rad = s.rad := rfl
@[simp] theorem State.setTouOut_pending (s : State) (n : Nat) (x : TouOut) : (s.setTouOut n x).pending = s.pending := rfl

/-! ### setStin -/

@[simp] theorem State.setStin_regs (s : State) (n : Nat) (x : StIn) : (s.setStin n x).regs = s.regs := rfl
@[simp] theorem State.setStin_sbuf (s : State) (n : Nat) (x : StIn) : (s.setStin n x).sbuf = s.sbuf := rfl
@[simp] theorem State.setStin_answer (s : State) (n : Nat) (x : StIn) : (s.setStin n x).answer = s.answer := rfl
@[simp] theorem State.setStin_fresh (s : State) (n : Nat) (x : StIn) : (s.setStin n x).fresh = s.fresh := rfl
@[simp] theorem State.setStin_ended (s : State) (n : Nat) (x : StIn) : (s.setStin n x).ended = s.ended := rfl
@[simp] theorem State.setStin_ringSeq (s : State) (n : Nat) (x : StIn) : (s.setStin n x).ringSeq = s.ringSeq := rfl
@[simp] theorem State.setStin_port (s : State) (n : Nat) (x : StIn) : (s.setStin n x).port = s.port := rfl
@[simp] theorem State.setStin_htm (s : State) (n : Nat) (x : StIn) : (s.setStin n x).htm = s.htm := rfl
@[simp] theorem State.setStin_glb (s : State) (n : Nat) (x : StIn) : (s.setStin n x).glb = s.glb := rfl
@[simp] theorem State.setStin_keep (s : State) (n : Nat) (x : StIn) : (s.setStin n x).keep = s.keep := rfl
@[simp] theorem State.setStin_icu (s : State) (n : Nat) (x : StIn) : (s.setStin n x).icu = s.icu := rfl
@[simp] theorem State.setStin_mbx (s : State) (n : Nat) (x : StIn) : (s.setStin n x).mbx = s.mbx := rfl
@[simp] theorem State.setStin_hst (s : State) (n : Nat) (x : StIn) : (s.setStin n x).hst = s.hst := rfl
@[simp] theorem State.setStin_dict (s : State) (n : Nat) (x : StIn) : (s.setStin n x).dict = s.dict := rfl
@[simp] theorem State.setStin_can (s : State) (n : Nat) (x : StIn) : (s.setStin n x).can = s.can := rfl
@[simp] theorem State.setStin_seq (s : State) (n : Nat) (x : StIn) : (s.setStin n x).seq = s.seq := rfl
@[simp] theorem State.setStin_mon (s : State) (n : Nat) (x : StIn) : (s.setStin n x).mon = s.mon := rfl
@[simp] theorem State.setStin_trm (s : State) (n : Nat) (x : StIn) : (s.setStin n x).trm = s.trm := rfl
@[simp] theorem State.setStin_tou (s : State) (n : Nat) (x : StIn) : (s.setStin n x).tou = s.tou := rfl
@[simp] theorem State.setStin_mil (s : State) (n : Nat) (x : StIn) : (s.setStin n x).mil = s.mil := rfl
@[simp] theorem State.setStin_cal (s : State) (n : Nat) (x : StIn) : (s.setStin n x).cal = s.cal := rfl
@[simp] theorem State.setStin_gtm (s : State) (n : Nat) (x : StIn) : (s.setStin n x).gtm = s.gtm := rfl
@[simp] theorem State.setStin_ptn (s : State) (n : Nat) (x : StIn) : (s.setStin n x).ptn = s.ptn := rfl
@[simp] theorem State.setStin_swp (s : State) (n : Nat) (x : StIn) : (s.setStin n x).swp = s.swp := rfl
@[simp] theorem State.setStin_rad (s : State) (n : Nat) (x : StIn) : (s.setStin n x).rad = s.rad := rfl
@[simp] theorem State.setStin_pending (s : State) (n : Nat) (x : StIn) : (s.setStin n x).pending = s.pending := rfl

/-! ### setGt -/

@[simp] theorem State.setGt_regs (s : State) (n : Nat) (x : GtS) : (s.setGt n x).regs = s.regs := rfl
@[simp] theorem State.setGt_sbuf (s : State) (n : Nat) (x : GtS) : (s.setGt n x).sbuf = s.sbuf := rfl
@[simp] theorem State.setGt_answer (s : State) (n : Nat) (x : GtS) : (s.setGt n x).answer = s.answer := rfl
@[simp] theorem State.setGt_fresh (s : State) (n : Nat) (x : GtS) : (s.setGt n x).fresh = s.fresh := rfl
@[simp] theorem State.setGt_ended (s : State) (n : Nat) (x : GtS) : (s.setGt n x).ended = s.ended := rfl
@[simp] theorem State.setGt_ringSeq (s : State) (n : Nat) (x : GtS) : (s.setGt n x).ringSeq = s.ringSeq := rfl
@[simp] theorem State.setGt_port (s : State) (n : Nat) (x : GtS) : (s.setGt n x).port = s.port := rfl
@[simp] theorem State.setGt_htm (s : State) (n : Nat) (x : GtS) : (s.setGt n x).htm = s.htm := rfl
@[simp] theorem State.setGt_glb (s : State) (n : Nat) (x : GtS) : (s.setGt n x).glb = s.glb := rfl
@[simp] theorem State.setGt_keep (s : State) (n : Nat) (x : GtS) : (s.setGt n x).keep = s.keep := rfl
@[simp] theorem State.setGt_icu (s : State) (n : Nat) (x : GtS) : (s.setGt n x).icu = s.icu := rfl
@[simp] theorem State.setGt_mbx (s : State) (n : Nat) (x : GtS) : (s.setGt n x).mbx = s.mbx := rfl
@[simp] theorem State.setGt_hst (s : State) (n : Nat) (x : GtS) : (s.setGt n x).hst = s.hst := rfl
@[simp] theorem State.setGt_dict (s : State) (n : Nat) (x : GtS) : (s.setGt n x).dict = s.dict := rfl
@[simp] theorem State.setGt_can (s : State) (n : Nat) (x : GtS) : (s.setGt n x).can = s.can := rfl
@[simp] theorem State.setGt_seq (s : State) (n : Nat) (x : GtS) : (s.setGt n x).seq = s.seq := rfl
@[simp] theorem State.setGt_mon (s : State) (n : Nat) (x : GtS) : (s.setGt n x).mon = s.mon := rfl
@[simp] theorem State.setGt_trm (s : State) (n : Nat) (x : GtS) : (s.setGt n x).trm = s.trm := rfl
@[simp] theorem State.setGt_stp (s : State) (n : Nat) (x : GtS) : (s.setGt n x).stp = s.stp := rfl
@[simp] theorem State.setGt_tou (s : State) (n : Nat) (x : GtS) : (s.setGt n x).tou = s.tou := rfl
@[simp] theorem State.setGt_mil (s : State) (n : Nat) (x : GtS) : (s.setGt n x).mil = s.mil := rfl
@[simp] theorem State.setGt_cal (s : State) (n : Nat) (x : GtS) : (s.setGt n x).cal = s.cal := rfl
@[simp] theorem State.setGt_ptn (s : State) (n : Nat) (x : GtS) : (s.setGt n x).ptn = s.ptn := rfl
@[simp] theorem State.setGt_swp (s : State) (n : Nat) (x : GtS) : (s.setGt n x).swp = s.swp := rfl
@[simp] theorem State.setGt_rad (s : State) (n : Nat) (x : GtS) : (s.setGt n x).rad = s.rad := rfl
@[simp] theorem State.setGt_pending (s : State) (n : Nat) (x : GtS) : (s.setGt n x).pending = s.pending := rfl

/-! ### setSweep -/

@[simp] theorem State.setSweep_regs (s : State) (n : Nat) (x : SweepS) : (s.setSweep n x).regs = s.regs := rfl
@[simp] theorem State.setSweep_sbuf (s : State) (n : Nat) (x : SweepS) : (s.setSweep n x).sbuf = s.sbuf := rfl
@[simp] theorem State.setSweep_answer (s : State) (n : Nat) (x : SweepS) : (s.setSweep n x).answer = s.answer := rfl
@[simp] theorem State.setSweep_fresh (s : State) (n : Nat) (x : SweepS) : (s.setSweep n x).fresh = s.fresh := rfl
@[simp] theorem State.setSweep_ended (s : State) (n : Nat) (x : SweepS) : (s.setSweep n x).ended = s.ended := rfl
@[simp] theorem State.setSweep_ringSeq (s : State) (n : Nat) (x : SweepS) : (s.setSweep n x).ringSeq = s.ringSeq := rfl
@[simp] theorem State.setSweep_port (s : State) (n : Nat) (x : SweepS) : (s.setSweep n x).port = s.port := rfl
@[simp] theorem State.setSweep_htm (s : State) (n : Nat) (x : SweepS) : (s.setSweep n x).htm = s.htm := rfl
@[simp] theorem State.setSweep_glb (s : State) (n : Nat) (x : SweepS) : (s.setSweep n x).glb = s.glb := rfl
@[simp] theorem State.setSweep_keep (s : State) (n : Nat) (x : SweepS) : (s.setSweep n x).keep = s.keep := rfl
@[simp] theorem State.setSweep_icu (s : State) (n : Nat) (x : SweepS) : (s.setSweep n x).icu = s.icu := rfl
@[simp] theorem State.setSweep_mbx (s : State) (n : Nat) (x : SweepS) : (s.setSweep n x).mbx = s.mbx := rfl
@[simp] theorem State.setSweep_hst (s : State) (n : Nat) (x : SweepS) : (s.setSweep n x).hst = s.hst := rfl
@[simp] theorem State.setSweep_dict (s : State) (n : Nat) (x : SweepS) : (s.setSweep n x).dict = s.dict := rfl
@[simp] theorem State.setSweep_can (s : State) (n : Nat) (x : SweepS) : (s.setSweep n x).can = s.can := rfl
@[simp] theorem State.setSweep_seq (s : State) (n : Nat) (x : SweepS) : (s.setSweep n x).seq = s.seq := rfl
@[simp] theorem State.setSweep_mon (s : State) (n : Nat) (x : SweepS) : (s.setSweep n x).mon = s.mon := rfl
@[simp] theorem State.setSweep_trm (s : State) (n : Nat) (x : SweepS) : (s.setSweep n x).trm = s.trm := rfl
@[simp] theorem State.setSweep_stp (s : State) (n : Nat) (x : SweepS) : (s.setSweep n x).stp = s.stp := rfl
@[simp] theorem State.setSweep_tou (s : State) (n : Nat) (x : SweepS) : (s.setSweep n x).tou = s.tou := rfl
@[simp] theorem State.setSweep_mil (s : State) (n : Nat) (x : SweepS) : (s.setSweep n x).mil = s.mil := rfl
@[simp] theorem State.setSweep_cal (s : State) (n : Nat) (x : SweepS) : (s.setSweep n x).cal = s.cal := rfl
@[simp] theorem State.setSweep_gtm (s : State) (n : Nat) (x : SweepS) : (s.setSweep n x).gtm = s.gtm := rfl
@[simp] theorem State.setSweep_ptn (s : State) (n : Nat) (x : SweepS) : (s.setSweep n x).ptn = s.ptn := rfl
@[simp] theorem State.setSweep_rad (s : State) (n : Nat) (x : SweepS) : (s.setSweep n x).rad = s.rad := rfl
@[simp] theorem State.setSweep_pending (s : State) (n : Nat) (x : SweepS) : (s.setSweep n x).pending = s.pending := rfl

/-! ### setRadio -/

@[simp] theorem State.setRadio_regs (s : State) (p : Nat) (x : RadS) : (s.setRadio p x).regs = s.regs := rfl
@[simp] theorem State.setRadio_sbuf (s : State) (p : Nat) (x : RadS) : (s.setRadio p x).sbuf = s.sbuf := rfl
@[simp] theorem State.setRadio_answer (s : State) (p : Nat) (x : RadS) : (s.setRadio p x).answer = s.answer := rfl
@[simp] theorem State.setRadio_fresh (s : State) (p : Nat) (x : RadS) : (s.setRadio p x).fresh = s.fresh := rfl
@[simp] theorem State.setRadio_ended (s : State) (p : Nat) (x : RadS) : (s.setRadio p x).ended = s.ended := rfl
@[simp] theorem State.setRadio_ringSeq (s : State) (p : Nat) (x : RadS) : (s.setRadio p x).ringSeq = s.ringSeq := rfl
@[simp] theorem State.setRadio_port (s : State) (p : Nat) (x : RadS) : (s.setRadio p x).port = s.port := rfl
@[simp] theorem State.setRadio_htm (s : State) (p : Nat) (x : RadS) : (s.setRadio p x).htm = s.htm := rfl
@[simp] theorem State.setRadio_glb (s : State) (p : Nat) (x : RadS) : (s.setRadio p x).glb = s.glb := rfl
@[simp] theorem State.setRadio_keep (s : State) (p : Nat) (x : RadS) : (s.setRadio p x).keep = s.keep := rfl
@[simp] theorem State.setRadio_icu (s : State) (p : Nat) (x : RadS) : (s.setRadio p x).icu = s.icu := rfl
@[simp] theorem State.setRadio_mbx (s : State) (p : Nat) (x : RadS) : (s.setRadio p x).mbx = s.mbx := rfl
@[simp] theorem State.setRadio_hst (s : State) (p : Nat) (x : RadS) : (s.setRadio p x).hst = s.hst := rfl
@[simp] theorem State.setRadio_dict (s : State) (p : Nat) (x : RadS) : (s.setRadio p x).dict = s.dict := rfl
@[simp] theorem State.setRadio_can (s : State) (p : Nat) (x : RadS) : (s.setRadio p x).can = s.can := rfl
@[simp] theorem State.setRadio_seq (s : State) (p : Nat) (x : RadS) : (s.setRadio p x).seq = s.seq := rfl
@[simp] theorem State.setRadio_mon (s : State) (p : Nat) (x : RadS) : (s.setRadio p x).mon = s.mon := rfl
@[simp] theorem State.setRadio_trm (s : State) (p : Nat) (x : RadS) : (s.setRadio p x).trm = s.trm := rfl
@[simp] theorem State.setRadio_stp (s : State) (p : Nat) (x : RadS) : (s.setRadio p x).stp = s.stp := rfl
@[simp] theorem State.setRadio_tou (s : State) (p : Nat) (x : RadS) : (s.setRadio p x).tou = s.tou := rfl
@[simp] theorem State.setRadio_mil (s : State) (p : Nat) (x : RadS) : (s.setRadio p x).mil = s.mil := rfl
@[simp] theorem State.setRadio_cal (s : State) (p : Nat) (x : RadS) : (s.setRadio p x).cal = s.cal := rfl
@[simp] theorem State.setRadio_gtm (s : State) (p : Nat) (x : RadS) : (s.setRadio p x).gtm = s.gtm := rfl
@[simp] theorem State.setRadio_ptn (s : State) (p : Nat) (x : RadS) : (s.setRadio p x).ptn = s.ptn := rfl
@[simp] theorem State.setRadio_swp (s : State) (p : Nat) (x : RadS) : (s.setRadio p x).swp = s.swp := rfl
@[simp] theorem State.setRadio_pending (s : State) (p : Nat) (x : RadS) : (s.setRadio p x).pending = s.pending := rfl

/-! ### setTgt -/

@[simp] theorem State.setTgt_regs (s : State) (t : Nat) (x : TgtS) : (s.setTgt t x).regs = s.regs := rfl
@[simp] theorem State.setTgt_sbuf (s : State) (t : Nat) (x : TgtS) : (s.setTgt t x).sbuf = s.sbuf := rfl
@[simp] theorem State.setTgt_answer (s : State) (t : Nat) (x : TgtS) : (s.setTgt t x).answer = s.answer := rfl
@[simp] theorem State.setTgt_fresh (s : State) (t : Nat) (x : TgtS) : (s.setTgt t x).fresh = s.fresh := rfl
@[simp] theorem State.setTgt_ended (s : State) (t : Nat) (x : TgtS) : (s.setTgt t x).ended = s.ended := rfl
@[simp] theorem State.setTgt_ringSeq (s : State) (t : Nat) (x : TgtS) : (s.setTgt t x).ringSeq = s.ringSeq := rfl
@[simp] theorem State.setTgt_port (s : State) (t : Nat) (x : TgtS) : (s.setTgt t x).port = s.port := rfl
@[simp] theorem State.setTgt_htm (s : State) (t : Nat) (x : TgtS) : (s.setTgt t x).htm = s.htm := rfl
@[simp] theorem State.setTgt_glb (s : State) (t : Nat) (x : TgtS) : (s.setTgt t x).glb = s.glb := rfl
@[simp] theorem State.setTgt_keep (s : State) (t : Nat) (x : TgtS) : (s.setTgt t x).keep = s.keep := rfl
@[simp] theorem State.setTgt_mbx (s : State) (t : Nat) (x : TgtS) : (s.setTgt t x).mbx = s.mbx := rfl
@[simp] theorem State.setTgt_hst (s : State) (t : Nat) (x : TgtS) : (s.setTgt t x).hst = s.hst := rfl
@[simp] theorem State.setTgt_dict (s : State) (t : Nat) (x : TgtS) : (s.setTgt t x).dict = s.dict := rfl
@[simp] theorem State.setTgt_can (s : State) (t : Nat) (x : TgtS) : (s.setTgt t x).can = s.can := rfl
@[simp] theorem State.setTgt_seq (s : State) (t : Nat) (x : TgtS) : (s.setTgt t x).seq = s.seq := rfl
@[simp] theorem State.setTgt_mon (s : State) (t : Nat) (x : TgtS) : (s.setTgt t x).mon = s.mon := rfl
@[simp] theorem State.setTgt_trm (s : State) (t : Nat) (x : TgtS) : (s.setTgt t x).trm = s.trm := rfl
@[simp] theorem State.setTgt_stp (s : State) (t : Nat) (x : TgtS) : (s.setTgt t x).stp = s.stp := rfl
@[simp] theorem State.setTgt_tou (s : State) (t : Nat) (x : TgtS) : (s.setTgt t x).tou = s.tou := rfl
@[simp] theorem State.setTgt_mil (s : State) (t : Nat) (x : TgtS) : (s.setTgt t x).mil = s.mil := rfl
@[simp] theorem State.setTgt_cal (s : State) (t : Nat) (x : TgtS) : (s.setTgt t x).cal = s.cal := rfl
@[simp] theorem State.setTgt_gtm (s : State) (t : Nat) (x : TgtS) : (s.setTgt t x).gtm = s.gtm := rfl
@[simp] theorem State.setTgt_ptn (s : State) (t : Nat) (x : TgtS) : (s.setTgt t x).ptn = s.ptn := rfl
@[simp] theorem State.setTgt_swp (s : State) (t : Nat) (x : TgtS) : (s.setTgt t x).swp = s.swp := rfl
@[simp] theorem State.setTgt_rad (s : State) (t : Nat) (x : TgtS) : (s.setTgt t x).rad = s.rad := rfl
@[simp] theorem State.setTgt_pending (s : State) (t : Nat) (x : TgtS) : (s.setTgt t x).pending = s.pending := rfl

/-! ### Register fields -/

/-- A field reads back what was written, truncated to its width. -/
@[simp] theorem State.rd_wr_same (s : State) (f : Fld) (v : Nat) : (s.wr f v).rd f = v % 2 ^ f.width := by
  simp [State.rd, State.wr]

/-- A field at another key reads as before. -/
theorem State.rd_wr_ne (s : State) {f g : Fld} (h : f.key ≠ g.key) (v : Nat) : (s.wr f v).rd g = s.rd g := by
  simp [State.rd, State.wr, Assoc.get_put_ne _ _ h.symm]

/-- An update of any part beside the register file leaves every register field. -/
@[simp] theorem State.rd_mk (t : State) (a1 a2 a3 a4 a5 a6 a7 a8 a9 a10 a11 a12 a13 a14 a15 a16 a17 a18 a19 a20 a21 a22 a23 a24 a25 a26)
    (f : Fld) : State.rd ⟨t.regs, a1, a2, a3, a4, a5, a6, a7, a8, a9, a10, a11, a12, a13, a14, a15, a16, a17, a18, a19, a20, a21, a22,
      a23, a24, a25, a26⟩ f = t.rd f := rfl

/-- An update of any part beside the Shared Buffer leaves every byte of it. -/
@[simp] theorem State.sbyte_mk (t : State) (a1 a2 a3 a4 a5 a6 a7 a8 a9 a10 a11 a12 a13 a14 a15 a16 a17 a18 a19 a20 a21 a22 a23 a24 a25 a26)
    (a : Nat) : State.sbyte ⟨a1, t.sbuf, a2, a3, a4, a5, a6, a7, a8, a9, a10, a11, a12, a13, a14, a15, a16, a17, a18, a19, a20, a21, a22,
      a23, a24, a25, a26⟩ a = t.sbyte a := rfl

/-- A register field reads the same in two states with the same register file. -/
theorem State.rd_congr {s t : State} (h : t.regs = s.regs) (f : Fld) : t.rd f = s.rd f := by simp [State.rd, h]

/-- A byte of the Shared Buffer reads the same in two states with the same buffer. -/
theorem State.sbyte_congr {s t : State} (h : t.sbuf = s.sbuf) (a : Nat) : t.sbyte a = s.sbyte a := by simp [State.sbyte, h]

/-- A byte reads back what was stored. -/
@[simp] theorem State.sbyte_setByte_same (s : State) (a : Nat) (b : BitVec 8) : (s.setByte a b).sbyte a = b := by
  simp [State.sbyte, State.setByte]

/-- Every other byte reads as before. -/
theorem State.sbyte_setByte_ne (s : State) {a c : Nat} (h : c % 2 ^ 20 ≠ a % 2 ^ 20) (b : BitVec 8) :
    (s.setByte a b).sbyte c = s.sbyte c :=
  Assoc.get_put_ne _ _ h _ _

/-- Storing a byte keeps the buffer's canonical form. -/
theorem State.memOk_setByte (s : State) (a : Nat) (b : BitVec 8) (h : s.memOk = true) : (s.setByte a b).memOk = true := by
  simp only [State.memOk, Memory.wf, Bool.and_eq_true] at h ⊢
  refine ⟨Assoc.wf_put _ _ _ _ h.1, Assoc.all_put _ _ _ _ ?_ _ h.2⟩
  simp [Nat.mod_lt]

end Sys2Proof.Machine
end

