-- ==== Sys2Proof/Laws/Frame.lean ====
section
/-! SUPPORT. How frames are built: nothing changed at first, and each update of a listed field, part or byte keeps the frame. -/

namespace Sys2Proof.Machine

open F

theorem Frame.refl (w : Touch) (s : State) : Frame w s s := by
  refine ⟨fun _ _ _ _ => rfl, fun _ _ _ _ => rfl, fun b _ _ => ?_, rfl⟩
  cases b <;> simp [Blk.same]

theorem Blk.same_trans {b : Blk} {s t u : State} (h : b.same s t) (k : b.same t u) : b.same s u := by
  cases b
  case hst =>
    simp only [Blk.same] at *
    generalize s.hst = x at *; generalize t.hst = y at *; generalize u.hst = z at *
    cases x; cases y; cases z
    simp_all
  case stp =>
    simp only [Blk.same] at *
    generalize s.stp = x at *; generalize t.stp = y at *; generalize u.stp = z at *
    cases x; cases y; cases z
    simp_all
  case mil =>
    simp only [Blk.same] at *
    generalize s.mil = x at *; generalize t.mil = y at *; generalize u.mil = z at *
    cases x; cases y; cases z
    simp_all
  case wave => exact ⟨k.1.trans h.1, k.2.1.trans h.2.1, k.2.2.trans h.2.2⟩
  all_goals first | exact trivial | exact Eq.trans k h

theorem Frame.trans {w : Touch} {s t u : State} (h : Frame w s t) (k : Frame w t u) : Frame w s u where
  regs f a b c := (k.regs f a b c).trans (h.regs f a b c)
  mem n a x y := (k.mem n a x y).trans (h.mem n a x y)
  blks b x y := Blk.same_trans (h.blks b x y) (k.blks b x y)
  queue := k.queue.trans h.queue

/-- A frame that allows less holds where one that allows more is asked. -/
theorem Frame.mono {v w : Touch} {s t : State} (hf : ∀ f ∈ v.flds, f ∈ w.flds) (ha : ∀ a ∈ v.areas, a ∈ w.areas)
    (hb : ∀ b ∈ v.blks, b ∈ w.blks) (hm : ∀ a ∈ v.bytes, a ∈ w.bytes)
    (hn : v.anyByte = true → w.anyByte = true) (h : Frame v s t) : Frame w s t where
  regs f a b c := h.regs f (fun g hg => a g (hf g hg)) b (fun x hx => c x (ha x hx))
  mem n a x y := h.mem (by cases e : v.anyByte with | false => rfl | true => exact absurd (hn e) (by simp [n])) a x (fun z => y (hm a z))
  blks b x y := h.blks b (fun z => x (hb b z)) (fun z => y (hb _ z))
  queue := h.queue

/-- A change of register fields alone. -/
theorem Frame.of_regs {w : Touch} {s t : State} (h : t = { s with regs := t.regs })
    (hr : ∀ f : Fld, (∀ g ∈ w.flds, g.key ≠ f.key) → f.lo < 32 → f.outside w.areas → t.rd f = s.rd f) : Frame w s t := by
  refine ⟨hr, fun _ a _ _ => ?_, fun b _ _ => ?_, ?_⟩
  · rw [h]; rfl
  · rw [h]; cases b <;> simp [Blk.same] <;> rfl
  · rw [h]

theorem Frame.wr {w : Touch} {s t : State} (h : Frame w s t) (f : Fld) (v : Nat) (hf : f ∈ w.flds) : Frame w s (t.wr f v) :=
  h.trans (Frame.of_regs rfl fun _ a _ _ => t.rd_wr_ne (a f hf) v)

/-- A field of an area that may change. -/
theorem Frame.wr_area {w : Touch} {s t : State} (h : Frame w s t) (f : Fld) (v : Nat) (a : Nat × Nat) (ha : a ∈ w.areas)
    (hlo : f.lo < 32) (h1 : a.1 ≤ f.addr) (h2 : f.addr < a.2) : Frame w s (t.wr f v) :=
  h.trans (Frame.of_regs rfl fun g _ hg ho => t.rd_wr_ne (fun he => by
    have := ho a ha
    simp only [Fld.key] at he
    omega) v)

/-- An update of one part of the state that is listed: the register file, the buffer, the queue and every other part are as they were. -/
theorem Frame.blk {w : Touch} {s t u : State} (h : Frame w s t) (b : Blk) (hb : b ∈ w.blks) (hr : u.regs = t.regs)
    (hm : u.sbuf = t.sbuf) (hq : u.pending = t.pending) (ho : ∀ c : Blk, c ≠ b → c.kind ≠ b → c.same t u) : Frame w s u := by
  refine h.trans ⟨fun f _ _ _ => State.rd_congr hr f, fun _ a _ _ => State.sbyte_congr hm a, fun c x y => ?_, hq⟩
  exact ho c (fun e => x (e ▸ hb)) (fun e => y (e ▸ hb))

theorem Frame.htm {w : Touch} {s t : State} (h : Frame w s t) (x : HtmS) (hb : Blk.htm ∈ w.blks) : Frame w s { t with htm := x } :=
  h.blk .htm hb rfl rfl rfl fun c n _ => by cases c <;> first | exact absurd rfl n | rfl | trivial
theorem Frame.glb {w : Touch} {s t : State} (h : Frame w s t) (x : GlbS) (hb : Blk.glb ∈ w.blks) : Frame w s { t with glb := x } :=
  h.blk .glb hb rfl rfl rfl fun c n _ => by cases c <;> first | exact absurd rfl n | rfl | trivial
theorem Frame.keep {w : Touch} {s t : State} (h : Frame w s t) (x : KeepS) (hb : Blk.keep ∈ w.blks) : Frame w s { t with keep := x } :=
  h.blk .keep hb rfl rfl rfl fun c n _ => by cases c <;> first | exact absurd rfl n | rfl | trivial
theorem Frame.icu {w : Touch} {s t : State} (h : Frame w s t) (x : IcuS) (hb : Blk.icu ∈ w.blks) : Frame w s { t with icu := x } :=
  h.blk .icu hb rfl rfl rfl fun c n _ => by cases c <;> first | exact absurd rfl n | rfl | trivial
theorem Frame.mbx {w : Touch} {s t : State} (h : Frame w s t) (x : MbxS) (hb : Blk.mbx ∈ w.blks) : Frame w s { t with mbx := x } :=
  h.blk .mbx hb rfl rfl rfl fun c n _ => by cases c <;> first | exact absurd rfl n | rfl | trivial
theorem Frame.dict {w : Touch} {s t : State} (h : Frame w s t) (x : DictS) (hb : Blk.dict ∈ w.blks) : Frame w s { t with dict := x } :=
  h.blk .dict hb rfl rfl rfl fun c n _ => by cases c <;> first | exact absurd rfl n | rfl | trivial
theorem Frame.can {w : Touch} {s t : State} (h : Frame w s t) (x : CanS) (hb : Blk.can ∈ w.blks) : Frame w s { t with can := x } :=
  h.blk .can hb rfl rfl rfl fun c n _ => by cases c <;> first | exact absurd rfl n | rfl | trivial
theorem Frame.seq {w : Touch} {s t : State} (h : Frame w s t) (x : SeqS) (hb : Blk.seq ∈ w.blks) : Frame w s { t with seq := x } :=
  h.blk .seq hb rfl rfl rfl fun c n _ => by cases c <;> first | exact absurd rfl n | rfl | trivial
theorem Frame.mon {w : Touch} {s t : State} (h : Frame w s t) (x : MonS) (hb : Blk.mon ∈ w.blks) : Frame w s { t with mon := x } :=
  h.blk .mon hb rfl rfl rfl fun c n _ => by cases c <;> first | exact absurd rfl n | rfl | trivial
theorem Frame.trm {w : Touch} {s t : State} (h : Frame w s t) (x : TrmS) (hb : Blk.trm ∈ w.blks) : Frame w s { t with trm := x } :=
  h.blk .trm hb rfl rfl rfl fun c n _ => by cases c <;> first | exact absurd rfl n | rfl | trivial
theorem Frame.cal {w : Touch} {s t : State} (h : Frame w s t) (x : CalS) (hb : Blk.cal ∈ w.blks) : Frame w s { t with cal := x } :=
  h.blk .cal hb rfl rfl rfl fun c n _ => by cases c <;> first | exact absurd rfl n | rfl | trivial
theorem Frame.ptn {w : Touch} {s t : State} (h : Frame w s t) (x : PtnS) (hb : Blk.ptn ∈ w.blks) : Frame w s { t with ptn := x } :=
  h.blk .ptn hb rfl rfl rfl fun c n _ => by cases c <;> first | exact absurd rfl n | rfl | trivial
theorem Frame.ringSeq {w : Touch} {s t : State} (h : Frame w s t) (x : List (Nat × Nat)) (hb : Blk.ringSeq ∈ w.blks) :
    Frame w s { t with ringSeq := x } :=
  h.blk .ringSeq hb rfl rfl rfl fun c n _ => by cases c <;> first | exact absurd rfl n | rfl | trivial
theorem Frame.port {w : Touch} {s t : State} (h : Frame w s t) (x : PortS) (hb : Blk.port ∈ w.blks) : Frame w s { t with port := x } :=
  h.blk .port hb rfl rfl rfl fun c n _ => by cases c <;> first | exact absurd rfl n | rfl | trivial
theorem Frame.fresh {w : Touch} {s t : State} (h : Frame w s t) (x : Nat) (hb : Blk.fresh ∈ w.blks) : Frame w s { t with fresh := x } :=
  h.blk .fresh hb rfl rfl rfl fun c n _ => by cases c <;> first | exact absurd rfl n | rfl | trivial
theorem Frame.say {w : Touch} {s t : State} (h : Frame w s t) (c : Code) (d : List Nat) (hb : Blk.answer ∈ w.blks) :
    Frame w s (t.say c d) :=
  h.blk .answer hb rfl rfl rfl fun c n _ => by cases c <;> first | exact absurd rfl n | rfl | trivial

/-- The rest of the host block. -/
theorem Frame.hst {w : Touch} {s t : State} (h : Frame w s t) (x : HstS) (hb : Blk.hst ∈ w.blks) (hl : x.portLast = t.hst.portLast)
    (hw : x.status = t.hst.status ∧ x.sdo = t.hst.sdo ∧ x.acks = t.hst.acks) : Frame w s { t with hst := x } :=
  h.blk .hst hb rfl rfl rfl fun c n _ => by cases c <;> first | exact absurd rfl n | exact hl | exact hw | rfl | trivial

/-- A port's last result. -/
theorem Frame.setLast {w : Touch} {s t : State} (h : Frame w s t) (p : Nat) (c : Code) (hb : Blk.last ∈ w.blks) :
    Frame w s (t.setLast p c) := by
  unfold State.setLast
  split
  · exact h.blk .last hb rfl rfl rfl fun c n _ => by cases c <;> first | exact absurd rfl n | rfl | trivial
  · exact h

/-- One unit of a block that has several. -/
theorem Frame.setMill {w : Touch} {s t : State} (h : Frame w s t) (m : Nat) (x : MillS) (hb : Blk.mill m ∈ w.blks) :
    Frame w s (t.setMill m x) :=
  h.blk (.mill m) hb rfl rfl rfl fun c n _ => by
    cases c
    case mill j => exact Assoc.get_put_ne _ _ (fun e => n (by rw [e])) _ _
    all_goals first | rfl | trivial
theorem Frame.setGt {w : Touch} {s t : State} (h : Frame w s t) (m : Nat) (x : GtS) (hb : Blk.timer m ∈ w.blks) :
    Frame w s (t.setGt m x) :=
  h.blk (.timer m) hb rfl rfl rfl fun c n _ => by
    cases c
    case timer j => exact Assoc.get_put_ne _ _ (fun e => n (by rw [e])) _ _
    all_goals first | rfl | trivial
theorem Frame.setSweep {w : Touch} {s t : State} (h : Frame w s t) (m : Nat) (x : SweepS) (hb : Blk.sweep m ∈ w.blks) :
    Frame w s (t.setSweep m x) :=
  h.blk (.sweep m) hb rfl rfl rfl fun c n _ => by
    cases c
    case sweep j => exact Assoc.get_put_ne _ _ (fun e => n (by rw [e])) _ _
    all_goals first | rfl | trivial
theorem Frame.setRadio {w : Touch} {s t : State} (h : Frame w s t) (m : Nat) (x : RadS) (hb : Blk.radio m ∈ w.blks) :
    Frame w s (t.setRadio m x) :=
  h.blk (.radio m) hb rfl rfl rfl fun c n _ => by
    cases c
    case radio j => exact Assoc.get_put_ne _ _ (fun e => n (by rw [e])) _ _
    all_goals first | rfl | trivial
theorem Frame.setStin {w : Touch} {s t : State} (h : Frame w s t) (m : Nat) (x : StIn) (hb : Blk.stin m ∈ w.blks) :
    Frame w s (t.setStin m x) :=
  h.blk (.stin m) hb rfl rfl rfl fun c n _ => by
    cases c
    case stin j => exact Assoc.get_put_ne _ _ (fun e => n (by rw [e])) _ _
    all_goals first | rfl | trivial
theorem Frame.setTouOut {w : Touch} {s t : State} (h : Frame w s t) (m : Nat) (x : TouOut) (hb : Blk.touOut m ∈ w.blks) :
    Frame w s (t.setTouOut m x) :=
  h.blk (.touOut m) hb rfl rfl rfl fun c n _ => by
    cases c
    case touOut j => exact Assoc.get_put_ne _ _ (fun e => n (by rw [e])) _ _
    all_goals first | rfl | trivial

/-- A byte of the Shared Buffer that may change. -/
theorem Frame.setByte {w : Touch} {s t : State} (h : Frame w s t) (a : Nat) (b : BitVec 8) (ha : a % 2 ^ 20 ∈ w.bytes) :
    Frame w s (t.setByte a b) := by
  refine h.trans ⟨fun _ _ _ _ => rfl, fun _ c x y => State.sbyte_setByte_ne t (fun e => y ?_) b, fun c _ _ => ?_, rfl⟩
  · rw [← e, Nat.mod_eq_of_lt x] at ha; exact ha
  · cases c <;> first | rfl | trivial

/-- The derived writes of a listed field. -/
theorem Frame.setBits {w : Touch} {s t : State} (h : Frame w s t) (f : Fld) (m : Nat) (hf : f ∈ w.flds) : Frame w s (t.setBits f m) :=
  h.wr f _ hf
theorem Frame.clrBits {w : Touch} {s t : State} (h : Frame w s t) (f : Fld) (m : Nat) (hf : f ∈ w.flds) : Frame w s (t.clrBits f m) :=
  h.wr f _ hf
theorem Frame.bump {w : Touch} {s t : State} (h : Frame w s t) (f : Fld) (k : Nat) (hf : f ∈ w.flds) : Frame w s (t.bump f k) :=
  h.wr f _ hf
theorem Frame.wrS {w : Touch} {s t : State} (h : Frame w s t) (f : Fld) (i : Int) (hf : f ∈ w.flds) : Frame w s (t.wrS f i) :=
  h.wr f _ hf

/-- An event source: its latch word, or the list of happenings that wait for the thaw. -/
theorem Frame.latch {w : Touch} {s t : State} (h : Frame w s t) (n : Nat) (hf : iLatch (n / 32) ∈ w.flds) (hb : Blk.glb ∈ w.blks) :
    Frame w s (t.latch n) := by
  unfold State.latch
  split
  · exact h.setBits _ _ hf
  · exact h.glb _ hb

end Sys2Proof.Machine
end

