-- ==== Sys2Proof/Laws/Serve.lean ====
section
/-! SUPPORT. What serving a slot's command does around the operation: the frame's marks before it, the answer and the last results after
it, and nothing else. -/

namespace Sys2Proof.Machine

open F

/-- The RING_READ frames of other ports have not ended. -/
theorem State.ringRises_of_none (s : State) (p : RingAdv → Bool) (h : ∀ a ∈ s.hst.reads, p a = false) : s.ringRises p = s := by
  have h1 : s.hst.reads.filter p = [] := by simpa [List.filter_eq_nil_iff] using h
  have h2 : s.hst.reads.filter (fun a => !p a) = s.hst.reads := by simpa [List.filter_eq_self] using h
  unfold State.ringRises
  rw [h1, h2]
  rfl

/-- The commands of a slot whose queue of slot words is empty, and whose port has no RING_READ that moves RIDX, start no change. -/
theorem State.frameIn_of_empty (s : State) (k : Nat) (h : s.hst.bind = []) (hr : ∀ a ∈ s.hst.reads, s.sendPort k ≠ some a.port) :
    s.frameIn k = s.marked k := by
  have : ∀ p, s.sendPort k = some p → s.frameStart p = s := by
    intro p hp
    unfold State.frameStart
    rw [State.ringRises_of_none s _ fun a ha => beq_eq_false_iff_ne.2 fun e => hr a ha (by rw [hp, e])]
    have : ∀ l : List Nat, l.foldl (fun s k =>
        if ((Assoc.find k s.hst.bind).isSome || (Assoc.find (16 + k) s.hst.bind).isSome) && (s.slotPorts k).contains p
        then s.applySlot k else s) s = s := by
      intro l
      induction l with
      | nil => rfl
      | cons a t ih => simpa [h, Assoc.find] using ih
    exact this _
  unfold State.frameIn
  split
  · next p hp => rw [this p hp]
  · rfl

/-- Marking a slot present writes PRESENT and WAKING alone. -/
theorem State.marked_eq (s : State) (k : Nat) : s.marked k = s ∨ (k < 16 ∧ s.marked k = (s.wr (hPresent k) 1).wr (hWaking k) 0) := by
  unfold State.marked
  split
  · next h => exact .inr ⟨by simp at h; exact h.1, rfl⟩
  · exact .inl rfl

theorem State.rd_marked (s : State) (k : Nat) (f : Fld) (h1 : (hPresent k).key ≠ f.key) (h2 : (hWaking k).key ≠ f.key) :
    (s.marked k).rd f = s.rd f := by
  rcases s.marked_eq k with h | ⟨-, h⟩ <;> rw [h]
  rw [State.rd_wr_ne _ h2, State.rd_wr_ne _ h1]

@[simp] theorem State.marked_sbuf (s : State) (k : Nat) : (s.marked k).sbuf = s.sbuf := by
  rcases s.marked_eq k with h | ⟨-, h⟩ <;> rw [h] <;> rfl
@[simp] theorem State.marked_answer (s : State) (k : Nat) : (s.marked k).answer = s.answer := by
  rcases s.marked_eq k with h | ⟨-, h⟩ <;> rw [h] <;> rfl
@[simp] theorem State.marked_fresh (s : State) (k : Nat) : (s.marked k).fresh = s.fresh := by
  rcases s.marked_eq k with h | ⟨-, h⟩ <;> rw [h] <;> rfl
@[simp] theorem State.marked_ringSeq (s : State) (k : Nat) : (s.marked k).ringSeq = s.ringSeq := by
  rcases s.marked_eq k with h | ⟨-, h⟩ <;> rw [h] <;> rfl
@[simp] theorem State.marked_port (s : State) (k : Nat) : (s.marked k).port = s.port := by
  rcases s.marked_eq k with h | ⟨-, h⟩ <;> rw [h] <;> rfl
@[simp] theorem State.marked_htm (s : State) (k : Nat) : (s.marked k).htm = s.htm := by
  rcases s.marked_eq k with h | ⟨-, h⟩ <;> rw [h] <;> rfl
@[simp] theorem State.marked_glb (s : State) (k : Nat) : (s.marked k).glb = s.glb := by
  rcases s.marked_eq k with h | ⟨-, h⟩ <;> rw [h] <;> rfl
@[simp] theorem State.marked_keep (s : State) (k : Nat) : (s.marked k).keep = s.keep := by
  rcases s.marked_eq k with h | ⟨-, h⟩ <;> rw [h] <;> rfl
@[simp] theorem State.marked_icu (s : State) (k : Nat) : (s.marked k).icu = s.icu := by
  rcases s.marked_eq k with h | ⟨-, h⟩ <;> rw [h] <;> rfl
@[simp] theorem State.marked_mbx (s : State) (k : Nat) : (s.marked k).mbx = s.mbx := by
  rcases s.marked_eq k with h | ⟨-, h⟩ <;> rw [h] <;> rfl
@[simp] theorem State.marked_hst (s : State) (k : Nat) : (s.marked k).hst = s.hst := by
  rcases s.marked_eq k with h | ⟨-, h⟩ <;> rw [h] <;> rfl
@[simp] theorem State.marked_dict (s : State) (k : Nat) : (s.marked k).dict = s.dict := by
  rcases s.marked_eq k with h | ⟨-, h⟩ <;> rw [h] <;> rfl
@[simp] theorem State.marked_can (s : State) (k : Nat) : (s.marked k).can = s.can := by
  rcases s.marked_eq k with h | ⟨-, h⟩ <;> rw [h] <;> rfl
@[simp] theorem State.marked_seq (s : State) (k : Nat) : (s.marked k).seq = s.seq := by
  rcases s.marked_eq k with h | ⟨-, h⟩ <;> rw [h] <;> rfl
@[simp] theorem State.marked_mon (s : State) (k : Nat) : (s.marked k).mon = s.mon := by
  rcases s.marked_eq k with h | ⟨-, h⟩ <;> rw [h] <;> rfl
@[simp] theorem State.marked_trm (s : State) (k : Nat) : (s.marked k).trm = s.trm := by
  rcases s.marked_eq k with h | ⟨-, h⟩ <;> rw [h] <;> rfl
@[simp] theorem State.marked_stp (s : State) (k : Nat) : (s.marked k).stp = s.stp := by
  rcases s.marked_eq k with h | ⟨-, h⟩ <;> rw [h] <;> rfl
@[simp] theorem State.marked_tou (s : State) (k : Nat) : (s.marked k).tou = s.tou := by
  rcases s.marked_eq k with h | ⟨-, h⟩ <;> rw [h] <;> rfl
@[simp] theorem State.marked_mil (s : State) (k : Nat) : (s.marked k).mil = s.mil := by
  rcases s.marked_eq k with h | ⟨-, h⟩ <;> rw [h] <;> rfl
@[simp] theorem State.marked_cal (s : State) (k : Nat) : (s.marked k).cal = s.cal := by
  rcases s.marked_eq k with h | ⟨-, h⟩ <;> rw [h] <;> rfl
@[simp] theorem State.marked_gtm (s : State) (k : Nat) : (s.marked k).gtm = s.gtm := by
  rcases s.marked_eq k with h | ⟨-, h⟩ <;> rw [h] <;> rfl
@[simp] theorem State.marked_ptn (s : State) (k : Nat) : (s.marked k).ptn = s.ptn := by
  rcases s.marked_eq k with h | ⟨-, h⟩ <;> rw [h] <;> rfl
@[simp] theorem State.marked_swp (s : State) (k : Nat) : (s.marked k).swp = s.swp := by
  rcases s.marked_eq k with h | ⟨-, h⟩ <;> rw [h] <;> rfl
@[simp] theorem State.marked_rad (s : State) (k : Nat) : (s.marked k).rad = s.rad := by
  rcases s.marked_eq k with h | ⟨-, h⟩ <;> rw [h] <;> rfl
@[simp] theorem State.marked_pending (s : State) (k : Nat) : (s.marked k).pending = s.pending := by
  rcases s.marked_eq k with h | ⟨-, h⟩ <;> rw [h] <;> rfl

/-! ### finish -/

@[simp] theorem State.finish_sbuf (k : Slot) (r : Res) (d : List Nat) : (State.finish k r d).sbuf = r.2.sbuf := by
  simp only [State.finish, State.countPort, State.setLast, State.bump, State.setBits]; repeat' split
  all_goals rfl
@[simp] theorem State.finish_fresh (k : Slot) (r : Res) (d : List Nat) : (State.finish k r d).fresh = r.2.fresh := by
  simp only [State.finish, State.countPort, State.setLast, State.bump, State.setBits]; repeat' split
  all_goals rfl
@[simp] theorem State.finish_ringSeq (k : Slot) (r : Res) (d : List Nat) : (State.finish k r d).ringSeq = r.2.ringSeq := by
  simp only [State.finish, State.countPort, State.setLast, State.bump, State.setBits]; repeat' split
  all_goals rfl
@[simp] theorem State.finish_port (k : Slot) (r : Res) (d : List Nat) : (State.finish k r d).port = r.2.port := by
  simp only [State.finish, State.countPort, State.setLast, State.bump, State.setBits]; repeat' split
  all_goals rfl
@[simp] theorem State.finish_htm (k : Slot) (r : Res) (d : List Nat) : (State.finish k r d).htm = r.2.htm := by
  simp only [State.finish, State.countPort, State.setLast, State.bump, State.setBits]; repeat' split
  all_goals rfl
@[simp] theorem State.finish_glb (k : Slot) (r : Res) (d : List Nat) : (State.finish k r d).glb = r.2.glb := by
  simp only [State.finish, State.countPort, State.setLast, State.bump, State.setBits]; repeat' split
  all_goals rfl
@[simp] theorem State.finish_keep (k : Slot) (r : Res) (d : List Nat) : (State.finish k r d).keep = r.2.keep := by
  simp only [State.finish, State.countPort, State.setLast, State.bump, State.setBits]; repeat' split
  all_goals rfl
@[simp] theorem State.finish_icu (k : Slot) (r : Res) (d : List Nat) : (State.finish k r d).icu = r.2.icu := by
  simp only [State.finish, State.countPort, State.setLast, State.bump, State.setBits]; repeat' split
  all_goals rfl
@[simp] theorem State.finish_mbx (k : Slot) (r : Res) (d : List Nat) : (State.finish k r d).mbx = r.2.mbx := by
  simp only [State.finish, State.countPort, State.setLast, State.bump, State.setBits]; repeat' split
  all_goals rfl
@[simp] theorem State.finish_dict (k : Slot) (r : Res) (d : List Nat) : (State.finish k r d).dict = r.2.dict := by
  simp only [State.finish, State.countPort, State.setLast, State.bump, State.setBits]; repeat' split
  all_goals rfl
@[simp] theorem State.finish_can (k : Slot) (r : Res) (d : List Nat) : (State.finish k r d).can = r.2.can := by
  simp only [State.finish, State.countPort, State.setLast, State.bump, State.setBits]; repeat' split
  all_goals rfl
@[simp] theorem State.finish_seq (k : Slot) (r : Res) (d : List Nat) : (State.finish k r d).seq = r.2.seq := by
  simp only [State.finish, State.countPort, State.setLast, State.bump, State.setBits]; repeat' split
  all_goals rfl
@[simp] theorem State.finish_mon (k : Slot) (r : Res) (d : List Nat) : (State.finish k r d).mon = r.2.mon := by
  simp only [State.finish, State.countPort, State.setLast, State.bump, State.setBits]; repeat' split
  all_goals rfl
@[simp] theorem State.finish_trm (k : Slot) (r : Res) (d : List Nat) : (State.finish k r d).trm = r.2.trm := by
  simp only [State.finish, State.countPort, State.setLast, State.bump, State.setBits]; repeat' split
  all_goals rfl
@[simp] theorem State.finish_stp (k : Slot) (r : Res) (d : List Nat) : (State.finish k r d).stp = r.2.stp := by
  simp only [State.finish, State.countPort, State.setLast, State.bump, State.setBits]; repeat' split
  all_goals rfl
@[simp] theorem State.finish_tou (k : Slot) (r : Res) (d : List Nat) : (State.finish k r d).tou = r.2.tou := by
  simp only [State.finish, State.countPort, State.setLast, State.bump, State.setBits]; repeat' split
  all_goals rfl
@[simp] theorem State.finish_mil (k : Slot) (r : Res) (d : List Nat) : (State.finish k r d).mil = r.2.mil := by
  simp only [State.finish, State.countPort, State.setLast, State.bump, State.setBits]; repeat' split
  all_goals rfl
@[simp] theorem State.finish_cal (k : Slot) (r : Res) (d : List Nat) : (State.finish k r d).cal = r.2.cal := by
  simp only [State.finish, State.countPort, State.setLast, State.bump, State.setBits]; repeat' split
  all_goals rfl
@[simp] theorem State.finish_gtm (k : Slot) (r : Res) (d : List Nat) : (State.finish k r d).gtm = r.2.gtm := by
  simp only [State.finish, State.countPort, State.setLast, State.bump, State.setBits]; repeat' split
  all_goals rfl
@[simp] theorem State.finish_ptn (k : Slot) (r : Res) (d : List Nat) : (State.finish k r d).ptn = r.2.ptn := by
  simp only [State.finish, State.countPort, State.setLast, State.bump, State.setBits]; repeat' split
  all_goals rfl
@[simp] theorem State.finish_swp (k : Slot) (r : Res) (d : List Nat) : (State.finish k r d).swp = r.2.swp := by
  simp only [State.finish, State.countPort, State.setLast, State.bump, State.setBits]; repeat' split
  all_goals rfl
@[simp] theorem State.finish_rad (k : Slot) (r : Res) (d : List Nat) : (State.finish k r d).rad = r.2.rad := by
  simp only [State.finish, State.countPort, State.setLast, State.bump, State.setBits]; repeat' split
  all_goals rfl
@[simp] theorem State.finish_pending (k : Slot) (r : Res) (d : List Nat) : (State.finish k r d).pending = r.2.pending := by
  simp only [State.finish, State.countPort, State.setLast, State.bump, State.setBits]; repeat' split
  all_goals rfl

theorem State.finish_answer (k : Slot) (r : Res) (d : List Nat) : (State.finish k r d).answer = { code := r.1, data := d } := by
  simp only [State.finish, State.countPort, State.setLast, State.bump, State.setBits]; repeat' split
  all_goals rfl

theorem State.rd_setLast (s : State) (p : Nat) (c : Code) (f : Fld) : (s.setLast p c).rd f = s.rd f := by
  unfold State.setLast; split <;> rfl

theorem State.portOf_congr {s t : State} (k : Nat) (h1 : t.rd (hClass k) = s.rd (hClass k)) (h2 : t.rd (hPort k) = s.rd (hPort k)) :
    t.portOf k = s.portOf k := by
  unfold State.portOf; rw [h1, h2]

/-- The port does not depend on the answer or on the slot's last result. -/
theorem State.portOf_last (s : State) (k v : Nat) : (s.wr (hLast k) v).portOf k = s.portOf k :=
  State.portOf_congr k (s.rd_wr_ne (by simp only [Fld.key, hLast, hClass, F.ro, F.rws, hBase, ne_eq]; omega) v) (s.rd_wr_ne (by simp only [Fld.key, hLast, hPort, F.ro, F.rws, hBase, ne_eq]; omega) v)

/-- The state that `finish` counts on. -/
def State.resulted (k : Slot) (c : Code) (u : State) (d : List Nat) : State :=
  if k.val < 16 then (u.say c d).wr (hLast k.val) c.val else u.say c d

theorem State.portOf_resulted (k : Slot) (c : Code) (u : State) (d : List Nat) : (State.resulted k c u d).portOf k.val = u.portOf k.val := by
  unfold State.resulted
  split
  · rw [State.portOf_last]; rfl
  · rfl

theorem State.finish_eq (k : Slot) (c : Code) (u : State) (d : List Nat) :
    State.finish k (c, u) d = match u.portOf k.val with
      | some p => ((State.resulted k c u d).setLast p c).countPort p c
      | none => State.resulted k c u d := by
  have h := State.portOf_resulted k c u d
  unfold State.resulted at h
  unfold State.finish State.resulted
  simp only
  rw [h]
  all_goals rfl

theorem Code.badCrc_cls (c : Code) (h : c = .badCrc) : c.cls = 3 := by subst h; rfl

/-- What serving a command does around its operation. -/
theorem Served.intro (k : Slot) (c : Code) (w : Touch) (s u : State) (d : List Nat)
    (hf : Frame { w with flds := s.slotFlds k.val c ++ w.flds, blks := .answer :: .last :: w.blks } s u)
    (hp : u.portOf k.val = s.portOf k.val) : Served k c w s (State.finish k (c, u) d) d := by
  have hr : Frame { w with flds := s.slotFlds k.val c ++ w.flds, blks := .answer :: .last :: w.blks } s (State.resulted k c u d) := by
    unfold State.resulted
    split
    · next h => exact (hf.say _ _ (by simp)).wr _ _ (by simp [State.slotFlds, h])
    · exact hf.say _ _ (by simp)
  refine ⟨State.finish_answer _ _ _, ?_, ?_, ?_⟩
  · intro h
    rw [State.finish_eq]
    have : (State.resulted k c u d).rd (hLast k.val) = c.val := by
      unfold State.resulted
      have hw : (hLast k.val).width = 16 := rfl
      rw [if_pos h, State.rd_wr_same, hw]
      cases c <;> rfl
    split
    · next p _ =>
      unfold State.countPort State.bump State.setBits
      have n1 : (hReject p).key ≠ (hLast k.val).key := by simp only [Fld.key, hReject, hLast, F.ro, F.rc, hBase, ne_eq]; omega
      have n2 : (hPevt p).key ≠ (hLast k.val).key := by simp only [Fld.key, hPevt, hLast, F.ro, F.w1c, hBase, ne_eq]; omega
      have n3 : (hCrcErr p).key ≠ (hLast k.val).key := by simp only [Fld.key, hCrcErr, hLast, F.ro, F.rc, hBase, ne_eq]; omega
      simp only
      split <;> split <;> simp only [State.rd_wr_ne _ n1, State.rd_wr_ne _ n2, State.rd_wr_ne _ n3, State.rd_setLast, this]
    · exact this
  · intro p h1 h2
    rw [State.finish_eq, hp, h1]
    have hl : ∀ x : State, (x.setLast p c).lastOf p = c.val := by
      intro x; unfold State.lastOf State.setLast; rw [if_pos h2]; simp
    rw [← hl (State.resulted k c u d)]
    simp only [State.countPort, State.bump, State.setBits]
    split <;> split <;> rfl
  · rw [State.finish_eq, hp]
    split
    · next p h =>
      have h3 := (hr.setLast p c (by simp))
      unfold State.countPort
      by_cases hc : c.cls = 3
      · have m : ∀ f ∈ [hReject p, hCrcErr p, hPevt p], f ∈ s.slotFlds k.val c ++ w.flds := by
          intro f hfm
          simp only [State.slotFlds, h, hc, if_true, List.mem_append]
          exact .inl (.inr hfm)
        have m1 := m (hReject p) (by simp)
        have m2 := m (hCrcErr p) (by simp)
        have m3 := m (hPevt p) (by simp)
        rw [if_pos hc]
        split
        · exact (((h3.bump _ _ m1).setBits _ _ m3).bump _ _ m2).setBits _ _ m3
        · exact (h3.bump _ _ m1).setBits _ _ m3
      · rw [if_neg hc, if_neg (fun e => hc (Code.badCrc_cls c e))]
        exact h3
    · exact hr

/-- A field that is none of the slot's own reads after serving what the operation left in it. -/
theorem State.rd_finish (k : Slot) (c : Code) (u : State) (d : List Nat) (f : Fld) (hf : ∀ g ∈ u.slotFlds k.val c, g.key ≠ f.key) :
    (State.finish k (c, u) d).rd f = u.rd f := by
  have hr : (State.resulted k c u d).rd f = u.rd f := by
    unfold State.resulted
    split
    · next h => exact State.rd_wr_ne _ (hf _ (by simp [State.slotFlds, h])) _
    · rfl
  rw [State.finish_eq]
  split
  · next p h =>
    unfold State.countPort State.bump State.setBits
    by_cases hc : c.cls = 3
    · have m : ∀ g ∈ [hReject p, hCrcErr p, hPevt p], g.key ≠ f.key := by
        intro g hg
        refine hf g ?_
        simp only [State.slotFlds, h, hc, if_true, List.mem_append]
        exact .inr hg
      have m1 := m (hReject p) (by simp)
      have m2 := m (hCrcErr p) (by simp)
      have m3 := m (hPevt p) (by simp)
      rw [if_pos hc]
      split <;> simp only [State.rd_wr_ne _ m1, State.rd_wr_ne _ m2, State.rd_wr_ne _ m3, State.rd_setLast, hr]
    · rw [if_neg hc, if_neg (fun e => hc (Code.badCrc_cls c e)), State.rd_setLast]
      exact hr
  · exact hr

/-- What serving needs of a slot whose frames come to their command. -/
theorem State.heard_iff (s : State) (k : Nat) : s.heard k = true ↔
    s.serves k = true ∧ s.hst.bind = [] ∧ s.m10Refuses k = false ∧ (16 ≤ k ∨ s.on (hEn k) = true) ∧
      ∀ a ∈ s.hst.reads, s.sendPort k ≠ some a.port := by
  simp [State.heard, and_assoc, List.isEmpty_iff]

theorem State.ready_heard (s : State) (k : Nat) (h : s.ready k = true) : s.heard k = true := by
  simp [State.ready] at h; exact h.1

theorem State.ready_serves (s : State) (k : Nat) (h : s.ready k = true) : s.serves k = true :=
  ((s.heard_iff k).1 (s.ready_heard k h)).1

/-- REACH refuses neither a register nor a dictionary entry of a ready slot. -/
theorem State.ready_reach (s : State) (k : Nat) (d : Bool) (h : s.ready k = true) : s.outOfReach k d = none := by
  simp only [State.ready, State.outOfReach, Bool.and_eq_true] at h ⊢
  repeat' split
  all_goals simp_all

/-- Whether a slot is secure does not change with its marks. -/
theorem State.secure_marked (s : State) (k : Nat) : (s.marked k).secure k = s.secure k := by
  unfold State.secure
  split
  · rfl
  · unfold State.on
    rw [State.rd_marked _ _ _ (by simp only [Fld.key, hPresent, hSecure, F.ro, F.rws, hBase, ne_eq]; omega) (by simp only [Fld.key, hWaking, hSecure, F.ro, F.rws, hBase, ne_eq]; omega)]

theorem State.mode_marked (s : State) (k : Nat) : (s.marked k).mode = s.mode := by
  unfold State.mode
  exact State.rd_marked _ _ _ (by simp only [Fld.key, hPresent, glbMode, F.ro, hBase, ne_eq]; omega) (by simp only [Fld.key, hWaking, glbMode, F.ro, hBase, ne_eq]; omega)

theorem State.portOf_marked (s : State) (k : Nat) : (s.marked k).portOf k = s.portOf k :=
  State.portOf_congr k
    (State.rd_marked _ _ _ (by simp only [Fld.key, hPresent, hClass, F.ro, F.rws, hBase, ne_eq]; omega) (by simp only [Fld.key, hWaking, hClass, F.ro, F.rws, hBase, ne_eq]; omega))
    (State.rd_marked _ _ _ (by simp only [Fld.key, hPresent, hPort, F.ro, F.rws, hBase, ne_eq]; omega) (by simp only [Fld.key, hWaking, hPort, F.ro, F.rws, hBase, ne_eq]; omega))

theorem State.outOfReach_marked (s : State) (k : Nat) (d : Bool) : (s.marked k).outOfReach k d = s.outOfReach k d := by
  unfold State.outOfReach
  rw [State.rd_marked _ _ _ (by simp only [Fld.key, hPresent, hReach, F.ro, F.rws, hBase, ne_eq]; omega)
    (by simp only [Fld.key, hWaking, hReach, F.ro, F.rws, hBase, ne_eq]; omega)]

theorem State.m10Refuses_marked (s : State) (k : Nat) : (s.marked k).m10Refuses k = s.m10Refuses k := by
  unfold State.m10Refuses
  rw [State.mode_marked, State.secure_marked]

/-- A slot whose frames come to their command: the operation runs on the marked hub where nothing refuses it, with the result kept. -/
theorem served_heard (k : Slot) (s : State) (refuse : State → Option Code) (op : State → Code × State × List Nat) (renew : State → State)
    (h : s.heard k.val = true) (hr : refuse (s.marked k.val) = none) :
    served k s refuse op renew = State.finish k ((op (s.marked k.val)).1, (op (s.marked k.val)).2.1) (op (s.marked k.val)).2.2 := by
  obtain ⟨h1, h2, -, h4, h5⟩ := (s.heard_iff _).1 h
  have hb : (s.marked k.val).bound k.val = true := by
    unfold State.bound
    unfold State.on
    rw [State.rd_marked _ _ _ (by simp only [Fld.key, hPresent, hEn, F.ro, F.rws, hBase, ne_eq]; omega)
      (by simp only [Fld.key, hWaking, hEn, F.ro, F.rws, hBase, ne_eq]; omega)]
    rcases h4 with h4 | h4
    · simp [h4]
    · unfold State.on at h4
      simp [h4]
  unfold served
  rw [if_pos h1, State.frameIn_of_empty _ _ h2 h5]
  simp [hb, hr]

theorem State.refused_ready (s : State) (k : Slot) (d : Bool) (h : s.ready k.val = true) : (s.marked k.val).refused k d = none := by
  have hm := ((s.heard_iff _).1 (s.ready_heard _ h)).2.2.1
  unfold State.refused
  rw [State.m10Refuses_marked, hm, State.outOfReach_marked, s.ready_reach _ d h]
  rfl

theorem State.m10Only_heard (s : State) (k : Slot) (h : s.heard k.val = true) : (s.marked k.val).m10Only k = none := by
  have hm := ((s.heard_iff _).1 h).2.2.1
  unfold State.m10Only
  rw [State.m10Refuses_marked, hm]
  rfl

/-- A ready slot's command is its operation on the marked hub, with the result kept. -/
theorem host_ready (k : Slot) (s : State) (op : State → Res) (h : s.ready k.val = true) :
    host k s op = .next (State.finish k (op (s.marked k.val))) := by
  unfold host
  rw [served_heard _ _ _ _ _ (s.ready_heard _ h) (s.refused_ready k false h)]

/-- The same of a register of a leased resource. -/
theorem hostOwned_ready (k : Slot) (id : Nat) (s : State) (op : State → Res) (h : s.ready k.val = true) :
    hostOwned k id s op = .next (State.finish k (op (s.marked k.val))) := by
  unfold hostOwned
  rw [served_heard _ _ _ _ _ (s.ready_heard _ h) (s.refused_ready k false h)]

theorem State.readyReg_ready (s : State) (k : Nat) (h : s.readyReg k = true) : s.ready k = true := by
  simp [State.readyReg] at h; exact h.1

theorem State.refusedReg_ready (s : State) (k : Slot) (h : s.readyReg k.val = true) : (s.marked k.val).refusedReg k = none := by
  have hr : ¬(k.val < 16 ∧ (s.marked k.val).rd (hReach k.val) = 1) := by
    rw [State.rd_marked _ _ _ (by simp only [Fld.key, hPresent, hReach, F.ro, F.rws, hBase, ne_eq]; omega)
      (by simp only [Fld.key, hWaking, hReach, F.ro, F.rws, hBase, ne_eq]; omega)]
    rintro ⟨h1, h2⟩
    simp [State.readyReg, h2] at h
    omega
  unfold State.refusedReg
  rw [s.refused_ready k false (s.readyReg_ready _ h)]
  simp [hr]

/-- The same of a register that no dictionary entry stands for. -/
theorem hostReg_ready (k : Slot) (s : State) (op : State → Res) (renew : State → State) (h : s.readyReg k.val = true) :
    hostReg k s op renew = .next (State.finish k (op (s.marked k.val))) := by
  unfold hostReg
  rw [served_heard _ _ _ _ _ (s.ready_heard _ (s.readyReg_ready _ h)) (s.refusedReg_ready k h)]

/-- The same of a command that REACH does not judge before it acts. -/
theorem hostFree_heard (k : Slot) (s : State) (op : State → Res) (h : s.heard k.val = true) :
    hostFree k s op = .next (State.finish k (op (s.marked k.val))) := by
  unfold hostFree
  rw [served_heard _ _ _ _ _ h (s.m10Only_heard k h)]

/-- The same of a dictionary entry, while the Steward serves. -/
theorem hostDict_ready (k : Slot) (s : State) (op : State → Res) (h : s.ready k.val = true) (hu : (s.marked k.val).stewardUp = true) :
    hostDict k s op = .next (State.finish k (op (s.marked k.val))) := by
  unfold hostDict
  rw [served_heard _ _ _ _ _ (s.ready_heard _ h) (by simp [hu, s.refused_ready k true h])]

theorem hostData_heard (k : Slot) (s : State) (op : State → Code × State × List Nat) (h : s.heard k.val = true) :
    hostData k s op = .next (State.finish k ((op (s.marked k.val)).1, (op (s.marked k.val)).2.1) (op (s.marked k.val)).2.2) := by
  unfold hostData
  rw [served_heard _ _ _ _ _ h (s.m10Only_heard k h)]

/-- The marks of a served slot are among what serving may change. -/
theorem Frame.marked (k : Slot) (c : Code) (w : Touch) (s : State) :
    Frame { w with flds := s.slotFlds k.val c ++ w.flds, blks := .answer :: .last :: w.blks } s (s.marked k.val) := by
  rcases s.marked_eq k.val with h | ⟨hk, h⟩ <;> rw [h]
  · exact Frame.refl _ _
  · exact ((Frame.refl _ s).wr _ _ (by simp [State.slotFlds, hk])).wr _ _ (by simp [State.slotFlds, hk])

end Sys2Proof.Machine
end

