-- ==== Sys2Proof/Tests/Slice0.lean ====
section
/-! SUPPORT. Small checks of the model: terms that the well-formedness check refuses, and for each statement of
Sys2Proof/Certificates/Slice0/Obligations.lean concrete states and operands that meet its hypotheses. -/

namespace Sys2Proof.Tests

open Sys2Proof.Machine Sys2Proof.Machine.F

/-! ### Well-formedness: an ill-formed term for each check -/

def canSmall : CanFrame := { ext := true, rtr := false, fdf := false, brs := false, esi := false, id := 0x04020200, data := [], sof := 0 }

/-- A stamp beyond 48-bit seconds (R21). -/
theorem test_wf_stamp : (Instr.keepTick ⟨(2 ^ 48 * 1000000000 * 16), 0, 0⟩).wf = false ∧ (Instr.keepTick ⟨0, 0, 0⟩).wf = true := by decide
/-- A frame's wires with SCK low, long after the last frame, no reserved bit set, and the CRC byte `crc`. -/
def wireOf (crc : Nat) (len : Byte := 0) : Wire := { high := false, soon := false, rsv := 0, len := len, crc := BitVec.ofNat 8 crc }

/-- A frame of no words, and one of 257 (R562). -/
theorem test_wf_words : (Instr.readReg 0 0 0 (wireOf 0)).wf = false ∧ (Instr.readReg 0 0 257 (wireOf 0)).wf = false ∧
    (Instr.readReg 0 0 256 (wireOf 0)).wf = true := by decide
/-- A defined opcode is no bad opcode (R567). -/
theorem test_wf_opcode : (Instr.badOpcode ⟨0, wireOf 0⟩ 0x10).wf = false ∧ (Instr.badOpcode ⟨0, wireOf 0⟩ 0x13).wf = true := by decide
/-- Nine bytes in a classical frame, a length ISO 11898-1 does not have, a remote frame with data, an 11-bit identifier too large (R626). -/
theorem test_wf_can : (Instr.canFrameReceive 0 { canSmall with data := [1, 2, 3, 4, 5, 6, 7, 8, 9] }).wf = false ∧
    (Instr.canFrameReceive 0 { canSmall with fdf := true, data := [1, 2, 3, 4, 5, 6, 7, 8, 9] }).wf = false ∧
    (Instr.canFrameReceive 0 { canSmall with rtr := true, data := [1] }).wf = false ∧
    (Instr.canFrameReceive 0 { canSmall with ext := false }).wf = false ∧
    (Instr.canFrameReceive 0 { canSmall with brs := true }).wf = false ∧ (Instr.canFrameReceive 0 canSmall).wf = true := by decide
/-- A supply voltage beyond 16 bits, an ADC deviation beyond 12. -/
theorem test_wf_supply : (Instr.keepPowerOn (2 ^ 16) 0).wf = false ∧ (Instr.keepTempSample 0 (2 ^ 16)).wf = false ∧
    (Instr.keepTick ⟨0, 2 ^ 16, 0⟩).wf = false ∧ (Instr.keepTick ⟨0, 0, 2 ^ 16⟩).wf = false ∧
    (Instr.adcRefConversion (2 ^ 12)).wf = false := by decide
/-- A sentence of 83 characters, an IRIGIN element beyond 32 bits, a DTP value or segment beyond its length field. -/
theorem test_wf_lengths : (Instr.zdaSentence (List.replicate 83 0)).wf = false ∧ (Instr.iriginElement 0 (2 ^ 32)).wf = false ∧
    (Instr.segWriteInit 0 0 0 (2 ^ 32)).wf = false ∧ (Instr.dtpUndefinedCmd 0 0x10000000).wf = false := by decide
/-- A received item of more than 255 bytes. -/
theorem test_wf_recv (n : Nat) (h : 255 < n) : (Instr.scriptRecvFrame 0 (List.replicate n 0) 0 0).wf = false := by
  simp [Instr.wf]; omega

/-! ### States -/

/-- A state with the listed register fields written. -/
def set (s : State) (fs : List (Fld × Nat)) : State := fs.foldl (fun s x => s.wr x.1 x.2) s

/-- The hub awake in mode `m`, its clock running and every bank powered, with the listed fields. Slot 0 is secure, slot 1 is not. -/
def awake (m : Nat) (fs : List (Fld × Nat) := []) : State :=
  set { State.reset with
    htm := { State.reset.htm with mclk := true, pll := true, frozen := false, first := false }
    hst := { State.reset.hst with bank33 := [(0, 2), (1, 2), (2, 2), (3, 2), (4, 2)] } } ((glbMode, m) :: fs)

/-- Slot 0 is served and secure; slot 1 is served and not secure. -/
def served (s : State) : Bool := s.ready 0 && s.secure 0 && s.ready 1 && !s.secure 1

/-! ### The hypotheses of each statement are met -/

theorem test_met_StepRunsFront : ({ State.reset with pending := [.nop ⟨0, wireOf 0⟩] } : State).pending = [.nop ⟨0, wireOf 0⟩] := by decide

theorem test_met_TimelineMoves : served (awake 4) = true ∧ (awake 4).timeMode = true ∧ (awake 4).rd htmSetApply = 0 ∧
    (awake 10 [(htmSetApply, 1)]).ready 0 = true ∧ (awake 10 [(htmSetApply, 1)]).rd htmSetApply ≠ 0 ∧
    (let s : State := { awake 6 with htm := { (awake 6).htm with pend := some { time := 0, apply := 1 } } }
     s.ready 0 = true ∧ s.htm.pend ≠ none) ∧
    (let s : State := { awake 4 [(htmSlewActive, 1)] with htm := { (awake 4).htm with slewLeft := 5 } }
     s.ready 0 = true ∧ s.running = true ∧ s.on htmSlewActive = true ∧ s.slewAbsorbed = s.htm.slewLeft) := by decide

theorem test_met_TimelineIsGuarded : served (awake 4) = true ∧ (awake 4).mode ∈ [4, 6, 10] ∧
    served (awake 5) = true ∧ (awake 5).mode ∉ [4, 6, 10] ∧ (awake 4).htm.pend = none ∧ (awake 4).on htmSlewActive = false := by decide

theorem test_met_SelfCaptureAndIncrement : (awake 4 [(rEn 8, 1)]).ready 0 = true ∧ (awake 4 [(rEn 8, 1)]).accepts ((awake 4).stampRing 0) 4 ∧
    (awake 4 [(dMode, 1)]).on dMode = true ∧ (awake 4 [(dMode, 1)]).ready 0 = true ∧ (awake 4).on dMode = false ∧
    ((0x04 : Word).toNat % 256 * 2 ^ 32 + (awake 4).htm.incrHeld.getD ((awake 4).htm.incr % 2 ^ 32) = 0x0400000000) ∧
    ((0x05 : Word).toNat % 256 * 2 ^ 32 > 0x04010624DD) := by
  decide

theorem test_met_PlanSwitchAndPll : (let s := awake 4 [(kOscRunning, 1)]
      s.ready 0 = true ∧ s.secure 0 = true ∧ s.timeMode = true ∧ s.on htmPlanBusy = false ∧ s.glb.freezeReq = none ∧
      s.on kOscRunning = true ∧ 0x03FEF9DB23 ≤ s.planIncr ∧ s.planIncr ≤ 0x04010624DD) ∧
    (let s := awake 4 [(kOscRunning, 1), (htmPlanIncrHi, 5)]
     s.ready 0 = true ∧ s.on kOscRunning = true ∧ 0x04010624DD < s.planIncr) ∧
    ((awake 5).ready 0 = true ∧ (awake 5).timeMode = false) ∧
    (State.reset.locking = true ∧ State.reset.htm.first = true) ∧
    (let s : State := { State.reset with htm := { State.reset.htm with pll := true } }
     s.glb.mainUp = true ∧ s.htm.pll = true ∧ s.htm.frozen = true ∧ s.htm.mclk = false ∧ s.mode = 3) ∧
    (let s : State := { awake 4 with htm := { State.reset.htm with phase := .locking } }
     s.htm.frozen = true ∧ s.htm.pll = false ∧ s.htm.phase = .locking) ∧
    (let s : State := { awake 4 with htm := { State.reset.htm with phase := .fallback } }
     s.htm.phase = .fallback ∧ s.mode ∈ [4, 6, 10]) ∧
    ((awake 5).running = true ∧ (awake 5).htm.pll = true ∧ (awake 5).mode ∈ [4, 5, 6, 10]) ∧
    (let s : State := { State.reset with htm := { State.reset.htm with pll := true } }
     s.lockSeen = true ∧ s.htm.frozen = true ∧ s.mode = 3) ∧
    (State.reset.mode = 3 ∧ State.reset.glb.mainUp = true ∧ State.reset.htm.frozen = true ∧ State.reset.htm.pll = false) := by decide

def pair1 : TickPair := { n := 1, f := 0, h := 0, set := true, at_ := 0 }

theorem test_met_FreezeAndThawCarryTime : (let s : State := { awake 4 [(kOscRunning, 1)] with
        glb := { State.reset.glb with freezeReq := some .nap, freezeTick := true }, keep := { State.reset.keep with pair := some pair1 } }
      .nap ∈ s.glb.freezeReq.toList ∧ s.running = true ∧ s.on kOscRunning = true ∧ s.glb.freezeTick = true ∧ s.keep.pair ≠ none ∧
        s.mode ∈ [4, 5, 6]) ∧
    (let s : State := { awake 4 [(kOscRunning, 1)] with glb := { State.reset.glb with freezeReq := some .fall } }
     .fall ∈ s.glb.freezeReq.toList ∧ s.running = true ∧ s.on kOscRunning = true ∧ s.glb.freezeTick = false) ∧
    (let s : State := { awake 6 [(kOscRunning, 1)] with
        glb := { State.reset.glb with freezeReq := some .plan, freezeTick := true }, keep := { State.reset.keep with pair := some pair1 } }
     .plan ∈ s.glb.freezeReq.toList ∧ s.glb.freezeTick = true ∧ s.keep.pair ≠ none ∧ s.running = true ∧ s.on kOscRunning = true) ∧
    (let s : State := { awake 7 [(htmIslandOnMclk, 1), (kTimeValid, 1)] with
        htm := { (awake 7).htm with frozen := true }, glb := { State.reset.glb with frz := some pair1, thawTick := true } }
     s.glb.mainUp = true ∧ s.htm.frozen = true ∧ s.htm.mclk = true ∧ s.on htmIslandOnMclk = true ∧ s.htm.first = false ∧ s.seq.drop = 0 ∧
     s.glb.thawTick = true ∧ pair1 ∈ s.glb.frz.toList ∧ s.on kTimeValid = true) ∧
    (let s : State := { awake 7 [(htmIslandOnMclk, 1)] with htm := { (awake 7).htm with frozen := true } }
     s.htm.frozen = true ∧ s.on htmIslandOnMclk = true ∧ s.on kTimeValid = false ∧ s.glb.frz = none) := by decide

theorem test_met_WakeSourcesWake : (let s := awake 7
      s.bit glbWakeEn 0 = true ∧ s.bankUp 0 = true ∧ s.mode = 7) ∧
    (let s := awake 2 [(qa qMaster, 0), (glbWakeEn, 0xFF)]
     s.bit glbWakeEn 4 = true ∧ s.mode = 2 ∧ s.qon qMaster = false) ∧
    (let s : State := { awake 7 [(sEdge 0, 1), (sWake 0, 1)] with htm := { (awake 7).htm with frozen := true } }
     s.htm.frozen = true ∧ s.glb.mainUp = true ∧ s.edgeSel 0 true = true ∧ s.mode = 7 ∧ s.on (sWake 0) = true ∧ s.stp.wake = none) ∧
    (let s : State := { awake 3 [(sEdge 63, 2)] with htm := { (awake 3).htm with frozen := true } }
     s.edgeSel 63 false = true ∧ s.mode ≠ 7) ∧ (awake 7).asleep = true := by decide

/-- Awake in M4 with a loaded configuration, nothing whole in the named banks. -/
def withBanks (m : List Nat) : State :=
  { awake 4 with hst := { (awake 4).hst with banks := m.map (fun b => (b, .torn)) }, glb := { State.reset.glb with loaded := true } }

theorem test_met_ModeCommands : (let s := awake 5 [(kOscRunning, 1)]
      served s = true ∧ s.mode ∈ [4, 5, 6] ∧ s.on kOscRunning = true ∧ s.on htmPlanBusy = false ∧ s.glb.freezeReq = none ∧ s.running = true) ∧
    (served (awake 8) = true ∧ (awake 8).mode ∉ [4, 5, 6] ∧ (awake 8).mode ≠ 10) ∧
    ((awake 10).ready 0 = true ∧ (awake 10).secure 0 = true ∧ (awake 10).mode = 10 ∧ (awake 10).running = true) ∧
    ((awake 4).on glbStewardReady = false ∧ (awake 4).on xNoFw = false ∧ (awake 4).rd xState ≠ 2 ∧ (awake 4).bankGood ((awake 4).rd xBank) = true) ∧
    (withBanks [0, 1]).bankGood 0 = false ∧ (withBanks [0, 1]).bankGood 1 = false ∧ (withBanks [0]).bankGood 0 = false ∧
    (withBanks [0]).bankGood 1 = true ∧
    ({ awake 4 with glb := { State.reset.glb with loaded := true } } : State).glb.loaded = true ∧ (awake 4).on xTrial = false ∧
    (let s := set (withBanks [0]) [(xTrial, 1)]
     s.on xTrial = true ∧ s.bankGood (1 - s.rd xBank) = true ∧ s.glb.loaded = true ∧ s.running = true) ∧
    (let s := set (withBanks [1]) [(xTrial, 1)]
     s.on xTrial = true ∧ s.bankGood (1 - s.rd xBank) = false ∧ s.hst.trialNext = false) ∧ (awake 1).mode ≤ 1 := by decide

theorem test_met_ModeCommands_shelf : (let s := awake 0 [(kShelfArmed, 1)]
     let t : State := { s with keep := { s.keep with shelf := true } }
     t.mode ≤ 1 ∧ t.keep.shelf = true ∧ t.rd kShelfArmed = 1) := by decide

theorem test_met_KeepCountTicks : State.reset.canTick = true ∧ State.reset.noSource 0 0 = false ∧ State.reset.keep.f < 2 ^ 42 ∧ State.reset.keep.fifo = [] ∧
    State.reset.htm.pend = none ∧ State.reset.keep.swPend = none ∧ (0 : Int) ≤ State.reset.keep.f + State.reset.rdS kTrimTotal ∧
    (let s : State := { State.reset with keep := { State.reset.keep with f := 2 ^ 42 - 1 } }
     2 ^ 42 ≤ ((set s [(kTrimTotal, 1)]).keep.f : Int) + (set s [(kTrimTotal, 1)]).rdS kTrimTotal) ∧
    ((set State.reset [(kTrimTotal, 2 ^ 32 - 1)]).keep.f : Int) + (set State.reset [(kTrimTotal, 2 ^ 32 - 1)]).rdS kTrimTotal < 0 ∧
    State.reset.keep.batLow = false ∧ State.reset.on kMode = false ∧ State.reset.sampleTick = false ∧
    (let s : State := { State.reset with keep := { State.reset.keep with rawTicks := 65536, count := 2831155200 } }
     s.sampleTick = true ∧ s.keepRuns = true ∧ s.keep.dayEnd ≤ s.keep.count) ∧
    ({ State.reset with keep := { State.reset.keep with judged := false } } : State).noSource 2951 0 = false ∧
    ({ State.reset with keep := { State.reset.keep with powered := false } } : State).keep.powered = false := by decide

theorem test_met_KeepAlarmsStampsOscillator : (let s := set State.reset [(kAlmEn 3, 1), (kAlmPer 3, 2), (kAlmEvent 3, 1), (kKscfg 3, 1)]
      s.keepRuns = true ∧ s.on (kAlmEn 3) = true ∧ s.rd (kAlmLo 3) + s.rd (kAlmHi 3) * 2 ^ 32 ≤ s.keep.count ∧
      s.on (kAlmWakeHub 3) = false ∧ s.rd (kAlmPer 3) ≠ 0 ∧ s.rd (kKscfg 3) = 1 ∧ s.keep.fifo.length < 8) ∧
    (set State.reset [(kAlmEn 0, 1)]).rd (kAlmPer 0) = 0 ∧
    (let s := awake 7 [(kAlmEn 0, 1), (kAlmWakeHub 0, 1), (kAlmEvent 0, 1)]
     s.keepRuns = true ∧ s.on (kAlmEn 0) = true ∧ s.on (kAlmWakeHub 0) = true ∧ s.mode = 7) ∧
    (let s := awake 2 [(kAlmWakeHub 0, 1)]
     s.mode = 2 ∧ s.qon qMaster = true ∧ s.seq.joined = true ∧ s.seq.pullDown = true ∧ s.rd qKind = 0 ∧ s.qon qHoldupEn = false) ∧
    (awake 2 [(qa qMaster, 0)]).qon qMaster = false ∧
    (let s : State := { State.reset with keep := { State.reset.keep with fifo := List.replicate 8 { input := 0, count := 0, sleep := false } } }
     8 ≤ s.keep.fifo.length) ∧ State.reset.rd (kKscfg 0) ≠ 1 ∧
    (let s : State := { State.reset with keep := { State.reset.keep with rawTicks := 32768 } }
     s.keepRuns = true ∧ 32768 ≤ s.keep.rawTicks) ∧ State.reset.keep.rawTicks < 32768 := by decide

/-- The hub after reset with its supplies at these voltages. -/
def supplied (vmain vbat : Nat) (fs : List (Fld × Nat)) : State :=
  set { State.reset with keep := { State.reset.keep with vmain := vmain, vbat := vbat } } fs

theorem test_met_KeepSupplySwitches : State.reset.keep.powered = true ∧ State.reset.keep.judged = true ∧ State.reset.keep.supply = .vmain ∧
    (let s := supplied 2749 3000 []
     if s.on kSwMode then s.keep.vmain + 30 < s.keep.vbat else s.keep.vmain < 2750) ∧
    (let s := supplied 2969 3000 [(kSwMode, 1)]
     if s.on kSwMode then s.keep.vmain + 30 < s.keep.vbat else s.keep.vmain < 2750) ∧
    State.reset.on kShelfArmed = false ∧ (set State.reset [(kShelfArmed, 1)]).on kShelfArmed = true ∧
    (let s : State := { State.reset with keep := { State.reset.keep with supply := .vbat, upRun := 2 } }
     s.keepRuns = true ∧ s.keep.supply = .vbat ∧ s.keep.upRun = 2) ∧
    (let s := awake 4 [(kSwrecInfo 2, 1)]
     s.running = true ∧ s.unemitted = some 2) ∧
    ((awake 11).mode = 11 ∧ (awake 11).on kShelfArmed = false ∧ (awake 11).keep.shelf = false) := by decide

def withWin (a v : Nat) : State := { awake 4 [(kBusy, 1)] with keep := { State.reset.keep with win := some (a, v) } }

theorem test_met_KeepWindowPassesOneWrite : served (awake 4) = true ∧ (awake 4).on kBusy = false ∧
    ((0xA5000008 : Word).toNat / 2 ^ 24 = 0xA5 ∧ (0xA5000008 : Word).toNat % 4 ≠ 3 ∧ (awake 4).mrd kSwMode = 0) ∧
    ((0x00000008 : Word).toNat / 2 ^ 24 ≠ 0xA5 ∧ (0x00000008 : Word).toNat.testBit 3 = true) ∧
    (withWin 0x01000C 8).on kBusy = true ∧ (withWin 0x01000C 8).ready 0 = true ∧ (withWin 0x01000C 8).keep.win = some (0x01000C, 8) ∧
    (withWin 0x01000C 4).keep.win = some (0x01000C, 4) ∧ (withWin 0x01000C 2).keep.win = some (0x01000C, 2) ∧
    (withWin 0x01000C 1).keep.win = some (0x01000C, 1) ∧
    (withWin (0x010104 + 16 * 3) 7).keep.win = some (0x010104 + 16 * (3 : Fin 4).val, (7 : Word).toNat) ∧
    (withWin (0x010400 + 4 * 15) 7).keep.win = some (0x010400 + 4 * (15 : Fin 16).val, (7 : Word).toNat) := by decide

theorem test_met_KeepWindowPassesOneWrite_any : (inKeepWindow (0x010008 : Addr).toNat = false ∧ (awake 4).readyReg 0 = true ∧ (awake 4).readyReg 1 = true) ∧
    (inKeepWindow (0x01000C : Addr).toNat = true ∧ oneCommand (0x00000003 : Word).toNat 15 = false ∧ oneCommand (0x00000002 : Word).toNat 15 = true ∧
      oneCommand (0x00000001 : Word).toNat 15 = true ∧ (0x00000001 : Word).toNat % 2 = 1) ∧
    (inKeepWindow (0x01002C : Addr).toNat = true ∧ ∀ f ∈ keepFlds (0x01002C : Addr).toNat, f.ty = .ro ∨ f.ty = .rc) ∧
    (¬ (∀ f ∈ keepFlds (0x010030 : Addr).toNat, f.ty = .ro ∨ f.ty = .rc) ∧
      changesRws (awake 4).mrd (0x12345678 : Word).toNat (keepFlds (0x010030 : Addr).toNat) = true ∧
      anyReserved (0x12345678 : Word).toNat (keepFlds (0x010030 : Addr).toNat) = false) ∧
    (changesRws (awake 4).mrd (0x00000100 : Word).toNat (keepFlds (0x01010C : Addr).toNat) = false ∧
      anyReserved (0x00000003 : Word).toNat (keepFlds (0x010200 : Addr).toNat) = true) ∧
    (let s : State := { awake 4 with keep := { (awake 4).keep with mirror := [(kSwMode.key, 1), (kChgEn.key, 1)] } }
     s.ready 0 = true ∧ s.mrd kSwMode = 1 ∧ s.mrd kChgEn = 1 ∧ (0xA5000008 : Word).toNat.testBit 3 = true ∧
     anyReserved (0xA5000008 : Word).toNat (keepFlds (0x01004C : Addr).toNat) = false ∧
     (0x00000010 : Word).toNat.testBit 4 = true ∧ anyReserved (0x00000010 : Word).toNat (keepFlds (0x010000 : Addr).toNat) = false) ∧
    ((awake 4).keep.win = none ∧ (withWin 0x010130 7).keep.win = some (0x010100 + 16 * (3 : Fin 4).val, (7 : Word).toNat)) ∧
    (let s : State := { withWin 0x010028 7 with htm := { (awake 3).htm with frozen := true }, regs := ((withWin 0x010028 7).wr kGAtFreeze 1).regs }
     s.keep.win = some (0x010028, (7 : Word).toNat) ∧ s.htm.frozen = true ∧ s.on kGAtFreeze = true) ∧
    (let s := (withWin 0x01013C 0xFFFFFFFF).wr (kAlmFired 3) 1
     s.keep.win = some ((0x01013C : Addr).toNat, (0xFFFFFFFF : Word).toNat) ∧ (0x01013C : Addr).toNat / 64 = 0x404 ∧ 8 ≤ (0x01013C : Addr).toNat % 16) ∧
    ((withWin 0x010030 0x12345678).keep.win = some ((0x010030 : Addr).toNat, (0x12345678 : Word).toNat) ∧ (0x010030 : Addr).toNat / 64 ≠ 0x404 ∧
      (withWin 0x010028 7).htm.frozen = false ∧ (withWin 0x01004C 0xA5000008).keep.win = some ((0x01004C : Addr).toNat, (0xA5000008 : Word).toNat)) := by decide

/-- A state whose sequencer has the given lines and work. -/
def seqOf (s : State) (q : SeqS) : State := { s with seq := q }

theorem test_met_RailsAreJudged : (let s := awake 4 [(qState 0, 2)]
      s.seq.drop = 0 ∧ s.railState 0 = 2 ∧ s.seq.shortSeen.testBit 0 = false ∧ s.canAllOff = true ∧ s.seq.offNow = 0) ∧
    (let s := seqOf (awake 9) { SeqS.init with offNow := 2 }
     s.canAllOff = true ∧ s.seq.offNow ≠ 0) ∧
    (set (awake 4) [(qa (qAbortShort 0), 0)]).qon (qAbortShort 0) = false ∧ (awake 4).qon (qAbortShort 0) = true ∧
    (awake 4 [(qState 23, 6)]).railState 23 = 6 ∧ (awake 4).q (qMinOff 23) ≠ 0 ∧
    (let s := seqOf (awake 4 [(qState 23, 7)]) { SeqS.init with shortHold := 2 ^ 23 }
     s.railState 23 = 7 ∧ s.seq.shortHold.testBit 23 = true) ∧
    (let s := awake 4 [(qState 5, 7)]
     s.railState 5 = 7 ∧ s.seq.shortHold.testBit 5 = false ∧ s.seq.want.testBit 5 = false) ∧
    (awake 2).canAllOff = true ∧ (awake 10).canAllOff = true ∧ (awake 4 [(qState 0, 3)]).railState 0 = 3 ∧ served (awake 4) = true ∧
    (awake 4).q qVinFault = 0 ∧ (awake 4 [(qa qVinFault, 5)]).q qVinFault ≠ 0 := by decide

theorem test_met_StagesFollowTheLines : (let s := seqOf (awake 3 [(qKind, 1), (qDir, 0), (qStep, 14)]) { SeqS.init with pullDown := false }
      s.rd qKind = 1 ∧ s.seq.pullStep = false ∧ s.seq.next = none ∧ s.turns = [] ∧ s.rd qDir = 0 ∧ s.seq.pullDown = false ∧ s.rd qStep < 15) ∧
    (let s : State := { awake 3 [(qKind, 1), (qDir, 0), (qStep, 15)] with ended := [.turn 0 [.holdup] false false] }
     s.rd qKind = 1 ∧ s.seq.next = none ∧ s.rd qDir = 0 ∧ 15 ≤ s.rd qStep ∧ s.ended = [.turn 0 [.holdup] false false]) ∧
    (let s := seqOf (awake 3 [(qKind, 1), (qDir, 0), (qStep, 15)]) { SeqS.init with pullDown := false }
     15 ≤ s.rd qStep ∧ s.mode ≠ 8 ∧ s.seq.pullDown = false ∧ s.rd qKind = 1) ∧
    (let s := awake 3 [(qKind, 1), (qDir, 0)]
     s.rd qDir = 0 ∧ s.seq.pullDown = true ∧ s.seq.next = none) ∧
    (let s := awake 8 [(qKind, 1), (qDir, 1), (qStep, 1)]
     s.rd qDir = 1 ∧ s.seq.pullDown = true ∧ 0 < s.rd qStep) ∧
    (let s := seqOf (awake 8 [(qKind, 1), (qDir, 1)]) { SeqS.init with pullDown := false }
     s.rd qDir = 1 ∧ s.seq.pullDown = false) ∧
    (let s := awake 8 [(qKind, 1), (qDir, 1), (qStep, 0)]
     s.rd qDir = 1 ∧ s.rd qStep = 0 ∧ s.seq.pullDown = true) ∧
    (let s := seqOf (awake 3) { SeqS.init with next := some (false, 1) }
     (false, 1) ∈ s.seq.next.toList ∧ s.seq.joined = true ∧ s.seq.op = none ∧ (s.stageRails 1).testBit 0 = true ∧
     s.railState 0 = 0 ∧ s.railDep 0 = 0 ∧ s.seq.shortHold.testBit 0 = false) ∧
    (let s := seqOf (awake 3 [(qKind, 1), (qDir, 0), (qStep, 5), (qa qMode, 1)]) { SeqS.init with pullStep := true }
     s.rd qKind = 1 ∧ s.seq.pullStep = true ∧ s.on qGateWait = false ∧ s.stageRailsDone = true ∧ s.gated = true) ∧
    (let s := seqOf (awake 3 [(qKind, 1), (qDir, 0), (qStep, 1)]) { SeqS.init with pullStep := true }
     s.stageRailsDone = true ∧ s.thawFirst = false ∧ s.gated = false) ∧
    (let s := awake 3 [(qKind, 1)]
     s.rd qKind = 1 ∧ s.seq.pullStep = false ∧ s.on qLineStep = false) := by decide

theorem test_met_StagesFollowTheLines_down : (let s := seqOf (awake 4 [(qKind, 2), (qa (qRailStep 4), 2), (qState 4, 3)]) { SeqS.init with next := some (true, 2) }
     (true, 2) ∈ s.seq.next.toList ∧ s.seq.joined = true ∧ s.seq.op = none ∧ s.mode ∈ [3, 4, 5, 6, 10] ∧
     (∀ n : Fin 24, (s.stepRails 2).testBit n = true → s.qon (qHubOwn n) = false) ∧ (s.stepRails 2).testBit 4 = true ∧
     s.railOn 4 = true ∧ s.usersDown 4 = true) ∧
    (let s := seqOf (awake 5 [(qKind, 2), (qState 0, 3), (kOscRunning, 1)]) { SeqS.init with next := some (true, 1) }
     (s.stepRails 1).testBit 0 = true ∧ s.railOn 0 = true ∧ s.qon (qHubOwn 0) = true ∧ s.usersDown 0 = true ∧
     s.htm.frozen = false ∧ s.on kOscRunning = true ∧ s.seq.joined = true ∧ s.seq.op = none) ∧
    (let s := seqOf (awake 4 [(qKind, 2), (qState 0, 3), (qState 4, 3), (qa (qRailStep 4), 1), (qa (qDep 4), 1)]) { SeqS.init with next := some (true, 1) }
     (s.stepRails 1).testBit 0 = true ∧ s.railOn 0 = true ∧ s.usersDown 0 = false) := by decide

theorem test_met_RestsAndStarts : (let s := awake 2
      s.seq.joined = true ∧ s.seq.next = none ∧ s.mode ≠ 9 ∧ s.rd qKind = 0) ∧ (awake 4 [(qKind, 2)]).rd qKind = 2 ∧
    (let s : State := { awake 9 with glb := { State.reset.glb with mainUp := false } }
     s.mode = 9 ∧ s.glb.mainUp = false ∧ s.seq.own = false ∧ s.seq.mrLow = false) ∧
    (let s := seqOf (awake 9 [(qOffCause, 7), (qa qRetry, 1)]) { SeqS.init with own := true }
     s.seq.mrLow = false ∧ s.seq.own = true ∧ s.rd qOffCause ∈ [1, 3, 7] ∧ s.seq.retries < s.q qRetry) ∧
    (let s := awake 2
     s.mode = 2 ∧ s.qon qMaster = true ∧ s.qon qAutoStart = true ∧ s.seq.pullDown = true ∧ (s.qon qHoldupEn && s.seq.vinLow && s.q qVinWarn != 0) = false) ∧
    (seqOf (awake 2) { SeqS.init with joined := false }).seq.joined = false := by decide

theorem test_met_ButtonAndInput : (let s := awake 2
      s.mode = 2 ∧ s.rd qKind = 0 ∧ s.qon qMaster = true ∧ s.seq.joined = true ∧ s.seq.pullDown = true ∧
      (s.qon qHoldupEn && s.seq.vinLow && s.q qVinWarn != 0) = false) ∧
    (let s := seqOf (awake 4 [(qKind, 2), (qa qHoldupEn, 1)]) { SeqS.init with pullStep := true }
     s.mode ≠ 9 ∧ s.mode ≠ 7 ∧ s.rd qKind ≠ 0 ∧ s.seq.pullStep = true ∧ s.qon qHoldupEn = true ∧ s.seq.holdup = false ∧
     s.setStarted = true) ∧
    (awake 4 [(qa qVinWarn, 5)]).q qVinWarn ≠ 0 ∧ (awake 4).q qVinWarn = 0 ∧ (awake 4).qon qHoldupEn = false ∧ 2 ≤ (awake 2).mode ∧ (awake 10).mode ≤ 10 ∧
    (let s := awake 4 [(qKind, 1)]
     s.rd qKind = 1 ∧ s.seq.pullDown = true ∧ s.seq.next = none) ∧
    (let s := seqOf (awake 4 [(qKind, 1)]) { SeqS.init with pullDown := false }
     s.seq.pullDown = false ∧ s.seq.next = none) ∧
    (let s : State := { awake 9 with glb := { State.reset.glb with mainUp := false } }
     s.mode = 9 ∧ s.glb.mainUp = false ∧ s.seq.mrLow = false ∧ (seqOf s { SeqS.init with mrLow := true }).seq.mrLow = true) := by decide

theorem test_met_GroupsAreDemanded : (let s := awake 4
      s.ready 0 = true ∧ s.groupSlot 0 7 = true ∧ s.bit qGrpUp 7 = false ∧ s.rising 7 = false ∧ s.mode ≠ 2 ∧ s.rd qKind ≠ 2) ∧
    ((awake 4 [(qGrpUp, 1)]).bit qGrpUp 0 = true ∧ (awake 4).groupSlot 1 0 = false ∧ (awake 4).ready 1 = true) ∧
    (let s := awake 4 [(qKind, 2)]
     s.rd qKind = 2 ∧ s.seq.next = none ∧ s.seq.demands.testBit 0 = false ∧ (s.groupRails 0).testBit 0 = true ∧ s.qon (qHubOwn 0) = true ∧
     (∀ n : Fin 24, (s.groupRails 3).testBit n = true → s.qon (qHubOwn n) = false) ∧ s.bit qGrpUp 3 = false) ∧
    (let s := awake 4 [(qKind, 2), (qGrpUp, 8), (qa (qGroup 4), 3), (qa (qRailStep 4), 2)]
     s.bit qGrpUp 3 = true ∧ (s.groupRails 3).testBit 4 = true ∧ s.qon (qHubOwn 4) = false) ∧
    (let s := awake 4 [(qa (qWakeEn 3), 1), (qa (qWakeGroup 3), 5)]
     s.qon (qWakeEn 3) = true ∧ s.mode ≠ 2 ∧ s.mode ≠ 7 ∧ s.bit qGrpUp (s.q (qWakeGroup 3)) = false ∧ s.rising (s.q (qWakeGroup 3)) = false) ∧
    (let s := seqOf (awake 4 [(qKind, 2), (qGrpUp, 1)]) { SeqS.init with demands := 3 }
     s.rd qKind = 2 ∧ s.seq.next = none ∧ s.seq.demands.testBit 0 = true ∧ s.bit qGrpUp 0 = true ∧ s.seq.demands.testBit 1 = true ∧
     s.bit qGrpUp 1 = false) ∧
    (let s := seqOf (awake 4 [(qa (qHrstEn 2), 1), (qa (qHrstGroup 2), 6)]) { SeqS.init with emptyUp := 64 }
     s.qon (qHrstEn 2) = true ∧ s.groupUpNow (s.q (qHrstGroup 2)) = true ∧ s.mode ≠ 9) ∧
    (awake 4 [(hWaking 15, 1)]).on (hWaking 15) = true := by decide

theorem test_met_PlanAndGates : (let s := awake 4 [(hOwner idPlan, 0), (qKind, 2)]
      served s = true ∧ s.owner idPlan = (0 : Slot).val ∧ s.rd qKind ∈ [0, 2] ∧ s.seq.next = none ∧ s.planBad = false) ∧
    (let s := awake 4 [(hOwner idPlan, 0), (qKind, 1), (qDir, 1)]
     s.owner idPlan = (0 : Slot).val ∧ s.rd qKind ∉ [0, 2]) ∧
    (let s := awake 4 [(hOwner idPlan, 0), (qKind, 0), (qDep 0, 1)]
     s.planBad = true ∧ s.rd qKind ∈ [0, 2]) ∧
    (let s := awake 4 [(hOwner idPlan, 1)]
     s.owner idPlan ≠ (0 : Slot).val ∧ s.owner idPlan ≠ 0x1F) ∧
    (let s := awake 4 [(qGateWait, 1), (qStep, 15), (qa qGateTo, 1)]
     s.on qGateWait = true ∧ s.rd qStep = (15 : Fin 16).val ∧ s.q qGateTo ≠ 0) ∧ (awake 4).on qGateWait = false ∧
    (let s := awake 4 [(qKind, 0), (qa qMaster, 0)]
     s.mode ≠ 9 ∧ s.rd qKind = 0 ∧ s.qon qMaster = false) ∧
    (let s := seqOf (awake 4 [(qKind, 1), (qDir, 1), (kOscRunning, 1)]) { SeqS.init with down := [.host], pullStep := true }
     s.rd qKind = 1 ∧ s.rd qDir = 1 ∧ .host ∈ s.seq.down ∧ s.seq.down = [.host] ∧ s.seq.pullStep = true ∧ .riseDown ∉ s.ended ∧
     .riseUp ∉ s.ended ∧ s.on kOscRunning = true) ∧ (awake 4 [(kOscRunning, 0)]).on kOscRunning = false ∧
    (let s : State := { awake 4 with ended := [.riseUp, .riseDown] }
     s.mode ≠ 9 ∧ .riseUp ∈ s.ended ∧ .riseDown ∈ s.ended) ∧
    ((awake 4 [(qKind, 3)]).rd qKind ∈ [2, 3] ∧ (awake 4 [(qKind, 1), (qDir, 0)]).rd qDir = 0) := by decide

def monOf (s : State) (m : MonS) : State := { s with mon := m }

theorem test_met_ScanJudgesAndRecords : (let s := awake 4 [(qState 0, 2), (qa (qPgMode 0), 0)]
      s.scanRuns = true ∧ s.mon.slot < 28 ∧ s.seq.drop = 0 ∧ s.mon.slot < 24 ∧ s.railState s.mon.slot = 2 ∧ s.q (qPgMode s.mon.slot) = 0 ∧
      s.q (qTarget s.mon.slot) * s.q (qUpPct s.mon.slot) ≤ (0xFFF : BitVec 12).toNat * 100) ∧
    (let s := monOf (awake 4 [(qState 0, 3)]) { MonS.init with warnRun := [(0, 1)] }
     s.railState s.mon.slot = 3 ∧ (100 : BitVec 12).toNat < s.q (qUvWarn s.mon.slot) ∧
     s.rd mWarnN ≤ Assoc.get 0 s.mon.slot s.mon.warnRun + 1) ∧
    (let s := monOf (awake 4) { MonS.init with slot := 24 }
     24 ≤ s.mon.slot ∧ s.mon.slot < 28 ∧ s.scanRuns = true) ∧
    (let s := monOf (awake 4 [(rEn 40, 1)]) { MonS.init with slot := 28, scanArm := true, scanReq := true }
     s.mon.slot = 28 ∧ s.running = true ∧ s.rd mScanDiv = 0 ∧ s.mon.scanArm = true ∧ s.accepts 40 16 ∧ s.mon.scanReq = true ∧ s.ready 0 = true) ∧
    (let s := monOf (awake 4) { MonS.init with next0 := some 0 }
     s.scanRuns = true ∧ s.mon.slot = 0 ∧ s.mon.next0 ≠ none) ∧ (awake 4).mon.next0 = none ∧
    (awake 4).mon.scanReq = false := by
  decide

def ent7 : LogEnt := { type := 7, words := List.replicate 29 0, waits := false, now := false }

theorem test_met_MortarEntries : (let s := awake 4 [(mSnapPer, 1)]
      served s = true ∧ s.mon.queue.length < 4 ∧ s.logFullFor 7 = false ∧ s.entryWaits = false ∧ s.mon.queue = [] ∧ s.mon.writing = none ∧ s.mon.clearing = false ∧ s.on mLogMode = false ∧
      s.rd mSnapPer ≠ 0 ∧ s.logFullFor 8 = false) ∧
    (let s := monOf (awake 4) { MonS.init with queue := List.replicate 4 { ent7 with type := 1 } }
     4 ≤ s.mon.queue.length ∧ s.logFullFor 7 = false ∧ s.entryWaits = false ∧ (∀ e ∈ s.mon.queue, logRank e.type ≤ 2) ∧ s.mon.queue ≠ []) ∧
    (let s := monOf (awake 4) { MonS.init with queue := [ent7] }
     s.mon.clearing = false ∧ s.mon.writing = none ∧ ent7 ∈ (bestEnt s.readyEnts).toList ∧ s.logFullFor ent7.type = false ∧ ent7.words.length = 29 ∧
     (∀ w ∈ ent7.words, w < 2 ^ 32) ∧ s.mon.seq < 2 ^ 32) ∧
    (monOf (awake 4) { MonS.init with clearing := true }).mon.clearing = true ∧
    ent7 ∈ (monOf (awake 4) { MonS.init with writing := some ent7 }).mon.writing.toList ∧ (awake 2 [(mSnapPer, 1)]).entryWaits = true ∧
    (let s := awake 4 [(mLogMode, 1), (rEn 43, 1), (rWidx 43, 32)]
     s.on mLogMode = true ∧ s.running = true ∧ s.on (rEn 43) = true ∧ 32 ≤ s.fill 43 ∧ s.mon.queue.length < 4) ∧
    (let s := monOf (awake 2) { MonS.init with writing := some { ent7 with type := 9, waits := true } }
     (∃ e ∈ s.mon.writing.toList, e.waits = true) ∧ s.entryWaits = true) ∧
    (let s := monOf (awake 4) { MonS.init with scanDue := true }
     s.mon.writing = none ∧ s.mon.scanDue = true ∧ (awake 4).mon.scanDue = false) ∧
    (let s := monOf (awake 4 [(mPolicy, 1)]) { MonS.init with queue := [ent7], log := [(32, 1)], head := 1 }
     s.newestOf (usedSlots s.mon.log) = some 1 ∧ s.logFullFor 7 = true ∧ ent7 ∈ (bestEnt s.readyEnts).toList) := by decide

theorem test_met_TrimLawSetsIncrement : (awake 4).running = true ∧ (awake 4 [(tMode, 1)]).on tMode = true ∧ (awake 4).on tMode = false ∧
    (awake 4).rd tGmill = 0x1F ∧ (awake 4).hwDiscipline = true ∧ (awake 4 [(dMode, 1)]).hwDiscipline = false ∧ (awake 4).on kBusy = false ∧
    (let s := awake 4 [(tGsensKeep, 4398), (tG, 16)]
     4398 ≤ (satS 32 (roundDivI (s.rdS tGsensKeep * s.rd tG) 16) - s.trm.gSent).natAbs) ∧ (awake 4 [(kBusy, 1)]).on kBusy = true := by decide

def winOf (acq : Bool) : GlWin :=
  { n := 600, sx := 0, sxx := 0, sym := 0, sxym := 0, syk := 0, sxyk := 0, wMax := 10, wMin := 0, acq := acq }
def trmOf (s : State) (t : TrmS) : State := { s with trm := t }

theorem test_met_CalibrationAndLearning : (let s := awake 5
      served s = true ∧ s.mode = 5 ∧ s.on tKcalBusy = false) ∧
    (let s := awake 10 [(tKcalBusy, 1)]
     s.ready 0 = true ∧ s.secure 0 = true ∧ s.mode = 10 ∧ s.on tKcalBusy = true) ∧
    ((awake 4).ready 0 = true ∧ (awake 4).mode ≠ 5 ∧ (awake 4).mode ≠ 10) ∧
    (let s : State := { trmOf (awake 5 [(tKcalBusy, 1)]) { TrmS.init with kcal := some pair1 } with
       keep := { State.reset.keep with pair := some pair1 } }
     s.running = true ∧ s.on tKcalBusy = true ∧ s.trm.kcal ≠ none ∧ s.keep.pair ≠ none) ∧
    (let s : State := { trmOf (awake 5 [(tKcalAuto, 1)]) { TrmS.init with auto := some pair1 } with
       keep := { State.reset.keep with pair := some { pair1 with n := 2, h := 131072000000000 } } }
     s.running = true ∧ s.mode = 5 ∧ s.on tKcalAuto = true ∧ s.on kMode = false ∧ s.on kBusy = false ∧ pair1 ∈ s.trm.auto.toList ∧
     s.keep.pair ≠ none) ∧
    (let s := trmOf (awake 5 [(tGlMain, 1)]) { TrmS.init with win := some (winOf false) }
     s.running = true ∧ s.mode = 5 ∧ s.on tGlMain = true ∧ winOf false ∈ s.trm.win.toList ∧ s.rd tGlWin ≤ (winOf false).n ∧
     (winOf false).observed = false) ∧
    (let s := trmOf (awake 5 [(tGlMain, 1)]) { TrmS.init with win := some (winOf true) }
     winOf true ∈ s.trm.win.toList ∧ (winOf true).observed = true ∧ s.on tGlKeep = false ∧ s.on tGlMain = true) ∧
    (awake 5).readyReg 0 = true := by decide

theorem test_met_DisciplineServoAndLock : (let s := awake 4 [(dSrc, 4), (dAutoAcq, 0), (htmTimeSet, 1)]
      s.running = true ∧ s.rd dSrc = 4 ∧ s.htm.pend = none ∧ s.trm.held = none ∧ s.trm.due = none ∧ s.mode = 4 ∧ s.rd dState ≠ 2 ∧
      s.hwDiscipline = true ∧ s.on dAutoAcq = false ∧ s.on htmTimeSet = true ∧ s.on htmSlewActive = false) ∧
    (let s := awake 4 [(dSrc, 4), (dState, 2)]
     s.rd dState = 2 ∧ s.rd dSrc = 4 ∧ s.rd dPpsWin * 2 ^ 16 < (s.theta (4000000000 * 2 ^ 28)).1.natAbs) ∧
    parseZda ([36, 71, 80, 90, 68, 65, 42, 48, 48] : List Nat) = .bad ∧ parseZda [] = .other ∧
    (let s := trmOf (awake 4 [(dSrc, 1), (dZdaRel, 0)])
       { TrmS.init with held := some { kind := 1, t := 0, n := 0, theta := 0, outlier := true, discard := false } }
     s.running = true ∧ s.rd dSrc = 1 ∧ s.on dZdaRel = false ∧ s.trm.due = none ∧ s.trm.held ≠ none) ∧
    (awake 4 [(dSrc, 1), (dZdaRel, 1)]).on dZdaRel = true ∧ (awake 4).trm.held = none := by decide

/-- GPZDA of midnight of 1 January 2020: its TAI second is 37 s more than POSIX time, 1,577,836,800. -/
theorem test_zda_label : parseZda [36, 71, 80, 90, 68, 65, 44, 48, 48, 48, 48, 48, 48, 44, 48, 49, 44, 48, 49, 44, 50, 48, 50, 48, 44, 48, 48, 44, 48, 48, 42, 52, 56] = .good 2020 1 1 0 0 0 ∧
    State.reset.taiOf 0 (daysOf 2020 1 1) 0 0 0 = some 1577836837 ∧ dateOf (daysOf 2020 1 1).toNat = (2020, 1, 1) := by decide

theorem test_met_UnlockAndHoldover : (let s := awake 4 [(dSrc, 4)]
      s.running = true ∧ s.rd dSrc ≠ 0 ∧ s.trm.held = none ∧ s.trm.due = none ∧ s.on htmSlewActive = false ∧ s.trm.missRun + 1 < s.rd dLossN ∧ s.hwDiscipline = true) ∧
    (let s := trmOf (awake 5 [(dSrc, 4)]) { TrmS.init with missRun := 2 }
     s.rd dLossN ≤ s.trm.missRun + 1 ∧ s.mode = 5) ∧
    (let s := awake 6 [(dMode, 1)]
     served s = true ∧ s.running = true ∧ s.on dMode = true ∧ s.on htmSlewActive = false ∧ s.mode = 6 ∧ s.mode ≠ 5) ∧
    (served (awake 5) = true ∧ (awake 5).on dMode = false) ∧
    (let s := awake 6
     s.holdUnc (s.rd dHoldTime + 1) ≤ s.rd dHoldLimit * 2 ^ 16 ∧ s.rd dHoldTime + 1 ≤ s.rd dHoldMax) ∧
    (let s := trmOf (awake 6) { TrmS.init with u0 := 10001 * 2 ^ 16 }
     s.rd dHoldLimit * 2 ^ 16 < s.holdUnc (s.rd dHoldTime + 1)) ∧
    (let s := awake 6 [(dHoldTime, 86400), (dHoldDrift, 0)]
     s.holdUnc (s.rd dHoldTime + 1) ≤ s.rd dHoldLimit * 2 ^ 16 ∧ s.rd dHoldMax ≠ 0 ∧ s.rd dHoldMax < s.rd dHoldTime + 1) := by decide

def calOf (s : State) (c : CalS) : State := { s with cal := c }
/-- 2020-09-13, within the view's range. -/
def dayNs : Nat := 1600000000 * 1000000000 * 2 ^ 32
def timeOf (s : State) (t : Nat) : State := { s with htm := { s.htm with time := t } }

theorem test_met_SecondBoundaryAndOutputs : (let s := calOf (awake 5 [(cPpsEn, 1), (cIrigEn, 1), (cClkEn 3, 1)]) { CalS.init with on := 63 }
      s.running = true ∧ s.cal.sec ≠ some s.nowSec ∧ s.viewValid = false) ∧
    (let s := timeOf (awake 5 [(htmTimeSet, 1)]) dayNs
     s.viewValid = true ∧ s.fields 0 s.nowSec ≠ none) ∧
    (let s := calOf (timeOf (awake 5 [(htmTimeSet, 1), (cPpsEn, 1), (cIrigEn, 1), (cClkEn 3, 1)]) dayNs)
       { CalS.init with on := 63, irig := some (0, 99, 2) }
     s.refRuns 0 = true ∧ s.refRuns 1 = true ∧ s.refRuns (2 + 3) = true ∧ s.cal.irig ≠ none ∧ s.ppsDue = true ∧ s.irigDue = true ∧
     s.clkDue 3 = true) ∧
    (let s := calOf (awake 5 [(htmTimeSet, 1), (cPpsEn, 1), (cIrigEn, 1), (cClkEn 3, 1)])
       { CalS.init with on := 63, pps := true, ppsNext := 1, ppsEnd := 1, irigNext := 1, clk := [(3, { ClkS.init with next := 1 })] }
     s.refRuns 0 = true ∧ s.refRuns 1 = true ∧ s.ppsDue = false ∧ (s.htm.time : Int) < s.cal.ppsEnd ∧ s.irigDue = false ∧
     s.clkDue 3 = false) ∧
    (let s := calOf (awake 5) { CalS.init with pps := true }
     s.cal.pps = true ∧ s.cal.ppsEnd ≤ s.htm.time) ∧
    served (awake 4) = true ∧ (8 : Word).toNat % 2 ^ 29 = 8 ∧ (500000000 : Word).toNat % 2 ^ 29 = 500000000 ∧
    (7 : Word).toNat % 2 ^ 29 < 8 := by decide

theorem test_met_CalendarTableAndAlarms : (served (awake 4) = true ∧ (awake 4).leapOk 28 ((0x2600EB96 : Word).toNat % 2 ^ 18) 38 = true ∧
      (awake 4).leapOk 30 (60310 % 2 ^ 18) 38 = false) ∧
    ((awake 4 [(cLocalPending, 1), (cLocalAtLo, 1)]).on cLocalPending = true ∧ (awake 4 [(cLocalPending, 1), (cLocalAtLo, 1)]).localDue = false ∧
      (awake 4 [(cLocalPending, 1)]).localDue = true ∧ (awake 4).on cLocalPending = false) ∧
    (({ date := 0, time := 0, mask := 0, scale := 3 } : AlmSpec).scale = 3) ∧
    (let a : AlmSpec := { date := 0, time := 0, mask := 0, scale := 0 }
     a.scale ≠ 3 ∧ a.reserved = false ∧ (awake 4).almDue 0 = false ∧ Ended.alarm 0 ∉ (awake 4).ended) ∧
    (timeOf (awake 5 [(htmTimeSet, 1), (cAlmEn 0, 1), (cAlmNextLo 0, 1600000000)]) dayNs).almDue 0 = true ∧
    (let s := awake 4 [(cLocalPending, 1)]
     s.running = true ∧ s.rd cLocalAtLo + s.rd cLocalAtHi * 2 ^ 32 ≤ s.nowSec) ∧
    (let s := calOf (timeOf (awake 5 [(htmTimeSet, 1)]) dayNs)
       { CalS.init with alms := [(7, { date := 0, time := 0, search := some 1600000001, owed := false })] }
     s.viewValid = true ∧ (s.alm 7).search = some 1600000001) ∧
    (let s := timeOf (awake 5 [(htmTimeSet, 1), (cAlmEn 0, 1), (cAlmNextLo 0, 1600000000)]) dayNs
     s.viewValid = true ∧ s.on (cAlmEn 0) = true ∧ (s.alm 0).search = none ∧ s.on (cAlmNever 0) = false ∧ s.almNext 0 ≠ 0 ∧
     s.almNext 0 ≤ s.nowSec ∧ s.running = true) ∧
    (let s := calOf (awake 4) { CalS.init with inFrame := some (0, [2]) }
     s.cal.inFrame ≠ none ∧ (0, [2]) ∈ s.cal.inFrame.toList ∧ [2].length ≠ 99) ∧
    (let s := calOf (awake 4) { CalS.init with inMark := true }
     s.cal.inMark = true ∧ s.cal.inFrame = none ∧ s.rd dSrc ≠ 3) := by decide

def stinOf (s : State) (n : Nat) (x : StIn) : State := { s with stp := { s.stp with ins := [(n, x)] } }
/-- From the stamp `l` to the stamp `x`, on the circle of stamps. -/
def stampsAfter (x : Int) (l : Nat) : Nat := ((x - l) % (2 ^ 48 * 10 ^ 9 * 2 ^ 4)).toNat
def edge1 : StEdge := { t := 16, pol := true, ovf := false, uncal := true }

theorem test_met_StampedEdges : (let s := awake 4 [(sEdge 63, 3)]
      s.glb.mainUp = true ∧ s.htm.frozen = false ∧ s.edgeSel 63 true = true ∧ s.on (sMode 63) = false ∧ (s.stin 63).fifo.length < 4 ∧
      (∀ l ∈ (s.stin 63).last.toList, 128 ≤ stampsAfter 0 l)) ∧ stampsAfter 143 16 < 128 ∧ 128 ≤ stampsAfter 144 16 ∧
    (let s := stinOf (awake 4 [(sEdge 0, 3)]) 0 { StIn.init with fifo := List.replicate 4 edge1, last := some 16 }
     4 ≤ (s.stin 0).fifo.length ∧ (s.stin 0).last = some 16 ∧ s.edgeSel 0 false = true) ∧
    (let s := stinOf (awake 4 [(sEdge 0, 1), (sMode 0, 1)]) 0 { StIn.init with unread := true }
     s.on (sMode 0) = true ∧ (s.stin 0).unread = true) ∧ (awake 4).edgeSel 0 true = false ∧ (awake 4).rd (sDgl 0) = 0 ∧
    ((awake 4).stin 0).filt = [] ∧
    (let s := stinOf (awake 4 [(sDgl 63, 15)]) 63 { StIn.init with filt := [(16, true)] }
     s.rd (sDgl 63) ≠ 0 ∧ (16, true) ∈ (s.stin 63).filt.getLast?.toList ∧ 975 < 16 + s.rd (sDgl 63) * 4 * 2 ^ 4 ∧
     16 + s.rd (sDgl 63) * 4 * 2 ^ 4 ≤ 976) ∧
    (let s := stinOf (awake 4 [(rEn 8, 1)]) 0 { StIn.init with fifo := [edge1] }
     s.running = true ∧ (∀ k : Fin 64, k ≠ 0 → (s.stin k).fifo = []) ∧ (s.stin 0).fifo = [edge1] ∧ edge1 ∈ (s.stin 0).fifo.head?.toList ∧
     s.on (sAngle 0) = false ∧ s.accepts 8 4) ∧
    (let s := stinOf (awake 4 [(rEn 15, 1), (sAngle 63, 1), (sMill 63, 15), (lAcq 15, 1)]) 63 { StIn.init with fifo := [edge1] }
     s.on (sAngle 63) = true ∧ s.on (lAcq (s.rd (sMill 63))) = true ∧ s.accepts 15 8 ∧ (s.stin 63).fifo = [edge1]) ∧
    (let s := stinOf (awake 4 [(rEn 8, 1), (sAngle 0, 1)]) 0 { StIn.init with fifo := [edge1] }
     s.on (sAngle 0) = true ∧ s.on (lAcq (s.rd (sMill 0))) = false ∧ s.accepts 8 4) := by
  decide

def us10 : Nat := 10000 * 2 ^ 32

theorem test_met_TimedOutputEntries : (let s := awake 4 [(hOwner (idTou 31), 0)]
      s.ready 0 = true ∧ s.owner (idTou 31) = (0 : Slot).val ∧ s.rd (oState 31 7) ≠ 2 ∧ s.rd (oState 31 7) ≠ 3 ∧ s.on (oEn 31) = false) ∧
    (let s := awake 4 [(hOwner (idTou 0), 1), (oState 0 7, 3)]
     s.ready 1 = true ∧ s.owner (idTou 0) = (1 : Slot).val ∧ s.rd (oState 0 7) = 3) ∧
    (let s := awake 4 [(hOwner (idTou 0), 0), (oEn 0, 1), (oState 0 7, 1), (oWidth 0 7, 8)]
     s.on (oEn 0) = true ∧ s.on (oSrc 0) = false ∧ (∀ k : Fin 8, (0x80 : BitVec 8).toNat.testBit k = true → s.rd (oState 0 k) = 1) ∧
     (∀ k : Fin 8, (0x80 : BitVec 8).toNat.testBit k = true → s.touBadEntry 0 k = false)) ∧
    (let s := awake 4 [(hOwner (idTou 0), 0), (oEn 0, 1), (oState 0 0, 1)]
     (∀ k : Fin 8, (1 : BitVec 8).toNat.testBit k = true → s.rd (oState 0 k) = 1) ∧ s.rd (oWidth 0 0) < 8) ∧
    ((0x80000000 : Word).toNat / 2 ^ 29 % 2 = (awake 4).rd (oSrc 0) ∧ (0xC0000000 : Word).toNat.testBit 30 = true ∧
      (0 : Word).toNat.testBit 31 = false) ∧
    ((∀ k : Fin 8, (awake 4).touAtCommit 0 k = false) ∧
      (let s := timeOf (awake 4 [(hOwner (idTou 0), 0), (oEn 0, 1), (oState 0 7, 2), (oNs 0 7, 10064)]) us10
       s.touAtCommit 0 7 = true ∧ (128 : BitVec 8).toNat = 2 ^ (7 : Fin 8).val ∧ ∀ k : Fin 8, k ≠ 7 → s.touAtCommit 0 k = false)) ∧
    ((∀ k : Fin 8, Ended.entry 0 k ∉ (awake 4).ended) ∧
      ¬ ∀ k : Fin 8, Ended.entry 0 k ∉ ({ awake 4 with ended := [.entry 0 7] } : State).ended) ∧
    ((awake 4).owner (idTou 0) ≠ (0 : Slot).val ∧ (awake 4).owner (idTou 0) = 0x1F ∧ (awake 4 [(hOwner (idTou 0), 1)]).owner (idTou 0) ≠ 0x1F) := by
  decide

def touOf (s : State) (o : TouS) : State := { s with tou := o }

theorem test_met_TimedOutputCommits : (let s := timeOf (awake 4 [(oEn 0, 1), (oState 0 0, 2), (oNs 0 0, 10064), (oAction 0 0, 3)]) us10
      s.running = true ∧ s.touInstant 0 0 = some (us10 + 64 * 2 ^ 32) ∧ s.touRuns 0 = true ∧ s.touDue 0 0 = true ∧
      us10 + 64 * 2 ^ 32 < s.htm.time + 64 * 2 ^ 32 + s.effIncr ∧ (s.touOut 0).last = none ∧ (s.touOut 0).line = [] ∧
      (s.touOut 0).trail = none ∧ ∀ k : Fin 8, k ≠ 0 → s.touAtCommit 0 k = false) ∧
    (let s := timeOf (awake 4 [(oEn 31, 1), (oState 31 7, 2), (oDropLate 31, 1)]) us10
     s.touInstant 31 7 = some 0 ∧ s.touDue 31 7 = true ∧ s.touFresh 31 7 = false ∧ s.on (oDropLate 31) = true ∧
     ∀ k : Fin 8, k ≠ 7 → s.touAtCommit 31 k = false) ∧
    ({ awake 4 with ended := [.due 31 7] } : State).touFresh 31 7 = true ∧
    (let s := awake 4 [(oEn 0, 1), (oState 0 0, 2), (oNs 0 0, 20000)]
     s.touInstant 0 0 = some (20000 * 2 ^ 32) ∧ s.htm.time + 64 * 2 ^ 32 + s.effIncr ≤ 20000 * 2 ^ 32 ∧ s.touDue 0 0 = true) ∧
    (let s := touOf (timeOf (awake 4) 5) { TouS.init with outs := [(3, { TouOut.init with line := [{ t := 5, action := 3, width := 8 }] })] }
     (s.touOut 3).line = [{ t := 5, action := 3, width := 8 }] ∧ (s.touOut 3).trail = none ∧ s.on (oMode 3) = false ∧ 5 ≤ s.htm.time) ∧
    (let s := touOf (awake 4) { TouS.init with outs := [(3, { TouOut.init with trail := some 0, trailOf := some 15 })] }
     0 ∈ (s.touOut 3).trail.toList ∧ 15 ∈ (s.touOut 3).trailOf.toList ∧ (s.touOut 3).last = none ∧ 0 ≤ s.htm.time ∧ s.htm.time < 1 ∧
     s.on (oMode 3) = false) ∧
    (let s := touOf (timeOf (awake 4) us10) { TouS.init with outs := [(3, { TouOut.init with trail := some 5, came := some 4, trailOf := some 15 })] }
     max 5 (4 + 8 * 2 ^ 32) ≠ 5 ∧ (s.touOut 3).came = some 4 ∧ (4 : Nat) < 5 ∧ 4 + 8 * 2 ^ 32 ≤ s.htm.time ∧ (awake 4).htm.time < 4 + 8 * 2 ^ 32) ∧
    (let s := touOf (awake 4 [(oEn 0, 1), (oState 0 0, 2), (oKind 0 0, 1), (lAcq 0, 1)])
       { TouS.init with ents := [(0, { pred := some (2000 * 2 ^ 32), wait := false })] }
     2000 * 2 ^ 32 ∈ (s.touEnt 0 0).pred.toList ∧ s.touRuns 0 = true ∧ s.rd (oState 0 0) = 2 ∧ s.on (oKind 0 0) = true ∧
     (s.touEnt 0 0).wait = false ∧ s.on (lAcq (s.rd (oMill 0 0))) = true ∧ 2000 * 2 ^ 32 ≤ s.htm.time + 2000 * 2 ^ 32) := by decide

def milOf (s : State) (m : Nat) (x : MillS) : State := { s with mil := { mills := [(m, x)], next := m, gap := 0 } }
def st1 : MillSt := { t := 0, th := 0, w := 0, a := 0 }

theorem test_met_MillEdgesMoveTheEstimator : ((awake 4).running = true ∧ (awake 4).lon 0 (lEn 0) = false ∧
      (awake 4).lq 0 (lDgl 0) = 0 ∧ ((awake 4).mill 0).filt = []) ∧
    (let s := milOf (awake 4 [(la 0 (lDgl 0), 15), (pinFunc 32, 1)]) 0 { MillS.init with filt := [(0, 5)] }
     s.lq 0 (lDgl 0) ≠ 0 ∧ s.milPin 0 0 = true ∧ (s.mill 0).filt = [(0, 5)] ∧ true ≠ (s.mill 0).ball.testBit 0 ∧
     0 * 2 ^ 28 < 5 + s.lq 0 (lDgl 0) * 4 * 2 ^ 32 ∧ 5 + s.lq 0 (lDgl 0) * 4 * 2 ^ 32 ≤ 1000 * 2 ^ 28) ∧
    (let s := awake 4 [(la 0 (lDgl 0), 1), (pinFunc 32, 1)]
     s.lq 0 (lDgl 0) ≠ 0 ∧ true ≠ (s.mill 0).ball.testBit 0 ∧ false = (s.mill 0).ball.testBit 1 ∧ false = (s.mill 0).ball.testBit 2 ∧
     (s.mill 0).filt = []) ∧
    (let x := (awake 4).mill 0
     x.atBalls x.a x.b x.z = x ∧ (awake 4).millQuiet 0 = true) ∧
    (let s := awake 4 [(la 15 (lEn 15), 1), (lState 15, 2), (pinFunc 77, 1), (pinFunc 78, 1), (pinFunc 79, 1)]
     s.lon 15 (lEn 15) = true ∧ s.lq 15 (lSrc 15) = 0 ∧ (∀ i : Fin 3, s.lon 15 (lQen 15 i) = false ∧ s.milPin 15 i = true) ∧
     true ≠ (s.mill 15).a ∧ true ≠ (s.mill 15).b ∧ false = (s.mill 15).z ∧ s.lon 15 (lMode 15) = false ∧ s.rd (lState 15) = 2) ∧
    (let s := milOf (awake 4 [(la 0 (lEn 0), 1), (la 0 (lSrc 0), 1), (pinFunc 32, 1), (pinFunc 33, 1), (pinFunc 34, 1)]) 0
       { MillS.init with started := true, seed := 1, kept := [st1] }
     s.lon 0 (lEn 0) = true ∧ s.lq 0 (lSrc 0) = 1 ∧ s.lq 0 (lMissing 0) = 0 ∧ s.lon 0 (lZref 0) = false ∧ s.lq 0 (lDirSrc 0) = 0 ∧
     (∀ i : Fin 3, s.lon 0 (lQen 0 i) = false ∧ s.milPin 0 i = true) ∧ true ≠ (s.mill 0).a ∧ true = !s.lon 0 (lTpol 0) ∧
     (s.mill 0).started = true ∧ (s.mill 0).held = none ∧ s.lon 0 (lMode 0) = false ∧ (s.mill 0).ready ≤ 0 ∧ s.rd (lAcq 0) = 0 ∧
     s.lq 0 (lAcqN 0) ≠ 0 ∧ (s.mill 0).seed = 1) ∧
    (let s := milOf (awake 4 [(la 0 (lEn 0), 1), (la 0 (lSrc 0), 1)]) 0 { MillS.init with started := true, ready := 1 }
     0 * 2 ^ 28 < (s.mill 0).ready ∧ s.lon 0 (lMode 0) = false) := by decide

theorem test_met_MillCommands : (let s := awake 4 [(hOwner (idMill 15), 0), (lEn 15, 1)]
      s.ready 0 = true ∧ s.owner (idMill 15) = (0 : Slot).val ∧ s.millBad 15 = false ∧ (∃ f ∈ millCore 15, s.rd f ≠ s.lq 15 f) ∧
      s.lon 15 (lMode 15) = false) ∧
    (awake 4 [(hOwner (idMill 0), 0), (lN 0, 0)]).millBad 0 = true ∧
    (let s := awake 4 [(hOwner (idMill 0), 0), (la 0 (lMode 0), 1)]
     s.lon 0 (lMode 0) = true ∧ ((s.injEpoch 0 : Int) - s.htm.time).natAbs ≤ 10 * (10 ^ 9 * 2 ^ 32)) ∧
    (let s := awake 4 [(la 0 (lMode 0), 1), (lInjSecLo 0, 11)]
     10 * (10 ^ 9 * 2 ^ 32) < ((s.injEpoch 0 : Int) - s.htm.time).natAbs) ∧
    (let s := awake 4 [(la 0 (lEn 0), 1), (lState 0, 2)]
     s.running = true ∧ s.lon 0 (lEn 0) = true ∧ s.rd (lState 0) ≠ 3 ∧
     (s.mill 0).since + s.lq 0 (lStallT 0) * (10 ^ 6 * 2 ^ 32) ≤ (timeOf s (10 ^ 9 * 2 ^ 32)).htm.time) ∧
    (let s := timeOf (awake 4 [(la 0 (lMode 0), 1), (lAcq 0, 1), (lInjHold 0, 1)]) (10 ^ 9 * 2 ^ 32)
     s.lon 0 (lMode 0) = true ∧ s.on (lAcq 0) = true ∧ s.rd (lInjHold 0) ≠ 0 ∧
     (s.mill 0).injAt + s.rd (lInjHold 0) * (10 ^ 6 * 2 ^ 32) ≤ s.htm.time) ∧
    (let s := milOf (awake 4 [(rEn 36, 1)]) 9 { MillS.init with recs := [{ kind := 1, detail := 0, t := 0, rev := 0 }] }
     s.mil.gap = 0 ∧ s.mil.next = (9 : Fin 16).val ∧ s.accepts 36 4 ∧ (s.mill 9).recs ≠ []) ∧
    (let s := milOf (timeOf (awake 4 [(la 0 (lEn 0), 1), (lState 0, 2), (lEn 0, 1)]) (10 ^ 9 * 2 ^ 32)) 0
       { MillS.init with kept := [{ st1 with w := 5, th := 7 }], started := true, recs := List.replicate 4 { kind := 1, detail := 0, t := 0, rev := 0 } }
     (s.mill 0).kept ≠ [] ∧ (s.mill 0).filt = []) ∧
    (let s := awake 4 [(hOwner (idMill 0), 0), (la 0 (lMode 0), 1), (lInj 0 2, 2 ^ 31 - 1)]
     s.lon 0 (lMode 0) = true ∧ s.readyReg 0 = true) := by
  decide

def gtOf (s : State) (n : Nat) (x : GtS) : State := { s with gtm := [(n, x)] }

theorem test_met_TimerTicksCountAndMatch : (let s := awake 4 [(gState 15, 2), (gPhase 15, 1)]
      s.g (gSrc 15) ≠ 3 ∧ s.gtDue 15 ≠ none ∧ Ended.load 15 ∉ s.ended ∧ (∀ j : Fin 4, s.gon (gCmpEn 15 j) = false) ∧
      s.tickExpires 15 = false ∧ s.gon (gRun 15) = false) ∧
    (awake 4).gtDue 0 = none ∧
    (let s := { awake 4 [(gState 15, 2), (gPhase 15, 1)] with ended := [.load 15] }
     s.gtDue 15 ≠ none ∧ Ended.load 15 ∈ s.ended) ∧
    (let s := gtOf (timeOf (awake 4 [(gState 0, 2), (ga (gSrc 0), 1), (ga (gDiv 0), 1000)]) us10) 0 { GtS.init with count := 2 ^ 64 - 1, tickAt := 5 }
     s.gtDue 0 = some (1000 * nsU) ∧ s.tickExpires 0 = true ∧ s.gon (gRun 0) = false) ∧
    (let s := gtOf (awake 4 [(gState 0, 2), (gPhase 0, 7), (ga (gRun 0), 1), (ga (gLimLo 0), 5)]) 0 { GtS.init with count := 4 }
     s.gtDue 0 ≠ none ∧ s.tickExpires 0 = true ∧ s.gon (gRun 0) = true ∧ s.gon (gReload 0) = false) ∧
    (let s := milOf (gtOf (awake 4 [(gState 0, 2), (gPhase 0, 1), (ga (gSrc 0), 2), (la 0 (lEn 0), 1)]) 0 { GtS.init with count := 4 }) 0
       { MillS.init with dirNeg := some true, lastT := some 7 }
     s.gtDue 0 = some 7 ∧ s.tickExpires 0 = false ∧ s.tickTo 0 = 3) ∧
    (let s := gtOf (awake 4 [(gState 0, 2), (gPhase 0, 1), (ga (gCmpEn 0 3), 1), (ga (gCmpOut 0 3), 1), (ga (gCmpAct 0 3), 1),
         (ga (gPdir 0 0), 1)]) 0 { GtS.init with cmp := [(3, 1)] }
     s.gtDue 0 ≠ none ∧ s.gon (gCmpEn 0 3) = true ∧ s.gtCmp 0 3 = s.tickTo 0 ∧ (∀ j : Fin 4, j ≠ 3 → s.gon (gCmpEn 0 j) = false) ∧
     s.tickExpires 0 = false ∧ s.gon (gMode 0) = false ∧ s.g (gCmpOut 0 3) = 1 ∧ s.gon (gPdir 0 0) = true ∧ s.g (gCmpAct 0 3) ≠ 0 ∧
     (s.gt 0).line = [] ∧ (s.gt 0).last = [] ∧ (s.gt 0).trail = []) ∧
    (let s := gtOf (awake 4) 0 { GtS.init with line := [(1, { t := 0, action := 3, width := 8 })] }
     (s.gt 0).line = [((1 : Fin 2).val, { t := 0, action := 3, width := 8 })] ∧ Assoc.find (1 : Fin 2).val (s.gt 0).trail = none ∧
     0 ≤ s.htm.time ∧ s.htm.time < 1) ∧
    (let s := gtOf (awake 4 [(gState 0, 2), (ga (gSrc 0), 3), (pinFunc 80, 1)]) 0 { GtS.init with clkAt := some 100 }
     s.g (gSrc 0) = 3 ∧ s.running = true ∧ s.gtPinOn 0 (s.g (gEpin 0)) = true ∧ s.g (gDgl 0) = 0 ∧ (s.gt 0).clk = [] ∧
     (s.g (gEedge 0)).testBit 0 = true ∧ stampsAfter 227 100 < 128 ∧ s.g (gSlave 0) ≠ 4 ∧ (∀ l ∈ (s.gt 0).clkAt.toList, 128 ≤ stampsAfter 228 l) ∧ s.gtCounts 0 = true ∧
     s.rd (gPhase 0) + 1 = s.g (gDiv 0) ∧ s.tickExpires 0 = false) ∧
    (let s := awake 4 [(gState 0, 2), (ga (gSrc 0), 3), (ga (gDiv 0), 2)]
     s.rd (gPhase 0) + 1 < s.g (gDiv 0) ∧ s.gtPinOn 0 (s.g (gEpin 0)) = false) ∧ (awake 4 [(ga (gSlave 0), 4)]).g (gSlave 0) = 4 := by
  decide

def cap1 : CapEnt := { t := 0, qual := 0, count := 7 }

theorem test_met_TimerCommands : (let s := awake 4 [(hOwner (idTimer 15), 0)]
      s.ready 0 = true ∧ s.owner (idTimer 15) = (0 : Slot).val ∧ s.gtDue 15 = none ∧ s.g (gSlave 15) ≠ 3 ∧ s.g (gSlave 15) ≠ 5 ∧
      s.gon (gRun 15) = false ∧ s.gtState 15 < 2 ∧ Ended.timer 15 ∉ s.ended ∧ s.gtForeign 0 15 = false ∧
      s.gtInput 15 = false ∧ Assoc.get [] 1 (s.gt 15).caps = [] ∧ (s.gt 15).trig = none) ∧
    Ended.timer 15 ∈ ({ awake 4 with ended := [.timer 15] } : State).ended ∧
    (let s := gtOf (awake 4 [(hOwner (idTimer 0), 0), (gState 0, 2), (gPhase 0, 1), (ga (gRun 0), 1), (ga (gLimLo 0), 5)]) 0
       { GtS.init with count := 4 }
     s.ready 0 = true ∧ s.gtDue 0 ≠ none ∧ s.gon (gRun 0) = true ∧ s.tickExpires 0 = true ∧ Ended.load 0 ∉ s.ended) := by decide

theorem test_met_TimerCommands_pins : (awake 4 [(hOwner (idTimer 0), 0), (gCmpOut 0 3, 3)]).gtForeign 0 0 = true ∧
    (let s := awake 4 [(hOwner (idTimer 0), 0), (gCmpOut 0 3, 1)]
     s.gtForeign 0 0 = false ∧ s.gtInput 0 = true) ∧
    (let s := awake 4 [(hReach 1, 3)]
     s.heard 1 = true ∧ s.rd (hReach 1) = 3 ∧ s.heard 0 = true ∧ s.rd (hReach 0) ≠ 3) ∧
    (let s := gtOf (awake 4) 3 { GtS.init with caps := [(1, [cap1])] }
     cap1 ∈ (Assoc.get [] 1 (s.gt 3).caps).head?.toList ∧ s.heard 1 = true ∧ s.rd (hReach 1) ≠ 3 ∧ s.gtPinOn 3 1 = false) ∧
    (let s := awake 4 [(ga (gCapEn 0 1), 1), (ga (gCapEdge 0 1), 3), (pinFunc 81, 1)]
     s.running = true ∧ s.gon (gCapEn 0 1) = true ∧ s.g (gCapSrc 0 1) = 0 ∧ s.gtPinOn 0 1 = true ∧
     (s.g (gCapEdge 0 1)).testBit 0 = true ∧ s.gtDue 0 = none ∧ s.g (gCapDgl 0 1) = 0 ∧ (s.gt 0).capHeld 1 = [] ∧
     s.g (gCapSpill 0 1) < 2 ∧ (Assoc.get [] 1 (s.gt 0).caps).length < 4 ∧ s.g (gCapSpill 0 1) = 0) ∧
    (let s := awake 4 [(ga (gCapEn 0 1), 1), (ga (gCapEdge 0 1), 3), (pinFunc 81, 1), (ga (gCapSpill 0 1), 2), (rEn 42, 1), (rSize 42, 6)]
     s.g (gCapSpill 0 1) = 2 ∧ s.on (rEn 42) = true ∧ s.fill 42 + 4 * 8 ≤ s.ringSize 42 ∧ s.rd (rWidx 42) % 4 = 0) ∧
    (let s := gtOf (awake 4 [(ga (gCapEn 0 0), 1), (ga (gCapEdge 0 0), 3), (pinFunc 80, 1)]) 0
       { GtS.init with caps := [(0, List.replicate 4 cap1)], capAt := [(0, 100)] }
     s.gtPinOn 0 0 = true ∧ 4 ≤ (Assoc.get [] 0 (s.gt 0).caps).length ∧ (∀ l ∈ (Assoc.find 0 (s.gt 0).capAt).toList, stampsAfter 227 l < 128) ∧
     (∀ l ∈ (Assoc.find 0 (s.gt 0).capAt).toList, 128 ≤ stampsAfter 228 l)) ∧
    (let s := gtOf (timeOf (awake 4 [(ga (gSlave 0), 2)]) 5) 0 { GtS.init with trig := some 0, trail := [(1, 5), (0, 6)] }
     Assoc.find 1 (s.gt 0).came = none ∧ (s.gt 0).trig ≠ none ∧ Ended.pulse 0 ∉ s.ended ∧ s.g (gSlave 0) = 2 ∧ (∀ j : Fin 2, s.gon (gCapEn 0 j) = false) ∧
     5 ∈ (Assoc.find 1 (s.gt 0).trail).toList ∧ 5 ≤ s.htm.time ∧ 6 ∈ (Assoc.find 0 (s.gt 0).trail).toList ∧ s.htm.time < 6) ∧
    (let s := gtOf (timeOf (awake 4) us10) 0 { GtS.init with trail := [(1, 5)], came := [(1, 4)] }
     5 ∈ (Assoc.find 1 (s.gt 0).trail).toList ∧ Assoc.find 1 (s.gt 0).came = some 4 ∧ 5 < 4 + 8 * 2 ^ 32 ∧
     4 + 8 * 2 ^ 32 ≤ s.htm.time ∧ (awake 4).htm.time < 4 + 8 * 2 ^ 32) ∧
    (let s := awake 4 [(ga (gSlave 0), 5), (gState 0, 2), (pinFunc 80, 1)]
     s.gtPinOn 0 0 = true ∧ s.g (gSlave 0) = 5 ∧ s.gtState 0 = 2) := by decide

def icuOf (s : State) (i : IcuS) : State := { s with icu := i }
def tgtWith (k : Nat) (q st : List IcuRec) : IcuS := { IcuS.init with tgts := [(k, { rseq := 0, queue := q, stack := st })] }
def rec0 : IcuRec := { seq := 0, prio := 5, src := 0, ns := 0 }

set_option maxRecDepth 100000 in
theorem test_met_RoundsAssignTheBest_idle : (awake 4).running = true ∧ (awake 4).winner = none := by decide

set_option maxRecDepth 100000 in
theorem test_met_RoundsAssignTheBest_winner :
    503 ∈ (awake 4 [(iLatch 15, 2 ^ 23), (iTmask 503, 2), (iPrio 503, 9), (rEn 1, 1)]).winner.toList := by decide

theorem test_met_RoundsAssignTheBest : (let s := icuOf (awake 4 [(rEn 3, 1)]) { IcuS.init with asg := [{ tgt := 3, src := 440, prio := 9 }] }
      s.icu.asg.find? (·.tgt == (3 : Fin 8).val) = some { tgt := 3, src := 440, prio := 9 } ∧ 3 ≤ s.rd (rSize 3) ∧ s.rd (rWidx 3) % 4 = 0 ∧
      s.on (iWakeEn 3) = false ∧ s.icu.ringOff = [] ∧ s.portHeld = false) := by decide

def waiting0 : PortItem := { blk := 7, ring := 42, words := [1, 2, 3, 4], moved := 0 }
def portOf (s : State) (p : PortS) : State := { s with port := p }

theorem test_met_RoundsAssignTheBest_port :
    (let s := milOf (stinOf (portOf (awake 4) { last := 5, run := 0, wait := [waiting0] }) 63 { StIn.init with fifo := [{ t := 0, pol := true, ovf := false, uncal := false }] }) 9
       { MillS.init with recs := [{ kind := 1, detail := 0, t := 0, rev := 0 }] }
     s.portIdle = false ∧ (s.stin 63).fifo ≠ [] ∧ (s.stin 0).fifo = [] ∧ s.on (sAngle 63) = false ∧ s.mil.gap = 0 ∧ s.mil.next = 9 ∧
     (s.mill 9).recs ≠ []) ∧
    (let s := icuOf (awake 4) { IcuS.init with asg := [{ tgt := 3, src := 440, prio := 9 }] }
     s.portIdle = false ∧ s.portHeld = false ∧ s.icu.asg ≠ [] ∧ s.running = true) ∧
    (portOf (awake 4) { last := 7, run := 31, wait := [waiting0] }).portHeld = true ∧
    (let s := portOf (awake 4) { last := 5, run := 32, wait := [waiting0] }
     s.icu.asg = [] ∧ s.port.wait = [waiting0] ∧ waiting0.blk < 256 ∧ waiting0.blk ≠ s.port.last ∧
     waiting0.moved + 1 < waiting0.words.length) := by decide

/-- Two producers wait: the port takes the next base address after the one served last, and goes round (R724). -/
theorem test_portOrder :
    let s := portOf (awake 4) { last := 5, run := 0, wait := [{ waiting0 with blk := 5, ring := 8 }, waiting0] }
    s.portNext = some 7 ∧ s.portCycle.port.last = 7 ∧ (portOf s { s.port with last := 8 }).portNext = some 5 := by decide

theorem test_met_ClaimsAndEndsOfService : (let s := awake 4
      served s = true ∧ s.on (iSecure (s.rd (hTarget 1))) = false ∧ (s.tgt (s.rd (hTarget 1))).queue = [] ∧ (s.tgt 1).stack = [] ∧
      s.icu.asg = [] ∧ s.heard 1 = true) ∧
    (let s := icuOf (awake 4) (tgtWith 1 [rec0] (List.replicate 8 rec0))
     rec0 ∈ (s.tgt (s.rd (hTarget 1))).queue.head?.toList ∧ 8 ≤ (s.tgt (s.rd (hTarget 1))).stack.length ∧
     rec0 ∈ (s.tgt 1).stack.head?.toList ∧ rec0.src = (0 : BitVec 10).toNat ∧ (0 : BitVec 10).toNat ≠ 1023 ∧ rec0.src ≠ (1 : BitVec 10).toNat) ∧
    (let s := icuOf (awake 4 [(iLatch 15, 2 ^ 23), (iTmask 503, 2)]) (tgtWith 1 [{ rec0 with src := 503 }] [])
     (s.tgt 1).stack.length < 8 ∧ s.raisedFor 1 503 = true ∧ s.tmask 503 1 = true) ∧
    (let s := icuOf (awake 4) (tgtWith 1 [{ rec0 with src := 503 }] [])
     s.raisedFor 1 503 = false ∧ s.tmask 503 1 = false) ∧
    (awake 4 [(iSecure 1, 1)]).on (iSecure ((awake 4).rd (hTarget 1))) = true ∧
    (let s := icuOf (awake 4) { IcuS.init with asg := [{ tgt := 7, src := 440, prio := 9 }] }
     s.secure 0 = true ∧ s.ready 0 = true ∧ s.icu.asg = [{ tgt := (7 : Fin 8).val, src := 440, prio := 9 }] ∧ s.on (iWakeEn 7) = false ∧
     (7 : Fin 8).val ∉ s.icu.ringOff) := by
  decide

theorem test_met_EventRegisters : served (awake 4) = true ∧ (∀ j : Fin 8, ((awake 4).tgt j).stack = []) ∧
    (let s := icuOf (awake 4) (tgtWith 7 [] [rec0])
     ∃ j : Fin 8, (s.tgt j).stack ≠ []) ∧
    (5 : Word).toNat % 8 ≠ (awake 4).rd iPrigrp ∧
    (let s := awake 4 [(iLatch 15, 2 ^ 23)]
     ∃ b : Fin 32, isLatched (32 * (15 : Fin 16).val + b.val) = true ∧ (0x00800000 : Word).toNat.testBit b = true ∧
       s.bit (iLatch 15) b = true ∧ s.tmask (32 * (15 : Fin 16).val + b.val) (s.rd (hTarget 1)) = false) ∧
    ((2 : Word).toNat / 2 ^ 16 % 256 = (awake 4).rd (iPrio 511) ∧
      ((2 : Word).toNat % 256) ^^^ (awake 4).rd (iTmask 511) = 2 ^ (awake 4).rd (hTarget 1)) ∧
    (0x00010000 : Word).toNat / 2 ^ 16 % 256 ≠ (awake 4).rd (iPrio 0) ∧ (awake 4).rd (hTarget 1) ≠ (7 : Fin 8).val := by decide

theorem test_met_RingsMoveWholeItems : (let s := awake 4 [(rEn 8, 1), (rCons 8, 1), (rWidx 8, 16)]
      s.ready 1 = true ∧ s.on (rSecure 8) = false ∧ s.on (rVar 8) = false ∧ s.rd (rCons 8) = (1 : Slot).val ∧ s.on (rEn 8) = true ∧
      s.fill 8 < 2 ^ 20 ∧ 4 * 2 ^ s.rd (rIsz 8) ≤ s.fill 8 ∧ 4 * 2 ^ s.rd (rIsz 8) ≤ 4 * 4 ∧ s.secure 0 = true ∧ s.ready 0 = true ∧
      s.ended = [] ∧ (s.radio 0).rx = none) ∧
    (let s := { awake 4 [(rEn 43, 1), (rProd 43, 2)] with ended := [.flush 43] }
     s.ready 2 = true ∧ s.heard 2 = true ∧ .flush 43 ∈ s.ended ∧ (List.replicate 8 (0 : Word)).length = 2 ^ s.rd (rIsz 43)) ∧
    (let s := { awake 4 [(rEn 44, 1), (rCons 44, 1), (rVar 44, 0)] with ended := [.write 44 2 (0xFFFFFFFF : Word).toNat 0 0] }
     s.ready 1 = true ∧ s.on (rVar 44) = false ∧ s.rd (rCons 44) = (1 : Slot).val ∧
     (2 : Fin 16).val ≠ (1 : Slot).val ∧ s.port.wait = [] ∧ s.ended = [.write 44 2 (0xFFFFFFFF : Word).toNat 0 0]) ∧
    (let it : PortItem := { blk := 8, ring := 40, words := List.replicate 16 1, moved := 3 }
     let s := portOf (awake 4 [(rEn 40, 1), (rCons 40, 0)]) { last := 8, run := 3, wait := [it] }
     s.ready 0 = true ∧ s.ended = [] ∧ s.port.wait = [it] ∧ it.ring = (40 : Fin 48).val ∧ 0 < it.moved ∧ 24 ≤ (40 : Fin 48).val ∧
     s.rd (rCons 40) = (0 : Slot).val) ∧
    (let s := awake 4 [(rEn 36, 1), (rCons 36, 0)]
     s.fill 36 < 4 * 2 ^ s.rd (rIsz 36) ∧ s.rd (rCons 36) = (0 : Slot).val ∧ s.on (rVar 36) = false) ∧
    (let s := awake 4 [(rEn 43, 1), (rProd 43, 2)]
     s.ready 2 = true ∧ s.on (rVar 43) = false ∧ s.rd (rProd 43) = (2 : Slot).val ∧ 2 ^ s.rd (rIsz 43) = 8 ∧ s.takes 43 8 ∧
     s.fill 43 ≤ s.ringSize 43 ∧ 32 ≤ s.ringSize 43 - s.fill 43 ∧ s.ringSize 43 - s.fill 43 < 96) ∧
    (let s := awake 4 [(rCons 8, 1)]
     s.rd (rCons 8) = (1 : Slot).val ∧ s.on (rEn 8) = false ∧ s.rd (rCons 8) ≠ (0 : Slot).val ∧ s.rd (rCons 8) ≠ 0x1F) ∧
    (let s := awake 4 [(rEn 8, 1)]
     (∀ f ∈ (rngCfgFlds 8).tail, f.ty = .rws → f.ofWord (0x06000000 + 0x1F * 2 ^ 10 : Nat) = s.rd f ∧ f.isReserved (s.rd f) = false) ∧
     (∀ f ∈ rngCfgFlds 8, f.isReserved (f.ofWord (0x86000000 + 0x1F * 2 ^ 10)) = false)) := by
  decide

theorem test_met_RingsMoveWholeItems_rights : (let s := awake 4 [(rCons 8, 1), (rProd 8, 1)]
     s.heard 1 = true ∧ s.readyReg 1 = true ∧ s.rd (rCons 8) = (1 : Slot).val ∧ s.rd (rProd 8) = (1 : Slot).val ∧ s.on (rEn 8) = false ∧
     s.rd (rProd 8) ≠ (0 : Slot).val ∧ s.rd (rProd 8) ≠ 0x1F ∧ s.rd (rCons 8) ≠ (0 : Slot).val) ∧
    (let s := awake 4 [(rEn 8, 1), (rCons 8, 1), (rProd 8, 1)]
     ((1 : Word).toNat + 2 ^ 32 - s.rd (rRidx 8)) % 2 ^ 32 % (4 * 2 ^ s.rd (rIsz 8)) ≠ 0 ∧ s.on (rEn 8) = true) := by decide

theorem test_met_MailboxesCarryOneMessage : (let s := awake 4 [(bEn 63, 1), (bSend 63, 0), (bRecv 63, 1)]
      s.ready 0 = true ∧ s.chanSeen 0 63 = true ∧ s.on (bEn 63) = true ∧ s.rd (bSend 63) = (0 : Slot).val ∧ s.rd (bRecv 63) ≠ 16 ∧
      s.postWakes 63 = false ∧ s.rd (bState 63) = 0 ∧ s.on (bForm 63) = false ∧ s.rd (bState 63) ≠ 1 ∧ s.rd (bState 63) ≠ 2) ∧
    (let s := awake 4 [(bEn 0, 1), (bForm 0, 1), (bSend 0, 0), (bRecv 0, 1)]
     s.on (bForm 0) = true ∧ (0xFFFFC : Word).toNat % 2 ^ 20 + (4 : Word).toNat % 2 ^ 20 ≤ 2 ^ 20 ∧ (0xFFFFC : Word).toNat % 4 = 0 ∧
     s.rangeRead (s.rd (bRecv 0)) ((0xFFFFC : Word).toNat % 2 ^ 20) ((4 : Word).toNat % 2 ^ 20) = true) ∧
    (let s := awake 4 [(bEn 0, 1), (bSend 0, 1), (bRecv 0, 0), (bState 0, 1)]
     s.rd (bState 0) ≠ 0 ∧ s.rd (bState 0) = 1 ∧ s.rd (bRecv 0) = (0 : Slot).val ∧ s.rd (bSend 0) ≠ (0 : Slot).val ∧ s.chanSeen 1 0 = true) ∧
    (let s := awake 4 [(bEn 0, 1), (bRecv 0, 1), (bState 0, 2)]
     s.rd (bState 0) = 2 ∧ s.rd (bRecv 0) = (1 : Slot).val ∧ s.rd (bState 0) ≠ 3) ∧
    (let s := awake 4 [(bEn 0, 1), (bRecv 0, 1), (bState 0, 3)]
     isCode (0 : BitVec 16).toNat = true ∧ s.rd (bState 0) = 3 ∧ isCode (0xFFFF : BitVec 16).toNat = false) ∧
    (awake 4 [(bEn 0, 1), (bAcked 0, 1)]).on (bAcked 0) = true ∧
    (let s := awake 4 [(bEn 0, 1)]
     (∀ f ∈ bindFlds 0, f.isReserved (f.ofWord (0 : Word).toNat) = false) ∧ (∀ f ∈ (bindFlds 0).tail, f.ofWord (0 : Word).toNat = s.rd f)) ∧
    (awake 4).on (bEn 0) = false ∧ (awake 4).secure 1 = false ∧ (awake 4).heard 1 = true ∧ (awake 4).ready 1 = true ∧
    (awake 4 [(glbStewardReady, 1)]).on glbStewardReady = true := by decide

theorem test_met_MailboxesCarryOneMessage_refused : (let s := awake 4 [(bEn 0, 1), (bForm 0, 1), (bSend 0, 0), (bRecv 0, 1), (bState 0, 2)]
     s.rd (bState 0) ≠ 0 ∧ s.on (bForm 0) = true ∧ s.rd (bSend 0) = (0 : Slot).val ∧ s.rd (bRecv 0) ≠ (0 : Slot).val ∧ s.readyReg 0 = true ∧
     s.rd (bSend 0) ≠ (1 : Slot).val ∧ (4 : Word).toNat % 2 ^ 20 ≠ 0 ∧
     s.rangeRead (s.rd (bRecv 0)) ((0xFFFFC : Word).toNat % 2 ^ 20) ((4 : Word).toNat % 2 ^ 20) = true) ∧
    (let s := awake 4 [(bSend 0, 0), (bRecv 0, 0)]
     s.chanSeen 0 0 = true ∧ s.on (bEn 0) = false) := by decide

theorem test_met_RegisterWrites : served (awake 4) = true ∧ (awake 4).reach 0 = 0 ∧ (awake 4).reach 1 = 0 ∧
    (0x53FFFC : Addr).toNat % 4 = 0 ∧ 0x500000 ≤ (0x53FFFC : Addr).toNat ∧ (0x53FFFC : Addr).toNat < 0x540000 ∧
    (awake 4 [(sbufSecure 63, 1)]).on (sbufSecure 63) = true ∧ (awake 4).on (sbufSecure 0) = false ∧
    ((awake 4 [(sbufWr 0, 2)]).rd (sbufWr 0)).testBit 0 = false ∧ ((awake 4).rd (sbufWr 63)).testBit 0 = true ∧
    (4095 : Word).toNat % 2 ^ 16 < 4096 ∧ 1000 < (1001 : Word).toNat % 2 ^ 10 ∧ (1 : Word).toNat % 2 ^ 16 ≠ (awake 4).rd mSnapPer := by decide

theorem test_met_RegisterWrites_reach : (∀ r ∈ [1, 2, 3], (awake 4 [(hReach 1, r)]).heard 1 = true ∧ (awake 4 [(hReach 1, r)]).reach 1 = r) ∧
    (0xFFFFFF : Addr).toNat % 4 ≠ 0 ∧ (0x3FFFFC : Addr).toNat < 0x400000 ∧ 0x540000 ≤ (0x540000 : Addr).toNat ∧
    ((0x051400 : Addr).toNat / 2 ^ 16 = 5 ∧ fldsAt (0x051400 : Addr).toNat = [] ∧ fldsAt (0x050000 : Addr).toNat ≠ []) ∧
    ((0x000044 : Addr).toNat / 2 ^ 16 = 0 ∧ fldsAt (0x000044 : Addr).toNat ≠ []) ∧
    (let a : Addr := 0x0F0018
     let s := awake 4 [(hOwner (idRadio 0), 1)]
     plainReg a.toNat = true ∧ leaseNeeded a.toNat = some (idRadio 0) ∧ s.owner (idRadio 0) = (1 : Slot).val ∧ s.owner (idRadio 0) ≠ (0 : Slot).val ∧
     idRadio 0 ≠ idPlan ∧ fldsAt a.toNat ≠ []) ∧
    (let s := awake 4 [(hOwner idPlan, 0)]
     plainReg (0x090104 : Addr).toNat = true ∧ leaseNeeded (0x090104 : Addr).toNat = some idPlan ∧ s.owner idPlan = (0 : Slot).val ∧
     s.secure 0 = true ∧ s.wordBad (0x090104 : Addr).toNat (0 : Word).toNat = false ∧ fldsAt (0x090104 : Addr).toNat ≠ []) ∧
    (awake 4).wordBad (0x07000C : Addr).toNat (0 : Word).toNat = true ∧ (awake 4 [(hStgrp 1, 3)]).rd (hStgrp 1) = (0x050180 : Addr).toNat % 2 ^ 16 / 0x80 := by decide

theorem test_met_RegisterWrites_plain : (plainReg (0x040028 : Addr).toNat = true ∧ leaseNeeded (0x040028 : Addr).toNat = none ∧ fldsAt (0x040028 : Addr).toNat ≠ []) ∧
    (plainReg (0x050400 : Addr).toNat = true ∧ leaseNeeded (0x050400 : Addr).toNat = none ∧ fldsAt (0x050400 : Addr).toNat ≠ []) ∧
    (plainReg (0x110004 : Addr).toNat = true ∧ leaseNeeded (0x110004 : Addr).toNat = none ∧ fldsAt (0x110004 : Addr).toNat ≠ []) ∧
    (awake 4).wordBad (0x110004 : Addr).toNat (1 : Word).toNat = false := by decide

theorem test_met_RegisterFrames : (0 : Slot) ∈ ((awake 4).portSlot 0).toList ∧ (1 : Slot) ∈ ((awake 4).portSlot 1).toList ∧
    (awake 4).carries 0 0 ∧ (awake 4).carries 1 1 ∧ (awake 4).reach 0 = 0 ∧ (awake 4).reach 1 = 0 ∧
    ((awake 4).secure 1 || !(awake 4).on (sbufSecure 0)) = true ∧ ((awake 4).rd (sbufRd 0)).testBit 1 = true ∧
    ((awake 4).rd (sbufWr 0)).testBit 1 = true ∧
    (let s := awake 4 [(sbufRd 63, 1), (sbufWr 63, 1)]
     (s.rd (sbufRd 63)).testBit 1 = false ∧ (s.rd (sbufWr 63)).testBit 1 = false) ∧ (awake 4).mode ≠ 10 := by
  simp only [State.carries]; decide

/-- The CRC of the STATUS header of spec/13's bench example. -/
theorem test_crc8_bench : crc8 (headerBytes 0x60 0 1) = 0x92 := by decide +kernel

theorem test_met_RegisterFrames_wires : tooSoon (0 : Port).val (wireOf 0) = false ∧
    tooSoon (0 : Port).val { wireOf 0 with soon := true } = true ∧
    (let a : Addr := BitVec.ofNat 24 (0x400000 + 4 * (262143 : Fin 262144).val)
     wireFits (wireOf (crc8 (headerBytes 0x10 a.toNat 0))) (headerBytes 0x10 a.toNat (1 - 1)) [] = true ∧
     wireFits (wireOf (crc8 (headerBytes 0x12 a.toNat 0))) (headerBytes 0x12 a.toNat (1 - 1)) [] = true ∧
     wireFits (wireOf (crc8 (headerBytes 0x11 a.toNat 0 ++ bytesOf [0xFFFFFFFF]))) (headerBytes 0x11 a.toNat (1 - 1)) [(0xFFFFFFFF : Word).toNat]
       = true ∧
     wireFits (wireOf 0) (headerBytes 0x11 a.toNat (1 - 1)) [(0 : Word).toNat] = false) ∧
    (wireFits (wireOf (crc8 (headerBytes 0x10 0x540000 0))) (headerBytes 0x10 (0x540000 : Addr).toNat (1 - 1)) [] = true ∧
     (0x540000 : Addr).toNat % 4 = 0) ∧
    (wireFits (wireOf (crc8 (headerBytes 0x12 0xFFFFFF 0))) (headerBytes 0x12 (0xFFFFFF : Addr).toNat (1 - 1)) [] = true ∧
     (0xFFFFFF : Addr).toNat % 4 ≠ 0) ∧
    wireFits (wireOf 0) (headerBytes 0x10 (0 : Addr).toNat (64 - 1)) [] = false := by decide +kernel

theorem test_met_OtherFrames : (4 : Slot) ∈ ((awake 4).portSlot 4).toList ∧ (awake 4).carries 4 4 ∧ opcodes.contains (0x13 : Byte).toNat = false ∧
    (let q := [(0x10006280 : Word), 0].map (·.toNat)
     bodyLen (q.headD 0) (q.getD 1 0) ≤ q.length ∧
     wireFits (wireOf (crc8 (headerBytes 0x20 0x6280 1 ++ bytesOf q))) (headerBytes 0x20 (BitVec.ofNat 24 (q.headD 0)).toNat (q.length - 1)) q
       = true) ∧
    (awake 4 [(glbStewardReady, 1)]).stewardUp = true ∧ Assoc.find 4 (awake 4).hst.jobs = none ∧
    (let j : DictJob := { slot := 4, req := [0], resp := some [0, 0], can := none, turn := 1 }
     let s : State := { awake 4 with hst := { (awake 4).hst with jobs := [(4, j)] } }
     (Assoc.find 4 s.hst.jobs).isSome = true ∧ s.carries 4 4 ∧ j ∈ (Assoc.find 4 s.hst.jobs).toList ∧ [0, 0] ∈ j.resp.toList ∧
     1 < [0, 0].length ∧ [0, 0].length ≤ 2) ∧
    (let j : DictJob := { slot := 4, req := [0], resp := none, can := none, turn := 1 }
     let s : State := { awake 4 with hst := { (awake 4).hst with jobs := [(4, j)] } }
     j ∈ (Assoc.find 4 s.hst.jobs).toList ∧ j.resp = none) := by
  simp only [State.carries]; decide +kernel

theorem test_met_OtherFrames_wires : (let w := wireOf 0x92 1
      tooSoon (3 : Port).val w = false ∧ w.len = 1 ∧ wireReserved w 0 = 0 ∧ wireFits w (headerBytes 0x60 (wireReserved w 0) 1) [] = true ∧
      wireFits (wireOf 0 1) (headerBytes 0x60 (wireReserved (wireOf 0 1) 0) 1) [] = false ∧ (wireOf 0).len ≠ 1) ∧
    (let w : Wire := { wireOf (crc8 (headerBytes 0x60 0x800000 1)) 1 with rsv := 0x800000 }
     wireReserved w 0 ≠ 0 ∧ wireFits w (headerBytes 0x60 (wireReserved w 0) 1) [] = true) ∧
    (let w := wireOf (crc8 (headerBytes 0x21 0 63))
     wireReserved w 0 = 0 ∧ wireFits w (headerBytes 0x21 (wireReserved w 0) (64 - 1)) [] = true) ∧
    (let w := wireOf (crc8 (headerBytes 0x50 0 1)) 1
     wireReserved w 0 = 0 ∧ wireFits w (headerBytes 0x50 (wireReserved w 0) 1) [] = true) ∧
    (let w : Wire := { wireOf (crc8 (headerBytes 0x50 1 1)) 1 with rsv := 1 }
     wireReserved w 0 ≠ 0 ∧ wireFits w (headerBytes 0x50 (wireReserved w 0) 1) [] = true) ∧
    (let w := wireOf (crc8 (headerBytes 0x30 0x13F 63))
     wireReserved w 0x13F = 0 ∧ 48 ≤ (63 : Fin 64).val ∧
     wireFits w (headerBytes 0x30 ((63 : Fin 64).val + if true then 256 else 0) (64 - 1)) [] = true) ∧
    wireFits (wireOf 0) (headerBytes 0x31 ((0 : Fin 64).val + wireReserved (wireOf 0) 0x3F) ([(0 : Word)].length - 1)) ([(0 : Word)].map (·.toNat))
      = false := by decide +kernel

theorem test_met_OtherFrames_rings : (let s := awake 4 [(rEn 8, 1), (rCons 8, 4), (rWidx 8, 16)]
      s.on (rSecure 8) = false ∧ s.on (rVar 8) = false ∧ s.on (rEn 8) = true ∧ s.rd (rCons 8) = (4 : Slot).val ∧
      4 * 2 ^ s.rd (rIsz 8) = 16 ∧ 16 ≤ s.fill 8 ∧ (let w := wireOf (crc8 (headerBytes 0x30 8 3))
       wireReserved w 0x13F = 0 ∧ wireFits w (headerBytes 0x30 (8 : Fin 64).val (4 - 1)) [] = true)) ∧
    (let s := awake 4 [(rEn 8, 1), (rCons 8, 4), (rWidx 8, 16)]
     let a : RingAdv := { port := 4, ring := 8, upTo := 16 }
     let t : State := { s with hst := { s.hst with reads := [a] } }
     t.hst.reads = [a] ∧ t.on (rEn a.ring) = true ∧ t.ridxRefused a.ring a.upTo = none) ∧
    opcodes.contains (0x7F : Byte).toNat = true ∧ opcodes.contains (0x10 : Byte).toNat = true := by decide +kernel

theorem test_met_OtherFrames_slots : (awake 4).sendPort (1 : Slot).val = some (1 : Port).val ∧
    (let s := awake 4
     s.on (iSecure (s.rd (hTarget 1))) = false ∧ (s.tgt (s.rd (hTarget 1))).queue = []) ∧
    tooSoon (3 : Port).val { wireOf 0 with soon := true } = true := by decide

theorem test_met_HostResets : (let s := awake 4
      s.deaf = false ∧ s.hst.bind = [] ∧ s.hst.reads = [] ∧ s.mode ≠ 2 ∧ s.mode ≠ 7 ∧ s.portUp 0 = true ∧ s.glb.mainUp = true ∧ s.portSlot 0 = some 0 ∧
      s.on (hPresent 14) = false) ∧
    ((awake 4 [(hEn 2, 0)]).portSlot 2 = none ∧ (awake 4 [(hEn 2, 0)]).portUp 2 = true) ∧
    (let s := awake 4 [(hEn 14, 1), (hClass 14, 2), (hPresent 14, 1)]
     s.running = true ∧ s.on (hEn 14) = true ∧ s.rd (hClass 14) = 2 ∧ s.on (hPresent 14) = true) := by decide

theorem test_met_LeasesNameOneOwner : served (awake 4) = true ∧ isLeaseId 1 = false ∧ isLeaseId 0 = true ∧ isLeaseId 0x9F = true ∧
    (awake 4).owner 0x9F = 0x1F ∧ (awake 4 [(hOwner 0x9F, 1)]).owner 0x9F = (1 : Slot).val ∧ (awake 4 [(hOwner 0x9F, 1)]).owner 0x9F ≠ 0x1F ∧
    (awake 4 [(hOwner 0, 1)]).owner 0 ≠ (0 : Slot).val ∧ (10 : Word).toNat = 10 ∧ (60000 : Word).toNat ≤ 60000 ∧
    (awake 4).running = true ∧ (awake 4).heard 0 = true ∧ (awake 4).stewardUp = false ∧
    (let s := awake 4 [(glbStewardReady, 1), (hReach 1, 3), (nEn 0, 1), (nEstate 0, 0)]
     served (set s [(hReach 1, 0)]) = true ∧ s.stewardUp = true ∧ s.heard 1 = true ∧ (s.outOfReach 1 true).isSome = true ∧
     s.heard 15 = true) ∧
    (awake 4 [(glbStewardReady, 1), (nEn 0, 1), (nEstate 0, 0), (hReach 15, 0)]).ready 15 = true := by decide

theorem test_met_PinsNameOneOwner : served (awake 4) = true ∧ (awake 4).rd (pinOwner 175) = 0x1F ∧
    ((0x00400000 : Word).toNat / 2 ^ 22 % 4 = 1 ∧ (0x00C00000 : Word).toNat / 2 ^ 22 % 4 = 3 ∧ (0x03000000 : Word).toNat / 2 ^ 24 % 4 = 3) ∧
    (let s := awake 4 [(pinOwner 0, 1)]
     s.rd (pinOwner 0) ≠ (0 : Slot).val ∧ s.rd (pinOwner 0) ≠ 0x1F ∧ s.rd (pinOwner 0) = (1 : Slot).val) ∧
    (awake 4).owner (pinLease 0) ≠ (0 : Slot).val ∧
    (let s := awake 4 [(hOwner (pinLease 0), 0)]
     s.owner (pinLease 0) = (0 : Slot).val) ∧ (awake 4 [(nEn 0, 1), (nEstate 0, 0), (hReach 15, 0)]).ready 15 = true := by decide

theorem test_met_SlotWordsWaitForAFrame : served (awake 4) = true ∧
    (let w := (0xB0000000 : Word).toNat &&& 0xFFFFFFF0
     (slotWordFlds 3).any (fun f => f.isReserved (f.ofWord w)) = true) ∧
    (let w := (0xCC018310 : Word).toNat &&& 0xFFFFFFF0
     ((slotWordFlds 3).any (fun f => f.isReserved (f.ofWord w)) || (decide (w / 2 ^ 4 % 4 = 1) && decide (w / 2 ^ 28 % 4 ≠ 0))) = false ∧
     w / 2 ^ 30 % 2 ≠ (awake 4).slotWord 3 / 2 ^ 30 % 2 ∧ (awake 4).hst.seclock < 100) ∧
    (let w := (0x8C018310 : Word).toNat &&& 0xFFFFFFF0
     ((slotWordFlds 3).any (fun f => f.isReserved (f.ofWord w)) || (decide (w / 2 ^ 4 % 4 = 1) && decide (w / 2 ^ 28 % 4 ≠ 0))) = false ∧
     w / 2 ^ 30 % 2 = (awake 4).slotWord 3 / 2 ^ 30 % 2 ∧ (awake 4).badBinding 3 w = false ∧ (awake 4).on (hEn 3) = true) ∧
    (awake 4).badBinding 14 ((0x80000000 : Word).toNat &&& 0xFFFFFFF0) = true ∧
    ((awake 4).on (hEn 14) = false ∧ packWord (awake 4).rd (slotWordFlds 14) &&& bindMask = 0 &&& bindMask ∧ (awake 4).badBinding 14 0 = false) ∧
    (∃ f ∈ slotWordFlds 3, f.ofWord 0 ≠ f.ofWord ((awake 4).slotWord 3)) ∧
    (let s : State := { awake 4 with hst := { (awake 4).hst with bind := [(3, 0)] } }
     s.asleep = false ∧ s.deaf = false ∧ s.portUp 3 = true ∧ (s.slotPorts 3).contains 3 = true ∧ 0 ∈ (Assoc.find 3 s.hst.bind).toList ∧ s.hst.reads = []) := by
  decide

theorem test_met_SecurityAndFirmware : (let s : State := { awake 4 with hst := { (awake 4).hst with seclock := 100 } }
      served s = true ∧ s.rd xState = 0 ∧ 100 ≤ s.hst.seclock ∧ s.mode ≠ 10) ∧
    (let s : State := { awake 4 [(xState, 1)] with hst := { (awake 4).hst with seclock := 100 } }
     s.rd xState = 1 ∧ s.ready 0 = true ∧ (0x4C000001 : Word).toNat / 2 ^ 24 = 0x4C ∧ (0x4C000001 : Word).toNat % 2 = 1) ∧
    ((awake 4).hst.seclock < 100 ∧ (awake 10).ready 0 = true ∧ (awake 10).mode = 10 ∧ (awake 10).on xFwBusy = false) ∧
    ((awake 10 [(xFwBusy, 1)]).on xFwBusy = true ∧ (1 : Word).toNat ≠ (awake 4).rd (xKeyHash 7)) ∧
    (let s : State := { awake 4 [(xFwBusy, 1)] with hst := { (awake 4).hst with fwOp := 3 } }
     s.on xFwBusy = true ∧ s.hst.fwOp = 3) ∧
    (let s := awake 3 [(xTrial, 1)]
     s.on xTrial = true ∧ s.glb.mainUp = true ∧ s.on glbStewardReady = false ∧ 2 ≤ s.mode ∧ s.mode ≤ 10) := by decide

/-- An image of VERSION 7 and the body 01 02 03 04, signed under P-256 by a key of the author's own. -/
def signedImage : List Nat :=
  leBytes 4 0x53545744 ++ leBytes 4 7 ++ leBytes 4 4 ++ List.replicate 52 0 ++
    ([0x6a1918d922bfe0889368d4ec1f4c8db715b14017f80952188e889e0de2bcfac1,
      0xd9c3b56c51861817e8cd49b6a6ed67b17941b48ccfd25a556f4ee151dbb3e8cb,
      0xd40cf39c7629339bd8419ee9349abd9304b5aafdd6f736262429c302e1f88c94,
      0xf76da5784c33e5580bc420c7f73e767446e6cff1e2c706b090a76559f2e4e0c9].flatMap fun x => (leBytes 32 x).reverse) ++
    List.replicate 64 0 ++ [1, 2, 3, 4]

/-- The hub in M10 with that image at offset 0 of the Shared Buffer and INSTALL under way. -/
def installing : State :=
  { awake 10 [(xFwBusy, 1)] with
    hst := { (awake 10).hst with fwOp := 2 }
    sbuf := ((List.range 260).zip (signedImage.map (BitVec.ofNat 8))).filter fun x => x.2 != 0 }

theorem test_met_SecurityAndFirmware_install : installing.on xFwBusy = true ∧ installing.hst.fwOp = 2 ∧ installing.imageResult = Code.done := by
  decide +kernel

theorem test_met_SecurityAndFirmware_pads : (awake 4).bankUp (0 : Fin 5) = true ∧ State.reset.bankUp (4 : Fin 5) = false ∧
    (awake 9).mode ∈ [2, 3, 9] ∧ (awake 11).mode ∈ [0, 1, 11] ∧
    (let s := awake 4 [(pinFunc 175, 2), (pinDir 175, 1)]
     s.mode ∈ [4, 5, 6, 7, 8, 10] ∧ s.rd (pinFunc 0) = 0 ∧ 112 ≤ (175 : Fin 176).val ∧ s.rd (pinFunc 175) = 2 ∧ s.on (pinDir 175) = true) := by
  decide

/-- R760: a rail's enable is high while it is on, released in M11; CANnSTB stays high in M7. -/
theorem test_pads : (awake 4 [(qState 0, 3)]).railEnPad 0 = .high ∧ (awake 11 [(qState 0, 3)]).railEnPad 0 = .z ∧
    (awake 7 [(nEn 0, 1)]).canStbPad true 0 = .high ∧ (awake 1).railDisPad 3 = .off := by decide

def dictOf (s : State) (d : DictS) : State := { s with dict := d }
def withJob (s : State) (j : DictJob) : State := { s with hst := { s.hst with jobs := [(j.slot, j)] } }

theorem test_met_DictionaryEntries : (let s := awake 4 [(glbStewardReady, 1)]
      s.ready 1 = true ∧ s.secure 0 = true ∧ s.ready 0 = true ∧ s.stewardUp = true ∧ s.dict.store = none ∧ Assoc.find 1 s.dict.xfers = none ∧
      s.hst.jobs = [] ∧ s.reach 1 < 2 ∧ s.reach 0 = 0 ∧ s.running = true ∧
      (match entFor 1 s 0x0001 0 false with | .error c => some c | .ok _ => none) = some Code.noSuchIndex ∧
      (entFor 1 s 0x73FF 0 false).toOption.isSome = true ∧ (entFor 1 s 0x73FF 0 true).toOption.isSome = true) ∧
    (let j : DictJob := { slot := 1, req := [dtpQ0 1 false 0x73FF 0], resp := none, can := none, turn := 1 }
     let s := withJob (awake 4 [(glbStewardReady, 1)]) j
     (1, j) ∈ (s.jobOf 1 (spells 1 (.dtpRead 1 0x73FF 0))).toList ∧ j.can = none ∧ s.isFirst j = true ∧
     State.isFirst { s with hst := { s.hst with jobs := [(0, { j with slot := 0 }), (1, j)] } } j = false) ∧
    (let j : DictJob := { slot := 2, req := [0], resp := none, can := none, turn := 1 }
     let s := withJob (awake 4 [(glbStewardReady, 1)]) j
     s.stewardTaken = true ∧ (∀ kj ∈ s.hst.jobs, kj.1 ≠ (1 : Slot).val ∧ kj.2.slot ≠ (1 : Slot).val) ∧ s.m10Refuses 1 = false) := by decide

def xferOf (w : Bool) (bs : List Nat) : Transfer :=
  { write := w, index := 0x7000, sub := 0, total := 4, bytes := bs, toggle := false, last := none, port := some 1 }

theorem test_met_SegmentedTransfers : (let s := awake 4 [(glbStewardReady, 1)]
      s.ready 1 = true ∧ s.stewardUp = true ∧ s.dict.store = none ∧ s.hst.jobs = [] ∧ s.reach 1 < 2 ∧ Assoc.find 1 s.dict.xfers = none ∧
      s.inXfer 0x7000 0 = false) ∧
    (let s := dictOf (awake 4 [(glbStewardReady, 1)]) { DictS.init with xfers := [(0, xferOf true [1])] }
     s.inXfer 0x7000 0 = true ∧ Assoc.find 1 s.dict.xfers = none) ∧
    (let s := dictOf (awake 4 [(glbStewardReady, 1)]) { DictS.init with xfers := [(1, xferOf true [1])] }
     xferOf true [1] ∈ (Assoc.find 1 s.dict.xfers).toList ∧ (xferOf true [1]).write = true ∧ (xferOf true [1]).index = 0x7000 + (0 : Fin 1024).val ∧
     (xferOf true [1]).bytes.length + 2 < (xferOf true [1]).total ∧ (xferOf true [1]).bytes.length + 3 = (xferOf true [1]).total ∧
     (xferOf true [1]).total < (xferOf true [1]).bytes.length + 4 ∧ false = (xferOf true [1]).toggle ∧ (xferOf true [1]).last = none) ∧
    (let x := { xferOf false [1, 2, 3, 4] with last := some [9] }
     let s := dictOf (awake 4 [(glbStewardReady, 1)]) { DictS.init with xfers := [(1, x)] }
     x ∈ (Assoc.find 1 s.dict.xfers).toList ∧ x.write = false ∧ true ≠ x.toggle ∧ [9] ∈ x.last.toList ∧ x.last.isSome = true) ∧
    isCode (0 : BitVec 16).toNat = true ∧ isCode (0xFFFF : BitVec 16).toNat = false ∧ undefinedCmd (0x80000000 : Word).toNat = true ∧
    undefinedCmd (0 : Word).toNat = true := by decide

def copyOf (g : Nat) : NvCopy := { gen := g, regs := [], integ := [] }

theorem test_met_StoreAndRestore : (let s := awake 4 [(glbStewardReady, 1)]
      served s = true ∧ s.stewardUp = true ∧ s.hst.jobs = [] ∧ s.reach 0 = 0 ∧ s.reach 1 = 0 ∧ Assoc.find 0 s.dict.xfers = none ∧
      s.mode = 4 ∧ s.nvBusy = false ∧ s.dict.store = none ∧ s.dict.restore = none) ∧
    (let s := awake 8 [(glbStewardReady, 1)]
     s.ready 0 = true ∧ s.mode ≠ 4 ∧ s.mode ≠ 5 ∧ s.mode ≠ 6 ∧ s.mode ≠ 10) ∧
    (let s := dictOf (awake 4 [(glbStewardReady, 1)]) { DictS.init with store := some 0, copyA := some (copyOf 1), copyB := some (copyOf 2) }
     s.nvBusy = true ∧ s.dict.store = some (0 : Slot).val ∧ s.newest = some (copyOf 2, false)) ∧
    (dictOf (awake 4) { DictS.init with restore := some 0 }).dict.restore = some (0 : Slot).val := by decide

def canOf (s : State) (c : CanS) : State := { s with can := c }
def canUp : List (Fld × Nat) := [(nEn 1, 1), (nEstate 1, 0)]

theorem test_met_CanPortsRunAndSend : (let s := awake 4
      served s = true ∧ s.bitTimesOk 1 = true ∧ (0x800000FE : Word).toNat % 256 = 254 ∧ (∃ f ∈ canCtrlFlds 1, f.ofWord 0 ≠ s.rd f) ∧
      s.canTalks 1 = false ∧ s.rd (nEstate 1) ≠ 3) ∧
    (awake 4 [(nNBrp 0, 0), (nNTseg1 0, 0)]).bitTimesOk 0 = false ∧
    (let s := awake 4 [(nEn 1, 1), (nEstate 1, 3)]
     s.rd (nEstate 1) = 3 ∧ s.on (nEn 1) = true ∧ s.on (nAutoRecov 1) = true) ∧
    (let s := awake 4 [(nEn 1, 1), (nEstate 1, 3), (nAutoRecov 1, 0)]
     s.on (nAutoRecov 1) = false ∧ (s.canPort 1).recov = false) ∧
    (let s := canOf (awake 4 (canUp ++ [(nTmEn 1, 1), (nTmOfs 1, 0)])) { CanS.init with ports := [(1, { CanPort.init with tmWait := [4] })] }
     s.running = true ∧ s.canTalks 1 = true ∧ s.on (nTmEn 1) = true ∧ s.tmDue 1 = true ∧ 4 ∈ (s.canPort 1).tmWait.head?.toList ∧ (s.canPort 1).tmWait ≠ [] ∧ s.rd (nHb 1) ≠ 0 ∧ s.canSends 1 = true ∧
     (∀ k : Fin 15, s.on (hEn k) = true → s.irq (s.rd (hTarget k)) = false ∧ s.attnMask k = 0)) ∧
    (awake 4 (canUp ++ [(nHb 1, 0)])).rd (nHb 1) = 0 ∧ (awake 4).tmDue 1 = false ∧ ((awake 4).canPort 1).tmWait = [] ∧ (nMode 1).ofWord (0xC00000FE : Word).toNat = 1 ∧ (awake 4).on (nMode 1) = false ∧
    (let s := awake 4 canUp
     s.mode ∉ [2, 3, 7, 9] ∧ s.canRuns 1 = true) ∧
    (awake 3).mode ∈ [2, 3, 7, 9] ∧
    (let s : State := { awake 4 (canUp ++ [(rEn (canTx 1), 1), (rWidx (canTx 1), 24)]) with sbuf := [(0, 20), (3, 1), (5, 4)] }
     s.on (rEn (canTx 1)) = true ∧ 4 ≤ s.fill (canTx 1) ∧ s.itemSize (canTx 1) 0 ≤ s.fill (canTx 1) ∧
     s.canTxBad 1 (s.sword 0 / 2 ^ 24) (s.sword 0 % 2 ^ 16) ((s.ringGet (canTx 1) 4 5).headD 0) ((s.ringGet (canTx 1) 4 5).getD 1 0 % 2 ^ 7) = false) ∧
    (let s : State := { awake 4 (canUp ++ [(rEn (canTx 1), 1), (rWidx (canTx 1), 24)]) with sbuf := [(0, 20)] }
     s.itemSize (canTx 1) 0 ≤ s.fill (canTx 1) ∧
     s.canTxBad 1 (s.sword 0 / 2 ^ 24) (s.sword 0 % 2 ^ 16) ((s.ringGet (canTx 1) 4 5).headD 0) ((s.ringGet (canTx 1) 4 5).getD 1 0 % 2 ^ 7) = true) ∧
    (awake 4 [(rEn (canRx 1), 1)]).accepts (canRx 1) 6 := by
  decide

/-- A frame of function `fn` from node 9 to node `dest`. -/
def canFn (fn dest : Nat) (data : List Byte) : CanFrame :=
  { canSmall with fdf := true, id := BitVec.ofNat 29 (fn * 2 ^ 25 + dest * 2 ^ 17 + 9 * 2 ^ 9 + 5), data := data }
def canBound (fs : List (Fld × Nat) := []) : State :=
  awake 4 (canUp ++ [(glbStewardReady, 1), (hEn 8, 1), (hClass 8, 2), (hPort 8, 1), (hNode 8, 9)] ++ fs)

theorem test_met_CanFramesAreJudged : (let s := canBound
      s.running = true ∧ s.asleep = false ∧ s.deaf = false ∧ s.canSends 1 = true ∧ s.hst.bind = [] ∧ s.on (nFdEn 1) = true ∧
      s.on (nMode 1) = false ∧ s.on (nMonitor 1) = false ∧ s.nodeSlot 1 9 = some 8 ∧ s.m10Refuses 8 = false ∧ s.stewardUp = true ∧
      s.rd (nNode 1) = 1 ∧ Assoc.find (32 + 1 * 256 + 9) s.hst.jobs = none) ∧
    (let s := canBound
     (∀ fn ∈ [0, 1, 2, 3, 4, 5, 6, 7, 15], s.srcOk 1 (canFn fn 1 []) = true ∧ rxFn (canFn fn 1 []) = fn ∧ rxDest (canFn fn 1 []) = s.rd (nNode 1) ∧
       s.canRepeat 1 (canFn fn 1 []) = none) ∧
     rxDest (canFn 2 0 []) = 0 ∧ rxDest (canFn 2 7 []) ≠ s.rd (nNode 1) ∧ rxDest (canFn 2 7 []) ≠ 0 ∧
     s.srcOk 1 { canSmall with id := 0 } = false) ∧
    (let s := canBound [(nMonitor 1, 1), (rEn (canRx 1), 1)]
     s.on (nMonitor 1) = true ∧ s.accepts (canRx 1) 6) ∧
    (let s := canBound [(nMode 1, 1)]
     s.on (nMode 1) = true ∧ s.canSends 1 = true) ∧
    (let f := canFn 2 1 [0, 0x70, 0, 0x10]
     rxHolds f (bodyLen ((rxWords f).headD 0) ((rxWords f).getD 1 0)) = true ∧ 4 ≤ f.data.length) ∧
    rxHolds (canFn 2 1 []) 1 = false ∧
    (let j : DictJob := { slot := 8, req := [0], resp := none, can := none, turn := 1 }
     let s : State := { canBound with hst := { canBound.hst with jobs := [(297, j)] } }
     (Assoc.find (32 + 1 * 256 + 9) s.hst.jobs).isSome = true) ∧
    (let f := canFn 4 1 [0, 0, 0, 0x30]
     rxHolds f 1 = true ∧ 3 ≤ (rxWords f).headD 0 / 2 ^ 28) ∧
    (let f := canFn 4 1 [0, 0, 0, 0x10]
     (rxWords f).headD 0 / 2 ^ 28 = 1 ∧ f.fdf = true ∧ (canBound.tgt (canBound.rd (hTarget 8))).queue = [] ∧
     canBound.on (iSecure (canBound.rd (hTarget 8))) = false) ∧
    (let f := canFn 5 1 [3, 0, 0, 0x20]
     let s := canBound [(bEn 3, 1), (bRecv 3, 8)]
     (rxWords f).headD 0 / 2 ^ 28 = 2 ∧ (rxWords f).headD 0 % 64 = 3 ∧ s.chanSeen 8 3 = true ∧ s.on (bEn 3) = true ∧ s.rd (bRecv 3) = 8 ∧
     s.rd (bState 3) = 0) ∧
    (let o : CanOut := { id := 0, esi := false, fdf := true, brs := false, data := [] }
     let s := canOf canBound { CanS.init with nodes := [(265, { CanNode.init with last := some { fn := 2, seq := 5, t := 0, resp := o } })] }
     o ∈ (s.canRepeat 1 (canFn 2 1 [])).toList) := by
  decide

def ptnOf (s : State) (x : PtnS) : State := { s with ptn := x }
def linkUp (fs : List (Fld × Nat) := []) : State := awake 4 ([(pEn, 1), (pPorts, 0xFF)] ++ fs)
/-- The link up with one entry at address 1. -/
def linkWith (x : Partner) (fs : List (Fld × Nat) := []) : State := ptnOf (linkUp fs) { PtnS.init with table := [(1, x)] }
def joiner (parent : BitVec 12) : JoinReq :=
  { eui := 77, depth := 1, parent := parent, caps := 1, lqi := 0, cls := 0, nonce := 0, rx := 0 }
def heldReq (parent : BitVec 12) : Ticket := { ticket := 5, port := 0, req := joiner parent }
def tickets (l : List Ticket) (fs : List (Fld × Nat) := []) : State := ptnOf (linkUp fs) { PtnS.init with tickets := l }

theorem test_met_PartnersJoin : (let s := linkUp
      (0, 0) ∈ (s.beaconAt s.htm.time).toList ∧ s.beaconDue 0 = true ∧ s.swp = [] ∧ s.ended.contains .layout = false ∧
      s.bit pPorts (0 : Fin 8) = true ∧ s.layoutOk = true) ∧
    (let s : State := { linkUp [(aState 0, 1)] with rad := [(0, { RadS.init with placed := some 0 })] }
     let out := (255 : BitVec 8).toNat &&& s.beaconOut 0
     s.beaconDue 0 = true ∧ out.testBit (0 : Fin 8) = true ∧ out.testBit (1 : Fin 8) = false) ∧
    (let s := ptnOf linkUp { PtnS.init with layout := some (layoutFlds.map linkUp.rd) }
     ∃ l ∈ s.ptn.layout.toList, l.length = layoutFlds.length) ∧
    (∀ b ∈ ((awake 4).beaconAt 0).toList, (awake 4).beaconDue b.2 = false) ∧ (linkUp [(pDiscLen, 0)]).layoutOk = false ∧ served linkUp = true ∧ linkUp.rd (rCons 38) ≠ (1 : Slot).val ∧
    linkUp.ptn.tickets.find? (·.ticket == (5 : Byte).toNat) = none ∧
    (let s := tickets [heldReq 0]
     heldReq 0 ∈ (s.ptn.tickets.find? (·.ticket == (5 : Byte).toNat)).toList ∧ s.parentOk 0 (joiner 0) = true ∧ s.ptnFull 0 = false ∧
     1 ∈ s.freeAddr.toList ∧ (0, 0) ∈ (s.reportSlot 0 0).toList ∧ (s.ptr 1).state = 0) ∧
    (let s := tickets [heldReq 9]
     heldReq 9 ∈ (s.ptn.tickets.find? (·.ticket == (5 : Byte).toNat)).toList ∧ s.parentOk 0 (joiner 9) = false) := by decide

theorem test_met_PartnersJoin_requests :
    (let s := ptnOf (linkUp [(aState 0, 1)]) { PtnS.init with answers := [{ port := 0, data := [1], sf := 5 }] }
     s.running = true ∧ s.rd (aState (0 : Fin 8)) = 1 ∧ s.ptn.answers.filter (s.answerDue (0 : Fin 8)) ≠ []) ∧
    (let s := linkUp [(pJoinOpen, 1)]
     s.ptnHears (0 : Fin 8) = true ∧ ¬ (4 ≤ (joiner 0).caps.toNat) ∧ 4 ≤ { joiner 0 with caps := 4 }.caps.toNat ∧ s.on pJoinOpen = true ∧
     s.ptn.granted.contains (joiner 0).eui.toNat = false ∧ s.on pJoinMode = false ∧ s.ptnFull 0 = false ∧ s.parentOk 0 (joiner 9) = false ∧
     (s.ptn.table.find? fun kx => kx.2.state != 0 && kx.2.eui == (joiner 0).eui.toNat) = none ∧ linkUp.on pJoinOpen = false) ∧
    (let s := linkUp [(pJoinOpen, 1), (pMax, 0)]
     s.ptnFull 0 = true ∧ s.parentOk 0 (joiner 0) = true) ∧
    (let s := tickets (List.replicate 8 (heldReq 0)) [(pJoinOpen, 1), (pJoinMode, 1)]
     s.on pJoinMode = true ∧ 8 ≤ s.ptn.tickets.length ∧ s.ptnFull 0 = false) ∧
    (let s := tickets [] [(pJoinOpen, 1), (pJoinMode, 1), (rEn 38, 1)]
     s.on pJoinMode = true ∧ s.ptn.tickets.length < 8 ∧ s.accepts 38 10 ∧ s.accepts 38 8) := by
  decide

def present : Partner := { Partner.init with state := 3, depth := 1 }
def beacon0 : BeaconRec := { seq := 0, tb := 0, ports := 0xFF, gen := 0 }
def sync0 : SyncBody := { bseq := 0, flags := 0, lqi := 0, rB := 64000, tR := 0, ofs := 0, rate := 0, temp := 0, batt := 0, rx := 0 }
def beaconed (x : Partner) (fs : List (Fld × Nat) := []) : State :=
  ptnOf (linkUp fs) { PtnS.init with table := [(1, x)], beacons := [beacon0] }
/-- The same at 95 ms, where the forward window has ended. -/
def judging (x : Partner) : State :=
  let s := beaconed x
  { s with htm := { s.htm with time := 95000000 * 2 ^ 32 } }

theorem test_met_PartnersReportAndLeave : (let s := linkWith present
      s.ptnHears (0 : Fin 8) = true ∧ (s.ptr 1).joined = true ∧ (s.ptr 1).parent = 0 ∧ sync0.flags.toNat < 16 ∧
      s.reportBeacon (0 : Fin 8) 1 sync0.bseq.toNat = none) ∧
    (let s := beaconed present [(pOfsMode, 1)]
     (beacon0, 0) ∈ (s.reportBeacon (0 : Fin 8) 1 sync0.bseq.toNat).toList ∧ s.on pOfsMode = true) ∧
    (let s := beaconed present [(pOfsLim, 100)]
     s.on pOfsMode = false ∧ (s.ptr 1).depth = 1 ∧ s.rd pOfsLim ≠ 0 ∧ s.rd pOfsLim < (roundAway (64000 * 16) 32).natAbs) ∧
    (linkUp.ptr 1).joined = false ∧ ptlTypes.contains (0 : Byte).toNat = false ∧
    (let s := judging { present with grace := 1 }
     s.running = true ∧ s.on pEn = true ∧ (s.path 1).contains 1 = false ∧ beacon0 ∈ s.ptn.beacons.head?.toList ∧
     s.judgeDue (s.ptr 1) beacon0 = true ∧ 0 < (s.ptr 1).grace) ∧
    (let s := judging { present with state := 4, heard := true }
     s.judgeDue (s.ptr 1) beacon0 = true ∧ (s.ptr 1).grace = 0 ∧ (s.ptr 1).heard = true ∧ (s.ptr 1).state = 4) ∧
    (let s := judging { present with miss := 2 }
     s.judgeDue (s.ptr 1) beacon0 = true ∧ (s.ptr 1).grace = 0 ∧ (s.ptr 1).heard = false ∧ (s.ptr 1).state ≠ 5 ∧
     (decide ((s.ptr 1).state ≤ 3) && decide (s.rd (pa pAbsentN) ≤ min ((s.ptr 1).miss + 1) 255)) = true) ∧
    (let s := judging { present with phase := 1 }
     s.judgeDue (s.ptr 1) beacon0 = false) ∧
    (let s := linkWith { present with state := 1 } [(rEn 38, 1)]
     (s.ptr 1).state = 1 ∧ s.accepts 38 8 ∧ (s.ptr 1).joined = false ∧ served s = true) := by
  decide

theorem test_met_QuarantineIsCleared : served (linkWith { present with state := 1 }) = true ∧
    ((linkWith { present with state := 1 }).ptr 1).state = 1 ∧ ((linkWith present).ptr 1).state ≠ 1 := by decide

def sweepOf (s : State) (x : SweepS) : State := { s with swp := [(0, x)] }
def asked : Run := { Run.waiting with requested := true }
def held0 (fs : List (Fld × Nat) := []) : State := linkUp ((hOwner (idSweep 0), 0) :: fs)
def runAt (trig : Nat) : SweepS := { SweepS.init with trig := trig, run := some Run.waiting }
def body0 : SampleBody := { sweep := 0, status := 0, run := 0, seg := 0, last := true, t0 := 0, data := [], rx := 0 }
def member1 : Member := { addr := 1, next := 0, gap := false, got := false, last := none }
def asking (ms : List Member) : SweepS := { SweepS.init with run := some { asked with members := ms } }

theorem test_met_SweepsRunAndClose : (served linkUp = true ∧ linkUp.owner (idSweep 0) = 0x1F ∧ (held0).owner (idSweep 0) = (0 : Slot).val ∧
      (held0).owner (idSweep 0) ≠ 0x1F ∧ (held0).owner (idSweep 0) ≠ (1 : Slot).val) ∧
    (held0 [(wArmed 0, 1)]).on (wArmed 0) = true ∧
    (held0 [(wa (wMode 0), 1)]).won (wMode 0) = true ∧
    (let s := held0
     s.on (wArmed 0) = false ∧ s.won (wMode 0) = false ∧ (s.sweep 0).run = none ∧ s.sweepBad 0 = true) ∧
    (let s := held0 [(wCount 0, 1), (wChmask 0, 1), (wInterval 0, 1000), (wDlMs 0, 1), (wReqWin 0, 1)]
     s.sweepBad 0 = false ∧ s.on (wForm 0) = false) ∧
    (let s := held0 [(wCount 0, 1), (wChmask 0, 1), (wInterval 0, 1000), (wDlMs 0, 1), (wReqWin 0, 1), (wForm 0, 1), (wMill 0, 7)]
     s.sweepBad 0 = false ∧ s.on (wForm 0) = true ∧ s.beaconMills.contains (s.rd (wMill 0)) = false) ∧
    (let s := sweepOf (held0 [(rEn 37, 1)]) (asking [])
     { asked with members := [] } ∈ (s.sweep 0).run.toList ∧ s.accepts 37 13 ∧ (s.sweep 0).again = false ∧ s.on (wArmed 0) = false ∧
     s.w (wPerLo 0) + s.w (wPerHi 0) = 0 ∧ asked.deadline ≤ s.htm.time) := by
  decide

theorem test_met_SweepsRunAndClose_beacons :
    (let s := sweepOf (held0 [(wArmed 0, 1), (wa (wPerLo 0), 5)]) (asking [])
     s.on (wArmed 0) = true ∧ 0 < s.w (wPerLo 0) + s.w (wPerHi 0)) ∧
    (let s := sweepOf (linkUp [(rEn 37, 1)]) (runAt 0)
     (0, 0) ∈ (s.beaconAt s.htm.time).toList ∧ s.running = true ∧ s.on pEn = true ∧ s.beaconDue 0 = true ∧ s.swp = [((0 : Fin 64).val, s.sweep 0)] ∧
     (s.sweep 0).again = false ∧ s.won (wForm 0) = false ∧ s.won (wListSrc 0) = false ∧ s.ptnOn (s.w (wPort 0)) = [] ∧ s.w (wPort 0) < 8 ∧
     s.bit pPorts (s.w (wPort 0)) = true ∧ s.ptn.layout = none ∧ s.ptn.beacons = [] ∧ Run.waiting ∈ (s.sweep 0).run.toList ∧
     Run.waiting.requested = false ∧ s.accepts 37 13 ∧ (s.sweep 0).trig < 0 + s.w (wLead 0) * 1000 * nsU) ∧
    (let s := sweepOf linkUp (runAt (10 ^ 6 * nsU))
     s.w (wLead 0) * 1000 * nsU ≤ (s.sweep 0).trig ∧ (s.sweep 0).trig < s.bpNs * nsU + s.w (wLead 0) * 1000 * nsU) ∧
    (let s := sweepOf linkUp (runAt (10 ^ 9 * nsU))
     s.bpNs * nsU + s.w (wLead 0) * 1000 * nsU ≤ (s.sweep 0).trig) := by
  decide

theorem test_met_SweepsRunAndClose_reports :
    ({ asked with toSend := [1], win := 5 }.toSend ≠ [] ∧ { asked with toSend := [1], win := 5 }.win ≠ linkUp.superframe linkUp.htm.time ∧
      (let s : State := { sweepOf (held0) (runAt 0) with ended := [.swept 0 3] }
       s.sweptNow (0 : Fin 64) = some 3 ∧ s.sweptNow (1 : Fin 64) = none ∧ ∃ k ∈ (s.sweep 0).run.toList, k.requested = false) ∧ linkUp.htm.time < { asked with deadline := 1 }.deadline) ∧
    (let s := linkWith present [(rEn 37, 1)]
     s.ptnHears (0 : Fin 8) = true ∧ (s.ptr 1).joined = true ∧ (s.ptr 1).parent = 0 ∧ body0.status.toNat ≤ 3 ∧ body0.data.length ≤ 78 ∧
     s.won (wMode body0.sweep.val) = false ∧ (s.sweep 0).run = none ∧ s.accepts 37 (s.sampleItem 0 1 body0).length) ∧
    (linkWith present [(wa (wMode 0), 1)]).won (wMode 0) = true ∧
    (let s := sweepOf (linkWith present) (asking [member1])
     runTakes { asked with members := [member1] } (s.rd (wRun 0)) 1 body0 = true ∧ runTakes { asked with members := [] } (s.rd (wRun 0)) 1 body0 = false ∧
     ([member1].map fun q => if q.addr = 1 then q.take body0 else q).all (·.last.isSome) = true ∧
     ([member1].map fun q => if q.addr = 1 then q.take { body0 with last := false } else q).all (·.last.isSome) = false) := by
  decide

theorem test_met_SweepsRunAndClose_aborts : (let s := sweepOf held0 (asking [])
     let k : Run := { asked with members := [] }
     k ∈ (s.sweep 0).run.toList ∧ s.sweptNow (0 : Fin 64) = none ∧ s.won (wMode 0) = false ∧ k.requested = true ∧ k.deadline ≤ s.htm.time) ∧
    (let s := sweepOf held0 { (sweepOf held0 (asking [])).sweep 0 with run := some { asked with members := [], deadline := 9 } }
     s.sweptNow (0 : Fin 64) = none ∧ s.htm.time < 9 ∧ s.won (wMode 0) = false) ∧
    (let s := sweepOf (held0 [(wa (wMode 0), 1)]) (asking [])
     { asked with members := [] } ∈ (s.sweep 0).run.toList ∧ s.won (wMode 0) = true) := by decide

def radOf (s : State) (x : RadS) : State := { s with rad := [(0, x)] }
def port0 (fs : List (Fld × Nat) := []) : State := awake 4 ((hOwner (idRadio 0), 0) :: fs)
def frame0 (k : TxKind) (i : Option Nat) : TxFrame := { kind := k, inst := i, data := [1] }

theorem test_met_RadioPortsRun : (served (awake 4) = true ∧ (awake 4).owner (idRadio 0) = 0x1F ∧ (port0).owner (idRadio 0) = (0 : Slot).val ∧
      (port0).owner (idRadio 0) ≠ 0x1F ∧ (port0).owner (idRadio 0) ≠ (1 : Slot).val ∧ (port0).aon (aEn 0) = false ∧ (port0).rd (aState 0) ≠ 2 ∧
      (port0).rd (aEn 0) % 2 = 0 ∧ (port0).rd (aState 0) ≠ 1) ∧
    (port0).bankUp 4 = true ∧ (port0).mode ∉ [2, 9, 11] ∧ State.reset.bankUp 4 = false ∧
    (port0 [(aa (aEn 0), 1)]).aon (aEn 0) = true ∧ (port0 [(aState 0, 2)]).rd (aState 0) = 2 ∧
    (let s := port0 [(aEn 0, 1)]
     s.rd (aEn 0) % 2 = 1 ∧ s.aon (aEn 0) = false ∧ s.rd (aMode 0) % 2 = 0) ∧
    (let s := port0 [(aa (aMode 0), 1), (aState 0, 1)]
     s.aon (aMode 0) = true ∧ s.rd (aState 0) = 1 ∧ s.radioOn (0 : Fin 8) = true) ∧
    (let s := radOf (port0 [(aState 0, 1), (rEn 16, 1), (aa (aTickMs 0), 5)]) { RadS.init with sent := true, await := true, due := some (frame0 .host none) }
     s.radioOn (0 : Fin 8) = true ∧ (s.radio 0).sent = true ∧ frame0 .host none ∈ (s.radio 0).due.toList ∧ s.accepts 16 5 ∧ (s.radio 0).await = true ∧
     s.a (aTickMs 0) ≠ 0 ∧ s.aon (aMode 0) = false) ∧
    (let s := radOf (port0 [(aState 0, 1)]) { RadS.init with recv := true }
     (s.radio 0).sent = false ∧ (s.radio 0).recv = true ∧ (s.radio 0).await = false ∧ s.a (aTickMs 0) = 0) ∧
    (let s := radOf (port0 [(aState 0, 1)]) { RadS.init with armed := true, due := some (frame0 .link none) }
     frame0 .link none ∈ (s.radio 0).due.toList ∧ (s.radio 0).armed = true) ∧
    (let s := radOf (port0 [(aState 0, 1)]) { RadS.init with due := some (frame0 .hostTimed (some 7)) }
     frame0 .hostTimed (some 7) ∈ (s.radio 0).due.toList ∧ (s.radio 0).armed = false ∧ s.commitDue 0 7 = true ∧ s.commitDue 0 9999 = false ∧
     (s.radio 0).sent = false) ∧
    (let s := radOf (port0 [(aState 0, 1)]) { RadS.init with queue := [frame0 .link none] }
     s.radioOn (0 : Fin 8) = true ∧ (s.radio 0).due = none ∧ s.linkPort 0 = false ∧ (∀ f ∈ (s.radio 0).queue, f.kind = .link) ∧
     frame0 .link none ∈ (s.radio 0).queue.head?.toList) ∧
    (let s : State := { port0 [(aState 0, 1), (rEn 24, 1), (rWidx 24, 8)] with sbuf := [(0, 1), (3, 1), (4, 9)] }
     let n := min (s.itemSize 24 0) (s.fill 24)
     let h := (s.ringGet 24 0 (n / 4)).getD 0 0
     s.on (rEn 24) = true ∧ 4 ≤ s.fill 24 ∧ h / 2 ^ 24 = 1 ∧ h / 2 ^ 16 % 256 = 0 ∧ 4 + h % 2 ^ 16 ≤ n ∧
     ((bytesOf ((s.ringGet 24 0 (n / 4)).drop 1)).take (h % 2 ^ 16)).length = 1) ∧
    (let s : State := { port0 [(aState 0, 1), (rEn 24, 1), (rWidx 24, 8)] with sbuf := [(3, 3)] }
     (s.ringGet 24 0 (min (s.itemSize 24 0) (s.fill 24) / 4)).getD 0 0 / 2 ^ 24 = 3) := by
  decide

theorem test_met_RadioPortsRun_commits :
    (let s := radOf (port0 [(aState 0, 1)]) { RadS.init with armed := true, due := some (frame0 .beacon (some 1023)) }
     s.commitDue 0 1023 = true ∧ s.nowStamp + s.a (aTxLat 0) ≤ 1023) ∧
    (let s := radOf (timeOf (port0 [(aState 0, 1)]) us10) { RadS.init with armed := true, due := some (frame0 .hostTimed (some 7)) }
     s.commitDue 0 7 = true ∧ 7 < s.nowStamp + s.a (aTxLat 0)) := by decide

/-- Port 0 with the script word `w` next. -/
def script (w : Nat) (x : RadS) (fs : List (Fld × Nat) := []) : State :=
  radOf (awake 4 ([(aState 0, 2), (aa (aScript 0 0), w)] ++ fs)) x
def nextIs (op : Nat) (w : Nat) : Bool :=
  let s := script w RadS.init
  s.atInstr 0 && scriptOk (s.word 0) && s.word 0 / 2 ^ 24 == op

theorem test_met_ScriptEngine : ((List.range 14).all fun op => nextIs op (op * 2 ^ 24)) = true ∧
    (let s := script 0x0E000000 RadS.init
     s.atInstr (0 : Fin 8) = true ∧ scriptOk (s.word 0) = false) ∧
    (let s := script 0x04000200 { RadS.init with a := 2 }
     scriptOk (s.word 0) = true ∧ ([1, 2] : List Byte).length = (s.radio 0).a) ∧
    lowestBit ((script 0 RadS.init).radio 0).starts = none ∧ 3 ∈ (lowestBit 8).toList ∧
    (let i : RxItem := { psdu := [1, 2, 3], lqi := 0, rssi := 0 }
     let s := script 0x05000000 { RadS.init with rx := some i, sfd := some (5, 0) } [(rEn 16, 1)]
     i ∈ (s.radio 0).rx.toList ∧ (5, 0) ∈ (s.radio 0).sfd.toList ∧ 3 ≤ i.psdu.length ∧ i.psdu.length ≤ 127 ∧
     s.linkTakes 0 (i.psdu.take 1) = false ∧ s.accepts 16 5) ∧
    (let s := script 0 { RadS.init with wait := true }
     s.radioOn (0 : Fin 8) = true ∧ (s.radio 0).wait = true ∧ s.atInstr 0 = false) ∧
    (let s := script 0 { RadS.init with delay := true }
     s.radioOn (0 : Fin 8) = true ∧ (s.radio 0).delay = true) ∧
    (let s := script 0x0D000000 { RadS.init with armed := true, due := some (frame0 .link none) }
     (s.radio 0).armed = true ∧ (s.radio 0).due ≠ none) := by
  decide

theorem test_met_DtpBodiesSpellTheirCommand : (Instr.dtpRead 4 0xFFFF 0xFF).wf = true ∧
    (dtpBody (Instr.dtpRead 4 0xFFFF 0xFF)).isSome = true ∧ (Instr.segWriteData 0 true 0 0 []).wf = true ∧
    (dtpBody (Instr.segWriteData 0 true 0 0 [])).isSome = true := by decide

theorem test_met_SharedBufferStaysCanonical : State.reset.memOk = true ∧ ({ State.reset with sbuf := [(0, 1), (0xFFFFF, 255)] } : State).memOk = true ∧
    ∃ t, step State.reset = .next t := ⟨by decide, by decide, _, rfl⟩

end Sys2Proof.Tests
end

section
/-! SUPPORT. The bytes of a whole frame of a register opcode spell its command (R562, R567). -/

namespace Sys2Proof.Machine

open F

theorem bytesOf_length (ws : List Nat) : (bytesOf ws).length = 4 * ws.length := by
  induction ws with
  | nil => rfl
  | cons w t ih => simp only [bytesOf, List.length_cons, ih]; omega

theorem bytesOf_mod (ws : List Nat) : (bytesOf ws).map (· % 256) = bytesOf ws := by
  induction ws with
  | nil => rfl
  | cons w t ih => simp [bytesOf, ih]

/-- Words below 2³² are those of their own bytes. -/
theorem wordsOf_bytesOf (ws : List Nat) (h : ∀ w ∈ ws, w < 2 ^ 32) : wordsOf (bytesOf ws) = ws := by
  induction ws with
  | nil => rfl
  | cons w t ih =>
    have hw : w < 2 ^ 32 := h w (by simp)
    simp only [bytesOf, wordsOf, ih fun x hx => h x (by simp [hx]), List.cons.injEq, and_true]
    omega

/-- The address bytes of a header spell the address. -/
theorem addr_of_bytes (a : Addr) :
    a.toNat % 256 % 256 + a.toNat / 2 ^ 8 % 256 % 256 * 2 ^ 8 + a.toNat / 2 ^ 16 % 256 % 256 * 2 ^ 16 = a.toNat := by
  have := a.isLt
  omega

theorem addr_mask (a : Addr) : a.toNat &&& 0xFFFFFF = a.toNat := by
  rw [show (0xFFFFFF : Nat) = 2 ^ 24 - 1 from rfl, Nat.and_two_pow_sub_one_eq_mod, Nat.mod_eq_of_lt a.isLt]

/-- Bytes 0 to the one before the CRC of a whole frame: the header and the payload words (R562, R563). -/
def coveredBytes (op field len : Nat) (ws : List Nat) : List Nat := headerBytes op field len ++ bytesOf ws

theorem coveredBytes_length (op field len : Nat) (ws : List Nat) : (coveredBytes op field len ws).length = 5 + 4 * ws.length := by
  simp only [coveredBytes, headerBytes, List.length_append, List.length_cons, List.length_nil, bytesOf_length]

/-- A write-type opcode takes LEN + 1 words, and a read-type one none (R562). -/
def carriesWords (op len : Nat) (ws : List Nat) : Prop := if opWrites op then ws.length = len + 1 ∧ ∀ w ∈ ws, w < 2 ^ 32 else ws = []

/-- A frame's payload words, as the hub reads them from its bytes. -/
theorem words_of_coveredBytes (op field len : Nat) (ws rest : List Nat) (h : carriesWords op len ws) :
    (if opWrites op = true then
      wordsOf ((((coveredBytes op field len ws ++ rest).drop 5).take (4 * (len + 1))).map (· % 256)) else []) = ws := by
  unfold carriesWords at h
  split at h
  · next hw =>
    have hbody : ((coveredBytes op field len ws ++ rest).drop 5).take (4 * (len + 1)) = bytesOf ws := by
      simp [coveredBytes, headerBytes, ← h.1, ← bytesOf_length]
    rw [if_pos hw, hbody, bytesOf_mod, wordsOf_bytesOf ws h.2]
  · next hw => rw [if_neg hw, h]

/-- The bytes that a frame's CRC covers, as the hub takes them. -/
theorem take_coveredBytes (op field len : Nat) (ws rest : List Nat) (h : carriesWords op len ws) :
    (coveredBytes op field len ws ++ rest).take (if opWrites op = true then 5 + 4 * (len + 1) else 5) = coveredBytes op field len ws := by
  have hlen : (if opWrites op = true then 5 + 4 * (len + 1) else 5) = (coveredBytes op field len ws).length := by
    rw [coveredBytes_length]
    unfold carriesWords at h
    split at h
    · next hw => rw [if_pos hw, h.1]
    · next hw => rw [if_neg hw, h]; rfl
  rw [hlen, List.take_left]

/-- The bytes of a whole frame of an opcode that gives every address bit a meaning spell what the opcode, the address, LEN and the payload
words do, with the wires' CRC byte the frame's own. -/
theorem State.frameCommand_whole (s : State) (p : Port) (high soon : Bool) (op len : Nat) (a : Addr) (ws pad : List Nat)
    (hop : op = 0x10 ∨ op = 0x11 ∨ op = 0x12) (hlen : len < 256) (hws : carriesWords op len ws)
    (hpad : frameLen p.val op (len + 1) ≤ 6 + 4 * ws.length + pad.length) :
    let covered := coveredBytes op a.toNat len ws
    s.frameCommand p high soon (covered ++ crc8 covered :: pad) =
      opCommand s p ((s.frameStart p.val).portSlot p.val) op a.toNat len ws
        { high := high, soon := soon, rsv := 0, len := .ofNat 8 len, crc := .ofNat 8 (crc8 covered) } := by
  intro covered
  have hop8 : op % 256 = op := by omega
  have hlen8 : len % 256 % 256 = len := by omega
  have hmask : fieldMask op = 0xFFFFFF := by rcases hop with rfl | rfl | rfl <;> rfl
  have hopc : opcodes.contains op = true := by rcases hop with rfl | rfl | rfl <;> rfl
  have hslot : slotOpcodes.contains op = false := by rcases hop with rfl | rfl | rfl <;> rfl
  have h7F : op ≠ 0x7F := by omega
  have hpay : opPayload op ws = ws := by rcases hop with rfl | rfl | rfl <;> rfl
  have hlong : ¬ (covered ++ crc8 covered :: pad).length < frameLen p.val op (len + 1) := by
    simp only [List.length_append, List.length_cons, covered, coveredBytes_length]
    omega
  have hwords := words_of_coveredBytes op a.toNat len ws (crc8 covered :: pad) hws
  have htake : (covered ++ crc8 covered :: pad).take (if opWrites op = true then 5 + 4 * (len + 1) else 5) = covered :=
    take_coveredBytes op a.toNat len ws (crc8 covered :: pad) hws
  have hcrc : (covered ++ crc8 covered :: pad).getD covered.length 0 = crc8 covered := by simp
  have hne : (covered ++ crc8 covered :: pad).isEmpty = false := by simp
  have h0 : (covered ++ crc8 covered :: pad).headD 0 = op := rfl
  have h1 : (covered ++ crc8 covered :: pad).getD 1 0 = a.toNat % 256 := rfl
  have h2 : (covered ++ crc8 covered :: pad).getD 2 0 = a.toNat / 2 ^ 8 % 256 := rfl
  have h3 : (covered ++ crc8 covered :: pad).getD 3 0 = a.toNat / 2 ^ 16 % 256 := rfl
  have h4 : (covered ++ crc8 covered :: pad).getD 4 0 = len % 256 := rfl
  have hknown : headerBytes op a.toNat len ++ bytesOf (opPayload op ws) = covered := by rw [hpay]; rfl
  generalize covered ++ crc8 covered :: pad = bytes at *
  unfold State.frameCommand
  simp only [h0, h1, h2, h3, h4, hop8, hlen8, addr_of_bytes, hwords, htake, hcrc, hknown]
  rw [if_neg (by simp [hne]), if_neg h7F, if_neg (by rw [hopc]; simp), if_neg hlong, if_neg (by rw [hslot]; simp), hmask, addr_mask]
  have hcrc8 : BitVec.ofNat 8 (crc8 covered % 256) = BitVec.ofNat 8 (crc8 covered) := BitVec.eq_of_toNat_eq (by simp)
  simp [hcrc8]

theorem map_ofNat_toNat (vs : List Word) : (vs.map (·.toNat)).map (BitVec.ofNat 32) = vs := by simp [Function.comp_def]

/-- The bytes of a whole read frame of `k` words spell its command. -/
theorem State.frameCommand_read (s : State) (p : Port) (high soon : Bool) (op : Nat) (a : Addr) (k : Nat) (pad : List Nat)
    (hop : op = 0x10 ∨ op = 0x12) (h1 : 1 ≤ k) (h64 : k ≤ 64) (hpad : 5 + 4 * k ≤ pad.length) :
    let covered := headerBytes op a.toNat (k - 1)
    s.frameCommand p high soon (covered ++ crc8 covered :: pad) =
      opCommand s p ((s.frameStart p.val).portSlot p.val) op a.toNat (k - 1) []
        { high := high, soon := soon, rsv := 0, len := .ofNat 8 (k - 1), crc := .ofNat 8 (crc8 covered) } := by
  have hreads : opWrites op = false := by rcases hop with rfl | rfl <;> rfl
  have hlong : frameLen p.val op (k - 1 + 1) ≤ 6 + 4 * ([] : List Nat).length + pad.length := by
    simp only [frameLen, hreads, Bool.false_eq_true, if_false, List.length_nil]
    split <;> omega
  have h := s.frameCommand_whole p high soon op (k - 1) a [] pad (by omega) (by omega) (by simp [carriesWords, hreads]) hlong
  simpa [coveredBytes, bytesOf] using h

/-- The bytes of a whole WRITE_REG frame spell its command. -/
theorem State.frameCommand_writeReg (s : State) (p : Port) (high soon : Bool) (a : Addr) (vs : List Word)
    (h1 : 1 ≤ vs.length) (h64 : vs.length ≤ 64) :
    let covered := headerBytes 0x11 a.toNat (vs.length - 1) ++ bytesOf (vs.map (·.toNat))
    s.frameCommand p high soon (covered ++ [crc8 covered]) = some (.writeReg p a vs
      { high := high, soon := soon, rsv := 0, len := .ofNat 8 (vs.length - 1), crc := .ofNat 8 (crc8 covered) }) := by
  have hws : ∀ w ∈ vs.map (·.toNat), w < 2 ^ 32 := by
    intro w hw
    obtain ⟨v, -, rfl⟩ := List.mem_map.1 hw
    exact v.isLt
  have hlong : frameLen p.val 0x11 (vs.length - 1 + 1) ≤ 6 + 4 * (vs.map (·.toNat)).length + ([] : List Nat).length := by
    simp only [frameLen, show opWrites 0x11 = true from rfl, if_true, List.length_map, List.length_nil]
    omega
  have h := s.frameCommand_whole p high soon 0x11 (vs.length - 1) a (vs.map (·.toNat)) [] (by omega) (by omega)
    ⟨by rw [List.length_map]; omega, hws⟩ hlong
  simpa only [coveredBytes, opCommand, map_ofNat_toNat, BitVec.ofNat_toNat, BitVec.setWidth_eq] using h

end Sys2Proof.Machine
end

section
/-! SUPPORT. A frame on an SPI or I2C port that carries its slot: what it has changed when its command acts, and what it leaves at its end. -/

namespace Sys2Proof.Machine

open F

/-- No slot word waits, and the port's last RING_READ has moved RIDX: a frame's start changes nothing (R524, R557). -/
theorem State.frameStart_of_empty (s : State) (p : Nat) (hb : s.hst.bind = []) (hr : ∀ a ∈ s.hst.reads, a.port ≠ p) : s.frameStart p = s := by
  have hfold : ∀ l : List Nat, l.foldl (fun s k =>
      if ((Assoc.find k s.hst.bind).isSome || (Assoc.find (16 + k) s.hst.bind).isSome) && (s.slotPorts k).contains p
      then s.applySlot k else s) s = s := by
    intro l
    induction l with
    | nil => rfl
    | cons k t ih => simpa [hb, Assoc.find] using ih
  unfold State.frameStart
  rw [s.ringRises_of_none _ fun a ha => beq_eq_false_iff_ne.2 (hr a ha)]
  exact hfold _

/-- The slot bound to a port is a host's, enabled, and its own port is that one. -/
theorem State.portSlot_spec (s : State) (p : Nat) (k : Slot) (h : s.portSlot p = some k) :
    k.val < 15 ∧ s.on (hEn k.val) = true ∧ s.portOf k.val = some p := by
  unfold State.portSlot at h
  obtain ⟨j, hj, rfl⟩ := Option.map_eq_some_iff.1 h
  have hlt : j < 15 := List.mem_range.1 (List.mem_of_find?_eq_some hj)
  have hval : (Fin.ofNat 17 j).val = j := Nat.mod_eq_of_lt (by omega)
  have hp := List.find?_some hj
  simp only [Bool.and_eq_true, beq_iff_eq] at hp
  rw [hval]
  exact ⟨hlt, hp⟩

/-- The hub once a frame of slot `k` has started on port `p`, with the status byte taken and the slot marked (R556, R560, R561, R566). -/
def State.framing (s : State) (p : Nat) (high : Bool) (k : Slot) : State := (s.open_ p high).2.marked k.val

theorem State.open_of_carries (s : State) (p : Nat) (high : Bool) (k : Slot) (h : s.carries p k) :
    (s.open_ p high).1 = some k ∧ (s.open_ p high).2.hst = { s.hst with status := s.statusByte p (some k) } := by
  obtain ⟨-, -, -, hb, hr, hk, -⟩ := h
  unfold State.open_
  simp only [s.frameStart_of_empty p hb hr, hk, true_and]
  split <;> rfl

/-- What a frame carries on the wires stands in the wave alone. -/
theorem Frame.wave {w : Touch} {s t : State} (h : Frame w s t) (status : Nat) (sdo : List Nat) (acks : Nat) (hb : Blk.wave ∈ w.blks) :
    Frame w s { t with hst := { t.hst with status := status, sdo := sdo, acks := acks } } :=
  h.blk .wave hb rfl rfl rfl fun b n _ => by
    cases b
    case wave => exact absurd rfl n
    all_goals first | rfl | trivial

/-- A frame's start writes the SCK mode and the status byte. -/
theorem Frame.open_ (p : Nat) (high : Bool) (k : Slot) (w : Touch) (s : State) (h : s.carries p k) (hm : hMode3 p ∈ w.flds)
    (hw : Blk.wave ∈ w.blks) : Frame w s (s.open_ p high).2 := by
  obtain ⟨-, -, -, hb, hr, hk, -⟩ := h
  unfold State.open_
  simp only [s.frameStart_of_empty p hb hr]
  have hf : Frame w s { s with hst := { s.hst with status := s.statusByte p (s.portSlot p) } } := (Frame.refl w s).wave _ _ _ hw
  split
  · exact hf.wr _ _ hm
  · exact hf

/-- The marks of a served slot. -/
theorem Frame.mark {w : Touch} {s t : State} (h : Frame w s t) (k : Nat) (hp : hPresent k ∈ w.flds) (hw : hWaking k ∈ w.flds) :
    Frame w s (t.marked k) := by
  rcases t.marked_eq k with e | ⟨-, e⟩ <;> rw [e]
  · exact h
  · exact (h.wr _ _ hp).wr _ _ hw

/-- What a served frame has changed before its command acts. -/
theorem Frame.framing (p : Nat) (high : Bool) (k : Slot) (c : Code) (w : Touch) (s : State) (h : s.carries p k) :
    Frame { w with flds := hMode3 p :: s.slotFlds k.val c ++ w.flds, blks := .answer :: .last :: .wave :: w.blks } s (s.framing p high k) := by
  have hk : k.val < 16 := by
    obtain ⟨-, -, -, -, -, hslot, -⟩ := h
    have := (s.portSlot_spec p k hslot).1
    omega
  exact (Frame.open_ p high k _ s h (by simp) (by simp)).mark k.val (by simp [State.slotFlds, hk]) (by simp [State.slotFlds, hk])

/-- A field that stands neither in the port's register nor in the slot's own reads in a served frame as before it. -/
theorem State.rd_framing (s : State) (p : Nat) (high : Bool) (k : Slot) (f : Fld) (h : s.carries p k) (hlo : f.lo < 32)
    (ha : f.addr ≠ 0x100208 + p * 0x10 ∧ f.addr ≠ hBase k.val + 8) : (s.framing p high k).rd f = s.rd f := by
  have hkeys : ∀ g ∈ [hMode3 p, hPresent k.val, hWaking k.val], g.key ≠ f.key := by
    simp only [List.forall_mem_cons, Fld.key, hMode3, hPresent, hWaking, F.ro, ne_eq]
    exact ⟨by omega, by omega, by omega, by simp⟩
  exact ((Frame.open_ p high k { flds := [hMode3 p, hPresent k.val, hWaking k.val], blks := [.wave] } s h (by simp) (by simp)).mark k.val
    (by simp) (by simp)).regs f hkeys hlo (by simp [Fld.outside])

theorem State.framing_sbuf (s : State) (p : Nat) (high : Bool) (k : Slot) (h : s.carries p k) : (s.framing p high k).sbuf = s.sbuf := by
  obtain ⟨-, -, -, hb, hr, -, -⟩ := h
  unfold State.framing State.open_
  simp only [s.frameStart_of_empty p hb hr, State.marked_sbuf]
  split <;> rfl

theorem State.framing_hst (s : State) (p : Nat) (high : Bool) (k : Slot) (h : s.carries p k) :
    (s.framing p high k).hst = { s.hst with status := s.statusByte p (some k) } := by
  unfold State.framing
  rw [State.marked_hst, (s.open_of_carries p high k h).2]

/-- The SCK mode of an SPI port's frame (R561). -/
theorem State.rd_open_mode (s : State) (p : Nat) (high : Bool) (hp : p < 4) : (s.open_ p high).2.rd (hMode3 p) = high.toNat := by
  unfold State.open_
  simp only [if_pos hp, State.rd_wr_same]
  cases high <;> rfl

theorem State.rd_framing_mode (s : State) (p : Nat) (high : Bool) (k : Slot) (hp : p < 4) :
    (s.framing p high k).rd (hMode3 p) = high.toNat := by
  unfold State.framing
  rw [State.rd_marked, s.rd_open_mode p high hp]
  · simp only [Fld.key, hPresent, hMode3, F.ro, hBase, ne_eq]; omega
  · simp only [Fld.key, hWaking, hMode3, F.ro, hBase, ne_eq]; omega

theorem State.secure_framing (s : State) (p : Nat) (high : Bool) (k : Slot) (h : s.carries p k) :
    (s.framing p high k).secure k.val = s.secure k.val := by
  unfold State.secure
  split
  · rfl
  · unfold State.on
    rw [s.rd_framing p high k _ h (by simp [hSecure, F.rws]) (by simp only [hSecure, F.rws, hBase]; omega)]

theorem State.reach_framing (s : State) (p : Nat) (high : Bool) (k : Slot) (h : s.carries p k) :
    (s.framing p high k).reach k.val = s.reach k.val := by
  unfold State.reach
  rw [s.rd_framing p high k _ h (by simp [hReach, F.rws]) (by simp only [hReach, F.rws, hBase]; omega)]

theorem State.mode_framing (s : State) (p : Nat) (high : Bool) (k : Slot) (h : s.carries p k) : (s.framing p high k).mode = s.mode := by
  unfold State.mode
  exact s.rd_framing p high k _ h (by simp [glbMode, F.ro]) (by simp only [glbMode, F.ro, hBase]; omega)

theorem State.m10Refuses_framing (s : State) (p : Nat) (high : Bool) (k : Slot) (h : s.carries p k) :
    (s.framing p high k).m10Refuses k.val = false := by
  unfold State.m10Refuses
  rw [s.mode_framing p high k h, s.secure_framing p high k h]
  obtain ⟨-, -, -, -, -, -, hm⟩ := h
  exact hm

theorem State.portShut_of_carries (s : State) (p : Nat) (k : Slot) (h : s.carries p k) : s.portShut p = false := by
  obtain ⟨ha, hd, hu, -⟩ := h
  simp [State.portShut, ha, hd, hu]

section
variable (p : Port) (w : Wire) (sh : Shape) (reads : Bool) (s : State) (op : Slot → State → Code × State × List Nat)
  (renew : Slot → State → State) (k : Slot) (h : s.carries p.val k)
include h

/-- A frame that starts too soon is BUSY and marks nothing (R575). -/
theorem frame_tooSoon (refused : Option Code) (hs : tooSoon p.val w = true) : frame p w sh reads refused s op renew =
    .next ((s.open_ p.val w.high).2.close p.val (some k) sh false .busy []) := by
  unfold frame
  simp only [s.portShut_of_carries p.val k h, (s.open_of_carries p.val w.high k h).1, hs, Bool.false_eq_true, if_false, if_true]

/-- A frame that its wires refuse ends with their code (R564, R568). -/
theorem frame_refused (c : Code) (hs : tooSoon p.val w = false) : frame p w sh reads (some c) s op renew =
    .next ((s.framing p.val w.high k).close p.val (some k) sh false c []) := by
  have hm := s.m10Refuses_framing p.val w.high k h
  unfold State.framing at hm ⊢
  unfold frame
  simp only [s.portShut_of_carries p.val k h, (s.open_of_carries p.val w.high k h).1, hs, hm, Bool.false_eq_true, if_false, Bool.and_false]

/-- A frame that nothing refuses ends with its operation's result. -/
theorem frame_acts (hs : tooSoon p.val w = false) : frame p w sh reads none s op renew =
    .next ((op k (s.framing p.val w.high k)).2.1.close p.val (some k) sh true (op k (s.framing p.val w.high k)).1
      (op k (s.framing p.val w.high k)).2.2) := by
  have hm := s.m10Refuses_framing p.val w.high k h
  unfold State.framing at hm ⊢
  unfold frame
  simp only [s.portShut_of_carries p.val k h, (s.open_of_carries p.val w.high k h).1, hs, hm, Bool.false_eq_true, if_false, Bool.and_false]

end

/-! ### A frame's end -/

/-- Counting a result changes register fields alone. -/
theorem State.countPort_regs (s : State) (p : Nat) (c : Code) : ∃ r, s.countPort p c = { s with regs := r } := by
  unfold State.countPort State.bump State.setBits
  simp only
  split <;> split <;> exact ⟨_, rfl⟩

theorem Frame.countPort {w : Touch} {s t : State} (h : Frame w s t) (p : Nat) (c : Code)
    (hc : c.cls = 3 → ∀ f ∈ [hReject p, hCrcErr p, hPevt p], f ∈ w.flds) : Frame w s (t.countPort p c) := by
  unfold State.countPort
  by_cases h3 : c.cls = 3
  · obtain ⟨hr, hcrc, he⟩ : hReject p ∈ w.flds ∧ hCrcErr p ∈ w.flds ∧ hPevt p ∈ w.flds := by simpa using hc h3
    simp only [if_pos h3]
    split
    · exact (((h.bump _ _ hr).setBits _ _ he).bump _ _ hcrc).setBits _ _ he
    · exact (h.bump _ _ hr).setBits _ _ he
  · rw [if_neg h3, if_neg fun e => h3 (Code.badCrc_cls c e)]
    exact h

theorem State.rd_countPort (s : State) (p : Nat) (c : Code) (f : Fld) (h : ∀ g ∈ [hReject p, hCrcErr p, hPevt p], g.key ≠ f.key) :
    (s.countPort p c).rd f = s.rd f := by
  obtain ⟨hr, hcrc, he⟩ : (hReject p).key ≠ f.key ∧ (hCrcErr p).key ≠ f.key ∧ (hPevt p).key ≠ f.key := by simpa using h
  unfold State.countPort State.bump State.setBits
  simp only
  split <;> split <;> simp only [State.rd_wr_ne _ hr, State.rd_wr_ne _ hcrc, State.rd_wr_ne _ he]

theorem State.lastOf_setLast (s : State) (p : Nat) (c : Code) (hp : p < 6) : (s.setLast p c).lastOf p = c.val := by
  unfold State.lastOf State.setLast
  rw [if_pos hp]
  exact Assoc.get_put_same 0 p _ _

/-- The hub that keeps a frame's result, before the port counts it (R566). -/
def State.closing (u : State) (p : Nat) (k : Slot) (sh : Shape) (acted : Bool) (c : Code) (d : List Nat) : State :=
  (((u.say c (padTo sh d)).send p sh acted c (padTo sh d)).setLast p c).wr (hLast k.val) c.val

section
variable (u : State) (p : Nat) (k : Slot) (sh : Shape) (acted : Bool) (c : Code) (d : List Nat)

theorem State.close_eq : u.close p (some k) sh acted c d = (u.closing p k sh acted c d).countPort p c := rfl

/-- Beside the register fields a frame's end leaves what `closing` does. -/
theorem State.close_regs : ∃ r, u.close p (some k) sh acted c d = { u.closing p k sh acted c d with regs := r } :=
  (u.closing p k sh acted c d).countPort_regs p c

theorem State.closing_sbuf : (u.closing p k sh acted c d).sbuf = u.sbuf := by
  simp only [State.closing, State.wr_sbuf, State.setLast]
  split <;> rfl

theorem State.closing_answer : (u.closing p k sh acted c d).answer = { code := c, data := padTo sh d } := by
  simp only [State.closing, State.wr_answer, State.setLast]
  split <;> rfl

/-- A frame's end sends its bytes, and leaves FAILIDX. -/
theorem State.closing_hst : (u.closing p k sh acted c d).hst.sdo = sentBytes p u.hst.status sh acted (padTo sh d) ∧
    (u.closing p k sh acted c d).hst.acks = (if p < 4 then u.hst.acks else ackedBytes sh c) ∧
    (u.closing p k sh acted c d).hst.failIdx = u.hst.failIdx := by
  simp only [State.closing, State.wr_hst, State.setLast]
  split <;> exact ⟨rfl, rfl, rfl⟩

theorem State.close_sbuf : (u.close p (some k) sh acted c d).sbuf = u.sbuf := by
  obtain ⟨r, hr⟩ := u.close_regs p k sh acted c d
  rw [hr]
  exact u.closing_sbuf p k sh acted c d

theorem State.close_failIdx : (u.close p (some k) sh acted c d).hst.failIdx = u.hst.failIdx := by
  obtain ⟨r, hr⟩ := u.close_regs p k sh acted c d
  rw [hr]
  exact (u.closing_hst p k sh acted c d).2.2

theorem State.rd_close_last : (u.close p (some k) sh acted c d).rd (hLast k.val) = c.val := by
  have hw : (hLast k.val).width = 16 := rfl
  have hk := k.isLt
  rw [State.close_eq, State.rd_countPort, State.closing, State.rd_wr_same, hw]
  · cases c <;> rfl
  · simp only [List.forall_mem_cons, Fld.key, hReject, hCrcErr, hPevt, hLast, F.ro, F.rc, F.w1c, hBase, ne_eq]
    exact ⟨by omega, by omega, by omega, by simp⟩

theorem State.rd_close_mode : (u.close p (some k) sh acted c d).rd (hMode3 p) = u.rd (hMode3 p) := by
  have hk := k.isLt
  rw [State.close_eq, State.rd_countPort, State.closing, State.rd_wr_ne, State.rd_setLast]
  · rfl
  · simp only [Fld.key, hLast, hMode3, F.ro, hBase, ne_eq]; omega
  · simp only [List.forall_mem_cons, Fld.key, hReject, hCrcErr, hPevt, hMode3, F.ro, F.rc, F.w1c, ne_eq]
    exact ⟨by omega, by omega, by omega, by simp⟩

theorem State.lastOf_close (hp : p < 6) : (u.close p (some k) sh acted c d).lastOf p = c.val := by
  obtain ⟨r, hr⟩ := u.close_regs p k sh acted c d
  rw [hr]
  exact State.lastOf_setLast _ p c hp

end

/-- How a carried frame ends: what it answers and sends follows from its code and data, and it changes its marks and what its command did. -/
theorem Framed.intro (p : Nat) (k : Slot) (high : Bool) (sh : Shape) (acted : Bool) (c : Code) (d : List Nat) (w : Touch) (s u : State)
    (h : s.carries p k) (hu : Frame { w with flds := hMode3 p :: s.slotFlds k.val c ++ w.flds, blks := .answer :: .last :: .wave :: w.blks } s u)
    (hst : u.hst.status = s.statusByte p (some k)) (hm : p < 4 → u.rd (hMode3 p) = high.toNat) :
    Framed p k high sh acted c d w s (u.close p (some k) sh acted c d) := by
  obtain ⟨-, -, -, -, -, hslot, -⟩ := h
  obtain ⟨hk, -, hport⟩ := s.portSlot_spec p k hslot
  have hk16 : k.val < 16 := by omega
  obtain ⟨r, hr⟩ := u.close_regs p k sh acted c d
  obtain ⟨hsdo, hacks, -⟩ := u.closing_hst p k sh acted c d
  refine ⟨?_, ⟨u.rd_close_last p k sh acted c d, u.lastOf_close p k sh acted c d⟩, ?_, ⟨?_, ?_⟩, ?_⟩
  · rw [hr]
    exact u.closing_answer p k sh acted c d
  · intro hp
    rw [u.rd_close_mode p k sh acted c d, hm hp]
  · rw [hr, ← hst]
    exact hsdo
  · intro hp
    rw [hr]
    exact hacks.trans (if_neg (by omega))
  · refine ((((hu.say c _ (by simp)).wave _ _ _ (by simp)).setLast p c (by simp)).wr _ _ ?_).countPort p c fun hc f hf => ?_
    · simp [State.slotFlds, hk16]
    · have hport3 : f ∈ s.slotFlds k.val c := by
        simp only [State.slotFlds, hport, if_pos hc, List.mem_append]
        exact .inr hf
      simp [hport3]

end Sys2Proof.Machine
end

section
/-! SUPPORT. Reads and writes of the Shared Buffer and of addresses outside the blocks, by register and by the frames of R567. -/

namespace Sys2Proof.Machine

open F

/-- No lease stands behind an address at or above 0x10_0000. -/
theorem leaseOfAddr_high (a : Nat) (h : 0x100000 ≤ a) : leaseOfAddr a = none := by
  unfold leaseOfAddr
  simp only
  split
  case h_6 => rfl
  all_goals omega

theorem State.touchAddr_high (s : State) (slot a : Nat) (h : 0x100000 ≤ a) : s.touchAddr slot a = s := by
  simp only [State.touchAddr, leaseOfAddr_high a h]

/-- An access to the Shared Buffer is granted by the region's SECURE and the slot's bit of the mask (R503). -/
theorem State.regionRefused_none (s : State) (slot ofs r : Nat) (mask : Nat → Fld) (hr : ofs / 0x4000 = r)
    (h : ((s.secure slot || !s.on (sbufSecure r)) && (s.rd (mask r)).testBit slot) = true) : s.regionRefused slot ofs mask = none := by
  obtain ⟨hsees, hbit⟩ := Bool.and_eq_true_iff.1 h
  have hshut : (!s.secure slot && s.on (sbufSecure r)) = !(s.secure slot || !s.on (sbufSecure r)) := by rw [Bool.not_or, Bool.not_not]
  simp only [State.regionRefused, hr]
  rw [hshut, hsees, hbit]
  rfl

/-- And refused by SECURE before the mask. -/
theorem State.regionRefused_some (s : State) (slot ofs r : Nat) (mask : Nat → Fld) (hr : ofs / 0x4000 = r)
    (h : ((s.secure slot || !s.on (sbufSecure r)) && (s.rd (mask r)).testBit slot) = false) :
    s.regionRefused slot ofs mask = some (if (s.secure slot || !s.on (sbufSecure r)) = true then .ownedElsewhere else .secureOnly) := by
  have hshut : (!s.secure slot && s.on (sbufSecure r)) = !(s.secure slot || !s.on (sbufSecure r)) := by rw [Bool.not_or, Bool.not_not]
  simp only [State.regionRefused, hr]
  rw [hshut]
  cases hsees : s.secure slot || !s.on (sbufSecure r) with
  | false => rfl
  | true =>
    rw [hsees, Bool.true_and] at h
    rw [h]
    rfl

/-- The address of word `n` of the Shared Buffer (R501). -/
theorem sbufAddr_toNat (n : Fin 262144) : (BitVec.ofNat 24 (0x400000 + 4 * n.val) : Addr).toNat = 0x400000 + 4 * n.val := by
  have := n.isLt
  rw [BitVec.toNat_ofNat]
  omega

theorem reachRead_full (slot : Slot) (a : Nat) (s : State) (h : s.reach slot.val = 0) : reachRead slot a s = readReg slot a s := by
  simp [reachRead, h]

theorem reachWrite_full (slot : Slot) (a v : Nat) (s : State) (h : s.reach slot.val = 0) : reachWrite slot a v s = writeReg slot a v s := by
  simp [reachWrite, h]

theorem readReg_misaligned (slot : Slot) (a : Nat) (s : State) (h : a % 4 ≠ 0) : readReg slot a s = (.noSuchAddress, s, 0) := by
  simp [readReg, h]

/-- A read of a word of the Shared Buffer that its region grants. -/
theorem readReg_sbuf_granted (slot : Slot) (n : Fin 262144) (s : State) (h : s.regionRefused slot.val (4 * n.val) sbufRd = none) :
    readReg slot (0x400000 + 4 * n.val) s = (.done, s, s.sword (4 * n.val)) := by
  have := n.isLt
  unfold readReg
  simp only [s.touchAddr_high slot.val _ (show 0x100000 ≤ 0x400000 + 4 * n.val by omega), Nat.add_sub_cancel_left, h]
  rw [if_neg (by omega), if_neg (by omega), if_pos (by omega)]

/-- And one that it refuses, which reads zero. -/
theorem readReg_sbuf_refused (slot : Slot) (n : Fin 262144) (s : State) (c : Code)
    (h : s.regionRefused slot.val (4 * n.val) sbufRd = some c) : readReg slot (0x400000 + 4 * n.val) s = (c, s, 0) := by
  have := n.isLt
  unfold readReg
  simp only [s.touchAddr_high slot.val _ (show 0x100000 ≤ 0x400000 + 4 * n.val by omega), Nat.add_sub_cancel_left, h]
  rw [if_neg (by omega), if_neg (by omega), if_pos (by omega)]

/-- A write of a word of the Shared Buffer. -/
theorem writeReg_sbuf (slot : Slot) (n : Fin 262144) (v : Nat) (s : State) :
    writeReg slot (0x400000 + 4 * n.val) v s = writeSbuf slot (4 * n.val) v s := by
  have := n.isLt
  unfold writeReg
  rw [if_neg (by omega), if_pos (by omega), Nat.add_sub_cancel_left]

theorem fldsAt_high (a : Nat) (h : 0x140000 ≤ a) : fldsAt a = [] := by
  unfold fldsAt nearFlds
  simp only
  repeat rw [if_neg (by omega)]
  rfl

/-- A read of an address at or above 0x54_0000 is DONE and zero (R9). -/
theorem readReg_unimplemented (slot : Slot) (a : Nat) (s : State) (h4 : a % 4 = 0) (h : 0x540000 ≤ a) : readReg slot a s = (.done, s, 0) := by
  have hlive : s.liveWord slot.val a = none := by
    unfold State.liveWord
    simp only
    split
    case h_12 => rfl
    all_goals omega
  have hbits : s.liveBits a = 0 := by
    unfold State.liveBits
    simp only
    repeat rw [if_neg (by omega)]
  have hhidden : s.hidden slot.val a = false := by
    unfold State.hidden mbxChan
    rw [if_neg (by omega)]
  unfold readReg
  simp only [s.touchAddr_high slot.val a (by omega), hhidden, fldsAt_high a (by omega)]
  repeat rw [if_neg (by omega)]
  rw [if_neg (by simp)]
  repeat rw [if_neg (by omega)]
  simp only [State.peekWord, hlive, hbits, fldsAt_high a (by omega), State.clearRc, State.readTouch]
  rw [if_neg (by omega)]
  rfl

/-! ### Words of the Shared Buffer -/

theorem State.sword_congr {s t : State} (h : t.sbuf = s.sbuf) (ofs : Nat) : t.sword ofs = s.sword ofs := by
  simp only [State.sword, State.sbyte_congr h]

theorem State.sword_setWord (s : State) (ofs w : Nat) (hw : w < 2 ^ 32) : (s.setWord ofs w).sword ofs = w := by
  have h1 : (s.setWord ofs w).sbyte ofs = .ofNat 8 w := by
    simp only [State.setWord]
    rw [State.sbyte_setByte_ne _ (by omega), State.sbyte_setByte_ne _ (by omega), State.sbyte_setByte_ne _ (by omega),
      State.sbyte_setByte_same]
  have h2 : (s.setWord ofs w).sbyte (ofs + 1) = .ofNat 8 (w / 2 ^ 8) := by
    simp only [State.setWord]
    rw [State.sbyte_setByte_ne _ (by omega), State.sbyte_setByte_ne _ (by omega), State.sbyte_setByte_same]
  have h3 : (s.setWord ofs w).sbyte (ofs + 2) = .ofNat 8 (w / 2 ^ 16) := by
    simp only [State.setWord]
    rw [State.sbyte_setByte_ne _ (by omega), State.sbyte_setByte_same]
  have h4 : (s.setWord ofs w).sbyte (ofs + 3) = .ofNat 8 (w / 2 ^ 24) := by
    simp only [State.setWord]
    rw [State.sbyte_setByte_same]
  simp only [State.sword, h1, h2, h3, h4, BitVec.toNat_ofNat]
  omega

theorem Frame.setWord {w : Touch} {s t : State} (h : Frame w s t) (ofs v : Nat) (ho : ofs + 3 < 2 ^ 20)
    (hb : ∀ i < 4, ofs + i ∈ w.bytes) : Frame w s (t.setWord ofs v) := by
  have hbyte : ∀ i < 4, (ofs + i) % 2 ^ 20 ∈ w.bytes := by
    intro i hi
    rw [Nat.mod_eq_of_lt (by omega)]
    exact hb i hi
  exact (((h.setByte _ _ (hbyte 0 (by omega))).setByte _ _ (hbyte 1 (by omega))).setByte _ _ (hbyte 2 (by omega))).setByte _ _
    (hbyte 3 (by omega))

/-! ### The wires of a register opcode -/

/-- A register opcode reserves no address bit (R567). -/
theorem wireReserved_full (w : Wire) : wireReserved w 0xFFFFFF = 0 := by simp [wireReserved]

theorem wireRefuses_badLength (w : Wire) (op field mask len : Nat) (payload : List Nat) :
    wireRefuses w false op field mask len payload = some .badLength := rfl

theorem wireRefuses_badCrc (w : Wire) (op field len : Nat) (payload : List Nat) (h : wireFits w (headerBytes op field len) payload = false) :
    wireRefuses w true op field 0xFFFFFF len payload = some .badCrc := by
  simp [wireRefuses, wireReserved_full, h]

theorem wireRefuses_none (w : Wire) (op field len : Nat) (payload : List Nat) (h : wireFits w (headerBytes op field len) payload = true) :
    wireRefuses w true op field 0xFFFFFF len payload = none := by
  simp [wireRefuses, wireReserved_full, h]

theorem badWords_eq_false (n : Nat) (h1 : 1 ≤ n) (h64 : n ≤ 64) : badWords n = false := by
  simp [badWords]; omega

theorem badWords_eq_true (n : Nat) (h : n = 0 ∨ 64 < n) : badWords n = true := by
  simpa [badWords] using h

/-! ### Frames that end without acting -/

section
variable (p : Port) (w : Wire) (s : State) (k : Slot) (h : s.carries p.val k)
include h

/-- A frame too soon after the last is BUSY (R575). -/
theorem frame_framed_busy (sh : Shape) (reads : Bool) (refused : Option Code) (op : Slot → State → Code × State × List Nat)
    (renew : Slot → State → State) (hs : tooSoon p.val w = true) :
    ∃ t, frame p w sh reads refused s op renew = .next t ∧ Framed p.val k w.high sh false .busy [] {} s t := by
  refine ⟨_, frame_tooSoon p w sh reads s op renew k h refused hs, ?_⟩
  refine Framed.intro _ _ _ _ _ _ _ _ _ _ h ?_ ?_ fun hp => s.rd_open_mode p.val w.high hp
  · exact Frame.open_ p.val w.high k _ s h (by simp) (by simp)
  · rw [(s.open_of_carries p.val w.high k h).2]

/-- A frame that its wires refuse. -/
theorem frame_framed_refused (sh : Shape) (reads : Bool) (c : Code) (op : Slot → State → Code × State × List Nat)
    (renew : Slot → State → State) (hs : tooSoon p.val w = false) :
    ∃ t, frame p w sh reads (some c) s op renew = .next t ∧ Framed p.val k w.high sh false c [] {} s t := by
  refine ⟨_, frame_refused p w sh reads s op renew k h c hs, ?_⟩
  refine Framed.intro _ _ _ _ _ _ _ _ _ _ h (Frame.framing p.val w.high k c {} s h) ?_ fun hp => s.rd_framing_mode p.val w.high k hp
  rw [s.framing_hst p.val w.high k h]

end

/-- A CRC that fails counts in CRCERR (R574). -/
theorem State.rd_close_crcErr (u : State) (p : Nat) (k : Slot) (sh : Shape) (acted : Bool) (d : List Nat) :
    (u.close p (some k) sh acted .badCrc d).rd (hCrcErr p) = min (u.rd (hCrcErr p) + 1) 65535 := by
  have hne : (hReject p).key ≠ (hCrcErr p).key := by simp only [Fld.key, hReject, hCrcErr, F.rc, ne_eq]; omega
  have hpe : (hPevt p).key ≠ (hCrcErr p).key := by simp only [Fld.key, hPevt, hCrcErr, F.rc, F.w1c, ne_eq]; omega
  have hl : (hLast k.val).key ≠ (hCrcErr p).key := by
    have := k.isLt
    simp only [Fld.key, hLast, hCrcErr, F.rc, F.ro, hBase, ne_eq]; omega
  simp only [State.close, State.countPort, show Code.badCrc.cls = 3 from rfl, if_true, State.bump, State.setBits]
  have hw : (hCrcErr p).width = 16 := rfl
  rw [State.rd_wr_ne _ hpe, State.rd_wr_same, State.rd_wr_ne _ hpe, State.rd_wr_ne _ hne, State.rd_wr_ne _ hl, State.rd_setLast, hw]
  change min (u.rd (hCrcErr p) + 1) (2 ^ 16 - 1) % 2 ^ 16 = _
  omega

/-- The one word of a burst: its result, and the word. -/
theorem readBurst_one (slot : Slot) (stride a : Nat) (s t : State) (c : Code) (x : Nat) (h : reachRead slot a s = (c, t, x))
    (hc : c.ok = true → c = .done) : readBurst slot stride 1 a s = (c, t, [x]) := by
  simp only [readBurst, h, if_true]
  split
  · next hok => rw [hc hok]
  · rfl

theorem writeBurst_one_ok (slot : Slot) (a v : Nat) (s t : State) (h : reachWrite slot a v s = (.done, t)) :
    writeBurst slot 0 a s [v] = (.done, t) := by
  simp only [writeBurst, h]
  rfl

theorem writeBurst_one_refused (slot : Slot) (a v : Nat) (s : State) (c : Code) (h : reachWrite slot a v s = (c, s)) (hc : c.ok = false) :
    writeBurst slot 0 a s [v] = (c, { s with hst := { s.hst with failIdx := Assoc.put 0 slot.val 0 s.hst.failIdx } }) := by
  simp only [writeBurst, h, hc]
  rfl

section
variable (p : Port) (w : Wire) (s : State) (k : Slot) (h : s.carries p.val k) (hs : tooSoon p.val w = false)
include h hs

/-- A frame that reads one word and leaves the hub as it is. -/
theorem readFrame_framed_one (op stride a : Nat) (c : Code) (x : Nat) (hreach : s.reach k.val = 0)
    (hfits : wireFits w (headerBytes op a (1 - 1)) [] = true) (hc : c.ok = true → c = .done)
    (hr : readReg k a (s.framing p.val w.high k) = (c, s.framing p.val w.high k, x)) :
    ∃ t, readFrame p w true op a 0xFFFFFF 1 s (fun k s => readBurst k stride 1 a s) = .next t ∧
      Framed p.val k w.high (.read 1) true c [x] {} s t := by
  have hb : readBurst k stride 1 a (s.framing p.val w.high k) = (c, s.framing p.val w.high k, [x]) :=
    readBurst_one k stride a _ _ c x (by rw [reachRead_full k a _ (by rw [s.reach_framing p.val w.high k h, hreach]), hr]) hc
  unfold readFrame
  rw [badWords_eq_false 1 (by omega) (by omega), Bool.not_false, wireRefuses_none w op a (1 - 1) [] hfits,
    frame_acts p w (.read 1) true s _ _ k h hs, hb]
  refine ⟨_, rfl, Framed.intro _ _ _ _ _ _ _ _ _ _ h (Frame.framing p.val w.high k c {} s h) ?_ fun hp => s.rd_framing_mode p.val w.high k hp⟩
  rw [s.framing_hst p.val w.high k h]

end

/-! ### Rights on the Shared Buffer within a frame -/

/-- A frame's marks leave what the Shared Buffer's regions grant. -/
theorem State.regionRefused_framing (s : State) (p : Port) (high : Bool) (k : Slot) (h : s.carries p.val k) (n : Fin 262144)
    (mask : Nat → Fld) (hmask : mask = sbufRd ∨ mask = sbufWr) :
    (s.framing p.val high k).regionRefused k.val (4 * n.val) mask = s.regionRefused k.val (4 * n.val) mask := by
  have hn := n.isLt
  have hsec : (s.framing p.val high k).rd (sbufSecure (4 * n.val / 0x4000)) = s.rd (sbufSecure (4 * n.val / 0x4000)) :=
    s.rd_framing p.val high k _ h (by simp [sbufSecure, F.rws]) (by simp only [sbufSecure, F.rws, hBase]; omega)
  have hbit : (s.framing p.val high k).rd (mask (4 * n.val / 0x4000)) = s.rd (mask (4 * n.val / 0x4000)) := by
    rcases hmask with rfl | rfl
    · exact s.rd_framing p.val high k _ h (by simp [sbufRd, F.rws]) (by simp only [sbufRd, F.rws, hBase]; omega)
    · exact s.rd_framing p.val high k _ h (by simp [sbufWr, F.rws]) (by simp only [sbufWr, F.rws, hBase]; omega)
  have hon : (s.framing p.val high k).on (sbufSecure (4 * n.val / 0x4000)) = s.on (sbufSecure (4 * n.val / 0x4000)) := by
    unfold State.on
    rw [hsec]
  unfold State.regionRefused
  simp only
  rw [s.secure_framing p.val high k h, hon, hbit]

section
variable (p : Port) (w : Wire) (s : State) (k : Slot) (h : s.carries p.val k) (hs : tooSoon p.val w = false) (hreach : s.reach k.val = 0)
include h hs hreach

/-- A frame that reads one word of the Shared Buffer with the right to it. -/
theorem readFrame_sbuf_granted (op stride : Nat) (n : Fin 262144)
    (hfits : wireFits w (headerBytes op (0x400000 + 4 * n.val) (1 - 1)) [] = true)
    (hr : s.regionRefused k.val (4 * n.val) sbufRd = none) :
    ∃ t, readFrame p w true op (0x400000 + 4 * n.val) 0xFFFFFF 1 s (fun k s => readBurst k stride 1 (0x400000 + 4 * n.val) s) = .next t ∧
      Framed p.val k w.high (.read 1) true .done [s.sword (4 * n.val)] {} s t := by
  refine readFrame_framed_one p w s k h hs op stride _ .done _ hreach hfits (fun _ => rfl) ?_
  rw [readReg_sbuf_granted k n _ (by rw [s.regionRefused_framing p w.high k h n sbufRd (.inl rfl), hr]),
    State.sword_congr (s.framing_sbuf p.val w.high k h)]

/-- And one without the right, which reads zero. -/
theorem readFrame_sbuf_refused (op stride : Nat) (n : Fin 262144) (c : Code) (hc : c.ok = false)
    (hfits : wireFits w (headerBytes op (0x400000 + 4 * n.val) (1 - 1)) [] = true)
    (hr : s.regionRefused k.val (4 * n.val) sbufRd = some c) :
    ∃ t, readFrame p w true op (0x400000 + 4 * n.val) 0xFFFFFF 1 s (fun k s => readBurst k stride 1 (0x400000 + 4 * n.val) s) = .next t ∧
      Framed p.val k w.high (.read 1) true c [0] {} s t := by
  refine readFrame_framed_one p w s k h hs op stride _ c 0 hreach hfits (fun hok => absurd hok (by simp [hc])) ?_
  exact readReg_sbuf_refused k n _ c (by rw [s.regionRefused_framing p w.high k h n sbufRd (.inl rfl), hr])

/-- A frame that reads at an address that is no multiple of 4. -/
theorem readFrame_misaligned (op stride a : Nat) (ha : a % 4 ≠ 0) (hfits : wireFits w (headerBytes op a (1 - 1)) [] = true) :
    ∃ t, readFrame p w true op a 0xFFFFFF 1 s (fun k s => readBurst k stride 1 a s) = .next t ∧
      Framed p.val k w.high (.read 1) true .noSuchAddress [0] {} s t :=
  readFrame_framed_one p w s k h hs op stride a .noSuchAddress 0 hreach hfits (fun hok => absurd hok (by decide))
    (readReg_misaligned k a _ ha)

/-- A frame that reads above the blocks, which is DONE and zero (R9). -/
theorem readFrame_unimplemented (op stride a : Nat) (h4 : a % 4 = 0) (ha : 0x540000 ≤ a)
    (hfits : wireFits w (headerBytes op a (1 - 1)) [] = true) :
    ∃ t, readFrame p w true op a 0xFFFFFF 1 s (fun k s => readBurst k stride 1 a s) = .next t ∧
      Framed p.val k w.high (.read 1) true .done [0] {} s t :=
  readFrame_framed_one p w s k h hs op stride a .done 0 hreach hfits (fun _ => rfl) (readReg_unimplemented k a _ h4 ha)

end

/-! ### WRITE_REG -/

/-- While the hub is awake, no WRITE_REG comes late (R152). -/
theorem execWriteReg_awake (p : Port) (a : Addr) (vs : List Word) (w : Wire) (s : State) (h : s.asleep = false) :
    ∃ renew, execWriteReg p a vs w s =
      writeFrame p w 0x11 a.toNat 0xFFFFFF (vs.map (·.toNat)) s (fun k s => writeBurst k 0 a.toNat s (vs.map (·.toNat))) renew := by
  refine ⟨fun k s => (List.range (vs.map (·.toNat)).length).foldl (fun s i => s.touchAddr k.val ((a.toNat + 4 * i) % 2 ^ 24)) s, ?_⟩
  have hlate : (if (wireRefuses w true 0x11 a.toNat 0xFFFFFF 0 (vs.map (·.toNat))).isNone && !tooSoon p.val w then
      s.lateFrame p.val a.toNat (vs.map (·.toNat)) else none) = none := by
    simp [State.lateFrame, h]
  simp only [execWriteReg, hlate]

section
variable (p : Port) (w : Wire) (s : State) (k : Slot) (h : s.carries p.val k) (hs : tooSoon p.val w = false) (hreach : s.reach k.val = 0)
  (n : Fin 262144) (v : Word) (renew : Slot → State → State)
  (hfits : wireFits w (headerBytes 0x11 (0x400000 + 4 * n.val) (1 - 1)) [v.toNat] = true)
include h hs hreach hfits

/-- A frame that writes one word of the Shared Buffer with the right to it. -/
theorem writeFrame_sbuf_granted (hr : s.regionRefused k.val (4 * n.val) sbufWr = none) :
    ∃ t, writeFrame p w 0x11 (0x400000 + 4 * n.val) 0xFFFFFF [v.toNat] s
        (fun k s => writeBurst k 0 (0x400000 + 4 * n.val) s [v.toNat]) renew = .next t ∧ t.sword (4 * n.val) = v.toNat ∧
      Framed p.val k w.high (.write 1) true .done [] { bytes := (List.range 4).map (4 * n.val + ·) } s t := by
  have hn := n.isLt
  have hb : writeBurst k 0 (0x400000 + 4 * n.val) (s.framing p.val w.high k) [v.toNat] =
      (.done, (s.framing p.val w.high k).setWord (4 * n.val) v.toNat) := by
    refine writeBurst_one_ok k _ _ _ _ ?_
    rw [reachWrite_full k _ _ _ (by rw [s.reach_framing p.val w.high k h, hreach]), writeReg_sbuf]
    simp only [writeSbuf, s.regionRefused_framing p w.high k h n sbufWr (.inr rfl), hr]
  unfold writeFrame
  rw [List.length_singleton, badWords_eq_false 1 (by omega) (by omega), Bool.not_false, wireRefuses_none w _ _ _ _ hfits,
    frame_acts p w (.write 1) false s _ _ k h hs]
  simp only [hb]
  refine ⟨_, rfl, ?_, Framed.intro _ _ _ _ _ _ _ _ _ _ h ?_ ?_ fun hp => s.rd_framing_mode p.val w.high k hp⟩
  · rw [State.sword_congr (State.close_sbuf _ _ _ _ _ _ _), State.sword_setWord _ _ _ v.isLt]
  · exact (Frame.framing p.val w.high k .done _ s h).setWord _ _ (by omega) fun i hi => List.mem_map.2 ⟨i, List.mem_range.2 hi, rfl⟩
  · change (s.framing p.val w.high k).hst.status = _
    rw [s.framing_hst p.val w.high k h]

/-- And one without the right, which records its index in FAILIDX. -/
theorem writeFrame_sbuf_refused (c : Code) (hc : c.ok = false) (hr : s.regionRefused k.val (4 * n.val) sbufWr = some c) :
    ∃ t, writeFrame p w 0x11 (0x400000 + 4 * n.val) 0xFFFFFF [v.toNat] s
        (fun k s => writeBurst k 0 (0x400000 + 4 * n.val) s [v.toNat]) renew = .next t ∧
      Framed p.val k w.high (.write 1) true c [] { blks := [.hst] } s t ∧ Assoc.get 0 k.val t.hst.failIdx = 0 := by
  have hb := writeBurst_one_refused k (0x400000 + 4 * n.val) v.toNat (s.framing p.val w.high k) c (by
    rw [reachWrite_full k _ _ _ (by rw [s.reach_framing p.val w.high k h, hreach]), writeReg_sbuf]
    simp only [writeSbuf, s.regionRefused_framing p w.high k h n sbufWr (.inr rfl), hr]) hc
  unfold writeFrame
  rw [List.length_singleton, badWords_eq_false 1 (by omega) (by omega), Bool.not_false, wireRefuses_none w _ _ _ _ hfits,
    frame_acts p w (.write 1) false s _ _ k h hs]
  simp only [hb]
  refine ⟨_, rfl, Framed.intro _ _ _ _ _ _ _ _ _ _ h ?_ ?_ fun hp => s.rd_framing_mode p.val w.high k hp, ?_⟩
  · exact (Frame.framing p.val w.high k c _ s h).hst _ (by simp) rfl ⟨rfl, rfl, rfl⟩
  · change (s.framing p.val w.high k).hst.status = _
    rw [s.framing_hst p.val w.high k h]
  · rw [State.close_failIdx]
    exact Assoc.get_put_same 0 k.val 0 _

end

end Sys2Proof.Machine
end

section
/-! SUPPORT. The statements on register frames, register writes and the keep window: the first holds, the others fail. -/

namespace Sys2Proof.Machine

open F

theorem State.frameCommand_readReg (s : State) (p : Port) (high soon : Bool) (a : Addr) (k : Nat) (pad : List Nat)
    (h1 : 1 ≤ k) (h64 : k ≤ 64) (hpad : 5 + 4 * k ≤ pad.length) :
    let covered := headerBytes 0x10 a.toNat (k - 1)
    s.frameCommand p high soon (covered ++ crc8 covered :: pad) = some (.readReg p a k
      { high := high, soon := soon, rsv := 0, len := .ofNat 8 (k - 1), crc := .ofNat 8 (crc8 covered) }) := by
  have h := s.frameCommand_read p high soon 0x10 a k pad (.inl rfl) h1 h64 hpad
  simpa only [opCommand, BitVec.ofNat_toNat, BitVec.setWidth_eq, Nat.sub_add_cancel h1] using h

theorem State.frameCommand_readSame (s : State) (p : Port) (high soon : Bool) (a : Addr) (k : Nat) (pad : List Nat)
    (h1 : 1 ≤ k) (h64 : k ≤ 64) (hpad : 5 + 4 * k ≤ pad.length) :
    let covered := headerBytes 0x12 a.toNat (k - 1)
    s.frameCommand p high soon (covered ++ crc8 covered :: pad) = some (.readSame p a k
      { high := high, soon := soon, rsv := 0, len := .ofNat 8 (k - 1), crc := .ofNat 8 (crc8 covered) }) := by
  have h := s.frameCommand_read p high soon 0x12 a k pad (.inr rfl) h1 h64 hpad
  simpa only [opCommand, BitVec.ofNat_toNat, BitVec.setWidth_eq, Nat.sub_add_cancel h1] using h

section
variable (p : Port) (w : Wire) (s : State) (k : Slot) (h : s.carries p.val k)
include h

/-- A read frame with no word or more than 64 is BAD_LENGTH (R568). -/
theorem readFrame_badLength (op a m : Nat) (act : Slot → State → Code × State × List Nat) (hs : tooSoon p.val w = false)
    (hk : m = 0 ∨ 64 < m) : ∃ t, readFrame p w true op a 0xFFFFFF m s act = .next t ∧
      Framed p.val k w.high (.read m) false .badLength [] {} s t := by
  unfold readFrame
  rw [badWords_eq_true m hk, Bool.not_true, wireRefuses_badLength]
  exact frame_framed_refused p w s k h _ _ _ _ _ hs

/-- A read frame whose CRC fails is BAD_CRC, and CRCERR counts it (R564, R574). -/
theorem readFrame_badCrc (op a m : Nat) (act : Slot → State → Code × State × List Nat) (hs : tooSoon p.val w = false)
    (h1 : 1 ≤ m) (h64 : m ≤ 64) (hfits : wireFits w (headerBytes op a (m - 1)) [] = false) :
    ∃ t, readFrame p w true op a 0xFFFFFF m s act = .next t ∧ Framed p.val k w.high (.read m) false .badCrc [] {} s t ∧
      t.rd (hCrcErr p.val) = min (s.rd (hCrcErr p.val) + 1) 65535 := by
  have hcrc : (s.framing p.val w.high k).rd (hCrcErr p.val) = s.rd (hCrcErr p.val) := by
    have hp := p.isLt
    have hc := k.isLt
    exact s.rd_framing p.val w.high k _ h (by simp [hCrcErr, F.rc]) (by simp only [hCrcErr, F.rc, hBase]; omega)
  unfold readFrame
  rw [badWords_eq_false m h1 h64, Bool.not_false, wireRefuses_badCrc w op a (m - 1) [] hfits]
  obtain ⟨t, ht, hframed⟩ := frame_framed_refused p w s k h (.read m) true .badCrc act (fun _ s => s) hs
  refine ⟨t, ht, hframed, ?_⟩
  rw [frame_refused p w _ _ s _ _ k h _ hs] at ht
  obtain rfl := Host.Outcome.next.inj ht
  rw [State.rd_close_crcErr, hcrc]

/-- A write frame with no word or more than 64 is BAD_LENGTH (R568). -/
theorem writeFrame_badLength (op a : Nat) (ws : List Nat) (act : Slot → State → Res) (renew : Slot → State → State)
    (hs : tooSoon p.val w = false) (hk : ws = [] ∨ 64 < ws.length) : ∃ t, writeFrame p w op a 0xFFFFFF ws s act renew = .next t ∧
      Framed p.val k w.high (.write ws.length) false .badLength [] {} s t := by
  unfold writeFrame
  rw [badWords_eq_true _ (hk.imp_left fun e => by rw [e]; rfl), Bool.not_true, wireRefuses_badLength]
  exact frame_framed_refused p w s k h _ _ _ _ _ hs

/-- A write frame whose CRC fails is BAD_CRC (R564). -/
theorem writeFrame_badCrc (op a : Nat) (ws : List Nat) (act : Slot → State → Res) (renew : Slot → State → State)
    (hs : tooSoon p.val w = false) (h1 : ws ≠ []) (h64 : ws.length ≤ 64) (hfits : wireFits w (headerBytes op a (ws.length - 1)) ws = false) :
    ∃ t, writeFrame p w op a 0xFFFFFF ws s act renew = .next t ∧ Framed p.val k w.high (.write ws.length) false .badCrc [] {} s t := by
  unfold writeFrame
  rw [badWords_eq_false _ (List.length_pos_iff.2 h1) h64, Bool.not_false, wireRefuses_badCrc w op a _ ws hfits]
  exact frame_framed_refused p w s k h _ _ _ _ _ hs

end

section
variable (p : Port) (w : Wire) (s : State) (k : Slot) (h : s.carries p.val k) (hs : tooSoon p.val w = false) (hreach : s.reach k.val = 0)
  (n : Fin 262144) (a : Nat) (ha : a = 0x400000 + 4 * n.val)
include h hs hreach ha

/-- One word of the Shared Buffer by a read opcode: the word with the right to it, else zero (R503). -/
theorem readFrame_sbuf (op stride : Nat) (hfits : wireFits w (headerBytes op a (1 - 1)) [] = true) :
    let r := n.val / 4096
    let sees := s.secure k.val || !s.on (sbufSecure r)
    ((sees && (s.rd (sbufRd r)).testBit k.val) = true →
      ∃ t, readFrame p w true op a 0xFFFFFF 1 s (fun k s => readBurst k stride 1 a s) = .next t ∧
        Framed p.val k w.high (.read 1) true .done [s.sword (4 * n.val)] {} s t) ∧
    ((sees && (s.rd (sbufRd r)).testBit k.val) = false →
      ∃ t, readFrame p w true op a 0xFFFFFF 1 s (fun k s => readBurst k stride 1 a s) = .next t ∧
        Framed p.val k w.high (.read 1) true (if sees = true then .ownedElsewhere else .secureOnly) [0] {} s t) := by
  have hregion : 4 * n.val / 0x4000 = n.val / 4096 := by omega
  subst ha
  exact ⟨fun hr => readFrame_sbuf_granted p w s k h hs hreach op stride n hfits (s.regionRefused_none k.val _ _ sbufRd hregion hr),
    fun hr => readFrame_sbuf_refused p w s k h hs hreach op stride n _ (by split <;> rfl) hfits
      (s.regionRefused_some k.val _ _ sbufRd hregion hr)⟩

/-- One word of the Shared Buffer by WRITE_REG: stored with the right to it, else refused (R503). -/
theorem writeFrame_sbuf (v : Word) (renew : Slot → State → State) (hfits : wireFits w (headerBytes 0x11 a (1 - 1)) [v.toNat] = true) :
    let r := n.val / 4096
    let sees := s.secure k.val || !s.on (sbufSecure r)
    ((sees && (s.rd (sbufWr r)).testBit k.val) = true →
      ∃ t, writeFrame p w 0x11 a 0xFFFFFF [v.toNat] s (fun k s => writeBurst k 0 a s [v.toNat]) renew = .next t ∧
        t.sword (4 * n.val) = v.toNat ∧
        Framed p.val k w.high (.write 1) true .done [] { bytes := (List.range 4).map (4 * n.val + ·) } s t) ∧
    ((sees && (s.rd (sbufWr r)).testBit k.val) = false →
      ∃ t, writeFrame p w 0x11 a 0xFFFFFF [v.toNat] s (fun k s => writeBurst k 0 a s [v.toNat]) renew = .next t ∧
        Framed p.val k w.high (.write 1) true (if sees = true then .ownedElsewhere else .secureOnly) [] { blks := [.hst] } s t ∧
        Assoc.get 0 k.val t.hst.failIdx = 0) := by
  have hregion : 4 * n.val / 0x4000 = n.val / 4096 := by omega
  subst ha
  exact ⟨fun hr => writeFrame_sbuf_granted p w s k h hs hreach n v renew hfits (s.regionRefused_none k.val _ _ sbufWr hregion hr),
    fun hr => writeFrame_sbuf_refused p w s k h hs hreach n v renew hfits _ (by split <;> rfl)
      (s.regionRefused_some k.val _ _ sbufWr hregion hr)⟩

end

theorem exec_readReg (p : Port) (a : Addr) (k : Nat) (w : Wire) (s : State) : exec (.readReg p a k w) s =
    readFrame p w true 0x10 a.toNat 0xFFFFFF k s fun c s => readBurst c 4 k a.toNat s := rfl

theorem exec_readSame (p : Port) (a : Addr) (k : Nat) (w : Wire) (s : State) : exec (.readSame p a k w) s =
    readFrame p w true 0x12 a.toNat 0xFFFFFF k s fun c s => readBurst c 0 k a.toNat s := rfl

theorem exec_writeReg (p : Port) (a : Addr) (vs : List Word) (w : Wire) (s : State) :
    exec (.writeReg p a vs w) s = execWriteReg p a vs w s := rfl

/-- Settles O40: each opcode's row of a carried port is one of the frames above, and a whole frame's bytes spell its command. -/
theorem registerFrames : Obligations.RegisterFrames := by
  unfold Obligations.RegisterFrames
  intro p a n v k vs w s
  refine ⟨fun soon pad => ⟨fun h1 h64 hpad => ⟨s.frameCommand_readReg p w.high soon a k pad h1 h64 hpad,
    s.frameCommand_readSame p w.high soon a k pad h1 h64 hpad⟩, fun h1 h64 => s.frameCommand_writeReg p w.high soon a vs h1 h64⟩, ?_⟩
  intro c _ h hreach
  obtain ⟨renewAt, hwriteAt⟩ := execWriteReg_awake p (BitVec.ofNat 24 (0x400000 + 4 * n.val)) [v] w s h.1
  obtain ⟨renew, hwrite⟩ := execWriteReg_awake p a vs w s h.1
  simp only [After, exec_readReg, exec_readSame, exec_writeReg, hwriteAt, hwrite, sbufAddr_toNat]
  refine ⟨fun hs => ⟨?_, ?_, ?_, ?_, ?_, ?_, fun _ => ⟨?_, ?_, ?_⟩⟩, fun hs => ⟨?_, ?_, ?_⟩⟩
  · exact fun hf => readFrame_sbuf p w s c h hs hreach n _ rfl 0x10 4 hf
  · exact fun hf => readFrame_sbuf p w s c h hs hreach n _ rfl 0x12 0 hf
  · exact fun hf => ⟨fun h4 ha => readFrame_unimplemented p w s c h hs hreach 0x10 4 a.toNat h4 ha hf,
      fun h4 => readFrame_misaligned p w s c h hs hreach 0x10 4 a.toNat h4 hf⟩
  · exact fun hf h4 => readFrame_misaligned p w s c h hs hreach 0x12 0 a.toNat h4 hf
  · exact fun h1 h64 hf => readFrame_badCrc p w s c h 0x10 a.toNat k _ hs h1 h64 hf
  · exact fun hk => ⟨readFrame_badLength p w s c h 0x10 a.toNat k _ hs hk, readFrame_badLength p w s c h 0x12 a.toNat k _ hs hk⟩
  · exact fun hf => writeFrame_sbuf p w s c h hs hreach n _ rfl v renewAt hf
  · exact fun h1 h64 hf => writeFrame_badCrc p w s c h 0x11 a.toNat _ _ renew hs h1 h64 hf
  · exact fun hk => writeFrame_badLength p w s c h 0x11 a.toNat _ _ renew hs hk
  · exact frame_framed_busy p w s c h _ _ _ _ _ hs
  · exact frame_framed_busy p w s c h _ _ _ _ _ hs
  · exact frame_framed_busy p w s c h _ _ _ _ _ hs

/-! ### A refused write of the calendar -/

/-- The hub disciplined in M5, with PPSOUT running under GATE 2, which M5 alone lets run (R324). The bank of port 0 is powered, so that the
secure slot 0 is served. -/
def ppsoutInM5 : State :=
  { (((((State.reset.wr glbMode 5).wr htmTimeSet 1).wr dState 2).wr cPpsEn 1).wr cPpsGate 2) with
    htm := { HtmS.init with mclk := true, pll := true, frozen := false, first := false }
    hst := { HstS.init with bank33 := [(0, 2)] }
    cal := { CalS.init with on := 1, pps := true } }

/-- The same hub once slot 0 has declared it unlocked: it is in M6, and PPSOUT runs until the cycle's tick. -/
def ppsoutUnlocked : State :=
  match exec (.declareUnlock 0) ppsoutInM5 with
  | .next t => t
  | _ => ppsoutInM5

/-- The write of a LOCAL_OFS of 1000 min, which is out of range, stops PPSOUT. -/
theorem refusedLocalOfs_stops_ppsout (t : State) (ht : exec (.registerWrite 0 0x030030 1000) ppsoutUnlocked = .next t) : t.cal.on = 0 := by
  have h : (match exec (.registerWrite 0 0x030030 1000) ppsoutUnlocked with | .next t => t.cal.on == 0 | _ => true) = true := by
    decide
  rw [ht] at h
  simpa using h

/-- Refutes O39: a write of a calendar register that is refused is to change nothing but its answer, yet the model checks the reference
outputs at every write of the block, the refused ones too (`writeCal`). In the cycle in which the hub leaves M5 a LOCAL_OFS out of range thus
stops PPSOUT before the cycle's tick does. -/
theorem not_registerWrites : ¬ Obligations.RegisterWrites := by
  unfold Obligations.RegisterWrites
  intro h
  obtain ⟨-, -, -, -, hfull⟩ := h 0 0x030030 0 1000 ppsoutUnlocked (by decide)
  obtain ⟨-, -, -, hplain, -⟩ := hfull (by decide)
  obtain ⟨-, hleased⟩ := hplain (by decide) (by decide)
  obtain ⟨hrefused, -⟩ := hleased (by decide) (by decide) (by decide)
  obtain ⟨t, ht, hserved, -⟩ := hrefused .outOfRange (by decide)
  have hcal : t.cal = ppsoutUnlocked.cal := hserved.frame.blks .cal (by decide) (by decide)
  have hstops := refusedLocalOfs_stops_ppsout t ht
  rw [hcal] at hstops
  exact absurd hstops (by decide)

/-! ### A keep field beyond its width -/

/-- KEEP_ALM_LO of alarm 0 holds 2³², more than its 32 bits, and a write of KEEP_ALM_HI waits with no KEEP_ALM_LO held for it. No write leaves
a field so (`State.wr` truncates), but the statement speaks of every `State`. -/
def almLoBeyondWidth : State :=
  { State.reset with regs := [((kAlmLo 0).key, 2 ^ 32)], keep := { KeepS.init with win := some (0x010104, 0) } }

/-- The write of KEEP_ALM_HI leaves a KEEP_ALM_LO for which nothing is held as it is, without truncating it. -/
theorem almHiApplied_leaves_almLo (t : State) (ht : exec .keepWriteApply almLoBeyondWidth = .next t) : t.rd (kAlmLo 0) = 2 ^ 32 := by
  have h : (match exec .keepWriteApply almLoBeyondWidth with | .next t => t.rd (kAlmLo 0) == 2 ^ 32 | _ => true) = true := by decide
  rw [ht] at h
  simpa using h

/-- Refutes O12: it says that with no KEEP_ALM_LO held a write of KEEP_ALM_HI leaves KEEP_ALM_LO modulo 2³², where the model leaves the field
alone. The two differ in a state whose field holds more than its width, which the statement does not exclude. -/
theorem not_keepWindowPassesOneWrite : ¬ Obligations.KeepWindowPassesOneWrite := by
  unfold Obligations.KeepWindowPassesOneWrite
  intro h
  obtain ⟨-, -, -, -, -, -, -, -, halmHi, -⟩ := h 0 0 0 0 0 almLoBeyondWidth
  obtain ⟨t, ht, -, -, -, -, hlo⟩ := halmHi (by decide)
  exact absurd ((almHiApplied_leaves_almLo t ht).symm.trans hlo) (by decide)

end Sys2Proof.Machine
end

section
/-! SUPPORT. A served slot's command on a register block below the host block (spec/13), which holds neither the slots' own fields nor the
ports' counts: what its operation does is what the hub answers and shows. -/

namespace Sys2Proof.Machine

open F

/-- The field stands in a block below the host block. -/
def Fld.belowHst (f : Fld) : Prop := f.key < 0x100000 * 32

theorem Fld.belowHst_ne {f g : Fld} (hf : f.belowHst) (hg : 0x100000 * 32 ≤ g.key) : g.key ≠ f.key := by
  unfold Fld.belowHst at hf
  omega

theorem State.slotFlds_key (s : State) (k : Nat) (c : Code) : ∀ g ∈ s.slotFlds k c, 0x100000 * 32 ≤ g.key := by
  intro g hg
  unfold State.slotFlds at hg
  rcases List.mem_append.1 hg with hslot | hport
  · split at hslot
    · simp only [List.mem_cons, List.not_mem_nil, or_false] at hslot
      rcases hslot with rfl | rfl | rfl <;> simp only [Fld.key, hPresent, hWaking, hLast, F.ro, hBase] <;> omega
    · simp at hslot
  · split at hport
    · split at hport
      · simp only [List.mem_cons, List.not_mem_nil, or_false] at hport
        rcases hport with rfl | rfl | rfl <;> simp only [Fld.key, hReject, hCrcErr, hPevt, F.rc, F.w1c] <;> omega
      · simp at hport
    · simp at hport

theorem State.rd_marked_below (s : State) (k : Nat) {f : Fld} (hf : f.belowHst) : (s.marked k).rd f = s.rd f :=
  s.rd_marked k f (Fld.belowHst_ne hf (by simp only [Fld.key, hPresent, F.ro, hBase]; omega))
    (Fld.belowHst_ne hf (by simp only [Fld.key, hWaking, F.ro, hBase]; omega))

theorem State.on_marked_below (s : State) (k : Nat) {f : Fld} (hf : f.belowHst) : (s.marked k).on f = s.on f := by
  unfold State.on
  rw [s.rd_marked_below k hf]

theorem State.rd_finish_below (k : Slot) (c : Code) (u : State) (d : List Nat) {f : Fld} (hf : f.belowHst) :
    (State.finish k (c, u) d).rd f = u.rd f :=
  State.rd_finish k c u d f fun g hg => Fld.belowHst_ne hf (u.slotFlds_key k.val c g hg)

/-- A change of blocks below the host block leaves the port of every slot. -/
theorem Frame.portOf {w : Touch} {s t : State} (h : Frame w s t) (hw : ∀ g ∈ w.flds, g.belowHst) (ha : w.areas = []) (k : Nat) :
    t.portOf k = s.portOf k := by
  have hkept : ∀ f : Fld, 0x100000 * 32 ≤ f.key → f.lo < 32 → t.rd f = s.rd f := fun f hf hlo =>
    h.regs f (fun g hg => (Fld.belowHst_ne (hw g hg) hf).symm) hlo (by simp [Fld.outside, ha])
  exact State.portOf_congr k (hkept _ (by simp only [Fld.key, hClass, F.rws, hBase]; omega) (by simp [hClass, F.rws]))
    (hkept _ (by simp only [Fld.key, hPort, F.rws, hBase]; omega) (by simp [hPort, F.rws]))

section
variable {i : Instr} {slot : Slot} {s : State} {op : State → Res} (hi : exec i s = host slot s op) (hs : s.ready slot.val = true)
include hi hs

/-- The operation's code is the answer. -/
theorem After.answer_of_host {c : Code} (hop : (op (s.marked slot.val)).1 = c) :
    After i s fun t => t.answer = { code := c, data := [] } :=
  ⟨_, hi.trans (host_ready slot s op hs), (State.finish_answer slot _ []).trans (by rw [hop])⟩

/-- An operation that only refuses. -/
theorem Refused.of_host {c : Code} (hop : op (s.marked slot.val) = (c, s.marked slot.val)) : Refused i slot c s := by
  refine ⟨_, hi.trans (host_ready slot s op hs), ?_⟩
  rw [hop]
  exact Served.intro slot c {} s _ [] (Frame.marked slot c {} s) (s.portOf_marked slot.val)

/-- An operation that acts within its frame on blocks below the host block. -/
theorem Answers.of_host {c : Code} {w : Touch} {P : State → Prop} (u : State) (hop : op (s.marked slot.val) = (c, u))
    (hframe : Frame w (s.marked slot.val) u) (hw : ∀ g ∈ w.flds, g.belowHst) (ha : w.areas = []) (hP : P (State.finish slot (c, u))) :
    Answers i slot c s w P := by
  refine ⟨_, hi.trans (host_ready slot s op hs), ?_⟩
  rw [hop]
  have hacts : Frame { w with flds := s.slotFlds slot.val c ++ w.flds, blks := .answer :: .last :: w.blks } (s.marked slot.val) u :=
    Frame.mono (fun f hf => List.mem_append_right _ hf) (fun _ h => h) (fun b hb => by simp [hb]) (fun _ h => h) id hframe
  exact ⟨Served.intro slot c w s u [] ((Frame.marked slot c w s).trans hacts) (by rw [hframe.portOf hw ha, s.portOf_marked]), hP⟩

end

/-! ### Commands of secure slots (R38) -/

theorem secureOnly_of_secure (slot : Slot) (s : State) (k : Res) (h : s.secure slot.val = true) : secureOnly slot s k = k := by
  simp [secureOnly, h]

/-- A command that only a secure slot may give refuses every other. -/
theorem Refused.secureOnly {i : Instr} {slot : Slot} {s : State} (op : State → Res)
    (hi : exec i s = host slot s fun t => secureOnly slot t (op t)) (hs : s.ready slot.val = true) (hsec : s.secure slot.val = false) :
    Refused i slot .secureOnly s :=
  Refused.of_host hi hs (by simp [Machine.secureOnly, s.secure_marked, hsec])

end Sys2Proof.Machine
end

section
/-! SUPPORT. Who moves the timeline, and in which modes (R38, R39). -/

namespace Sys2Proof.Machine

open F

theorem State.timeMode_iff (s : State) : s.timeMode = true ↔ s.mode ∈ [4, 6, 10] := by
  simp [State.timeMode, or_assoc]

theorem State.timeMode_marked (s : State) (k : Nat) : (s.marked k).timeMode = s.timeMode := by
  simp only [State.timeMode, s.mode_marked]

section
variable {slot : Slot} {s : State} (hsec : s.secure slot.val = true)
include hsec

theorem opSet_notInMode (hm : s.timeMode = false) : opSet slot s = (.notInMode, s) := by
  simp [opSet, secureOnly, hsec, hm]

theorem opSet_done (hm : s.timeMode = true) : (opSet slot s).1 = .done := by
  simp only [opSet, secureOnly, hsec, hm, if_true, Bool.not_true, Bool.false_eq_true, if_false]
  split <;> rfl

theorem opStep_notInMode (hm : s.timeMode = false) : opStep slot s = (.notInMode, s) := by
  simp [opStep, secureOnly, hsec, hm]

theorem opStep_done (hm : s.timeMode = true) : (opStep slot s).1 = .done := by
  simp [opStep, secureOnly, hsec, hm]

theorem opSlewStart_done (hm : s.timeMode = true) : (opSlewStart slot s).1 = .done := by
  simp [opSlewStart, secureOnly, hsec, hm]

theorem opCancelSet_alreadyDone (hp : s.htm.pend = none) : opCancelSet slot s = (.alreadyDone, s) := by
  simp [opCancelSet, secureOnly, hsec, hp]

theorem opCancelSet_done (hp : s.htm.pend ≠ none) : (opCancelSet slot s).1 = .done := by
  obtain ⟨p, hsome⟩ := Option.ne_none_iff_exists'.1 hp
  simp [opCancelSet, secureOnly, hsec, hsome]

theorem opSlewAbort_alreadyDone (ha : s.on htmSlewActive = false) : opSlewAbort slot s = (.alreadyDone, s) := by
  simp [opSlewAbort, secureOnly, hsec, ha]

theorem opSlewAbort_done (ha : s.on htmSlewActive = true) : (opSlewAbort slot s).1 = .done := by
  simp [opSlewAbort, secureOnly, hsec, ha]

end

/-- A slot that is not secure may not move the timeline (R38). -/
theorem timeline_secureOnly (slot : Slot) (s : State) (hs : s.ready slot.val = true) (hsec : s.secure slot.val = false) :
    ∀ i ∈ [Instr.set slot, .cancelSet slot, .step slot, .slewStart slot, .slewAbort slot, .planSwitch slot], Refused i slot .secureOnly s := by
  simp only [List.forall_mem_cons]
  refine ⟨?_, ?_, ?_, ?_, ?_, ?_, by simp⟩
  all_goals exact Refused.secureOnly _ rfl hs hsec

/-- Settles O3: a slot that is not secure meets `secureOnly` before anything else; a secure one is answered by the mode (R39), by the SET
that waits and by the slew that runs. -/
theorem timelineIsGuarded : Obligations.TimelineIsGuarded := by
  unfold Obligations.TimelineIsGuarded
  intro slot s hs
  refine ⟨timeline_secureOnly slot s hs, fun hsec => ?_, fun hreg => ?_⟩
  · have hsec' : (s.marked slot.val).secure slot.val = true := by rw [s.secure_marked, hsec]
    have hmode : s.mode ∈ [4, 6, 10] → (s.marked slot.val).timeMode = true := fun h => by rwa [s.timeMode_marked, s.timeMode_iff]
    have hother : s.mode ∉ [4, 6, 10] → (s.marked slot.val).timeMode = false := fun h => by
      rwa [s.timeMode_marked, Bool.eq_false_iff, Ne, s.timeMode_iff]
    have hslew : (s.marked slot.val).on htmSlewActive = s.on htmSlewActive := s.on_marked_below _ (by unfold Fld.belowHst; decide)
    simp only [List.forall_mem_cons]
    refine ⟨⟨⟨fun h => ?_, fun h => ?_⟩, ⟨fun h => ?_, fun h => ?_⟩, by simp⟩, fun h => ?_, fun h => ?_, fun h => ?_, fun h => ?_, fun h => ?_⟩
    · exact After.answer_of_host rfl hs (opSet_done hsec' (hmode h))
    · exact Refused.of_host rfl hs (opSet_notInMode hsec' (hother h))
    · exact After.answer_of_host rfl hs (opStep_done hsec' (hmode h))
    · exact Refused.of_host rfl hs (opStep_notInMode hsec' (hother h))
    · exact After.answer_of_host rfl hs (opCancelSet_done hsec' (by simpa using h))
    · exact Refused.of_host rfl hs (opCancelSet_alreadyDone hsec' (by simpa using h))
    · exact After.answer_of_host rfl hs (opSlewAbort_done hsec' (hslew.trans h))
    · exact Refused.of_host rfl hs (opSlewAbort_alreadyDone hsec' (hslew.trans h))
    · exact After.answer_of_host rfl hs (opSlewStart_done hsec' (hmode h))
  · exact ⟨_, hostReg_ready slot s (opSelfCapture slot) id hreg, State.finish_answer slot _ []⟩

end Sys2Proof.Machine
end

section
/-! SUPPORT. Event sources and mode changes: what they leave, and what reads after them (R226, R468, R469). -/

namespace Sys2Proof.Machine

open F

theorem State.rd_latch (s : State) (n : Nat) {f : Fld} (hf : (iLatch (n / 32)).key ≠ f.key) : (s.latch n).rd f = s.rd f := by
  unfold State.latch
  split
  · exact State.rd_wr_ne _ hf _
  · rfl

/-- A happening sets its latch bit, or waits for the thaw. -/
theorem State.latched_latch (s : State) (n : Nat) : (s.latch n).latched n := by
  unfold State.latch
  split
  · refine .inl ?_
    have hw : (iLatch (n / 32)).width = 32 := rfl
    simp only [State.bit, State.setBits, State.rd_wr_same, hw, Nat.testBit_mod_two_pow, Nat.testBit_or, Nat.testBit_two_pow_self, Bool.or_true,
      Bool.and_true, decide_eq_true_eq]
    omega
  · exact .inr (by simp)

/-- A source stays latched where its word is kept and no waiting happening is forgotten. -/
theorem State.latched.kept {t u : State} {n : Nat} (h : t.latched n) (hr : u.rd (iLatch (n / 32)) = t.rd (iLatch (n / 32)))
    (hp : ∀ k ∈ t.glb.pendLatch, k ∈ u.glb.pendLatch) : u.latched n := by
  unfold State.latched State.bit at *
  rw [hr]
  exact h.imp_right (hp n)

theorem State.latched.finish {u : State} {n : Nat} (h : u.latched n) (k : Slot) (c : Code) (hn : (iLatch (n / 32)).belowHst) :
    (State.finish k (c, u)).latched n :=
  h.kept (State.rd_finish_below k c u [] hn) fun j hj => by rwa [State.finish_glb]

@[simp] theorem State.leaveM5_htm (s : State) : s.leaveM5.htm = s.htm := by unfold State.leaveM5; split <;> rfl
@[simp] theorem State.leaveM5_glb (s : State) : s.leaveM5.glb = s.glb := by unfold State.leaveM5; split <;> rfl

/-- Only M5 is left with its learning. -/
theorem Frame.leaveM5 {w : Touch} {s t : State} (h : Frame w s t) (h5 : t.mode = 5 → tLearning ∈ w.flds ∧ .trm ∈ w.blks) :
    Frame w s t.leaveM5 := by
  unfold State.leaveM5
  split
  · next hm => exact (h.trm _ (h5 hm).2).wr _ _ (h5 hm).1
  · exact h

/-- A mode change writes MODE and PREV and may raise 503. -/
theorem Frame.setMode {w : Touch} {s t : State} (h : Frame w s t) (m : Nat) (hw : ∀ f ∈ [glbPrev, glbMode, iLatch 15], f ∈ w.flds)
    (hg : .glb ∈ w.blks) (h5 : t.mode = 5 → tLearning ∈ w.flds ∧ .trm ∈ w.blks) : Frame w s (t.setMode m) := by
  have hmodes : Frame w s ((t.leaveM5.wr glbPrev t.mode).wr glbMode m) :=
    ((h.leaveM5 h5).wr _ _ (hw _ (by simp))).wr _ _ (hw _ (by simp))
  unfold State.setMode
  split
  · exact h
  · simp only
    split
    · split
      · exact hmodes.latch 503 (hw _ (by simp)) hg
      · exact hmodes.glb _ hg
    · exact hmodes

theorem State.rd_setMode (s : State) (m : Nat) {f : Fld} (hlo : f.lo < 32)
    (hf : ∀ g ∈ [glbPrev, glbMode, iLatch 15, tLearning], g.key ≠ f.key) : (s.setMode m).rd f = s.rd f :=
  ((Frame.refl { flds := [glbPrev, glbMode, iLatch 15, tLearning], blks := [.trm, .glb] } s).setMode m (by simp) (by simp)
    fun _ => ⟨by simp, by simp⟩).regs f hf hlo (by simp [Fld.outside])

/-- MODE and PREV after a change to another mode. -/
theorem State.setMode_modes (s : State) (m : Nat) (hm : m < 16) (hs : s.mode ≠ m) (hs16 : s.mode < 16) :
    (s.setMode m).mode = m ∧ (s.setMode m).rd glbPrev = s.mode := by
  have hne : glbMode.key ≠ glbPrev.key := by decide
  have hwm : glbMode.width = 4 := rfl
  have hwp : glbPrev.width = 4 := rfl
  have hwritten : ((s.leaveM5.wr glbPrev s.mode).wr glbMode m).rd glbMode = m ∧
      ((s.leaveM5.wr glbPrev s.mode).wr glbMode m).rd glbPrev = s.mode := by
    rw [State.rd_wr_same, State.rd_wr_ne _ hne, State.rd_wr_same, hwm, hwp]
    exact ⟨Nat.mod_eq_of_lt hm, Nat.mod_eq_of_lt hs16⟩
  unfold State.setMode
  rw [if_neg hs]
  simp only
  split
  · split
    · exact ⟨(State.rd_latch _ 503 (by decide)).trans hwritten.1, (State.rd_latch _ 503 (by decide)).trans hwritten.2⟩
    · exact hwritten
  · exact hwritten

/-- A mode change forgets no happening that waits for the thaw. -/
theorem State.setMode_pendLatch (s : State) (m : Nat) : (s.setMode m).glb.pendLatch = s.glb.pendLatch := by
  unfold State.setMode
  split
  · rfl
  · simp only
    split
    · split
      · next hrun =>
        have hrun' : ((s.leaveM5.wr glbPrev s.mode).wr glbMode m).running = true := by simpa [State.running] using hrun
        simp [State.latch, hrun', State.setBits]
      · simp
    · simp

/-- A source stays latched through a mode change, which raises none but 503. -/
theorem State.latched.setMode {s : State} {n : Nat} (h : s.latched n) (m : Nat) (hn : n / 32 < 15) : (s.setMode m).latched n := by
  refine h.kept (State.rd_setMode s m (by simp [iLatch, F.w1c]) ?_) fun k hk => by rwa [State.setMode_pendLatch]
  simp only [List.forall_mem_cons, Fld.key, glbPrev, glbMode, iLatch, tLearning, F.ro, F.w1c, ne_eq]
  exact ⟨by omega, by omega, by omega, by omega, by simp⟩

end Sys2Proof.Machine
end

section
/-! SUPPORT. The servo, lock, unlock and holdover (spec/06): what each changes, and what reads after it. -/

namespace Sys2Proof.Machine

open F

/-! ### Signed fields -/

theorem signedOf_toBits_32 {i : Int} (h1 : -(2 ^ 31) ≤ i) (h2 : i < 2 ^ 31) : signedOf 32 (toBits 32 i) = i := by
  unfold signedOf toBits
  split <;> omega

theorem State.rdS_wrS_same (s : State) {f : Fld} (hw : f.width = 32) {i : Int} (h1 : -(2 ^ 31) ≤ i) (h2 : i < 2 ^ 31) :
    (s.wrS f i).rdS f = i := by
  have hlt : toBits 32 i < 2 ^ 32 := by unfold toBits; omega
  rw [State.rdS, State.wrS, State.rd_wr_same, hw, Nat.mod_eq_of_lt hlt, signedOf_toBits_32 h1 h2]

theorem State.rdS_congr {s t : State} {f : Fld} (h : t.rd f = s.rd f) : t.rdS f = s.rdS f := by rw [State.rdS, State.rdS, h]

/-! ### The servo (R289) -/

theorem satAt_bounds (m : Nat) (i : Int) : -(m : Int) ≤ satAt m i ∧ satAt m i ≤ m := by
  unfold satAt
  omega

theorem satAt_satAt (m : Nat) (i : Int) : satAt m (satAt m i) = satAt m i := by
  unfold satAt
  omega

theorem State.servoMax_lt (s : State) : s.servoMax < 2 ^ 31 := by
  unfold State.servoMax
  omega

theorem State.servoMax_congr {s t : State} (h : t.rd dServoMax = s.rd dServoMax) : t.servoMax = s.servoMax := by
  rw [State.servoMax, State.servoMax, h]

theorem Frame.setServo {w : Touch} {s t : State} (h : Frame w s t) (i kp : Int) (hw : ∀ f ∈ [dInteg, dServo, dEvt], f ∈ w.flds) :
    Frame w s (t.setServo i kp) := by
  have hserved := (h.wrS dInteg (satAt t.servoMax i) (hw _ (by simp))).wrS dServo (satAt t.servoMax (satAt t.servoMax i - kp)) (hw _ (by simp))
  unfold State.setServo State.putServo
  simp only
  split
  · exact hserved.setBits _ _ (hw _ (by simp))
  · exact hserved

/-- The integrator and S as a servo update leaves them. -/
theorem State.rdS_setServo (s : State) (i kp : Int) : (s.setServo i kp).rdS dInteg = satAt s.servoMax i ∧
    (s.setServo i kp).rdS dServo = satAt s.servoMax (satAt s.servoMax i - kp) := by
  have hlt := s.servoMax_lt
  have hi := satAt_bounds s.servoMax i
  have hv := satAt_bounds s.servoMax (satAt s.servoMax i - kp)
  have hne : dServo.key ≠ dInteg.key := by decide
  have hput : ∀ u : State, u = (s.wrS dInteg (satAt s.servoMax i)).wrS dServo (satAt s.servoMax (satAt s.servoMax i - kp)) →
      u.rdS dInteg = satAt s.servoMax i ∧ u.rdS dServo = satAt s.servoMax (satAt s.servoMax i - kp) := by
    rintro u rfl
    refine ⟨?_, State.rdS_wrS_same _ rfl (by omega) (by omega)⟩
    exact (State.rdS_congr (State.rd_wr_ne _ hne _)).trans (State.rdS_wrS_same _ rfl (by omega) (by omega))
  unfold State.setServo State.putServo
  simp only
  split
  · obtain ⟨hinteg, hservo⟩ := hput _ rfl
    exact ⟨(State.rdS_congr (State.rd_wr_ne _ (by decide) _)).trans hinteg, (State.rdS_congr (State.rd_wr_ne _ (by decide) _)).trans hservo⟩
  · exact hput _ rfl

theorem State.setServo_glb (s : State) (i kp : Int) : (s.setServo i kp).glb = s.glb := by
  unfold State.setServo State.putServo
  simp only
  split <;> rfl

theorem State.setServo_trm (s : State) (i kp : Int) : (s.setServo i kp).trm = s.trm := by
  unfold State.setServo State.putServo
  simp only
  split <;> rfl

/-- Setting flags clears none. -/
theorem State.bit_setBits (s : State) (f : Fld) (m i : Nat) (h : s.bit f i = true) (hi : i < f.width) : (s.setBits f m).bit f i = true := by
  unfold State.bit at *
  rw [State.setBits, State.rd_wr_same, Nat.testBit_mod_two_pow, Nat.testBit_or, h]
  simpa using hi

theorem State.bit_setServo (s : State) (i kp : Int) (h : s.bit dEvt 1 = true) : (s.setServo i kp).bit dEvt 1 = true := by
  have hkept : ((s.wrS dInteg (satAt s.servoMax i)).wrS dServo (satAt s.servoMax (satAt s.servoMax i - kp))).bit dEvt 1 = true := by
    rwa [State.bit, State.wrS, State.rd_wr_ne _ (by decide), State.wrS, State.rd_wr_ne _ (by decide)]
  unfold State.setServo State.putServo
  simp only
  split
  · exact State.bit_setBits _ _ _ _ hkept (by decide)
  · exact hkept

/-! ### The trim update that follows (R260) -/

/-- What a trim update may change: the trim block, and HTM_INCR. -/
def trimTouch : Touch := { flds := [], areas := [(0x040000, 0x041000)], blks := [.trm, .htm] }

theorem Frame.trmFld {s t : State} (h : Frame trimTouch s t) (f : Fld) (v : Nat)
    (hf : f.lo < 32 ∧ 0x040000 ≤ f.addr ∧ f.addr < 0x041000) : Frame trimTouch s (t.wr f v) :=
  h.wr_area f v (0x040000, 0x041000) (by simp [trimTouch]) hf.1 hf.2.1 hf.2.2

theorem Frame.gGather {s t : State} (h : Frame trimTouch s t) (v : Nat) (acq : Bool) : Frame trimTouch s (t.gGather v acq) := by
  unfold State.gGather
  split
  · exact h.trm _ (by simp [trimTouch])
  · exact h.trm _ (by simp [trimTouch])

theorem Frame.gUpdate {s t : State} (h : Frame trimTouch s t) : Frame trimTouch s t.gUpdate := by
  unfold State.gUpdate
  split
  · exact ((h.trmFld tG _ (by decide)).trmFld tGStale _ (by decide)).gGather _ _
  · simp only
    split
    · exact ((h.trmFld tG _ (by decide)).trmFld tGStale _ (by decide)).gGather _ _
    · exact (h.trmFld tGStale _ (by decide)).gGather _ _

theorem Frame.lawTerms {s t : State} (h : Frame trimTouch s t) : Frame trimTouch s t.lawTerms :=
  (((h.trmFld tTermT _ (by decide)).trmFld tTermA _ (by decide)).trmFld tTermG _ (by decide)).trmFld tMainTotal _ (by decide)

theorem Frame.writeIncr {s t : State} (h : Frame trimTouch s t) : Frame trimTouch s t.writeIncr := by
  unfold State.writeIncr
  split
  · simp only
    split
    · exact (h.trmFld tEvt _ (by decide)).htm _ (by simp [trimTouch])
    · exact h.htm _ (by simp [trimTouch])
  · exact h

theorem Frame.trimUpdate (s : State) : Frame trimTouch s s.trimUpdate := by
  unfold State.trimUpdate
  refine Frame.writeIncr (Frame.lawTerms (Frame.gUpdate (Frame.trmFld (Frame.trmFld ?_ tFallback _ (by decide)) tTemp _ (by decide))))
  split
  · exact (Frame.refl _ s).trmFld tEvt _ (by decide)
  · exact Frame.refl _ s

theorem State.gUpdate_missRun (s : State) : s.gUpdate.trm.missRun = s.trm.missRun := by
  have hgather : ∀ (u : State) (v : Nat) (acq : Bool), (u.gGather v acq).trm.missRun = u.trm.missRun := by
    intro u v acq
    unfold State.gGather
    split <;> rfl
  unfold State.gUpdate
  split
  · rw [hgather, State.wr_trm, State.wr_trm]
  · refine (hgather _ _ _).trans ?_
    split
    · rw [State.wr_trm, State.wr_trm]
    · rw [State.wr_trm]

theorem State.trimUpdate_missRun (s : State) : s.trimUpdate.trm.missRun = s.trm.missRun := by
  have hwrite : ∀ u : State, u.writeIncr.trm = u.trm := by
    intro u
    unfold State.writeIncr
    simp only
    split
    · split <;> rfl
    · rfl
  have hlaw : ∀ u : State, u.lawTerms.trm = u.trm := fun _ => rfl
  rw [State.trimUpdate, hwrite, hlaw, State.gUpdate_missRun]
  split <;> rfl

/-! ### Lock, unlock and holdover (R293, R294, R299, R301) -/

/-- What a lock may change, and what the end of holdover may change beside LAST_UNLOCK. -/
def lockTouch : Touch := { flds := [dState, glbPrev, glbMode, iLatch 14, iLatch 15], blks := [.glb] }

/-- A lock out of M4 or M6 (R293). -/
theorem State.lock_spec (s : State) (hm : s.mode = 4 ∨ s.mode = 6) : Frame lockTouch s s.lock ∧ s.lock.mode = 5 ∧
    s.lock.rd glbPrev = s.mode ∧ s.lock.rd dState = 2 ∧ s.lock.latched 476 := by
  have hmode : ((s.wr dState 2).latch 476).mode = s.mode :=
    (State.rd_latch _ 476 (by decide)).trans (State.rd_wr_ne _ (by decide) _)
  have heq : s.lock = ((s.wr dState 2).latch 476).setMode 5 := by
    unfold State.lock
    rw [if_neg (by omega)]
  obtain ⟨h5, hprev⟩ := ((s.wr dState 2).latch 476).setMode_modes 5 (by omega) (by omega) (by omega)
  rw [heq]
  refine ⟨?_, h5, hprev.trans hmode, ?_, (State.latched_latch _ 476).setMode 5 (by omega)⟩
  · exact (((Frame.refl lockTouch s).wr dState 2 (by simp [lockTouch])).latch 476 (by simp [lockTouch]) (by simp [lockTouch])).setMode 5
      (by simp [lockTouch]) (by simp [lockTouch]) (by omega)
  · rw [State.rd_setMode _ _ (by decide) (by decide), State.rd_latch _ _ (by decide), State.rd_wr_same]
    rfl

theorem Frame.holdEntry {w : Touch} {s t : State} (h : Frame w s t) (hb : .trm ∈ w.blks)
    (hw : ∀ f ∈ [dHoldFreq, dHoldTime, dHoldUnc, dInteg, dServo, dEvt], f ∈ w.flds) : Frame w s (t.holdEntry false) :=
  ((((h.trm _ hb).wrS _ _ (hw _ (by simp))).wr _ _ (hw _ (by simp))).wr _ _ (hw _ (by simp))).setServo _ _ fun f hf =>
    hw f (List.mem_cons_of_mem _ (List.mem_cons_of_mem _ (List.mem_cons_of_mem _ hf)))

/-- Holdover starts at its second 0. -/
theorem State.rd_holdTime_holdEntry (s : State) : (s.holdEntry false).rd dHoldTime = 0 := by
  have hkept : ∀ (u : State) (i kp : Int), (u.setServo i kp).rd dHoldTime = u.rd dHoldTime := fun u i kp =>
    ((Frame.refl { flds := [dInteg, dServo, dEvt] } u).setServo i kp (by simp)).regs dHoldTime (by decide) (by decide) (by simp [Fld.outside])
  refine (hkept _ _ _).trans ?_
  rw [State.rd_wr_ne _ (by decide), State.rd_wr_same]
  rfl

/-- What the end of a lock in M5 may change. -/
def unlockTouch : Touch :=
  { flds := [dLastUnlock, dState, dHoldFreq, dHoldTime, dHoldUnc, dInteg, dServo, dEvt, tLearning, glbPrev, glbMode, iLatch 14, iLatch 15]
    blks := [.trm, .glb] }

/-- The end of a lock in M5, with its cause (R294, R299). -/
theorem State.unlock_spec (s : State) (c : Nat) (hc : c < 16) (hm : s.mode = 5) : Frame unlockTouch s (s.unlock c) ∧
    (s.unlock c).mode = 6 ∧ (s.unlock c).rd glbPrev = 5 ∧ (s.unlock c).rd dLastUnlock = c ∧ (s.unlock c).rd dState = 3 ∧
    (s.unlock c).rd dHoldTime = 0 ∧ (s.unlock c).latched 477 := by
  obtain ⟨u, hu⟩ : ∃ u : State, u =
    (State.wr { s with trm := { s.trm with bigRun := 0, todRun := 0, missRun := 0 } } dLastUnlock c).wr dState 3 := ⟨_, rfl⟩
  obtain ⟨v, hv⟩ : ∃ v : State, v = (u.latch 477).holdEntry false := ⟨_, rfl⟩
  have hmu : (u.latch 477).mode = 5 := by
    refine (State.rd_latch u 477 (by decide)).trans ?_
    rw [hu, State.rd_wr_ne _ (by decide), State.rd_wr_ne _ (by decide)]
    exact hm
  have heq : s.unlock c = v.setMode 6 := by
    have hlocked : s.locked = true := by simp [State.locked, hm]
    unfold State.unlock
    rw [if_pos hlocked]
    simp only [← hu, hmu, if_true, hv]
  have hframe : Frame unlockTouch s (u.latch 477) := by
    rw [hu]
    exact ((((Frame.refl unlockTouch s).trm _ (by simp [unlockTouch])).wr _ _ (by simp [unlockTouch])).wr _ _ (by simp [unlockTouch])).latch 477
      (by simp [unlockTouch]) (by simp [unlockTouch])
  have hentry : Frame { flds := [dHoldFreq, dHoldTime, dHoldUnc, dInteg, dServo, dEvt], blks := [.trm] } (u.latch 477) v := by
    rw [hv]
    exact (Frame.refl _ _).holdEntry (by simp) (by simp)
  have hkept : ∀ f : Fld, f.lo < 32 → (∀ g ∈ [dHoldFreq, dHoldTime, dHoldUnc, dInteg, dServo, dEvt], g.key ≠ f.key) →
      v.rd f = (u.latch 477).rd f := fun f hlo hf => hentry.regs f hf hlo (by simp [Fld.outside])
  have hmv : v.mode = 5 := (hkept glbMode (by decide) (by decide)).trans hmu
  obtain ⟨h6, hprev⟩ := v.setMode_modes 6 (by omega) (by omega) (by omega)
  have hwc : dLastUnlock.width = 4 := rfl
  rw [heq]
  refine ⟨?_, h6, hprev.trans hmv, ?_, ?_, ?_, State.latched.setMode ?_ 6 (by omega)⟩
  · rw [hv]
    exact (hframe.holdEntry (by simp [unlockTouch]) (by simp [unlockTouch])).setMode 6 (by simp [unlockTouch]) (by simp [unlockTouch])
      fun _ => ⟨by simp [unlockTouch], by simp [unlockTouch]⟩
  · rw [State.rd_setMode _ _ (by decide) (by decide), hkept _ (by decide) (by decide), State.rd_latch _ _ (by decide), hu,
      State.rd_wr_ne _ (by decide), State.rd_wr_same, hwc]
    exact Nat.mod_eq_of_lt hc
  · rw [State.rd_setMode _ _ (by decide) (by decide), hkept _ (by decide) (by decide), State.rd_latch _ _ (by decide), hu, State.rd_wr_same]
    rfl
  · rw [State.rd_setMode _ _ (by decide) (by decide), hv, State.rd_holdTime_holdEntry]
  · refine (State.latched_latch u 477).kept (hkept _ (by decide) (by decide)) fun k hk => ?_
    have hglb : v.glb = (u.latch 477).glb := by
      rw [hv]
      exact State.setServo_glb _ _ _
    rwa [hglb]

/-- Holdover ends for M4 with its cause (R301). -/
theorem State.holdExit_spec (s : State) (c : Nat) (hc : c < 16) (hm : s.mode = 6) :
    Frame { lockTouch with flds := dLastUnlock :: lockTouch.flds } s (s.holdExit c) ∧ (s.holdExit c).mode = 4 ∧
      (s.holdExit c).rd dLastUnlock = c ∧ (s.holdExit c).latched 477 := by
  obtain ⟨u, hu⟩ : ∃ u : State, u = ((s.wr dLastUnlock c).wr dState s.idleState).latch 477 := ⟨_, rfl⟩
  have heq : s.holdExit c = u.setMode 4 := by
    rw [hu]
    rfl
  have hmode : u.mode = 6 := by
    rw [hu]
    refine (State.rd_latch _ 477 (by decide)).trans ?_
    rw [State.rd_wr_ne _ (by decide), State.rd_wr_ne _ (by decide)]
    exact hm
  have hwc : dLastUnlock.width = 4 := rfl
  rw [heq]
  refine ⟨?_, (u.setMode_modes 4 (by omega) (by omega) (by omega)).1, ?_, State.latched.setMode ?_ 4 (by omega)⟩
  · have hframe : Frame { lockTouch with flds := dLastUnlock :: lockTouch.flds } s u := by
      rw [hu]
      exact (((Frame.refl _ s).wr _ _ (by simp)).wr _ _ (by simp [lockTouch])).latch 477 (by simp [lockTouch]) (by simp [lockTouch])
    exact hframe.setMode 4 (by simp [lockTouch]) (by simp [lockTouch]) (by omega)
  · rw [State.rd_setMode _ _ (by decide) (by decide), hu, State.rd_latch _ _ (by decide), State.rd_wr_ne _ (by decide), State.rd_wr_same,
      hwc]
    exact Nat.mod_eq_of_lt hc
  · rw [hu]
    exact State.latched_latch _ 477

end Sys2Proof.Machine
end

section
/-! SUPPORT. An item that a hub producer offers (R510, R516, R517): it changes its ring and the ring write port alone. -/

namespace Sys2Proof.Machine

open F

/-- What items for ring `r` may change: the ring, its SEQ, the port, and the Shared Buffer. -/
def ringTouch (r : Nat) : Touch :=
  { flds := [rWidx r, rRidx r, rDropped r, rDrop r], blks := [.ringSeq, .port], anyByte := true }

theorem Frame.sbuf {w : Touch} {s t : State} (h : Frame w s t) (m : List Host.Cell) (hw : w.anyByte = true) :
    Frame w s { t with sbuf := m } := by
  refine h.trans ⟨fun _ _ _ _ => rfl, fun hn => absurd hw (by simp [hn]), fun b _ _ => ?_, rfl⟩
  cases b <;> simp [Blk.same] <;> rfl

theorem State.ringSetWord_eq (s : State) (r i v : Nat) : ∃ m, s.ringSetWord r i v = { s with sbuf := m } := by
  unfold State.ringSetWord
  split <;> exact ⟨_, rfl⟩

theorem State.ringPut_eq (s : State) (r i : Nat) (ws : List Nat) : ∃ m, s.ringPut r i ws = { s with sbuf := m } := by
  induction ws generalizing s i with
  | nil => exact ⟨s.sbuf, rfl⟩
  | cons v t ih =>
    obtain ⟨m, hm⟩ := s.ringSetWord_eq r i v
    obtain ⟨n, hn⟩ := ih (s.ringSetWord r i v) (i + 4)
    exact ⟨n, by rw [State.ringPut, hn, hm]⟩

theorem Frame.ringLose {s t : State} {r : Nat} (h : Frame (ringTouch r) s t) : Frame (ringTouch r) s (t.ringLose r) :=
  (h.bump _ _ (by simp [ringTouch])).wr _ _ (by simp [ringTouch])

theorem Frame.ringAppend {s t : State} {r : Nat} (h : Frame (ringTouch r) s t) (ws : List Nat) :
    Frame (ringTouch r) s (t.ringAppend r ws) := by
  obtain ⟨m, hm⟩ := t.ringPut_eq r (t.rd (rWidx r)) ws
  unfold State.ringAppend State.publish
  rw [hm]
  exact (h.sbuf m rfl).wr _ _ (by simp [ringTouch])

theorem Frame.makeRoom {s t : State} {r : Nat} (h : Frame (ringTouch r) s t) (n fuel : Nat) :
    Frame (ringTouch r) s (t.makeRoom r n fuel) := by
  induction fuel generalizing t with
  | zero => exact h
  | succ fuel ih =>
    unfold State.makeRoom
    split
    · exact h
    · exact ih (h.wr _ _ (by simp [ringTouch])).ringLose

theorem Frame.offer {s t : State} {r : Nat} (h : Frame (ringTouch r) s t) (ws : List Nat) : Frame (ringTouch r) s (t.offer r ws).2 := by
  unfold State.offer
  simp only
  split
  · exact h.bump _ _ (by simp [ringTouch])
  · split
    · exact h.ringLose
    · split
      · exact h.ringAppend ws
      · split
        · exact (h.makeRoom _ _).ringAppend ws
        · exact h.ringLose

theorem Frame.give {s t : State} {r : Nat} (h : Frame (ringTouch r) s t) (ws : List Nat) : Frame (ringTouch r) s (t.give r ws) := by
  unfold State.give
  split
  · exact (h.port _ (by simp [ringTouch])).offer ws
  · exact h.port _ (by simp [ringTouch])

end Sys2Proof.Machine
end

section
/-! SUPPORT. Missing seconds, the commands of discipline, and the seconds of holdover (R283, R289, R294, R298 to R301). -/

namespace Sys2Proof.Machine

open F

/-! ### A missing second -/

theorem Frame.discRecord (s : State) (x : Sample) (label : Option Nat) : Frame (ringTouch 41) s (s.discRecord x label) := by
  unfold State.discRecord
  split
  · exact Frame.refl _ s
  · exact ((Frame.refl _ s).ringSeq _ (by simp [ringTouch])).give _

/-- What the record and the count of a missing second may change. -/
def missTouch : Touch := { ringTouch 41 with flds := [dEvt, dPpsPresent] ++ (ringTouch 41).flds, blks := .trm :: (ringTouch 41).blks }

/-- The hub with the flags, the record and the count of a second that was due at `due` (R283, R287). -/
def State.missCounted (s : State) (due : Nat) : State :=
  let u := (((s.discEvt 1).wr dPpsPresent 0).discRecord
    { kind := 3, t := due, n := 0, theta := 0, outlier := false, discard := false } none)
  { u with trm := { u.trm with lastEdge := some due, missRun := u.trm.missRun + 1 } }

/-- And with the servo's part and the second in the log of holdover (R289, R299). -/
def State.missCoasted (s : State) (due : Nat) : State :=
  (if (s.missCounted due).hwDiscipline then (s.missCounted due).servoCoast else s.missCounted due).logSecond none

/-- With a source and no sample on its way, a missing second is counted, the servo coasts, and the lock ends when LOSS_N is reached. -/
theorem State.missingSecond_eq (s : State) (hsrc : s.rd dSrc ≠ 0) (hheld : s.trm.held = none) (hdue : s.trm.due = none) :
    ∃ due, s.missingSecond =
      if (s.missCoasted due).rd dLossN ≤ (s.missCoasted due).trm.missRun then (s.missCoasted due).unlock 1 else s.missCoasted due := by
  have hquiet : s.servoDue.judgeHeld none = s := by simp [State.servoDue, State.judgeHeld, hheld, hdue]
  refine ⟨match s.trm.lastEdge with | some t => (t + secU) % timeMod | none => s.htm.time, ?_⟩
  unfold State.missingSecond
  rw [hquiet]
  simp only [if_neg hsrc]
  rfl

theorem State.hwDiscipline_congr {s t : State} (h : t.rd dMode = s.rd dMode) : t.hwDiscipline = s.hwDiscipline := by
  rw [State.hwDiscipline, State.hwDiscipline, State.on, State.on, h]

section
variable (s : State) (due : Nat)

theorem Frame.missFlags : Frame missTouch s ((s.discEvt 1).wr dPpsPresent 0) :=
  ((Frame.refl missTouch s).setBits dEvt _ (by simp [missTouch])).wr _ _ (by simp [missTouch])

theorem Frame.missCounted : Frame missTouch s (s.missCounted due) := by
  have hrecord : ∀ u : State, ∀ x label, Frame missTouch u (u.discRecord x label) := fun u x label =>
    (Frame.discRecord u x label).mono (fun f hf => List.mem_append_right _ hf) (fun _ h => h) (fun b hb => List.mem_cons_of_mem _ hb)
      (fun _ h => h) id
  exact ((Frame.missFlags s).trans (hrecord _ _ _)).trm _ (by simp [missTouch])

theorem State.rd_missCounted {f : Fld} (hlo : f.lo < 32) (hf : ∀ g ∈ missTouch.flds, g.key ≠ f.key) : (s.missCounted due).rd f = s.rd f :=
  (Frame.missCounted s due).regs f hf hlo (by simp [Fld.outside, missTouch, ringTouch])

/-- MISSING sets and PPS_PRESENT clears, and the second is counted. -/
theorem State.missCounted_spec : (s.missCounted due).bit dEvt 1 = true ∧ (s.missCounted due).rd dPpsPresent = 0 ∧
    (s.missCounted due).trm.missRun = s.trm.missRun + 1 := by
  obtain ⟨u, hu⟩ : ∃ u : State, u = (s.discEvt 1).wr dPpsPresent 0 := ⟨_, rfl⟩
  have hrecord := Frame.discRecord u { kind := 3, t := due, n := 0, theta := 0, outlier := false, discard := false } none
  have hrd : ∀ f : Fld, f.lo < 32 → (∀ g ∈ (ringTouch 41).flds, g.key ≠ f.key) → (s.missCounted due).rd f = u.rd f := fun f hlo hf => by
    rw [hu] at hrecord ⊢
    exact hrecord.regs f hf hlo (by simp [Fld.outside, ringTouch])
  have htrm := hrecord.blks .trm (by simp [ringTouch]) (by simp [ringTouch, Blk.kind])
  have hw : dEvt.width = 6 := rfl
  refine ⟨?_, ?_, ?_⟩
  · rw [State.bit, hrd dEvt (by decide) (by decide), hu, State.rd_wr_ne _ (by decide), State.discEvt, State.setBits, State.rd_wr_same, hw]
    simp only [Nat.testBit_mod_two_pow, Nat.testBit_or, Nat.testBit_two_pow_self, Bool.or_true, Bool.and_true]
    rfl
  · rw [hrd dPpsPresent (by decide) (by decide), hu, State.rd_wr_same]
    rfl
  · have hsame : ((s.discEvt 1).wr dPpsPresent 0).trm = s.trm := rfl
    rw [hu] at htrm
    exact congrArg (fun x : TrmS => x.missRun + 1) (Eq.trans htrm hsame)

/-- What a second without a sample may change: the servo, and what the trim update after it does. -/
def coastTouch : Touch := { trimTouch with flds := [dInteg, dServo, dEvt] }

theorem Frame.servoCoast : Frame coastTouch s s.servoCoast := by
  have htrim : Frame coastTouch (s.setServo (s.rdS dInteg) 0) s.servoCoast :=
    Frame.mono (v := trimTouch) (fun f hf => by simp [trimTouch] at hf) (fun _ h => h) (fun _ h => h) (fun _ h => h) id (Frame.trimUpdate _)
  exact ((Frame.refl _ s).setServo _ _ (fun _ h => h)).trans htrim

/-- I is kept and S is I, each saturated (R289), and no flag clears. -/
theorem State.servoCoast_spec : s.servoCoast.rdS dInteg = satAt s.servoMax (s.rdS dInteg) ∧
    s.servoCoast.rdS dServo = satAt s.servoMax (s.rdS dInteg) ∧ s.servoCoast.trm.missRun = s.trm.missRun ∧
    (s.bit dEvt 1 = true → s.servoCoast.bit dEvt 1 = true) := by
  obtain ⟨u, hu⟩ : ∃ u : State, u = s.setServo (s.rdS dInteg) 0 := ⟨_, rfl⟩
  obtain ⟨hinteg, hservo⟩ := s.rdS_setServo (s.rdS dInteg) 0
  have heq : s.servoCoast = u.trimUpdate := by
    rw [hu]
    rfl
  have hrd : ∀ f ∈ [dInteg, dServo, dEvt], u.trimUpdate.rd f = u.rd f := fun f hf =>
    (Frame.trimUpdate u).regs f (by simp [trimTouch]) (by revert f; decide) (by revert f; unfold Fld.outside; decide)
  rw [heq]
  refine ⟨?_, ?_, ?_, fun hbit => ?_⟩
  · rw [State.rdS_congr (hrd _ (by simp)), hu, hinteg]
  · rw [State.rdS_congr (hrd _ (by simp)), hu, hservo, Int.sub_zero, satAt_satAt]
  · rw [u.trimUpdate_missRun, hu, State.setServo_trm]
  · rw [State.bit, hrd _ (by simp), hu]
    exact s.bit_setServo _ _ hbit

/-- What a missing second may change before the lock is judged. -/
def missedTouch : Touch := missTouch.and coastTouch

theorem Frame.missCoasted : Frame missedTouch s (s.missCoasted due) := by
  have hcounted : Frame missedTouch s (s.missCounted due) :=
    (Frame.missCounted s due).mono (fun _ hf => List.mem_append_left _ hf) (fun _ ha => List.mem_append_left _ ha)
      (fun _ hb => List.mem_append_left _ hb) (fun _ hm => List.mem_append_left _ hm) (fun _ => rfl)
  have hcoast : ∀ u : State, Frame missedTouch u u.servoCoast := fun u =>
    (Frame.servoCoast u).mono (fun _ hf => List.mem_append_right _ hf) (fun _ ha => List.mem_append_right _ ha)
      (fun _ hb => List.mem_append_right _ hb) (fun _ hm => List.mem_append_right _ hm) (fun _ => rfl)
  unfold State.missCoasted
  refine Frame.trm ?_ _ (by simp [missedTouch, missTouch, Touch.and])
  split
  · exact hcounted.trans (hcoast _)
  · exact hcounted

theorem State.rd_missCoasted {f : Fld} (hlo : f.lo < 32) (hf : ∀ g ∈ missedTouch.flds, g.key ≠ f.key) (ha : f.outside missedTouch.areas) :
    (s.missCoasted due).rd f = s.rd f :=
  (Frame.missCoasted s due).regs f hf hlo ha

theorem State.rd_logSecond (th : Option Int) (f : Fld) : (s.logSecond th).rd f = s.rd f := rfl
theorem State.logSecond_missRun (th : Option Int) : (s.logSecond th).trm.missRun = s.trm.missRun := rfl

theorem State.missCoasted_missRun : (s.missCoasted due).trm.missRun = s.trm.missRun + 1 := by
  obtain ⟨-, -, hrun⟩ := s.missCounted_spec due
  obtain ⟨-, -, hcoast, -⟩ := (s.missCounted due).servoCoast_spec
  rw [State.missCoasted, State.logSecond_missRun]
  split
  · rw [hcoast, hrun]
  · exact hrun

/-- In hardware discipline the servo coasts. -/
theorem State.missCoasted_spec (hhw : s.hwDiscipline = true) : (s.missCoasted due).bit dEvt 1 = true ∧
    (s.missCoasted due).rd dPpsPresent = 0 ∧ (s.missCoasted due).rdS dInteg = satAt s.servoMax (s.rdS dInteg) ∧
    (s.missCoasted due).rdS dServo = satAt s.servoMax (s.rdS dInteg) := by
  obtain ⟨hbit, hpps, -⟩ := s.missCounted_spec due
  obtain ⟨hinteg, hservo, -, hkeeps⟩ := (s.missCounted due).servoCoast_spec
  have hhw' : (s.missCounted due).hwDiscipline = true :=
    (State.hwDiscipline_congr (s.rd_missCounted due (by decide) (by decide))).trans hhw
  have hmax : (s.missCounted due).servoMax = s.servoMax := State.servoMax_congr (s.rd_missCounted due (by decide) (by decide))
  have hI : (s.missCounted due).rdS dInteg = s.rdS dInteg := State.rdS_congr (s.rd_missCounted due (by decide) (by decide))
  have heq : s.missCoasted due = (s.missCounted due).servoCoast.logSecond none := by
    unfold State.missCoasted
    rw [if_pos hhw']
  have hrd : ∀ f, (s.missCoasted due).rd f = (s.missCounted due).servoCoast.rd f := fun f => by rw [heq, State.rd_logSecond]
  refine ⟨?_, ?_, ?_, ?_⟩
  · rw [State.bit, hrd]
    exact hkeeps hbit
  · rw [hrd, (Frame.servoCoast (s.missCounted due)).regs dPpsPresent (by decide) (by decide) (by unfold Fld.outside; decide), hpps]
  · rw [State.rdS_congr (hrd _), hinteg, hmax, hI]
  · rw [State.rdS_congr (hrd _), hservo, hmax, hI]

theorem exec_missingSecond (hrun : s.running = true) : exec .missingSecond s = .next s.missingSecond :=
  congrArg Host.Outcome.next (if_pos hrun)

/-- A missing second short of LOSS_N, in hardware discipline. -/
theorem missingSecond_counts (hrun : s.running = true) (hsrc : s.rd dSrc ≠ 0) (hheld : s.trm.held = none) (hdue : s.trm.due = none)
    (hloss : s.trm.missRun + 1 < s.rd dLossN) (hhw : s.hwDiscipline = true) : After .missingSecond s fun t =>
      t.bit dEvt 1 = true ∧ t.rd dPpsPresent = 0 ∧ t.trm.missRun = s.trm.missRun + 1 ∧ t.mode = s.mode ∧
      t.rdS dInteg = satAt s.servoMax (s.rdS dInteg) ∧ t.rdS dServo = satAt s.servoMax (s.rdS dInteg) := by
  obtain ⟨due, heq⟩ := s.missingSecond_eq hsrc hheld hdue
  obtain ⟨hbit, hpps, hinteg, hservo⟩ := s.missCoasted_spec due hhw
  have hmiss := s.missCoasted_missRun due
  have hlossN := s.rd_missCoasted due (f := dLossN) (by decide) (by decide) (by unfold Fld.outside; decide)
  have hmode := s.rd_missCoasted due (f := glbMode) (by decide) (by decide) (by unfold Fld.outside; decide)
  rw [if_neg (by rw [hlossN, hmiss]; omega)] at heq
  refine ⟨s.missingSecond, exec_missingSecond s hrun, ?_⟩
  rw [heq]
  exact ⟨hbit, hpps, hmiss, hmode, hinteg, hservo⟩

/-- The LOSS_N-th missing second in a row ends the lock of M5 with cause 1 (R294). -/
theorem missingSecond_unlocks (hrun : s.running = true) (hsrc : s.rd dSrc ≠ 0) (hheld : s.trm.held = none) (hdue : s.trm.due = none)
    (hloss : s.rd dLossN ≤ s.trm.missRun + 1) (hm : s.mode = 5) : After .missingSecond s fun t =>
      t.mode = 6 ∧ t.rd glbPrev = 5 ∧ t.rd dLastUnlock = 1 ∧ t.rd dState = 3 ∧ t.rd dHoldTime = 0 ∧ t.latched 477 := by
  obtain ⟨due, heq⟩ := s.missingSecond_eq hsrc hheld hdue
  have hmiss := s.missCoasted_missRun due
  have hlossN := s.rd_missCoasted due (f := dLossN) (by decide) (by decide) (by unfold Fld.outside; decide)
  have hmode := s.rd_missCoasted due (f := glbMode) (by decide) (by decide) (by unfold Fld.outside; decide)
  rw [if_pos (by rw [hlossN, hmiss]; omega)] at heq
  refine ⟨s.missingSecond, exec_missingSecond s hrun, ?_⟩
  rw [heq]
  exact ((s.missCoasted due).unlock_spec 1 (by omega) (hmode.trans hm)).2

end

/-! ### Commands (R298, R303) -/

section
variable (slot : Slot) (s : State) (hs : s.ready slot.val = true) (hsec : s.secure slot.val = true)
include hs hsec

theorem declareLock_locks (hsw : s.on dMode = true) (hslew : s.on htmSlewActive = false) (hm : s.mode = 4 ∨ s.mode = 6) :
    Answers (.declareLock slot) slot .done s { flds := [dState, glbPrev, glbMode, iLatch 14, iLatch 15], blks := [.glb] } fun t =>
      t.mode = 5 ∧ t.rd glbPrev = s.mode ∧ t.rd dState = 2 ∧ t.latched 476 := by
  have hmode := s.mode_marked slot.val
  have hop : opDeclareLock slot (s.marked slot.val) = (.done, (s.marked slot.val).lock) := by
    rw [opDeclareLock, secureOnly_of_secure _ _ _ ((s.secure_marked _).trans hsec), State.hwDiscipline,
      s.on_marked_below _ (by unfold Fld.belowHst; decide), s.on_marked_below _ (by unfold Fld.belowHst; decide), hmode, hsw, hslew]
    rcases hm with hm | hm <;> simp [hm]
  obtain ⟨hframe, h5, hprev, hstate, hlatched⟩ := (s.marked slot.val).lock_spec (by rwa [hmode])
  refine Answers.of_host rfl hs _ hop hframe (by unfold Fld.belowHst; decide) rfl ⟨?_, ?_, ?_, ?_⟩
  · exact (State.rd_finish_below slot .done _ [] (by unfold Fld.belowHst; decide)).trans h5
  · rw [State.rd_finish_below slot .done _ [] (by unfold Fld.belowHst; decide), hprev, hmode]
  · rw [State.rd_finish_below slot .done _ [] (by unfold Fld.belowHst; decide), hstate]
  · exact hlatched.finish slot .done (by unfold Fld.belowHst; decide)

theorem declareLock_notInMode (h : s.on dMode = false ∨ s.on htmSlewActive = true ∨ (s.mode ≠ 4 ∧ s.mode ≠ 6)) :
    Refused (.declareLock slot) slot .notInMode s := by
  refine Refused.of_host (op := opDeclareLock slot) rfl hs ?_
  rw [opDeclareLock, secureOnly_of_secure _ _ _ ((s.secure_marked _).trans hsec), State.hwDiscipline,
    s.on_marked_below _ (by unfold Fld.belowHst; decide), s.on_marked_below _ (by unfold Fld.belowHst; decide), s.mode_marked]
  rcases h with h | h | ⟨h4, h6⟩
  · simp [h]
  · simp [h]
  · simp [h4, h6]

/-- DECLARE_UNLOCK ends the lock of M5 with cause 5, and its run of edges. -/
theorem declareUnlock_unlocks (hm : s.mode = 5) : Answers (.declareUnlock slot) slot .done s
      { flds := [dLockRun, dLastUnlock, dState, dHoldFreq, dHoldTime, dHoldUnc, dInteg, dServo, dEvt, tLearning, glbPrev, glbMode,
          iLatch 14, iLatch 15], blks := [.trm, .glb] } fun t =>
      t.mode = 6 ∧ t.rd dLastUnlock = 5 ∧ t.rd dHoldTime = 0 ∧ t.latched 477 := by
  obtain ⟨u, hu⟩ : ∃ u : State, u = { (s.marked slot.val).wr dLockRun 0 with trm := { (s.marked slot.val).trm with okRun := 0 } } := ⟨_, rfl⟩
  have hop : opDeclareUnlock slot (s.marked slot.val) = (.done, u.unlock 5) := by
    rw [opDeclareUnlock, secureOnly_of_secure _ _ _ ((s.secure_marked _).trans hsec), s.mode_marked, hm, hu]
    rfl
  have hmu : u.mode = 5 := by
    rw [hu]
    exact (State.rd_wr_ne (s.marked slot.val) (f := dLockRun) (g := glbMode) (by decide) 0).trans ((s.mode_marked _).trans hm)
  obtain ⟨hframe, h6, -, hcause, -, htime, hlatched⟩ := u.unlock_spec 5 (by omega) hmu
  refine Answers.of_host rfl hs _ hop (Frame.trans ?_ (Frame.mono (v := unlockTouch) (fun _ hf => List.mem_cons_of_mem _ hf) (fun _ h => h)
    (fun _ h => h) (fun _ h => h) id hframe)) (by unfold Fld.belowHst; decide) rfl ⟨?_, ?_, ?_, ?_⟩
  · rw [hu]
    exact ((Frame.refl _ _).wr dLockRun 0 (by simp)).trm _ (by simp)
  · exact (State.rd_finish_below slot .done _ [] (by unfold Fld.belowHst; decide)).trans h6
  · rw [State.rd_finish_below slot .done _ [] (by unfold Fld.belowHst; decide), hcause]
  · rw [State.rd_finish_below slot .done _ [] (by unfold Fld.belowHst; decide), htime]
  · exact hlatched.finish slot .done (by unfold Fld.belowHst; decide)

theorem declareUnlock_notInMode (hm : s.mode ≠ 5) : Refused (.declareUnlock slot) slot .notInMode s := by
  refine Refused.of_host (op := opDeclareUnlock slot) rfl hs ?_
  rw [opDeclareUnlock, secureOnly_of_secure _ _ _ ((s.secure_marked _).trans hsec), s.mode_marked, if_pos hm]

theorem integClear_clears : Answers (.integClear slot) slot .done s { flds := [dInteg] } fun t => t.rd dInteg = 0 := by
  have hop : opIntegClear slot (s.marked slot.val) = (.done, (s.marked slot.val).wr dInteg 0) := by
    rw [opIntegClear, secureOnly_of_secure _ _ _ ((s.secure_marked _).trans hsec)]
  refine Answers.of_host rfl hs _ hop ((Frame.refl _ _).wr _ _ (by simp)) (by unfold Fld.belowHst; decide) rfl ?_
  rw [State.rd_finish_below slot .done _ [] (by unfold Fld.belowHst; decide), State.rd_wr_same]
  rfl

end

/-- A slot that is not secure may declare nothing (R298, R303). -/
theorem discipline_secureOnly (slot : Slot) (s : State) (hs : s.ready slot.val = true) (hsec : s.secure slot.val = false) :
    ∀ i ∈ [Instr.declareLock slot, .declareUnlock slot, .integClear slot], Refused i slot .secureOnly s := by
  simp only [List.forall_mem_cons]
  refine ⟨?_, ?_, ?_, by simp⟩
  all_goals exact Refused.secureOnly _ rfl hs hsec

/-! ### Seconds of holdover (R300, R301) -/

section
variable (s : State)

/-- The hub with the time and the uncertainty of the next second of holdover. -/
def State.heldOn : State :=
  (s.wr dHoldTime (s.rd dHoldTime + 1)).wr dHoldUnc (min (2 ^ 32 - 1) (roundDiv (s.holdUnc (s.rd dHoldTime + 1)) (2 ^ 16)))

theorem State.rd_heldOn {f : Fld} (h1 : dHoldTime.key ≠ f.key) (h2 : dHoldUnc.key ≠ f.key) : s.heldOn.rd f = s.rd f := by
  rw [State.heldOn, State.rd_wr_ne _ h2, State.rd_wr_ne _ h1]

theorem Frame.heldOn {w : Touch} (ht : dHoldTime ∈ w.flds) (hu : dHoldUnc ∈ w.flds) : Frame w s s.heldOn :=
  ((Frame.refl w s).wr _ _ ht).wr _ _ hu

theorem State.holdSecond_eq : s.holdSecond =
    if s.rd dHoldLimit * 2 ^ 16 < s.holdUnc (s.rd dHoldTime + 1) then s.heldOn.holdExit 7
    else if s.rd dHoldMax ≠ 0 ∧ s.rd dHoldMax < s.rd dHoldTime + 1 then s.heldOn.holdExit 6 else s.heldOn := by
  rw [← s.rd_heldOn (f := dHoldLimit) (by decide) (by decide), ← s.rd_heldOn (f := dHoldMax) (by decide) (by decide)]
  rfl

variable (hrun : s.running = true) (hm : s.mode = 6)
include hrun hm

theorem exec_holdoverSecond : exec .holdoverSecond s = .next s.holdSecond :=
  congrArg Host.Outcome.next (if_pos (by simp [hrun, hm]))

theorem holdoverSecond_goesOn (hlimit : s.holdUnc (s.rd dHoldTime + 1) ≤ s.rd dHoldLimit * 2 ^ 16)
    (hmax : s.rd dHoldTime + 1 ≤ s.rd dHoldMax) : Happens .holdoverSecond s { flds := [dHoldTime, dHoldUnc] } fun t =>
      t.rd dHoldTime = (s.rd dHoldTime + 1) % 2 ^ 32 ∧
      t.rd dHoldUnc = min (2 ^ 32 - 1) (roundDiv (s.holdUnc (s.rd dHoldTime + 1)) (2 ^ 16)) := by
  refine ⟨s.heldOn, ?_, Frame.heldOn s (by simp) (by simp), ?_, ?_⟩
  · rw [exec_holdoverSecond s hrun hm, s.holdSecond_eq, if_neg (by omega), if_neg (by omega)]
  · rw [State.heldOn, State.rd_wr_ne _ (by decide), State.rd_wr_same]
    rfl
  · rw [State.heldOn, State.rd_wr_same]
    exact Nat.mod_eq_of_lt (Nat.lt_of_le_of_lt (Nat.min_le_left _ _) (by decide))

/-- A second with which holdover ends. -/
theorem holdoverSecond_ends (c : Nat) (hc : c < 16) (heq : s.holdSecond = s.heldOn.holdExit c) : Happens .holdoverSecond s
      { flds := [dHoldTime, dHoldUnc, dLastUnlock, dState, glbPrev, glbMode, iLatch 14, iLatch 15], blks := [.glb] } fun t =>
      t.mode = 4 ∧ t.rd dLastUnlock = c ∧ t.latched 477 := by
  have hmode : s.heldOn.mode = 6 := (s.rd_heldOn (by decide) (by decide)).trans hm
  obtain ⟨hframe, h4, hcause, hlatched⟩ := s.heldOn.holdExit_spec c hc hmode
  refine ⟨_, (exec_holdoverSecond s hrun hm).trans (by rw [heq]), (Frame.heldOn s (by simp) (by simp)).trans ?_, h4, hcause, hlatched⟩
  exact Frame.mono (v := { lockTouch with flds := dLastUnlock :: lockTouch.flds })
    (fun _ hf => List.mem_cons_of_mem _ (List.mem_cons_of_mem _ hf)) (fun _ h => h) (fun _ h => h) (fun _ h => h) id hframe

end

/-- Settles O24: a missing second, a command of discipline and a second of holdover each meet their case by what they find. -/
theorem unlockAndHoldover : Obligations.UnlockAndHoldover := by
  unfold Obligations.UnlockAndHoldover
  intro slot s
  refine ⟨fun hrun hsrc hheld hdue => ⟨?_, ?_⟩, fun hs hsec _ => ⟨?_, ?_, ?_, ?_, ?_⟩, ?_, fun hrun hm => ⟨?_, ?_, ?_⟩⟩
  · exact missingSecond_counts s hrun hsrc hheld hdue
  · exact missingSecond_unlocks s hrun hsrc hheld hdue
  · exact declareLock_locks slot s hs hsec
  · exact declareLock_notInMode slot s hs hsec
  · exact declareUnlock_unlocks slot s hs hsec
  · exact declareUnlock_notInMode slot s hs hsec
  · exact integClear_clears slot s hs hsec
  · exact discipline_secureOnly slot s
  · exact holdoverSecond_goesOn s hrun hm
  · exact fun hlimit => holdoverSecond_ends s hrun hm 7 (by omega) (by rw [s.holdSecond_eq, if_pos hlimit])
  · exact fun hlimit hmax htime => holdoverSecond_ends s hrun hm 6 (by omega)
      (by rw [s.holdSecond_eq, if_neg (by omega), if_pos ⟨hmax, htime⟩])

end Sys2Proof.Machine
end

section
/-! SUPPORT. The statements on the timeline that fail, each at a state of the hub that the model runs. -/

namespace Sys2Proof.Machine

open F

/-- The hub in M4, its clock running on a locked PLL, with the bank of port 0 powered, so that the secure slot 0 is served. -/
def runningInM4 : State :=
  { State.reset.wr glbMode 4 with
    htm := { HtmS.init with mclk := true, pll := true, frozen := false, first := false }
    hst := { HstS.init with bank33 := [(0, 2)] } }

/-! ### A pulse that ends in a collision -/

/-- Output 0 follows timer 0 and is slot 0's. An edge came 4 ns before the end of the timer's pulse, which moves the trailing edge to 8 ns
behind it (R364), and a further edge is committed behind that. A NAP waits for its freeze edge, and the raw keep tick has come. -/
def pulseToCollide : State :=
  { ((((runningInM4.wr kOscRunning 1).wr (hOwner (idTou 0)) 0).wr (oEn 0) 1).wr (oSrc 0) 1) with
    htm := { HtmS.init with mclk := true, pll := true, frozen := false, first := false, time := 102 * nsU }
    glb := { GlbS.init with freezeReq := some .nap, freezeTick := true }
    keep := { KeepS.init with pair := some { n := 0, f := 0, h := 102 * nsU, set := false, at_ := 102 * nsU } }
    tou := { TouS.init with outs := [(0, { TouOut.init with
      came := some (100 * nsU), trail := some (104 * nsU), trailOf := some 0
      line := [{ t := 120 * nsU, action := 1, width := 0, timer := some 0 }] })] } }

/-- In the state after, COLLIDE of timer 0 has set (R439). -/
def setsCollide (i : Instr) (s : State) : Bool := match exec i s with | .next t => t.rd (gEvt 0) == 2 ^ 10 | _ => true

theorem freeze_setsCollide : setsCollide .freeze pulseToCollide = true := by decide
theorem pllUnlock_setsCollide : setsCollide .pllUnlock pulseToCollide = true := by decide
theorem touCtrlWrite_setsCollide : setsCollide (.touCtrlWrite 0 0 0x20000000) pulseToCollide = true := by decide

/-- A frame without the timer's flags does not hold where the command lets the committed edges come: COLLIDE was clear. -/
theorem Frame.not_setsCollide {i : Instr} {w : Touch} {t : State} (ht : exec i pulseToCollide = .next t)
    (hi : setsCollide i pulseToCollide = true) (hw : ∀ g ∈ w.flds, g.key ≠ (gEvt 0).key) (ha : (gEvt 0).outside w.areas) :
    ¬ Frame w pulseToCollide t := by
  intro hframe
  have hset : t.rd (gEvt 0) = 2 ^ 10 := by simpa [setsCollide, ht] using hi
  have hclear : pulseToCollide.rd (gEvt 0) = 0 := by decide
  have hkept := hframe.regs (gEvt 0) hw (by decide) ha
  omega

/-- Refutes O6: at a freeze every committed edge of a timed output comes (R372). One that comes behind a moved trailing edge of a timer's
pulse sets the timer's COLLIDE (R439), which the frame of a freeze does not name. -/
theorem not_freezeAndThawCarryTime : ¬ Obligations.FreezeAndThawCarryTime := by
  unfold Obligations.FreezeAndThawCarryTime
  intro h
  obtain ⟨hfreeze, -⟩ := h pulseToCollide 0
  obtain ⟨-, hnap, -⟩ := hfreeze .nap (by decide) (by decide) (by decide) (by decide) (by decide) (by decide)
  obtain ⟨t, ht, hframe, -⟩ := hnap rfl
  exact Frame.not_setsCollide ht freeze_setsCollide (by decide) (by unfold Fld.outside; decide) hframe

/-- Refutes O5: a loss of lock freezes the timeline too, so that the same edges come, with the same COLLIDE. -/
theorem not_planSwitchAndPll : ¬ Obligations.PlanSwitchAndPll := by
  unfold Obligations.PlanSwitchAndPll
  intro h
  obtain ⟨-, -, -, -, -, hunlock, -⟩ := h 0 pulseToCollide
  obtain ⟨t, ht, hframe, -⟩ := hunlock (by decide) (by decide) (by decide)
  exact Frame.not_setsCollide ht pllUnlock_setsCollide (by decide) (by unfold Fld.outside; decide) hframe

/-- Refutes O28: EN 0 lets the committed edges happen (R376), those of a timer that SRC routes to the output among them, so that it may set
the timer's COLLIDE, which the frame of the write does not name. -/
theorem not_timedOutputEntries : ¬ Obligations.TimedOutputEntries := by
  unfold Obligations.TimedOutputEntries
  intro h
  obtain ⟨howner, -⟩ := h 0 0 0 0x20000000 0 pulseToCollide (by decide)
  obtain ⟨-, -, -, -, -, -, -, -, hdisable, -⟩ := howner (by decide)
  obtain ⟨t, ht, hserved, -⟩ := hdisable (by decide) (by decide) (by decide) .done (by decide) (by decide)
  exact Frame.not_setsCollide ht touCtrlWrite_setsCollide (by decide) (by unfold Fld.outside; decide) hserved.frame

/-! ### A label that ends the lock -/

/-- The hub locked in M5 to PPSIN with ZDA labels behind their edges. The labels of two edges have disagreed, and the third edge, an outlier
at second 0, waits for its label. -/
def outlierToLabel : State :=
  { ((((runningInM4.wr glbMode 5).wr dState 2).wr dSrc 1).wr htmTimeSet 1) with
    trm := { TrmS.init with
      todRun := 2, held := some { kind := 1, t := 0, n := 0, theta := 2001 * 2 ^ 16, outlier := true, discard := false } } }

/-- GPZDA of midnight of 1 January 2020. -/
def zdaOf2020 : List Byte :=
  [36, 71, 80, 90, 68, 65, 44, 48, 48, 48, 48, 48, 48, 44, 48, 49, 44, 48, 49, 44, 50, 48, 50, 48, 44, 48, 48, 44, 48, 48, 42, 52, 56]

theorem zdaSentence_unlocks (t : State) (ht : exec (.zdaSentence zdaOf2020) outlierToLabel = .next t) : t.rd glbMode = 6 := by
  have h : (match exec (.zdaSentence zdaOf2020) outlierToLabel with | .next t => t.rd glbMode == 6 | _ => true) = true := by decide
  simpa [ht] using h

/-- Refutes O23: a label that disagrees with an outlier counts as every other, and the third in a row ends the lock with cause 3 (R294), which
changes the mode; the frame of the label names the record and the flags of the label alone. -/
theorem not_disciplineServoAndLock : ¬ Obligations.DisciplineServoAndLock := by
  unfold Obligations.DisciplineServoAndLock
  intro h
  obtain ⟨-, hzda, -⟩ := h 0 zdaOf2020 outlierToLabel (by decide)
  obtain ⟨-, -, hlabel⟩ := hzda 2020 1 1 0 0 0 1577836837 (by decide) (by decide) (by decide) (by decide) (by decide)
  obtain ⟨t, ht, hframe, -⟩ := hlabel (by decide) _ (List.mem_singleton.2 rfl) rfl
  have hkept : t.rd glbMode = outlierToLabel.rd glbMode := hframe.regs glbMode (by decide) (by decide) (by unfold Fld.outside; decide)
  rw [zdaSentence_unlocks t ht] at hkept
  exact absurd hkept (by decide)

/-! ### An increment outside R24 -/

/-- A slew by nothing has started while HTM_INCR lies one below the range of R24. The first thaw after a cold start takes a stored increment
whatever it is (`State.coldIncr`). -/
def slewAtLowIncr : State :=
  { runningInM4.wr htmSlewActive 1 with
    htm := { HtmS.init with mclk := true, pll := true, frozen := false, first := false, incr := incrMin - 1, slewLeft := 0, slewRate := 100 } }

theorem slewDone_clamps (t : State) (ht : exec .slewDone slewAtLowIncr = .next t) : t.htm.time = incrMin := by
  have h : (match exec .slewDone slewAtLowIncr with | .next t => t.htm.time == incrMin | _ => true) = true := by decide
  simpa [ht] using h

/-- Refutes O2: in a slew's last cycle Hub Time moves by the increment clamped to R24 and the remainder (R25), not by an increment outside
R24 as it stands. -/
theorem not_timelineMoves : ¬ Obligations.TimelineMoves := by
  unfold Obligations.TimelineMoves
  intro h
  obtain ⟨-, -, hslew⟩ := h 0 slewAtLowIncr
  obtain ⟨t, ht, -, htime, -⟩ := hslew (by decide) (by decide) (by decide)
  rw [slewDone_clamps t ht] at htime
  exact absurd htime (by decide)

/-! ### A stamp group beyond its width -/

/-- STGRP of slot 0 holds 0x1778, more than its 3 bits. No write leaves a field so (`State.wr` truncates), but the statement speaks of every
`State`. The ring of that group would have its WIDX where slot 0 has its last result. -/
def stampGroupBeyondWidth : State :=
  { runningInM4 with regs := [(glbMode.key, 4), ((hStgrp 0).key, 0x1778), ((rEn 0x1780).key, 1)] }

/-- WIDX of that ring and the last result of slot 0 stand at one address. -/
theorem rd_rWidx_eq_hLast (t : State) : t.rd (rWidx 0x1780) = t.rd (hLast 0) := rfl

/-- Refutes O4: WIDX of the ring is to pass the quill, and the slot's last result is to be DONE, which one field cannot show. -/
theorem not_selfCaptureAndIncrement : ¬ Obligations.SelfCaptureAndIncrement := by
  unfold Obligations.SelfCaptureAndIncrement
  intro h
  obtain ⟨hcapture, -⟩ := h 0 0 stampGroupBeyondWidth (by decide)
  have hnone : stampGroupBeyondWidth.ended = [] := rfl
  obtain ⟨t, -, hserved, ⟨hwidx, -⟩, -⟩ := hcapture (by decide) (by decide) 0 (fun was hm => by simp [hnone] at hm) (fun _ => by decide)
  have hlast : t.rd (hLast 0) = Code.done.val := hserved.last (by decide)
  have hpast : t.rd (rWidx 0x1780) = 16 := hwidx
  rw [rd_rWidx_eq_hLast, hlast] at hpast
  exact absurd hpast (by decide)

end Sys2Proof.Machine
end

section
/-! SUPPORT. The statements on the sequencer that fail because a host reset writes the Shared Buffer: the reset of the target that a slot alone
is bound to first writes a record that the ICU has assigned (R491, R492), which no frame of the sequencer names. -/

namespace Sys2Proof.Machine

open F

/-- The hub in M4. Slot 1 is bound to rail group 1, and alone to target 1, whose ring lies as in the default Rack; the ICU has assigned a
record to that target and has not written it yet (R479). -/
def recordAssigned : State :=
  { ((runningInM4.wr (hGrpEn 1) 1).wr (hGroup 1) 1).defaultRing 1 with
    icu := { IcuS.init with asg := [{ tgt := 1, src := 1, prio := 0 }] } }

/-- Where the record's first byte, its source number, comes to lie. -/
def recordAt : Nat := 0x100

/-- In the state after, the record stands in the Shared Buffer. -/
def writesRecord (i : Instr) (s : State) : Bool := match exec i s with | .next t => t.sbyte recordAt == 1 | _ => false

/-- A frame without bytes does not hold where the command writes the record into an empty buffer. -/
theorem Frame.not_writesRecord {i : Instr} {w : Touch} {s t : State} (ht : exec i s = .next t) (hi : writesRecord i s = true)
    (hs : s.sbuf = []) (hany : w.anyByte = false) (hbytes : w.bytes = []) : ¬ Frame w s t := by
  intro hframe
  have hwritten : t.sbyte recordAt = 1 := by simpa [writesRecord, ht] using hi
  have hempty : s.sbyte recordAt = 0 := by simp [State.sbyte, hs, Assoc.get, Assoc.find]
  have hkept := hframe.mem hany recordAt (by decide) (by simp [hbytes])
  rw [hwritten, hempty] at hkept
  exact absurd hkept (by decide)

/-! ### A group that goes down -/

/-- The hub at on-rest with group 1 up, which is rail 4 of step 15; HRST0_N is bound to the group, and released. -/
def groupOneUp : State :=
  { ((((((recordAssigned.wr (qa (qHrstEn 0)) 1).wr (qa (qHrstGroup 0)) 1).wr (qa (qRailStep 4)) 15).wr (qa (qGroup 4)) 1).wr (qState 4) 3).wr
      qGrpUp 2).wr qKind 2 with
    seq := { SeqS.init with pullDown := false } }

/-- The same, where SEQDOWN_N has gone low, so that step 15 starts down (R145). -/
def stepFifteenDown : State := { groupOneUp with seq := { SeqS.init with next := some (true, 15) } }

theorem stageStart_writesRecord : writesRecord .stageStart stepFifteenDown = true := by decide +kernel
theorem groupDown_writesRecord : writesRecord (.groupDown 0 1) groupOneUp = true := by decide +kernel

/-- Refutes O14: a down stage disables the rail of group 1 at once, so that HRST0_N goes low, which is a host reset of slot 1 (R173); the
record assigned to its target is then written (R491), and the frame of the stage names no byte of the Shared Buffer. -/
theorem not_stagesFollowTheLines : ¬ Obligations.StagesFollowTheLines := by
  unfold Obligations.StagesFollowTheLines
  intro h
  obtain ⟨-, -, -, hdown, -⟩ := h false 0 [] stepFifteenDown
  obtain ⟨-, hlowers, -⟩ := hdown (true, 15) (by decide) (by decide) (by decide) rfl (by decide)
  obtain ⟨t, ht, hframe, -⟩ := hlowers (by decide)
  exact Frame.not_writesRecord ht stageStart_writesRecord rfl rfl rfl hframe

/-- Refutes O17: GROUP_DOWN lowers the rail of group 1 at once, with the same host reset and the same record. -/
theorem not_groupsAreDemanded : ¬ Obligations.GroupsAreDemanded := by
  unfold Obligations.GroupsAreDemanded
  intro h
  obtain ⟨hgroup, -⟩ := h 0 1 0 0 groupOneUp
  obtain ⟨-, -, -, hrest⟩ := hgroup (by decide) (by decide)
  obtain ⟨-, hlowers⟩ := hrest (by decide) (by decide) (by decide)
  obtain ⟨t, ht, hserved, -⟩ := hlowers (by decide)
  exact Frame.not_writesRecord ht groupDown_writesRecord rfl rfl rfl hserved.frame

/-! ### A plan that binds a host reset -/

/-- At on-rest the secure slot 0 holds the plan lease, and its staged plan binds HRST0_N to group 1, which has no rail and is not up. -/
def hrstStaged : State := (((recordAssigned.wr (qHrstEn 0) 1).wr (qHrstGroup 0) 1).wr (hOwner idPlan) 0).wr qKind 2

theorem commit_writesRecord : writesRecord (.commit 0) hrstStaged = true := by decide +kernel

/-- Refutes O18: the committed plan holds HRST0_N low, a host reset of slot 1 (R173), with the same record; the frame of COMMIT names no
byte of the Shared Buffer. -/
theorem not_planAndGates : ¬ Obligations.PlanAndGates := by
  unfold Obligations.PlanAndGates
  intro h
  obtain ⟨hready, -⟩ := h 0 0 hrstStaged
  obtain ⟨howner, -⟩ := hready (by decide) (by decide)
  obtain ⟨hcommit, -⟩ := howner (by decide)
  obtain ⟨t, ht, hserved, -⟩ := hcommit (by decide) (by decide) (by decide)
  exact Frame.not_writesRecord ht commit_writesRecord rfl rfl rfl hserved.frame

/-! ### A host reset that is still to be held -/

/-- HRST0_N is bound to group 1, which is not up, and is not held low yet. The hub asserts it with the plan that binds it, but the
statements speak of every `State`, and there the next happening of the sequencer asserts it. -/
def hrstToHold : State := (recordAssigned.wr (qa (qHrstEn 0)) 1).wr (qa (qHrstGroup 0)) 1

/-- Rail 4 of step 2, in group 0, ramps, and the scan has come to it. -/
def railFourRamps : State :=
  { (hrstToHold.wr (qa (qRailStep 4)) 2).wr (qState 4) 2 with mon := { MonS.init with slot := 4 } }

/-- The same in M9, with the main domain down, and MR_N still low. The loss of the main domain takes assigned records with it
(`State.mainOff`), but again the statement speaks of every `State`. -/
def resetPressed : State :=
  { hrstToHold.wr glbMode 9 with glb := { GlbS.init with mainUp := false }, seq := { SeqS.init with mrLow := true } }

theorem scanConversion_writesRecord : writesRecord (.scanConversion 0 false) railFourRamps = true := by decide +kernel
theorem mrRelease_writesRecord : writesRecord .mrRelease resetPressed = true := by decide +kernel

/-- Refutes O19: a reading that takes a rail up moves the sequencer, which holds a host reset of a group that is not up (R173), with the same
record; the frame of a conversion names no byte of the Shared Buffer. -/
theorem not_scanJudgesAndRecords : ¬ Obligations.ScanJudgesAndRecords := by
  unfold Obligations.ScanJudgesAndRecords
  intro h
  obtain ⟨hruns, -⟩ := h 0 false 0 0 railFourRamps
  obtain ⟨hslot, -⟩ := hruns (by decide)
  obtain ⟨t, ht, hframe, -⟩ := hslot (by decide) rfl
  exact Frame.not_writesRecord ht scanConversion_writesRecord rfl rfl rfl hframe

/-- Refutes O15: the release of MR_N leads to off-rest, where the sequencer holds the host reset likewise, with the same record. -/
theorem not_restsAndStarts : ¬ Obligations.RestsAndStarts := by
  unfold Obligations.RestsAndStarts
  intro h
  obtain ⟨-, hm9, -⟩ := h false .other resetPressed
  obtain ⟨-, hrelease, -⟩ := hm9 (by decide) rfl
  obtain ⟨t, ht, hframe, -⟩ := hrelease
  exact Frame.not_writesRecord ht mrRelease_writesRecord rfl rfl rfl hframe

end Sys2Proof.Machine
end

section
/-! SUPPORT. The statements on the sequencer that fail because the NAP of the cycle loses to the hub's going down (R722). -/

namespace Sys2Proof.Machine

open F

/-- The hub in M4, where the secure slot 0 has given NAP in the present cycle. -/
def nappedInM4 : State :=
  { runningInM4 with ended := [.napped 0], glb := { GlbS.init with freezeReq := some .nap } }

/-- In the state after, the NAP is no longer among what has completed in the cycle. -/
def undoesNap (i : Instr) : Bool := match exec i nappedInM4 with | .next t => t.ended == [] | _ => false

theorem pbLong_undoesNap : undoesNap (.pbLong 0) = true := by decide +kernel
theorem brownOut_undoesNap : undoesNap .brownOut = true := by decide +kernel

/-- A frame that leaves what has completed in the cycle does not hold where the command takes the NAP back. -/
theorem Frame.not_undoesNap {i : Instr} {w : Touch} {t : State} (ht : exec i nappedInM4 = .next t) (hi : undoesNap i = true)
    (hw : Blk.ended ∉ w.blks) : ¬ Frame w nappedInM4 t := by
  intro hframe
  have hundone : t.ended = [] := by simpa [undoesNap, ht] using hi
  have hkept : t.ended = nappedInM4.ended := hframe.blks .ended hw hw
  rw [hundone] at hkept
  exact absurd hkept (by decide)

/-- Refutes O13: an all-off takes the NAP of its cycle back, which ends with NOT_IN_MODE (R722); the frame of an all-off names neither the
answer nor what has completed in the cycle. -/
theorem not_railsAreJudged : ¬ Obligations.RailsAreJudged := by
  unfold Obligations.RailsAreJudged
  intro h
  obtain ⟨-, -, hoff⟩ := h 0 0 false 0 nappedInM4
  obtain ⟨hcauses, -⟩ := hoff (by decide) (by decide)
  obtain ⟨t, ht, hframe, -⟩ := hcauses (.pbLong 0, 4) (by simp) (by decide) (by decide)
  exact Frame.not_undoesNap ht pbLong_undoesNap (by decide) hframe

/-- Refutes O16: a brown-out takes the NAP of its cycle back likewise. -/
theorem not_buttonAndInput : ¬ Obligations.ButtonAndInput := by
  unfold Obligations.ButtonAndInput
  intro h
  obtain ⟨-, -, -, -, -, -, hbrown⟩ := h nappedInM4
  obtain ⟨t, ht, hframe, -⟩ := hbrown (by decide) (by decide)
  exact Frame.not_undoesNap ht brownOut_undoesNap (by decide) hframe

end Sys2Proof.Machine
end

section
/-! SUPPORT. The statement on leases fails at an active field beyond its width. -/

namespace Sys2Proof.Machine

open F

/-- The secure slot 0 holds the lease of sweep 0, whose active MODE holds 2, more than its one bit. No write leaves a field so (`State.wr`
truncates), but the statement speaks of every `State`. -/
def sweepModeBeyondWidth : State :=
  { runningInM4 with
    regs := [(glbMode.key, 4), (glbStewardReady.key, 1), ((wa (wMode 0)).key, 2), ((hOwner (idSweep 0)).key, 0)] }

theorem leaseRelease_differs (t : State) (ht : exec (.leaseRelease 0 0x40) sweepModeBeyondWidth = .next t) :
    t.differs wa (sweepFlds 0) = true := by
  have h : (match exec (.leaseRelease 0 0x40) sweepModeBeyondWidth with | .next t => t.differs wa (sweepFlds 0) | _ => true) = true := by
    decide +kernel
  simpa [ht] using h

/-- Refutes O43: where the lease ends, the staged MODE takes the active one truncated to its width, and so differs from it. -/
theorem not_leasesNameOneOwner : ¬ Obligations.LeasesNameOneOwner := by
  unfold Obligations.LeasesNameOneOwner
  intro h
  obtain ⟨-, -, -, hserved, -⟩ := h 0 0x40 0 sweepModeBeyondWidth
  obtain ⟨-, -, -, -, hrelease, -⟩ := hserved (by decide) (by decide) (by decide)
  obtain ⟨t, ht, -, hended⟩ := hrelease (by decide)
  obtain ⟨-, -, -, -, -, -, hsweep, -⟩ := hended
  have hsame : t.differs wa (sweepFlds 0) = false := hsweep (by decide) (by decide)
  rw [leaseRelease_differs t ht] at hsame
  exact absurd hsame (by decide)

end Sys2Proof.Machine
end

section
/-! SUPPORT. The words of a Mortar entry and its CRC, and how they come into the log (R204, R206, R207, R211, R212). -/

namespace Sys2Proof.Machine

open F

/-! ### CRC-32 (R206) -/

theorem crcBit_lt {c : Nat} (h : c < 2 ^ 32) : crcBit c < 2 ^ 32 := by
  unfold crcBit
  split
  · exact Nat.xor_lt_two_pow (by omega) (by decide)
  · omega

theorem crcByte_lt {c : Nat} (b : Nat) (h : c < 2 ^ 32) : crcByte c b < 2 ^ 32 := by
  unfold crcByte
  iterate 8 apply crcBit_lt
  exact Nat.xor_lt_two_pow h (by omega)

theorem crc32_lt (bs : List Nat) : crc32 bs < 2 ^ 32 := by
  have hfold : ∀ c < 2 ^ 32, bs.foldl crcByte c < 2 ^ 32 := by
    induction bs with
    | nil => exact fun c hc => hc
    | cons b t ih => exact fun c hc => ih _ (crcByte_lt b hc)
  exact Nat.xor_lt_two_pow (hfold _ (by decide)) (by decide)

/-- The bytes of a word are those of its low 32 bits. -/
theorem bytesOf_words_mod (ws : List Nat) : bytesOf (ws.map (· % 2 ^ 32)) = bytesOf ws := by
  induction ws with
  | nil => rfl
  | cons w t ih =>
    have hbytes : w % 2 ^ 32 % 256 = w % 256 ∧ w % 2 ^ 32 / 2 ^ 8 % 256 = w / 2 ^ 8 % 256 ∧
        w % 2 ^ 32 / 2 ^ 16 % 256 = w / 2 ^ 16 % 256 ∧ w % 2 ^ 32 / 2 ^ 24 % 256 = w / 2 ^ 24 % 256 := by omega
    obtain ⟨h0, h1, h2, h3⟩ := hbytes
    simp only [List.map_cons, bytesOf, ih, h0, h1, h2, h3]

/-! ### The entry in its slot -/

/-- The 32 words of an entry: SEQ and the words W1 to W29, then COMMIT and the CRC. -/
def entryWords (seq : Nat) (words : List Nat) : List Nat :=
  let body := seq :: words ++ [commitWord]
  body ++ [crc32 (bytesOf body)]

theorem entryWords_length (seq : Nat) {words : List Nat} (h : words.length = 29) : (entryWords seq words).length = 32 := by
  simp [entryWords, h]

/-- An entry in the log, each word in 32 bits, is committed. -/
theorem committed_entryWords (seq : Nat) {words : List Nat} (h : words.length = 29) :
    committed ((entryWords seq words).map (· % 2 ^ 32)) = true := by
  have hbody : ((seq :: words ++ [commitWord]).map (· % 2 ^ 32)).length = 31 := by simp [h]
  have hall : (entryWords seq words).map (· % 2 ^ 32) =
      (seq :: words ++ [commitWord]).map (· % 2 ^ 32) ++ [crc32 (bytesOf (seq :: words ++ [commitWord]))] := by
    rw [entryWords, List.map_append, List.map_singleton, Nat.mod_eq_of_lt (crc32_lt _)]
  have hlast : (seq :: words ++ [commitWord])[30]? = some commitWord := by
    have hcons : (seq :: words).length = 30 := congrArg (· + 1) h
    rw [List.getElem?_append_right (by omega), hcons, Nat.sub_self, List.getElem?_cons_zero]
  have hcommit : ((entryWords seq words).map (· % 2 ^ 32)).getD 30 0 = commitWord := by
    rw [hall, List.getD_eq_getElem?_getD, List.getElem?_append_left (by omega), List.getElem?_map, hlast,
      Option.map_some, Option.getD_some, Nat.mod_eq_of_lt (by decide : commitWord < 2 ^ 32)]
  have hcrc : ((entryWords seq words).map (· % 2 ^ 32)).getD 31 0 = crc32 (bytesOf (seq :: words ++ [commitWord])) := by
    rw [hall, List.getD_eq_getElem?_getD, List.getElem?_append_right (by omega), hbody, Nat.sub_self, List.getElem?_cons_zero,
      Option.getD_some]
  have hbytes : bytesOf (((entryWords seq words).map (· % 2 ^ 32)).take 31) = bytesOf (seq :: words ++ [commitWord]) := by
    rw [hall, List.take_left' hbody, bytesOf_words_mod]
  rw [committed, hcommit, hcrc, hbytes, beq_self_eq_true, beq_self_eq_true, Bool.and_self]

/-- SEQ and the words W1 to W29 of an entry in the log. -/
theorem take_entryWords {seq : Nat} {words : List Nat} (h : words.length = 29) (hw : ∀ w ∈ words, w < 2 ^ 32) (hs : seq < 2 ^ 32) :
    ((entryWords seq words).map (· % 2 ^ 32)).take 30 = seq :: words := by
  have hmod : (seq :: words).map (· % 2 ^ 32) = seq :: words := by
    rw [List.map_cons, Nat.mod_eq_of_lt hs, List.map_congr_left fun w hm => Nat.mod_eq_of_lt (hw w hm), List.map_id']
  have hall : (entryWords seq words).map (· % 2 ^ 32) =
      (seq :: words) ++ [commitWord % 2 ^ 32, crc32 (bytesOf (seq :: words ++ [commitWord])) % 2 ^ 32] := by
    rw [entryWords, List.map_append, List.map_append, hmod, List.append_assoc]
    rfl
  rw [hall, List.take_left' (by simp [h])]

/-- Words put into the log from word `base + i` on: each stands there in 32 bits, and every other word of the log is as before. -/
theorem State.foldl_setLogWord (s : State) (base i : Nat) (ws : List Nat) :
    ∃ log, (ws.zipIdx i).foldl (fun s wi => s.setLogWord (base + wi.2) wi.1) s = { s with mon := { s.mon with log := log } } ∧
      ∀ k, Assoc.get 0 k log = if base + i ≤ k ∧ k < base + i + ws.length then ws.getD (k - (base + i)) 0 % 2 ^ 32 else s.logWord k := by
  induction ws generalizing s i with
  | nil => exact ⟨s.mon.log, rfl, fun k => by rw [if_neg (by simp)]; rfl⟩
  | cons w t ih =>
    obtain ⟨log, hlog, hget⟩ := ih (s.setLogWord (base + i) w) (i + 1)
    refine ⟨log, hlog, fun k => (hget k).trans ?_⟩
    by_cases hk : k = base + i
    · subst hk
      rw [if_neg (by omega), if_pos (by simp)]
      simp [State.logWord, State.setLogWord]
    · have hkept : (s.setLogWord (base + i) w).logWord k = s.logWord k := Assoc.get_put_ne _ _ hk _ _
      by_cases hin : base + i ≤ k ∧ k < base + i + (w :: t).length
      · have hsucc : k - (base + i) = (k - (base + (i + 1))) + 1 := by omega
        rw [if_pos hin, if_pos (by simp at hin; omega), hsucc, List.getD_cons_succ]
      · rw [if_neg hin, if_neg (by simp at hin; omega), hkept]

/-! ### Flags, FULL and the end of a write -/

theorem State.bit_monEvt (s : State) {i : Nat} (hi : i < 8) : (s.monEvt i).bit mEvt i = true := by
  have hw : mEvt.width = 8 := rfl
  simp only [State.bit, State.monEvt, State.setBits, State.rd_wr_same, hw, Nat.testBit_mod_two_pow, Nat.testBit_or,
    Nat.testBit_two_pow_self, hi, decide_true, Bool.or_true, Bool.and_true]

@[simp] theorem State.monEvt_mon (s : State) (i : Nat) : (s.monEvt i).mon = s.mon := rfl
@[simp] theorem State.logDrop_mon (s : State) : s.logDrop.mon = s.mon := rfl

theorem State.rd_dropCnt_logDrop (s : State) : s.logDrop.rd mDropCnt = min (s.rd mDropCnt + 1) (2 ^ 32 - 1) := by
  have hw : mDropCnt.width = 32 := rfl
  rw [State.logDrop, State.monEvt, State.setBits, State.rd_wr_ne _ (by decide), State.bump, State.rd_wr_same, hw]
  omega

theorem Frame.logDrop {w : Touch} {s t : State} (h : Frame w s t) (hw : ∀ f ∈ [mDropCnt, mEvt], f ∈ w.flds) : Frame w s t.logDrop :=
  (h.bump _ _ (hw _ (by simp))).setBits _ _ (hw _ (by simp))

@[simp] theorem State.fullCheck_mon (s : State) : s.fullCheck.mon = s.mon := by
  unfold State.fullCheck
  split <;> rfl

theorem Frame.fullCheck {w : Touch} {s t : State} (h : Frame w s t) (hw : ∀ f ∈ [mEvt, mFull], f ∈ w.flds) : Frame w s t.fullCheck := by
  unfold State.fullCheck
  split
  · exact (h.wr _ _ (hw _ (by simp))).setBits _ _ (hw _ (by simp))
  · exact h

theorem State.bit_fullCheck (s : State) {i : Nat} (hi : i < 8) (h : s.bit mEvt i = true) : s.fullCheck.bit mEvt i = true := by
  unfold State.fullCheck
  split
  · refine State.bit_setBits _ _ _ _ ?_ hi
    rwa [State.bit, State.rd_wr_ne _ (by decide)]
  · exact h

/-- Where no entry is being written any more, the scan may stop: the log, its next slot and SEQ, the queue and a CLEAR are as before. -/
theorem State.entryDone_eq (s : State) : ∃ m : MonS, s.entryDone = { s with mon := m } ∧ m.log = s.mon.log ∧ m.head = s.mon.head ∧
    m.seq = s.mon.seq ∧ m.queue = s.mon.queue ∧ m.writing = none ∧ m.clearing = s.mon.clearing := by
  unfold State.entryDone State.scanCheck
  simp only
  split
  · exact ⟨_, rfl, rfl, rfl, rfl, rfl, rfl, rfl⟩
  · exact ⟨_, rfl, rfl, rfl, rfl, rfl, rfl, rfl⟩

theorem Frame.entryDone {w : Touch} {s t : State} (h : Frame w s t) (hb : .mon ∈ w.blks) : Frame w s t.entryDone := by
  obtain ⟨m, hm, -⟩ := t.entryDone_eq
  rw [hm]
  exact h.mon m hb

/-! ### The write of an entry (R211) -/

/-- An entry of the words W1 to W29 has been written into the head slot and committed. -/
structure Written (words : List Nat) (s t : State) : Prop where
  frame    : Frame { flds := [mEvt, mFull], blks := [.mon] } s t
  slot     : t.logSlot s.mon.head = (entryWords s.mon.seq words).map (· % 2 ^ 32)
  other    : ∀ n, n ≠ s.mon.head → t.logSlot n = s.logSlot n
  head     : t.mon.head = (s.mon.head + 1) % 2048
  seq      : t.mon.seq = nextLogSeq s.mon.seq
  queue    : t.mon.queue = s.mon.queue
  writing  : t.mon.writing = none
  clearing : t.mon.clearing = s.mon.clearing
  raised   : t.bit mEvt 0 = true

theorem State.logSlot_congr {s t : State} {n : Nat} (h : ∀ i < 32, t.logWord (n * 32 + i) = s.logWord (n * 32 + i)) :
    t.logSlot n = s.logSlot n :=
  List.map_congr_left fun i hi => h i (List.mem_range.1 hi)

theorem State.logSlot_of_words {t : State} {n : Nat} {ws : List Nat} (hl : ws.length = 32)
    (h : ∀ i < 32, t.logWord (n * 32 + i) = ws.getD i 0 % 2 ^ 32) : t.logSlot n = ws.map (· % 2 ^ 32) := by
  refine List.ext_getElem (by simp [State.logSlot, hl]) fun i hi _ => ?_
  have hi32 : i < 32 := by simpa [State.logSlot] using hi
  simp [State.logSlot, h i hi32, hl, hi32]

theorem State.writeEntry_written (s : State) {words : List Nat} (hl : words.length = 29) : Written words s (s.writeEntry words) := by
  have h32 := entryWords_length s.mon.seq hl
  obtain ⟨log, hput, hget⟩ := s.foldl_setLogWord (s.mon.head * 32) 0 (entryWords s.mon.seq words)
  obtain ⟨u, hu⟩ : ∃ u : State, u =
      { s with mon := { s.mon with log := log, head := (s.mon.head + 1) % 2048, seq := nextLogSeq s.mon.seq } } := ⟨_, rfl⟩
  have heq : s.writeEntry words = (u.monEvt 0).fullCheck.entryDone := by
    unfold State.writeEntry
    simp only
    rw [show (s.mon.seq :: words ++ [commitWord]) ++ [crc32 (bytesOf (s.mon.seq :: words ++ [commitWord]))] =
      entryWords s.mon.seq words from rfl, hput, hu]
  obtain ⟨m, hdone, hlog, hhead, hseq, hqueue, hwriting, hclearing⟩ := (u.monEvt 0).fullCheck.entryDone_eq
  rw [State.fullCheck_mon, State.monEvt_mon] at hlog hhead hseq hqueue hclearing
  have hmon : (s.writeEntry words).mon = m := by rw [heq, hdone]
  have hword : ∀ k, (s.writeEntry words).logWord k = Assoc.get 0 k log := fun k => by rw [State.logWord, hmon, hlog, hu]
  refine ⟨?_, State.logSlot_of_words h32 fun i hi => ?_, fun n hn => State.logSlot_congr fun i hi => ?_, ?_, ?_, ?_, ?_, ?_, ?_⟩
  · rw [heq, hu]
    exact ((((Frame.refl _ s).mon _ (by simp)).setBits _ _ (by simp)).fullCheck (by simp)).entryDone (by simp)
  · rw [hword, hget, if_pos (by omega), Nat.add_zero, Nat.add_sub_cancel_left]
  · rw [hword, hget, if_neg (by omega)]
  · rw [hmon, hhead, hu]
  · rw [hmon, hseq, hu]
  · rw [hmon, hqueue, hu]
  · rw [hmon, hwriting]
  · rw [hmon, hclearing, hu]
  · rw [heq, hdone]
    exact State.bit_fullCheck _ (by decide) (State.bit_monEvt _ (by decide))

theorem Written.monEvt {words : List Nat} {s t : State} (h : Written words s t) (i : Nat) : Written words s (t.monEvt i) :=
  { h with frame := h.frame.setBits _ _ (by simp), raised := State.bit_setBits _ _ _ _ h.raised (by decide) }

/-- The entry in its slot (R204, R212). -/
theorem Written.entry {words : List Nat} {s t : State} (h : Written words s t) (hl : words.length = 29) (hw : ∀ w ∈ words, w < 2 ^ 32)
    (hs : s.mon.seq < 2 ^ 32) : (t.logSlot s.mon.head).take 30 = s.mon.seq :: words := by
  rw [h.slot, take_entryWords hl hw hs]

theorem Written.committed {words : List Nat} {s t : State} (h : Written words s t) (hl : words.length = 29) :
    committed (t.logSlot s.mon.head) = true := by
  rw [h.slot, committed_entryWords _ hl]

/-- The entry begun is written once it waits for no scan; a CLEARED entry raises 484. -/
theorem State.entryCommit_written (s : State) {e : LogEnt} (he : s.mon.writing = some e) (hwaits : e.waits = false)
    (hl : e.words.length = 29) : Written e.words s s.entryCommit ∧ (e.type = 9 → s.entryCommit.bit mEvt 4 = true) := by
  have hw := s.writeEntry_written hl
  unfold State.entryCommit
  simp only [he, hwaits, Bool.false_eq_true, if_false]
  split
  · exact ⟨hw.monEvt 4, fun _ => State.bit_monEvt _ (by decide)⟩
  · next h9 => exact ⟨hw, fun h => absurd h h9⟩

theorem State.entryCommit_waits (s : State) (h : ∀ e ∈ s.mon.writing, e.waits = true) : s.entryCommit = s := by
  unfold State.entryCommit
  split
  · next e he => rw [if_pos (h e he)]
  · rfl

/-! ### The entry that is written next (R214, R218) -/

/-- The least rank of a list, from `m` down. -/
theorem foldl_logRank_le (q : List LogEnt) (m : Nat) : q.foldl (fun m e => min m (logRank e.type)) m ≤ m ∧
    ∀ x ∈ q, q.foldl (fun m e => min m (logRank e.type)) m ≤ logRank x.type := by
  induction q generalizing m with
  | nil => exact ⟨Nat.le_refl m, fun x hx => absurd hx (List.not_mem_nil)⟩
  | cons a t ih =>
    obtain ⟨hle, hall⟩ := ih (min m (logRank a.type))
    exact ⟨Nat.le_trans hle (Nat.min_le_left _ _), List.forall_mem_cons.2 ⟨Nat.le_trans hle (Nat.min_le_right _ _), hall⟩⟩

/-- The best entry is one of the list, and none there has a higher rank. -/
theorem bestEnt_spec {q : List LogEnt} {e : LogEnt} (h : bestEnt q = some e) : e ∈ q ∧ ∀ x ∈ q, logRank e.type ≤ logRank x.type := by
  simp only [bestEnt] at h
  have hrank : logRank e.type = q.foldl (fun m e => min m (logRank e.type)) 3 := by simpa using List.find?_some h
  exact ⟨List.mem_of_find?_eq_some h, fun x hx => hrank ▸ (foldl_logRank_le q 3).2 x hx⟩

/-- No write begins while one is in progress, a CLEAR runs, or the log is still to be read (R211, R216, R219). -/
theorem State.entryBegin_idle (s : State) (h : (s.mon.writing.isSome || s.mon.clearing || s.mon.scanDue) = true) : s.entryBegin = s := by
  rw [State.entryBegin, if_pos h]

section
variable {s : State} {e : LogEnt} (hclear : s.mon.clearing = false) (hwriting : s.mon.writing = none) (hscan : s.mon.scanDue = false)
  (he : bestEnt s.readyEnts = some e)
include hclear hwriting hscan he

theorem State.entryBegin_starts (hfull : s.logFullFor e.type = false) :
    s.entryBegin = { s with mon := { s.mon with queue := s.mon.queue.erase e, writing := some e } } := by
  simp [State.entryBegin, hclear, hwriting, hscan, he, hfull]

theorem State.entryBegin_drops (hfull : s.logFullFor e.type = true) :
    s.entryBegin = (State.logDrop { s with mon := { s.mon with queue := s.mon.queue.erase e } }).entryDone := by
  simp [State.entryBegin, hclear, hwriting, hscan, he, hfull]

end

end Sys2Proof.Machine
end

section
/-! SUPPORT. Triggers of the Mortar log (R189, R208 to R210, R214, R215, R218): what an entry holds, and whether it is queued or dropped. -/

namespace Sys2Proof.Machine

open F

/-! ### What an entry is made of -/

/-- The entry that a trigger makes with these CAUSE bits. -/
def State.triggered (s : State) (type source bits : Nat) (detail : List Nat) : LogEnt :=
  { type := type, words := s.logWords type source bits detail, waits := s.entryWaits, now := true }

theorem State.logWords_length (s : State) (type source cause : Nat) (detail : List Nat) :
    (s.logWords type source cause detail).length = 29 := by
  unfold State.logWords
  split <;> simp [State.otherReadings, time96]

/-- The marks of a served slot are the top two bits of its word, which no field of an entry is. -/
theorem State.rd_marked_low (s : State) (k : Nat) {f : Fld} (hf : f.lo < 30) : (s.marked k).rd f = s.rd f :=
  s.rd_marked k f (by simp only [Fld.key, hPresent, F.ro, ne_eq]; omega) (by simp only [Fld.key, hWaking, F.ro, ne_eq]; omega)

theorem State.scanBase_marked (s : State) (k : Nat) : (s.marked k).scanBase = s.scanBase := by
  have hstate : ∀ n, (s.marked k).rd (qState n) = s.rd (qState n) := fun n => s.rd_marked_low k (by simp [qState, F.ro])
  simp only [State.scanBase, s.mode_marked, hstate]

theorem State.entryWaits_marked (s : State) (k : Nat) : (s.marked k).entryWaits = s.entryWaits := by
  simp only [State.entryWaits, s.mode_marked, s.scanBase_marked, s.marked_mon]

theorem State.rd_mRead_marked (s : State) (k n : Nat) : (s.marked k).rd (mRead n) = s.rd (mRead n) :=
  s.rd_marked_low k (by simp [mRead, F.ro])

theorem State.stateWord_marked (s : State) (k : Nat) : (s.marked k).stateWord = s.stateWord := by
  have hfld : ∀ f ∈ [qStep, qDir, qKind, htmIslandOnMclk, kOnVbat], (s.marked k).rd f = s.rd f :=
    fun f hf => s.rd_marked_low k (by revert f; decide)
  simp only [List.forall_mem_cons] at hfld
  obtain ⟨hstep, hdir, hkind, hisland, hvbat, -⟩ := hfld
  simp only [State.stateWord, State.mode_marked, State.mrd, State.marked_keep, hstep, hdir, hkind, hisland, hvbat]

theorem State.railWord_marked (s : State) (k n : Nat) : (s.marked k).railWord n = s.railWord n := by
  have hstate : (s.marked k).rd (qState n) = s.rd (qState n) := s.rd_marked_low k (by simp [qState, F.ro])
  have hwarn : (s.marked k).rd qWarn = s.rd qWarn := s.rd_marked_low k (by decide)
  simp only [State.railWord, State.bit, hstate, hwarn, s.rd_mRead_marked]

theorem State.otherReadings_marked (s : State) (k : Nat) : (s.marked k).otherReadings = s.otherReadings := by
  have hrail : (s.marked k).rd mVcoreRail = s.rd mVcoreRail := s.rd_marked_low k (by decide)
  have hcore : (s.marked k).vcore = s.vcore := by rw [State.vcore, State.vcore, hrail, s.rd_mRead_marked]
  simp only [State.otherReadings, State.temp16, State.rdS, s.rd_mRead_marked, hcore]

theorem State.logWords_marked (s : State) (k type source cause : Nat) (detail : List Nat) :
    (s.marked k).logWords type source cause detail = s.logWords type source cause detail := by
  have hisland : (s.marked k).on htmIslandOnMclk = s.on htmIslandOnMclk := s.on_marked_below k (by unfold Fld.belowHst; decide)
  have hset : (s.marked k).on htmTimeSet = s.on htmTimeSet := s.on_marked_below k (by unfold Fld.belowHst; decide)
  have hqual : (s.marked k).qual false = s.qual false := by rw [State.qual, State.qual, hset, s.mode_marked]
  simp only [State.logWords, hisland, hqual, s.marked_htm, s.marked_keep, s.stateWord_marked, s.railWord_marked, s.otherReadings_marked]

theorem State.triggered_marked (s : State) (k type source bits : Nat) (detail : List Nat) :
    (s.marked k).triggered type source bits detail = s.triggered type source bits detail := by
  rw [State.triggered, State.triggered, s.logWords_marked, s.entryWaits_marked]

/-- Room in the log goes by LOG_POLICY, the log and its next slot. -/
theorem State.logFullFor_congr {s t : State} (type : Nat) (hp : t.rd mPolicy = s.rd mPolicy) (hm : t.mon = s.mon) :
    t.logFullFor type = s.logFullFor type := by
  have hfree : t.logFree = s.logFree := by rw [State.logFree, State.logFree, hm]
  have hon : t.on mPolicy = s.on mPolicy := by rw [State.on, State.on, hp]
  rw [State.logFullFor, State.logFullFor, hon, hfree]

theorem State.logFullFor_marked (s : State) (k type : Nat) : (s.marked k).logFullFor type = s.logFullFor type :=
  State.logFullFor_congr type (s.rd_marked_low k (by decide)) (s.marked_mon k)

/-! ### A trigger without a CAUSE bit of its own -/

theorem LogEnt.join_zero (e : LogEnt) : e.join 0 = e := by
  obtain ⟨type, words, waits, now⟩ := e
  unfold LogEnt.join
  cases words <;> simp

theorem State.cause_zero (s : State) : s.cause 0 = s := by
  have hjoin : s.mon.queue.map (LogEnt.join 0) = s.mon.queue := by simp [List.map_congr_left fun e _ => LogEnt.join_zero e]
  simp [State.cause, hjoin]

theorem State.logMasked_of_type (s : State) {type : Nat} (h : type < 3 ∨ 6 < type) : s.logMasked type = false := by
  simp [State.logMasked]
  omega

/-- A trigger in M2 with the scan stopped has it started (R189). -/
def State.scanAsked (s : State) : State :=
  if s.entryWaits && !s.mon.scanWait then { s with mon := { s.mon with scanWait := true, scanned := false } } else s

theorem State.scanAsked_eq (s : State) : ∃ m : MonS, s.scanAsked = { s with mon := m } ∧ m.log = s.mon.log ∧ m.queue = s.mon.queue ∧
    (s.entryWaits = true → m.scanWait = true) := by
  unfold State.scanAsked
  split
  · exact ⟨_, rfl, rfl, rfl, fun _ => rfl⟩
  · next h => exact ⟨s.mon, rfl, rfl, rfl, fun hw => by simpa [hw] using h⟩

theorem State.scanAsked_of_reads (s : State) (h : s.entryWaits = false) : s.scanAsked = s := by
  simp [State.scanAsked, h]

section
variable {s : State} {type source cause : Nat} {detail : List Nat} (hcause : type < 0x10 → cause = 0)
  (hmask : s.logMasked type = false) (hfull : s.logFullFor type = false)
include hcause hmask hfull

/-- A trigger that the log has room for comes to the queue. -/
theorem State.mortar_unrefused : s.mortar type source cause detail =
    if s.mon.queue.length < 4 then { s.scanAsked with mon := { s.scanAsked.mon with
      queue := s.mon.queue ++ [s.triggered type source (if type < 0x10 then s.mon.causes else cause) detail] } }
    else match dropLower (logRank type) s.mon.queue with
      | some q => State.logDrop { s.scanAsked with mon := { s.scanAsked.mon with
          queue := q ++ [s.triggered type source (if type < 0x10 then s.mon.causes else cause) detail] } }
      | none => s.scanAsked.logDrop := by
  have hpresent : (if type < 0x10 then s.cause cause else s) = s := by
    split
    · next h => rw [hcause h, s.cause_zero]
    · rfl
  obtain ⟨m, hm, -, hqueue, -⟩ := s.scanAsked_eq
  have hasked : s.scanAsked.mon.queue = s.mon.queue := by rw [hm]; exact hqueue
  unfold State.mortar
  simp only [hpresent, hmask, hfull, Bool.false_eq_true, if_false]
  rw [← State.scanAsked, hasked]
  rfl

theorem State.mortar_queued (hroom : s.mon.queue.length < 4) : s.mortar type source cause detail =
    { s.scanAsked with mon := { s.scanAsked.mon with
      queue := s.mon.queue ++ [s.triggered type source (if type < 0x10 then s.mon.causes else cause) detail] } } := by
  rw [State.mortar_unrefused hcause hmask hfull, if_pos hroom]

end

theorem dropFirstLower_none {r : Nat} {q : List LogEnt} (h : ∀ e ∈ q, logRank e.type ≤ r) : dropFirstLower r q = none := by
  induction q with
  | nil => rfl
  | cons e t ih =>
    obtain ⟨he, ht⟩ := List.forall_mem_cons.1 h
    rw [dropFirstLower, if_neg (by omega), ih ht]
    rfl

/-- With four waiting entries and none of a lower rank the new one is dropped (R215). -/
theorem State.mortar_dropped {s : State} {type source cause : Nat} {detail : List Nat} (hcause : type < 0x10 → cause = 0)
    (hmask : s.logMasked type = false) (hfull : s.logFullFor type = false) (hreads : s.entryWaits = false) (hroom : 4 ≤ s.mon.queue.length)
    (hrank : ∀ e ∈ s.mon.queue, logRank e.type ≤ logRank type) : s.mortar type source cause detail = s.logDrop := by
  have hnone : dropLower (logRank type) s.mon.queue = none := by
    rw [dropLower, dropFirstLower_none fun e he => hrank e (List.mem_reverse.1 he)]
    rfl
  rw [State.mortar_unrefused hcause hmask hfull, if_neg (by omega), hnone, s.scanAsked_of_reads hreads]

/-! ### Any trigger -/

/-- What every trigger leaves: the log, its next slot and SEQ, and whether the log is still to be read. -/
structure LogKept (s t : State) : Prop where
  frame   : Frame { flds := [mDropCnt, mEvt], blks := [.mon] } s t
  log     : t.mon.log = s.mon.log
  head    : t.mon.head = s.mon.head
  seq     : t.mon.seq = s.mon.seq
  scanDue : t.mon.scanDue = s.mon.scanDue

theorem LogKept.refl (s : State) : LogKept s s := ⟨Frame.refl _ s, rfl, rfl, rfl, rfl⟩

section
variable {s t : State} (h : LogKept s t)
include h

theorem LogKept.cause (bits : Nat) : LogKept s (t.cause bits) :=
  { h with frame := h.frame.mon _ (by simp) }

theorem LogKept.queue (q : List LogEnt) : LogKept s { t with mon := { t.mon with queue := q } } :=
  { h with frame := h.frame.mon _ (by simp) }

theorem LogKept.collapse (c : Nat) : LogKept s { t with mon := { t.mon with collapse := c } } :=
  { h with frame := h.frame.mon _ (by simp) }

theorem LogKept.logDrop : LogKept s t.logDrop :=
  { h with frame := h.frame.logDrop (by simp) }

theorem LogKept.scanAsked : LogKept s t.scanAsked := by
  unfold State.scanAsked
  split
  · exact { h with frame := h.frame.mon _ (by simp) }
  · exact h

/-- A trigger changes the queue, the present causes and the scan's start, and may drop an entry. -/
theorem LogKept.mortar (type source cause : Nat) (detail : List Nat) : LogKept s (t.mortar type source cause detail) := by
  obtain ⟨u, hu⟩ : ∃ u : State, u = if type < 0x10 then t.cause cause else t := ⟨_, rfl⟩
  have hpresent : LogKept s u := by
    rw [hu]
    split
    · exact h.cause cause
    · exact h
  unfold State.mortar
  simp only [← hu]
  rw [← State.scanAsked]
  split
  · exact hpresent
  · split
    · exact hpresent.logDrop
    · split
      · exact hpresent.scanAsked.queue _
      · split
        · exact (hpresent.scanAsked.queue _).logDrop
        · exact hpresent.scanAsked.logDrop

end

end Sys2Proof.Machine
end

section
/-! SUPPORT. The statement on the Mortar log (R189, R204 to R220): snaps, CLEAR, the write of an entry, the reading at VMAIN arrival, and the
items of ring 43. -/

namespace Sys2Proof.Machine

open F

/-! ### SNAP and CLEAR -/

section
variable {slot : Slot} {s : State} (hs : s.ready slot.val = true)
include hs

/-- SNAP with the scan running queues its entry. -/
theorem snap_queues (hroom : s.mon.queue.length < 4) (hfull : s.logFullFor 7 = false) (hreads : s.entryWaits = false) :
    Answers (.snap slot) slot .done s { blks := [.mon] } fun t => t.mon = { s.mon with queue := s.mon.queue ++
      [{ type := 7, words := s.logWords 7 slot.val s.mon.causes [s.rd qUpMask, s.rd mScanCnt], waits := false, now := true }] } := by
  have hop : opSnap slot (s.marked slot.val) = (.done, { s.marked slot.val with mon := { s.mon with queue := s.mon.queue ++
      [s.triggered 7 slot.val s.mon.causes [s.rd qUpMask, s.rd mScanCnt]] } }) := by
    rw [opSnap, s.rd_marked_low _ (by decide), s.rd_marked_low _ (by decide), State.mortar_queued (fun _ => rfl)
      (State.logMasked_of_type _ (.inr (by decide))) (s.logFullFor_marked _ 7 ▸ hfull) (by rwa [s.marked_mon]),
      State.scanAsked_of_reads _ (s.entryWaits_marked _ ▸ hreads), s.triggered_marked, s.marked_mon, if_pos (by decide)]
  refine Answers.of_host rfl hs _ hop ((Frame.refl _ _).mon _ (by simp)) (by simp) rfl ?_
  rw [State.finish_mon, State.triggered, hreads]

/-- SNAP behind four entries of its rank or a higher one is dropped and counted (R215). -/
theorem snap_drops (hroom : 4 ≤ s.mon.queue.length) (hfull : s.logFullFor 7 = false) (hreads : s.entryWaits = false)
    (hrank : ∀ e ∈ s.mon.queue, logRank e.type ≤ 2) : Answers (.snap slot) slot .done s { flds := [mDropCnt, mEvt] } fun t =>
      t.rd mDropCnt = min (s.rd mDropCnt + 1) (2 ^ 32 - 1) ∧ t.bit mEvt 1 = true := by
  have hop : opSnap slot (s.marked slot.val) = (.done, (s.marked slot.val).logDrop) := by
    rw [opSnap, State.mortar_dropped (fun _ => rfl) (State.logMasked_of_type _ (.inr (by decide))) (s.logFullFor_marked _ 7 ▸ hfull)
      (s.entryWaits_marked _ ▸ hreads) (by rwa [s.marked_mon]) (by rwa [s.marked_mon])]
  refine Answers.of_host rfl hs _ hop ((Frame.refl _ _).logDrop (by simp)) (by unfold Fld.belowHst; decide) rfl ⟨?_, ?_⟩
  · rw [State.rd_finish_below _ _ _ _ (by unfold Fld.belowHst; decide), State.rd_dropCnt_logDrop, s.rd_marked_low _ (by decide)]
  · rw [State.bit, State.rd_finish_below _ _ _ _ (by unfold Fld.belowHst; decide)]
    exact State.bit_monEvt _ (by decide)

/-- CLEAR of a secure slot starts where no entry waits or is being written (R219). -/
theorem clear_starts (hsec : s.secure slot.val = true) (hqueue : s.mon.queue = []) (hwriting : s.mon.writing = none)
    (hclear : s.mon.clearing = false) :
    Answers (.clear slot) slot .done s { blks := [.mon] } fun t => t.mon = { s.mon with clearing := true } := by
  have hop : opClear slot (s.marked slot.val) =
      (.done, { s.marked slot.val with mon := { (s.marked slot.val).mon with clearing := true } }) := by
    rw [opClear, secureOnly_of_secure _ _ _ (by rw [s.secure_marked, hsec])]
    simp [hqueue, hwriting, hclear]
  refine Answers.of_host rfl hs _ hop ((Frame.refl _ _).mon _ (by simp)) (by simp) rfl ?_
  rw [State.finish_mon, s.marked_mon]

theorem clear_busy (hsec : s.secure slot.val = true) (h : s.mon.queue ≠ [] ∨ s.mon.writing ≠ none ∨ s.mon.clearing = true) :
    Refused (.clear slot) slot .busy s := by
  have hbusy : (!s.mon.queue.isEmpty || s.mon.writing.isSome || s.mon.clearing) = true := by
    simpa [Option.isSome_iff_ne_none, or_assoc] using h
  refine Refused.of_host rfl hs ?_
  rw [opClear, secureOnly_of_secure _ _ _ (by rw [s.secure_marked, hsec]), s.marked_mon, if_pos hbusy]

end

/-- The periodic snap queues its entry, which in M2 with the scan stopped waits for a scan that starts (R189). -/
theorem periodicSnap_queues {s : State} (hmode : s.on mLogMode = false) (hper : s.rd mSnapPer ≠ 0) (hroom : s.mon.queue.length < 4)
    (hfull : s.logFullFor 8 = false) :
    Happens .periodicSnap s { blks := [.mon] } fun t => t.mon.log = s.mon.log ∧ (s.entryWaits = true → t.scanRuns = true) ∧
      t.mon.queue = s.mon.queue ++
        [{ type := 8, words := s.logWords 8 0xFF s.mon.causes [s.rd qUpMask, s.rd mScanCnt], waits := s.entryWaits, now := true }] := by
  have heq : exec .periodicSnap s = .next (s.mortar 8 0xFF 0 [s.rd qUpMask, s.rd mScanCnt]) := by
    show event (if !s.on mLogMode && s.rd mSnapPer != 0 then s.mortar 8 0xFF 0 [s.rd qUpMask, s.rd mScanCnt] else s) = _
    rw [if_pos (by simp [hmode, hper])]
    rfl
  obtain ⟨m, hm, hlog, -, hwait⟩ := s.scanAsked_eq
  refine ⟨_, heq, ?_⟩
  rw [State.mortar_queued (fun _ => rfl) (s.logMasked_of_type (.inr (by decide))) hfull hroom, hm, if_pos (by decide)]
  refine ⟨((Frame.refl _ s).mon m (by simp)).mon _ (by simp), hlog, fun hw => ?_, rfl⟩
  have hm2 : s.mode = 2 := by
    simp only [State.entryWaits, Bool.and_eq_true, beq_iff_eq] at hw
    exact hw.1.1
  have hscan : m.scanWait = true := hwait hw
  show (_ || (s.mode == 2 && m.scanWait)) = true
  rw [hm2, hscan]
  simp

/-! ### The write of an entry -/

theorem mortarEntryWrite_waits {s : State} {e : LogEnt} (he : s.mon.writing = some e) (hwaits : e.waits = true) :
    Happens .mortarEntryWrite s {} fun _ => True := by
  have heq : exec .mortarEntryWrite s = .next s := by
    show event s.entryBegin.entryCommit = _
    rw [s.entryBegin_idle (by simp [he]), s.entryCommit_waits (by simp [he, hwaits])]
    rfl
  exact ⟨s, heq, Frame.refl _ s, trivial⟩

/-- After VMAIN arrival no entry is written before the log is read (R216). -/
theorem mortarEntryWrite_unread {s : State} (hwriting : s.mon.writing = none) (hscan : s.mon.scanDue = true) :
    Happens .mortarEntryWrite s {} fun _ => True := by
  have heq : exec .mortarEntryWrite s = .next s := by
    show event s.entryBegin.entryCommit = _
    rw [s.entryBegin_idle (by simp [hscan]), s.entryCommit_waits (by simp [hwriting])]
    rfl
  exact ⟨s, heq, Frame.refl _ s, trivial⟩

/-- The entry begun is written. -/
theorem mortarEntryWrite_begun {s : State} {e : LogEnt} (he : s.mon.writing = some e) (hwaits : e.waits = false)
    (hl : e.words.length = 29) (hw : ∀ w ∈ e.words, w < 2 ^ 32) (hseq : s.mon.seq < 2 ^ 32) :
    Happens .mortarEntryWrite s { flds := [mEvt, mFull], blks := [.mon] } fun t =>
      t.mon.queue = s.mon.queue ∧ t.mon.writing = none ∧ (t.logSlot s.mon.head).take 30 = s.mon.seq :: e.words ∧
      committed (t.logSlot s.mon.head) = true ∧ t.bit mEvt 0 = true ∧ (e.type = 9 → t.bit mEvt 4 = true) := by
  have heq : exec .mortarEntryWrite s = .next s.entryCommit := by
    show event s.entryBegin.entryCommit = _
    rw [s.entryBegin_idle (by simp [he])]
    rfl
  obtain ⟨hwritten, hcleared⟩ := s.entryCommit_written he hwaits hl
  exact ⟨_, heq, hwritten.frame, hwritten.queue, hwritten.writing, hwritten.entry hl hw hseq, hwritten.committed hl, hwritten.raised, hcleared⟩

section
variable {s : State} {e : LogEnt} (hclear : s.mon.clearing = false) (hwriting : s.mon.writing = none) (hscan : s.mon.scanDue = false)
  (he : bestEnt s.readyEnts = some e)
include hclear hwriting hscan he

/-- The next entry is one of the highest rank of those that wait for no scan. -/
theorem mortarEntryWrite_next (hfull : s.logFullFor e.type = false) (hl : e.words.length = 29) (hw : ∀ w ∈ e.words, w < 2 ^ 32)
    (hseq : s.mon.seq < 2 ^ 32) : Happens .mortarEntryWrite s { flds := [mEvt, mFull], blks := [.mon] } fun t =>
      (∀ x ∈ s.readyEnts, logRank e.type ≤ logRank x.type) ∧ t.mon.queue = s.mon.queue.erase e ∧
      (t.logSlot s.mon.head).take 30 = s.mon.seq :: e.words ∧ committed (t.logSlot s.mon.head) = true ∧
      t.mon.head = (s.mon.head + 1) % 2048 ∧ t.mon.seq = (if s.mon.seq = 2 ^ 32 - 1 then 1 else s.mon.seq + 1) ∧
      t.bit mEvt 0 = true := by
  obtain ⟨hmem, hbest⟩ := bestEnt_spec he
  have hwaits : e.waits = false := by simpa using (List.mem_filter.1 hmem).2
  obtain ⟨u, hu⟩ : ∃ u : State, u = { s with mon := { s.mon with queue := s.mon.queue.erase e, writing := some e } } := ⟨_, rfl⟩
  have heq : exec .mortarEntryWrite s = .next u.entryCommit := by
    show event s.entryBegin.entryCommit = _
    rw [State.entryBegin_starts hclear hwriting hscan he hfull, hu]
    rfl
  have hframe : Frame { flds := [mEvt, mFull], blks := [.mon] } s u := hu ▸ (Frame.refl _ s).mon _ (by simp)
  have hhead : u.mon.head = s.mon.head := by rw [hu]
  have hsequ : u.mon.seq = s.mon.seq := by rw [hu]
  obtain ⟨hwritten, -⟩ := u.entryCommit_written (e := e) (by rw [hu]) hwaits hl
  refine ⟨_, heq, hframe.trans hwritten.frame, hbest, hwritten.queue.trans (by rw [hu]), ?_, ?_, ?_, ?_, hwritten.raised⟩
  · rw [← hhead, ← hsequ]
    exact hwritten.entry hl hw (hsequ ▸ hseq)
  · rw [← hhead]
    exact hwritten.committed hl
  · rw [← hhead]
    exact hwritten.head
  · rw [← hsequ]
    exact hwritten.seq

/-- An entry that stop-when-full keeps out is dropped and counted (R218). -/
theorem mortarEntryWrite_full (hfull : s.logFullFor e.type = true) :
    Happens .mortarEntryWrite s { flds := [mEvt, mDropCnt], blks := [.mon] } fun t =>
      t.mon.queue = s.mon.queue.erase e ∧ t.mon.log = s.mon.log ∧ t.bit mEvt 1 = true := by
  obtain ⟨u, hu⟩ : ∃ u : State, u = State.logDrop { s with mon := { s.mon with queue := s.mon.queue.erase e } } := ⟨_, rfl⟩
  have hframe : Frame { flds := [mEvt, mDropCnt], blks := [.mon] } s u :=
    hu ▸ ((Frame.refl _ s).mon _ (by simp)).logDrop (by simp)
  obtain ⟨m, hm, hlog, -, -, hqueue, hnone, -⟩ := u.entryDone_eq
  have heq : exec .mortarEntryWrite s = .next u.entryDone := by
    show event s.entryBegin.entryCommit = _
    rw [State.entryBegin_drops hclear hwriting hscan he hfull, ← hu, State.entryCommit_waits _ (by rw [hm]; simp [hnone])]
    rfl
  refine ⟨_, heq, hframe.entryDone (by simp), ?_, ?_, ?_⟩
  · rw [hm]
    exact hqueue.trans (by rw [hu]; rfl)
  · rw [hm]
    exact hlog.trans (by rw [hu]; rfl)
  · rw [hm, hu]
    exact State.bit_monEvt _ (by decide)

end

/-! ### The end of a CLEAR (R219) -/

/-- The hub as the CLEARED entry finds it. -/
def State.cleared (s : State) : State :=
  State.wr { s.scanAsked with mon := { s.scanAsked.mon with
    log := [], head := 0, clearing := false, writing := some (s.clearedEnt s.logCount) } } mFull 0

theorem exec_clearDone {s : State} (hclear : s.mon.clearing = true) : exec .clearDone s = .next s.cleared.entryCommit := by
  show execClearDone s = _
  unfold execClearDone
  rw [if_pos hclear]
  rfl

theorem State.cleared_frame (s : State) : Frame { flds := [mEvt, mFull], blks := [.mon] } s s.cleared := by
  obtain ⟨m, hm, -⟩ := s.scanAsked_eq
  unfold State.cleared
  rw [hm]
  exact (((Frame.refl _ s).mon m (by simp)).mon _ (by simp)).wr _ _ (by simp)

theorem State.cleared_logEmpty (s : State) (n : Nat) : s.cleared.logEmpty n = true := by
  have hword : ∀ k, s.cleared.logWord k = 0 := fun _ => rfl
  simp [State.logEmpty, State.logSlot, hword]

/-- With the scan running the CLEARED entry is written at once. -/
theorem clearDone_written {s : State} (hreads : s.entryWaits = false) :
    Written (s.clearedEnt s.logCount).words s.cleared s.cleared.entryCommit ∧ s.cleared.entryCommit.bit mEvt 4 = true := by
  obtain ⟨hwritten, hraised⟩ := s.cleared.entryCommit_written (e := s.clearedEnt s.logCount) rfl hreads (s.logWords_length _ _ _ _)
  exact ⟨hwritten, hraised rfl⟩

/-- In M2 with the scan stopped the CLEARED entry waits for a scan. -/
theorem clearDone_waits {s : State} (hwaits : s.entryWaits = true) : s.cleared.entryCommit = s.cleared :=
  s.cleared.entryCommit_waits fun e he => by
    obtain rfl : s.clearedEnt s.logCount = e := Option.some.inj he
    exact hwaits

theorem clearDone_empties {s : State} (hclear : s.mon.clearing = true) :
    Happens .clearDone s { flds := [mEvt, mFull], blks := [.mon] } fun t =>
      t.mon.clearing = false ∧ (∀ n : Fin 2048, 0 < n.val → t.logEmpty n = true) ∧
      (s.entryWaits = false → t.mon.head = 1 ∧ committed (t.logSlot 0) = true ∧ t.bit mEvt 4 = true) ∧
      (s.entryWaits = true → t.mon.head = 0 ∧ t.mon.log = [] ∧ t.mon.scanWait = true ∧ t.rd mFull = 0 ∧
        ∃ e, t.mon.writing = some e ∧ e.type = 9 ∧ e.waits = true) := by
  refine ⟨_, exec_clearDone hclear, ?_⟩
  cases hw : s.entryWaits with
  | false =>
    obtain ⟨hwritten, hraised⟩ := clearDone_written hw
    refine ⟨s.cleared_frame.trans hwritten.frame, hwritten.clearing, fun n hn => ?_, fun _ => ⟨hwritten.head, ?_, hraised⟩, by simp⟩
    · rw [State.logEmpty, hwritten.other n (by show n.val ≠ 0; omega)]
      exact s.cleared_logEmpty n
    · exact hwritten.committed (s.logWords_length _ _ _ _)
  | true =>
    obtain ⟨m, hm, -, -, hscan⟩ := s.scanAsked_eq
    have hwait : s.cleared.mon.scanWait = true := by
      show s.scanAsked.mon.scanWait = true
      rw [hm]
      exact hscan hw
    rw [clearDone_waits hw]
    refine ⟨s.cleared_frame, rfl, fun n _ => s.cleared_logEmpty n, by simp, fun _ => ⟨rfl, rfl, hwait, ?_, _, rfl, rfl, hw⟩⟩
    rw [State.cleared, State.rd_wr_same, Nat.zero_mod]

/-! ### VMAIN arrival (R216) -/

/-- The hub goes on after the newest entry it finds. -/
def State.afterNewest (s : State) : State :=
  match s.newestOf (usedSlots s.mon.log) with
  | some n => { s with mon := { s.mon with head := (n + 1) % 2048, seq := s.seqAfter (s.logWord (n * 32)) } }
  | none => if s.mon.burnt then { s with mon := { s.mon with seq := nextLogSeq s.mon.seq } } else s

theorem Frame.afterNewest {w : Touch} {s : State} (hb : .mon ∈ w.blks) : Frame w s s.afterNewest := by
  unfold State.afterNewest
  split
  · exact (Frame.refl _ s).mon _ hb
  · split
    · exact (Frame.refl _ s).mon _ hb
    · exact Frame.refl _ s

theorem State.afterNewest_of_newest {s : State} {n : Nat} (h : s.newestOf (usedSlots s.mon.log) = some n) : s.afterNewest =
    { s with mon := { s.mon with head := (n + 1) % 2048, seq := s.seqAfter (s.logWord (n * 32)) } } := by
  rw [State.afterNewest, h]

theorem logScan_idle {s : State} (hscan : s.mon.scanDue = false) : Happens .logScan s {} fun _ => True := by
  have heq : exec .logScan s = .next s := by
    show event (if s.mon.scanDue then s.logScanNow else s) = _
    rw [if_neg (by simp [hscan])]
    rfl
  exact ⟨s, heq, Frame.refl _ s, trivial⟩

/-- The hub once it has looked for the newest entry and for torn slots. -/
def State.logLooked (s : State) : State :=
  let u := { s.afterNewest with mon := { s.afterNewest.mon with burnt := false, scanDue := false } }
  if ((usedSlots s.mon.log).filter s.logTorn).isEmpty then u else (u.wr mTornFound 1).monEvt 3

theorem State.logLooked_mon (s : State) : s.logLooked.mon = { s.afterNewest.mon with burnt := false, scanDue := false } := by
  unfold State.logLooked
  simp only
  split <;> rfl

theorem State.logLooked_frame (s : State) : Frame { flds := [mTornFound, mEvt, mDropCnt], blks := [.mon] } s s.logLooked := by
  have hread : Frame { flds := [mTornFound, mEvt, mDropCnt], blks := [.mon] } s
      { s.afterNewest with mon := { s.afterNewest.mon with burnt := false, scanDue := false } } :=
    (Frame.afterNewest (by simp)).mon _ (by simp)
  unfold State.logLooked
  simp only
  split
  · exact hread
  · exact (hread.wr _ _ (by simp)).setBits _ _ (by simp)

/-- The entry of a collapse that the log does not hold yet, its count stored with the trigger. -/
def State.collapseEntered (s : State) (detail : Nat → List Nat) : State :=
  match s.lastVbat with
  | some c => if c != s.mon.collapse then State.mortar { s with mon := { s.mon with collapse := c } } 2 0xFF 1 (detail c) else s
  | none => s

theorem State.logScanNow_eq (s : State) : ∃ detail, s.logScanNow = s.logLooked.collapseEntered detail := ⟨_, rfl⟩

/-- Behind its look at the log the hub may only trigger that entry. -/
theorem State.logScanNow_kept (s : State) : LogKept s.logLooked s.logScanNow := by
  obtain ⟨detail, heq⟩ := s.logScanNow_eq
  rw [heq]
  unfold State.collapseEntered
  split
  · split
    · exact ((LogKept.refl _).collapse _).mortar _ _ _ _
    · exact LogKept.refl _
  · exact LogKept.refl _

/-- At VMAIN arrival the hub goes on after the newest entry. -/
theorem logScan_continues {s : State} (hscan : s.mon.scanDue = true) :
    Happens .logScan s { flds := [mTornFound, mEvt, mDropCnt], blks := [.mon] } fun t =>
      t.mon.scanDue = false ∧ ∀ n ∈ (s.newestOf (usedSlots s.mon.log)).toList,
        t.mon.head = (n + 1) % 2048 ∧ t.mon.seq = s.seqAfter (s.logWord (n * 32)) ∧ t.mon.log = s.mon.log := by
  have heq : exec .logScan s = .next s.logScanNow := by
    show event (if s.mon.scanDue then s.logScanNow else s) = _
    rw [if_pos hscan]
    rfl
  have hkept := s.logScanNow_kept
  refine ⟨_, heq, s.logLooked_frame.trans ?_, ?_, fun n hn => ?_⟩
  · exact hkept.frame.mono (by simp) (by simp) (by simp) (by simp) (by simp)
  · rw [hkept.scanDue, s.logLooked_mon]
  · have hafter := State.afterNewest_of_newest (Option.mem_toList.1 hn)
    rw [hkept.head, hkept.seq, hkept.log, s.logLooked_mon, hafter]
    exact ⟨rfl, rfl, rfl⟩

/-! ### The items of ring 43 (R220 to R222) -/

/-- RIDX of ring 43 has passed the item. -/
def State.itemPassed (s : State) : State := s.wr (rRidx 43) (s.rd (rRidx 43) + 32)

/-- W0 of the item. -/
def State.itemHead (s : State) : Nat := (s.ringGet 43 (s.rd (rRidx 43)) 8).headD 0

theorem exec_hostItemTake {s : State} (hmode : s.on mLogMode = true) (hrun : s.running = true) (hen : s.on (rEn 43) = true)
    (hfill : 32 ≤ s.fill 43) (hroom : s.mon.queue.length < 4) : exec .hostItemTake s = .next s.hostItem := by
  show execHostItemTake s = _
  unfold execHostItemTake
  rw [if_pos (by simp [hmode, hrun, hen, hfill, hroom])]
  rfl

theorem State.hostItem_discarded {s : State} (h : s.itemHead / 2 ^ 24 < 0x10 ∨ 0x1F < s.itemHead / 2 ^ 24 ∨ s.itemHead / 2 ^ 16 % 256 ≠ 0) :
    s.hostItem = (s.itemPassed.bump mHostBad).monEvt 5 := by
  have hbad : ¬(0x10 ≤ s.itemHead / 2 ^ 24 && s.itemHead / 2 ^ 24 ≤ 0x1F && s.itemHead / 2 ^ 16 % 256 == 0) = true := by
    simp only [Bool.and_eq_true, decide_eq_true_eq, beq_iff_eq]
    omega
  exact if_neg hbad

theorem State.hostItem_taken {s : State} (h1 : 0x10 ≤ s.itemHead / 2 ^ 24) (h2 : s.itemHead / 2 ^ 24 ≤ 0x1F)
    (h3 : s.itemHead / 2 ^ 16 % 256 = 0) : ∃ source detail,
      s.hostItem = s.itemPassed.mortar (s.itemHead / 2 ^ 24) source (s.itemHead % 2 ^ 16) detail := by
  have hgood : (0x10 ≤ s.itemHead / 2 ^ 24 && s.itemHead / 2 ^ 24 ≤ 0x1F && s.itemHead / 2 ^ 16 % 256 == 0) = true := by
    simp only [Bool.and_eq_true, decide_eq_true_eq, beq_iff_eq]
    exact ⟨⟨h1, h2⟩, h3⟩
  exact ⟨_, _, if_pos hgood⟩

theorem State.rd_rRidx_itemPassed (s : State) : s.itemPassed.rd (rRidx 43) = (s.rd (rRidx 43) + 32) % 2 ^ 32 :=
  s.rd_wr_same _ _

theorem State.itemPassed_frame (s : State) : Frame { flds := [rRidx 43, mHostBad, mEvt, mDropCnt], blks := [.mon] } s s.itemPassed :=
  (Frame.refl _ s).wr _ _ (by simp)

/-- Behind the item's place in the ring, taking it changes the log's own state alone. -/
theorem State.hostItem_frame (s : State) : Frame { flds := [mHostBad, mEvt, mDropCnt], blks := [.mon] } s.itemPassed s.hostItem := by
  by_cases h : s.itemHead / 2 ^ 24 < 0x10 ∨ 0x1F < s.itemHead / 2 ^ 24 ∨ s.itemHead / 2 ^ 16 % 256 ≠ 0
  · rw [State.hostItem_discarded h]
    exact ((Frame.refl _ _).bump _ _ (by simp)).setBits _ _ (by simp)
  · obtain ⟨source, detail, heq⟩ := State.hostItem_taken (s := s) (by omega) (by omega) (by omega)
    rw [heq]
    exact ((LogKept.refl _).mortar _ _ _ _).frame.mono (by simp) (by simp) (by simp) (by simp) (by simp)

/-- A discarded item is counted and raises 485. -/
theorem State.hostItem_counted {s : State} (h : s.itemHead / 2 ^ 24 < 0x10 ∨ 0x1F < s.itemHead / 2 ^ 24) :
    s.hostItem.mon = s.mon ∧ s.hostItem.rd mHostBad = min (s.rd mHostBad + 1) 65535 ∧ s.hostItem.bit mEvt 5 = true := by
  have hw : mHostBad.width = 16 := rfl
  rw [State.hostItem_discarded (h.imp_right .inl)]
  refine ⟨rfl, ?_, State.bit_monEvt _ (by decide)⟩
  rw [State.monEvt, State.setBits, State.rd_wr_ne _ (by decide), State.bump, State.rd_wr_same, hw, State.itemPassed,
    State.rd_wr_ne _ (by decide)]
  omega

/-- An item of a HOST type becomes an entry. -/
theorem State.hostItem_queued {s : State} (h1 : 0x10 ≤ s.itemHead / 2 ^ 24) (h2 : s.itemHead / 2 ^ 24 ≤ 0x1F)
    (h3 : s.itemHead / 2 ^ 16 % 256 = 0) (hfull : s.logFullFor (s.itemHead / 2 ^ 24) = false) (hroom : s.mon.queue.length < 4) :
    s.hostItem.mon.queue.map (·.type) = s.mon.queue.map (·.type) ++ [s.itemHead / 2 ^ 24] := by
  have hfull' : s.itemPassed.logFullFor (s.itemHead / 2 ^ 24) = false :=
    (State.logFullFor_congr _ (s.rd_wr_ne (by decide) _) rfl).trans hfull
  obtain ⟨source, detail, heq⟩ := State.hostItem_taken h1 h2 h3
  rw [heq, State.mortar_queued (fun h => by omega) (State.logMasked_of_type _ (.inr (by omega))) hfull' hroom]
  simp [State.triggered, State.itemPassed]

/-! ### The statement -/

/-- Settles O20: SNAP and CLEAR by what waits, the write by the entry begun or the best that waits for no scan, the end of a CLEAR by whether
its entry waits, and the items of ring 43 by their TYPE. -/
theorem mortarEntries : Obligations.MortarEntries := by
  unfold Obligations.MortarEntries
  intro slot s
  refine ⟨fun hs => ⟨snap_queues hs, snap_drops hs, fun hsec => ⟨clear_starts hs hsec, clear_busy hs hsec⟩, fun hsec => ?_⟩,
    periodicSnap_queues, fun e he => ?_, fun e he => ?_, mortarEntryWrite_unread, fun hclear hwriting hscan e he => ?_,
    clearDone_empties, logScan_idle, logScan_continues, fun hmode hrun hen hfill hroom => ?_⟩
  · exact Refused.secureOnly _ rfl hs hsec
  · exact mortarEntryWrite_waits (Option.mem_toList.1 he)
  · exact mortarEntryWrite_begun (Option.mem_toList.1 he)
  · exact ⟨mortarEntryWrite_next hclear hwriting hscan (Option.mem_toList.1 he),
      mortarEntryWrite_full hclear hwriting hscan (Option.mem_toList.1 he)⟩
  · refine ⟨_, exec_hostItemTake hmode hrun hen hfill hroom, s.itemPassed_frame.trans ?_, ?_, State.hostItem_counted,
      fun h1 h2 h3 hfull => State.hostItem_queued h1 h2 h3 hfull hroom⟩
    · exact s.hostItem_frame.mono (by simp) (by simp) (by simp) (by simp) (by simp)
    · rw [s.hostItem_frame.regs _ (by decide) (by decide) (by simp [Fld.outside]), s.rd_rRidx_itemPassed]

end Sys2Proof.Machine
end

section
/-! SUPPORT. The statement on wake sources and on what comes while the hub sleeps (R229, R233, R235, R255, R256). -/

namespace Sys2Proof.Machine

open F

/-! ### Wake sources -/

/-- A flag that is set reads 1. -/
theorem State.bit_setBits_same (s : State) {f : Fld} {i : Nat} (hi : i < f.width) : (s.setBits f (2 ^ i)).bit f i = true := by
  simp only [State.bit, State.setBits, State.rd_wr_same, Nat.testBit_mod_two_pow, Nat.testBit_or, Nat.testBit_two_pow_self, hi,
    decide_true, Bool.or_true, Bool.and_true]

theorem State.wake_asleep {s : State} (hm : s.mode = 7) (cause : Nat) :
    s.wake cause = { s.setBits glbWakeCause (2 ^ cause) with glb := { s.glb with waking := true } } := by
  unfold State.wake
  rw [if_neg (by omega), if_pos hm]

theorem State.wake_held {s : State} (hm : s.mode = 2) (hq : s.qon qMaster = false) (cause : Nat) :
    s.wake cause = (s.setBits glbWakeCause (2 ^ cause)).wr glbWakeHeld 1 := by
  unfold State.wake
  rw [if_pos hm, if_neg (by simp [hq])]

/-- A wake source in M7 records its cause and starts the thaw. -/
theorem State.wake_starts {w : Touch} {s t : State} (hm : t.mode = 7) {cause : Nat} (hc : cause < 14) (h : Frame w s t)
    (hf : glbWakeCause ∈ w.flds) (hb : .glb ∈ w.blks) : Frame w s (t.wake cause) ∧ (t.wake cause).bit glbWakeCause cause = true ∧
      (t.wake cause).glb = { t.glb with waking := true } ∧ (t.wake cause).stp = t.stp := by
  rw [State.wake_asleep hm]
  exact ⟨(h.setBits _ _ hf).glb _ hb, t.bit_setBits_same hc, rfl, rfl⟩

/-- In M2 a member that is not the master records the cause and holds the wake. -/
theorem State.wake_holds {s : State} (hm : s.mode = 2) (hq : s.qon qMaster = false) {cause : Nat} (hc : cause < 14) :
    Frame { flds := [glbWakeCause, glbWakeHeld] } s (s.wake cause) ∧ (s.wake cause).bit glbWakeCause cause = true ∧
      (s.wake cause).rd glbWakeHeld = 1 := by
  rw [State.wake_held hm hq]
  refine ⟨((Frame.refl _ s).setBits _ _ (by simp)).wr _ _ (by simp), ?_, State.rd_wr_same _ _ _⟩
  rw [State.bit, State.rd_wr_ne _ (by decide)]
  exact s.bit_setBits_same hc

/-- A host chip select, an I2C start and a CAN edge, each with its bit of WAKE_EN set, are wake sources of that bit's cause. -/
theorem exec_wakeSource (n4 : Fin 4) (n2 : Fin 2) {s : State} {wc : Instr × Nat}
    (hwc : wc ∈ [(Instr.hostCsWake n4, n4.val), (.i2cStartWake n2, 4 + n2.val), (.canRxdWake n2, 6 + n2.val)])
    (hen : s.bit glbWakeEn wc.2 = true) (hup : s.bankUp n4 = true) : wc.2 < 14 ∧ exec wc.1 s = .next (s.wake wc.2) := by
  simp only [List.mem_cons, List.not_mem_nil, or_false] at hwc
  rcases hwc with rfl | rfl | rfl <;> refine ⟨by simp only; omega, ?_⟩
  · show event (if s.bit glbWakeEn n4 && s.bankUp n4 then s.wake n4 else s) = _
    rw [if_pos (by rw [hen, hup]; rfl)]
    rfl
  · show event (if s.bit glbWakeEn (4 + n2) then s.wake (4 + n2) else s) = _
    rw [if_pos hen]
    rfl
  · show event (if s.bit glbWakeEn (6 + n2) then s.wake (6 + n2) else s) = _
    rw [if_pos hen]
    rfl

/-! ### Edges on stamp inputs while the timeline is frozen -/

/-- The stamp block beside its inputs. -/
theorem Frame.stp {w : Touch} {s t : State} (h : Frame w s t) (x : StpS) (hb : Blk.stp ∈ w.blks) (hi : x.ins = t.stp.ins) :
    Frame w s { t with stp := x } :=
  h.blk .stp hb rfl rfl rfl fun c n _ => by
    cases c
    case stp => exact absurd rfl n
    case stin => exact congrArg (Assoc.get StIn.init _) hi
    all_goals first | rfl | trivial

/-- Both rows of a selected edge bring it to the sleeping hub. -/
theorem exec_edgeAsleep {n : Fin 64} {rising : Bool} {x : Stamp} {s : State} (hfr : s.htm.frozen = true) (hup : s.glb.mainUp = true)
    (hsel : s.edgeSel n rising = true) {i : Instr} (hi : i ∈ [Instr.stinWakeEdge n rising, .stinEdge n rising x]) :
    exec i s = .next (s.stinAsleep n rising) := by
  simp only [List.mem_cons, List.not_mem_nil, or_false] at hi
  rcases hi with rfl | rfl
  · show event (if s.htm.frozen && s.glb.mainUp && s.edgeSel n rising then s.stinAsleep n rising else s) = _
    rw [if_pos (by rw [hfr, hup, hsel]; rfl)]
    rfl
  · show event (s.stinEdge n rising x) = _
    unfold State.stinEdge
    rw [if_neg (by simp [hup]), if_pos hfr, if_pos hsel]
    rfl

/-- The hub once it has kept the edge that wakes it (R256). -/
def State.edgeKept (s : State) (n : Nat) (rising : Bool) : State :=
  { s with stp := { s.stp with wake := some { input := n, pol := rising, count := none } } }

/-- The first edge on a wake-enabled input is kept, its count to come, and wakes with cause 11. -/
theorem State.stinAsleep_wakes {s : State} {n : Nat} (rising : Bool) (hm : s.mode = 7) (hw : s.on (sWake n) = true)
    (hnone : s.stp.wake = none) : Frame { flds := [glbWakeCause], blks := [.glb, .stp] } s (s.stinAsleep n rising) ∧
      (s.stinAsleep n rising).stp.wake = some { input := n, pol := rising, count := none } ∧
      (s.stinAsleep n rising).bit glbWakeCause 11 = true ∧ (s.stinAsleep n rising).glb = { s.glb with waking := true } := by
  have heq : s.stinAsleep n rising = (s.edgeKept n rising).wake 11 := if_pos (by rw [hm, hw, hnone]; rfl)
  have hkept : Frame { flds := [glbWakeCause], blks := [.glb, .stp] } s (s.edgeKept n rising) := (Frame.refl _ s).stp _ (by simp) rfl
  have hmode : (s.edgeKept n rising).mode = 7 := hm
  obtain ⟨hframe, hcause, hglb, hstp⟩ := State.wake_starts hmode (by decide : 11 < 14) hkept (by simp) (by simp)
  rw [heq]
  exact ⟨hframe, by rw [hstp]; rfl, hcause, hglb⟩

theorem State.stinAsleep_lost {s : State} {n : Nat} (rising : Bool) (h : s.mode ≠ 7 ∨ s.on (sWake n) = false ∨ s.stp.wake ≠ none) :
    s.stinAsleep n rising = s.stinLost n := by
  unfold State.stinAsleep
  rw [if_neg]
  simp only [Bool.and_eq_true, decide_eq_true_eq, Option.isNone_iff_eq_none]
  rintro ⟨⟨hm, hw⟩, hnone⟩
  rcases h with h | h | h
  · exact h hm
  · rw [hw] at h
    cases h
  · exact h hnone

/-- A lost edge is counted in LOST_IN_NAP, which saturates, and flagged. -/
theorem State.stinLost_counts (s : State) (n : Fin 64) : Frame { flds := [sNapLost n, sEvt n] } s (s.stinLost n) ∧
    (s.stinLost n).rd (sNapLost n) = min (s.rd (sNapLost n) + 1) 65535 ∧ (s.stinLost n).bit (sEvt n) 1 = true := by
  have hkey : (sEvt n).key ≠ (sNapLost n).key := by
    simp only [Fld.key, sEvt, sNapLost, F.w1c, F.rc, ne_eq]
    omega
  have hw : (sNapLost n).width = 16 := rfl
  refine ⟨((Frame.refl _ s).bump _ _ (by simp)).setBits _ _ (by simp), ?_, State.bit_setBits_same _ (by decide : 1 < 4)⟩
  rw [State.stinLost, State.stFlag, State.setBits, State.rd_wr_ne _ hkey, State.bump, State.rd_wr_same, hw]
  omega

/-! ### Frames while the hub is asleep -/

/-- No frame of an awake hub or of a port without power is answered so. -/
theorem asleepFrame_idle {p : Fin 4} {s : State} (h : s.asleep = false ∨ s.bankUp p = false) :
    Happens (.asleepFrame p) s {} fun _ => True := by
  have heq : exec (.asleepFrame p) s = .next s := by
    show event (if s.asleep && s.bankUp p then s.asleepFrame p else s) = _
    rw [if_neg (by rw [← Bool.and_eq_false_iff] at h; simp [h])]
    rfl
  exact ⟨s, heq, Frame.refl _ s, trivial⟩

/-- The frame's answer is ASLEEP, shown in the status byte with 0xFF behind it. -/
theorem asleepFrame_answers {p : Fin 4} {s : State} (ha : s.asleep = true) (hup : s.bankUp p = true) :
    Happens (.asleepFrame p) s { blks := [.answer, .last, .wave] } fun t => t.answer = { code := .asleep, data := [] } ∧
      t.lastOf p = 0x701 ∧ t.sdoByte 0 = 0x87 ∧ ∀ i, 0 < i → t.sdoByte i = 0xFF := by
  have hp : p.val < 6 := by omega
  have heq : exec (.asleepFrame p) s = .next (s.asleepFrame p) := by
    show event (if s.asleep && s.bankUp p then s.asleepFrame p else s) = _
    rw [if_pos (by rw [ha, hup]; rfl)]
    rfl
  have hsdo : (s.asleepFrame p).hst.sdo = [0x87] := by
    rw [State.asleepFrame, State.setLast, if_pos hp]
  refine ⟨_, heq, ?_, ?_, State.lastOf_setLast _ _ _ hp, ?_, fun i hi => ?_⟩
  · exact (((Frame.refl _ s).say _ _ (by simp)).wave _ _ _ (by simp)).setLast _ _ (by simp)
  · rw [State.asleepFrame, State.setLast, if_pos hp]
    rfl
  · rw [State.sdoByte, hsdo]
    rfl
  · rw [State.sdoByte, hsdo]
    cases i with
    | zero => exact absurd hi (Nat.lt_irrefl 0)
    | succ j => rfl

/-! ### The statement -/

/-- Settles O7: the three wake sources by the mode, a selected edge by whether it is the first that wakes, a frame by whether the hub is
asleep and its port powered. -/
theorem wakeSourcesWake : Obligations.WakeSourcesWake := by
  unfold Obligations.WakeSourcesWake
  intro n4 n2 n rising x s
  refine ⟨fun wc hwc hen hup => ?_, fun hfr hup hsel i hi => ?_, asleepFrame_idle, asleepFrame_answers⟩
  · obtain ⟨hc, heq⟩ := exec_wakeSource n4 n2 hwc hen hup
    refine ⟨fun hm => ?_, fun hm hq => ⟨_, heq, State.wake_holds hm hq hc⟩⟩
    obtain ⟨hframe, hcause, hglb, -⟩ := State.wake_starts hm hc (Frame.refl { flds := [glbWakeCause], blks := [.glb] } s) (by simp) (by simp)
    exact ⟨_, heq, hframe, hcause, hglb⟩
  · have heq := exec_edgeAsleep hfr hup hsel hi
    refine ⟨fun hm hw hnone => ⟨_, heq, State.stinAsleep_wakes rising hm hw hnone⟩, fun h => ⟨_, heq, ?_⟩⟩
    rw [State.stinAsleep_lost rising h]
    exact s.stinLost_counts n

end Sys2Proof.Machine
end

section
/-! SUPPORT. The statement on the trim law (spec/06): what a trim update measures, the law's terms and total, the write of HTM_INCR, and the
keep trim's rotation term (R259 to R270). -/

namespace Sys2Proof.Machine

open F

/-! ### Saturated values in 32-bit fields -/

theorem satS_32_bounds (i : Int) : -(2 ^ 31) ≤ satS 32 i ∧ satS 32 i < 2 ^ 31 := by
  unfold satS
  omega

theorem State.rd_wrS_same (s : State) {f : Fld} (hw : f.width = 32) (i : Int) : (s.wrS f i).rd f = toBits 32 i := by
  have hlt : toBits 32 i < 2 ^ 32 := by unfold toBits; omega
  rw [State.wrS, State.rd_wr_same, hw, Nat.mod_eq_of_lt hlt]

/-- A field that holds the bits of a saturated value reads as that value. -/
theorem State.rdS_of_saturated {s : State} {f : Fld} (hw : f.width = 32) {i : Int} (h : s.rd f = toBits 32 (satS 32 i)) :
    s.rdS f = satS 32 i := by
  obtain ⟨hlo, hhi⟩ := satS_32_bounds i
  rw [State.rdS, h, hw, signedOf_toBits_32 hlo hhi]

/-! ### T, G and the learner's second (R265 to R269) -/

/-- What the update of G may change. -/
def gTouch : Touch := { flds := [tG, tGStale], blks := [.trm] }

theorem State.gGather_eq (s : State) (v : Nat) (acq : Bool) :
    ∃ x : TrmS, s.gGather v acq = { s with trm := x } ∧ x.base = s.trm.base := by
  unfold State.gGather
  split <;> exact ⟨_, rfl, rfl⟩

/-- G is written for the named mill, or is 0 without one, and the learner's second takes it. INCR_BASE stays. -/
theorem State.gUpdate_spec (s : State) :
    Frame gTouch s s.gUpdate ∧ s.gUpdate.trm.base = s.trm.base ∧ (s.rd tGmill = 0x1F → s.gUpdate.rd tG = 0) := by
  have hgather : ∀ (u : State) (v : Nat) (acq : Bool), Frame gTouch s u → u.trm = s.trm → (s.rd tGmill = 0x1F → u.rd tG = 0) →
      Frame gTouch s (u.gGather v acq) ∧ (u.gGather v acq).trm.base = s.trm.base ∧ (s.rd tGmill = 0x1F → (u.gGather v acq).rd tG = 0) := by
    intro u v acq hframe htrm hzero
    obtain ⟨x, heq, hbase⟩ := u.gGather_eq v acq
    rw [heq]
    exact ⟨hframe.trm x (by simp [gTouch]), hbase.trans (congrArg TrmS.base htrm), hzero⟩
  have hstale : ∀ (u : State) (v : Nat), Frame gTouch s u → Frame gTouch s (u.wr tGStale v) := fun u v h => h.wr _ _ (by simp [gTouch])
  have hG : ∀ v, Frame gTouch s (s.wr tG v) := fun v => (Frame.refl _ s).wr _ _ (by simp [gTouch])
  unfold State.gUpdate
  split
  case h_1 => exact hgather _ _ _ (hstale _ _ (hG _)) rfl fun _ => (State.rd_wr_ne _ (by decide) _).trans (State.rd_wr_same s tG 0)
  case h_2 m hm =>
    have hnamed : s.rd tGmill ≠ 0x1F := fun h => by simp [State.gMillOf, h] at hm
    refine hgather _ _ _ ?_ ?_ fun h => absurd h hnamed
    · split
      · exact hstale _ _ (hG _)
      · exact hstale _ _ (Frame.refl _ s)
    · split
      · rw [State.wr_trm, State.wr_trm]
      · rw [State.wr_trm]

/-- The source of T and T itself, as a trim update shows them first. -/
def State.tempShown (s : State) : State :=
  let u := if s.fallback && !s.on tFallback then s.trmEvt 3 else s
  (u.wr tFallback u.fallback.toNat).wrS tTemp u.lawTemp

/-- The hub with all that the law takes. -/
def State.measured (s : State) : State := s.tempShown.gUpdate

theorem State.trimUpdate_eq (s : State) : s.trimUpdate = s.measured.lawTerms.writeIncr := rfl

theorem Frame.tempShown (s : State) : Frame { flds := [tEvt, tFallback, tTemp] } s s.tempShown := by
  have hflag : Frame { flds := [tEvt, tFallback, tTemp] } s (if s.fallback && !s.on tFallback then s.trmEvt 3 else s) := by
    split
    · exact (Frame.refl _ s).setBits _ _ (by simp)
    · exact Frame.refl _ s
  exact (hflag.wr _ _ (by simp)).wrS _ _ (by simp)

theorem State.tempShown_trm (s : State) : s.tempShown.trm = s.trm :=
  (Frame.tempShown s).blks .trm (by simp) (by simp [Blk.kind])

/-- What the measuring part of a trim update may change. -/
def measureTouch : Touch := { flds := [tFallback, tEvt, tTemp, tG, tGStale], blks := [.trm] }

theorem Frame.measured (s : State) : Frame measureTouch s s.measured :=
  ((Frame.tempShown s).mono (by simp [measureTouch]) (by simp) (by simp) (by simp) (by simp)).trans
    (s.tempShown.gUpdate_spec.1.mono (by simp [measureTouch, gTouch]) (by simp [gTouch]) (by simp [measureTouch, gTouch]) (by simp [gTouch])
      (by simp [gTouch]))

theorem State.rd_measured (s : State) {f : Fld} (hlo : f.lo < 32) (hf : ∀ g ∈ measureTouch.flds, g.key ≠ f.key) :
    s.measured.rd f = s.rd f :=
  (Frame.measured s).regs f hf hlo (by simp [Fld.outside, measureTouch])

theorem State.measured_base (s : State) : s.measured.trm.base = s.trm.base := by
  obtain ⟨-, hbase, -⟩ := s.tempShown.gUpdate_spec
  rw [State.measured, hbase, s.tempShown_trm]

theorem State.measured_tG (s : State) (h : s.rd tGmill = 0x1F) : s.measured.rd tG = 0 := by
  obtain ⟨-, -, hzero⟩ := s.tempShown.gUpdate_spec
  exact hzero (((Frame.tempShown s).regs tGmill (by decide) (by decide) (by simp [Fld.outside])).trans h)

/-! ### The terms and their total (R259, R262, R263) -/

/-- The hub with the given terms and the total of the base and them, each saturated. -/
def State.putTerms (s : State) (t a g : Int) : State :=
  (((s.wrS tTermT (satS 32 t)).wrS tTermA (satS 32 a)).wrS tTermG (satS 32 g)).wrS tMainTotal
    (satS 32 (s.rdS tMainBase + satS 32 t + satS 32 a + satS 32 g))

theorem State.rd_putTerms (s : State) (t a g : Int) : (s.putTerms t a g).rd tTermT = toBits 32 (satS 32 t) ∧
    (s.putTerms t a g).rd tTermA = toBits 32 (satS 32 a) ∧ (s.putTerms t a g).rd tTermG = toBits 32 (satS 32 g) ∧
    (s.putTerms t a g).rd tMainTotal = toBits 32 (satS 32 (s.rdS tMainBase + satS 32 t + satS 32 a + satS 32 g)) := by
  have hkept : ∀ (u : State) (i : Int) {f g : Fld}, f.key ≠ g.key → (u.wrS f i).rd g = u.rd g := fun u _ _ _ h => u.rd_wr_ne h _
  unfold State.putTerms
  refine ⟨?_, ?_, ?_, State.rd_wrS_same _ rfl _⟩
  · rw [hkept _ _ (by decide), hkept _ _ (by decide), hkept _ _ (by decide), State.rd_wrS_same _ rfl]
  · rw [hkept _ _ (by decide), hkept _ _ (by decide), State.rd_wrS_same _ rfl]
  · rw [hkept _ _ (by decide), State.rd_wrS_same _ rfl]

theorem State.rdS_putTerms (s : State) (t a g : Int) : (s.putTerms t a g).rdS tTermT = satS 32 t ∧
    (s.putTerms t a g).rdS tTermA = satS 32 a ∧ (s.putTerms t a g).rdS tTermG = satS 32 g ∧
    (s.putTerms t a g).rdS tMainTotal = satS 32 (s.rdS tMainBase + satS 32 t + satS 32 a + satS 32 g) := by
  obtain ⟨hT, hA, hG, hM⟩ := s.rd_putTerms t a g
  exact ⟨State.rdS_of_saturated rfl hT, State.rdS_of_saturated rfl hA, State.rdS_of_saturated rfl hG, State.rdS_of_saturated rfl hM⟩

/-- In hardware law mode the hub computes the terms. -/
theorem State.lawTerms_computed {s : State} (h : s.on tMode = false) :
    s.lawTerms = s.putTerms s.rawTermT (s.rdS tAgeRate * s.mrd kAgeDays) (roundDivI (s.rdS tGsensMain * s.rd tG) 16) := by
  simp [State.lawTerms, State.putTerms, h]

/-- In host-assisted law mode they are 0. -/
theorem State.lawTerms_hosted {s : State} (h : s.on tMode = true) : s.lawTerms = s.putTerms 0 0 0 := by
  have hzero : satS 32 0 = 0 := by decide
  simp [State.lawTerms, State.putTerms, h, hzero]

theorem State.lawTerms_putTerms (s : State) : ∃ t a g, s.lawTerms = s.putTerms t a g := by
  cases h : s.on tMode with
  | false => exact ⟨_, _, _, State.lawTerms_computed h⟩
  | true => exact ⟨_, _, _, State.lawTerms_hosted h⟩

theorem State.lawTerms_total (s : State) : s.lawTerms.rdS tMainTotal =
    satS 32 (s.rdS tMainBase + s.lawTerms.rdS tTermT + s.lawTerms.rdS tTermA + s.lawTerms.rdS tTermG) := by
  obtain ⟨t, a, g, heq⟩ := s.lawTerms_putTerms
  obtain ⟨hT, hA, hG, hM⟩ := s.rdS_putTerms t a g
  rw [heq, hT, hA, hG, hM]

/-- The fields of the law's results. -/
def termTouch : Touch := { flds := [tTermT, tTermA, tTermG, tMainTotal] }

theorem Frame.termsShown (s : State) : Frame termTouch s s.lawTerms :=
  ((((Frame.refl _ s).wrS _ _ (by simp [termTouch])).wrS _ _ (by simp [termTouch])).wrS _ _ (by simp [termTouch])).wrS _ _
    (by simp [termTouch])

theorem State.rd_lawTerms (s : State) {f : Fld} (hlo : f.lo < 32) (hf : ∀ g ∈ termTouch.flds, g.key ≠ f.key) :
    s.lawTerms.rd f = s.rd f :=
  (Frame.termsShown s).regs f hf hlo (by simp [Fld.outside, termTouch])

/-! ### The write of HTM_INCR (R259, R261) -/

/-- What the write of HTM_INCR may change. -/
def incrTouch : Touch := { flds := [tEvt], blks := [.htm] }

theorem Frame.incrWritten (s : State) : Frame incrTouch s s.writeIncr := by
  unfold State.writeIncr
  split
  · refine Frame.htm ?_ _ (by simp [incrTouch])
    split
    · exact (Frame.refl _ s).setBits _ _ (by simp [incrTouch])
    · exact Frame.refl _ s
  · exact Frame.refl _ s

theorem State.rd_writeIncr (s : State) {f : Fld} (hlo : f.lo < 32) (hf : ∀ g ∈ incrTouch.flds, g.key ≠ f.key) :
    s.writeIncr.rd f = s.rd f :=
  (Frame.incrWritten s).regs f hf hlo (by simp [Fld.outside, incrTouch])

theorem clampIncr_eq (i : Int) : (clampIncr i : Int) = max 0x03FEF9DB23 (min 0x04010624DD i) := by
  unfold clampIncr incrMin incrMax
  omega

theorem State.writeIncr_hardware {s : State} (h : s.hwDiscipline = true) : s.writeIncr.htm.incr = clampIncr s.lawIncr := by
  rw [State.writeIncr, if_pos h]

theorem State.writeIncr_software {s : State} (h : s.hwDiscipline = false) : s.writeIncr = s := by
  rw [State.writeIncr, if_neg (by simp [h])]

/-! ### A trim update (R260) -/

section
variable (s : State)

/-- What a trim update may change, field by field. -/
def lawTouch : Touch := { flds := [tFallback, tEvt, tTemp, tG, tGStale, tTermT, tTermA, tTermG, tMainTotal], blks := [.htm, .trm] }

theorem Frame.trimLaw : Frame lawTouch s s.trimUpdate := by
  have hmeasured : Frame lawTouch s s.measured :=
    (Frame.measured s).mono (by simp [lawTouch, measureTouch]) (by simp [measureTouch]) (by simp [lawTouch, measureTouch])
      (by simp [measureTouch]) (by simp [measureTouch])
  have hterms : ∀ u : State, Frame lawTouch u u.lawTerms := fun u =>
    (Frame.termsShown u).mono (by simp [lawTouch, termTouch]) (by simp [termTouch]) (by simp [termTouch]) (by simp [termTouch])
      (by simp [termTouch])
  have hincr : ∀ u : State, Frame lawTouch u u.writeIncr := fun u =>
    (Frame.incrWritten u).mono (by simp [lawTouch, incrTouch]) (by simp [incrTouch]) (by simp [lawTouch, incrTouch]) (by simp [incrTouch])
      (by simp [incrTouch])
  exact (hmeasured.trans (hterms _)).trans (hincr _)

/-- Of the register fields the write of HTM_INCR changes only the flags: every other one shows what the law left. -/
theorem State.rd_trimUpdate {f : Fld} (hlo : f.lo < 32) (hf : tEvt.key ≠ f.key) :
    s.trimUpdate.rd f = s.measured.lawTerms.rd f := by
  rw [s.trimUpdate_eq]
  exact s.measured.lawTerms.rd_writeIncr hlo (by simpa [incrTouch] using hf)

theorem State.rdS_trimUpdate {f : Fld} (hlo : f.lo < 32) (hf : tEvt.key ≠ f.key) :
    s.trimUpdate.rdS f = s.measured.lawTerms.rdS f :=
  State.rdS_congr (s.rd_trimUpdate hlo hf)

theorem State.trimUpdate_tG : s.trimUpdate.rd tG = s.measured.rd tG := by
  rw [s.rd_trimUpdate (by decide) (by decide), s.measured.rd_lawTerms (by decide) (by decide)]

theorem State.trimUpdate_total : s.trimUpdate.rdS tMainTotal =
    satS 32 (s.rdS tMainBase + s.trimUpdate.rdS tTermT + s.trimUpdate.rdS tTermA + s.trimUpdate.rdS tTermG) := by
  have hbase : s.measured.rdS tMainBase = s.rdS tMainBase := State.rdS_congr (s.rd_measured (by decide) (by decide))
  rw [s.rdS_trimUpdate (by decide) (by decide), s.rdS_trimUpdate (by decide) (by decide),
    s.rdS_trimUpdate (by decide) (by decide), s.rdS_trimUpdate (by decide) (by decide), s.measured.lawTerms_total, hbase]

theorem State.measured_tMode : s.measured.on tMode = s.on tMode := by
  rw [State.on, State.on, s.rd_measured (by decide) (by decide)]

theorem State.trimUpdate_hosted (h : s.on tMode = true) :
    s.trimUpdate.rd tTermT = 0 ∧ s.trimUpdate.rd tTermA = 0 ∧ s.trimUpdate.rd tTermG = 0 := by
  have hzero : toBits 32 (satS 32 0) = 0 := by decide
  obtain ⟨hT, hA, hG, -⟩ := s.measured.rd_putTerms 0 0 0
  rw [s.rd_trimUpdate (by decide) (by decide), s.rd_trimUpdate (by decide) (by decide),
    s.rd_trimUpdate (by decide) (by decide), State.lawTerms_hosted (s.measured_tMode.trans h), hT, hA, hG, hzero]
  exact ⟨rfl, rfl, rfl⟩

theorem State.trimUpdate_computed (h : s.on tMode = false) :
    s.trimUpdate.rdS tTermA = satS 32 (s.rdS tAgeRate * s.mrd kAgeDays) ∧
      s.trimUpdate.rdS tTermG = satS 32 (roundDivI (s.rdS tGsensMain * s.trimUpdate.rd tG) 16) := by
  have hrate : s.measured.rdS tAgeRate = s.rdS tAgeRate := State.rdS_congr (s.rd_measured (by decide) (by decide))
  have hsens : s.measured.rdS tGsensMain = s.rdS tGsensMain := State.rdS_congr (s.rd_measured (by decide) (by decide))
  have hkeep : s.measured.keep = s.keep := (Frame.measured s).blks .keep (by simp [measureTouch]) (by simp [measureTouch, Blk.kind])
  have hdays : s.measured.mrd kAgeDays = s.mrd kAgeDays := by rw [State.mrd, State.mrd, hkeep]
  rw [s.trimUpdate_tG, s.rdS_trimUpdate (by decide) (by decide), s.rdS_trimUpdate (by decide) (by decide),
    State.lawTerms_computed (s.measured_tMode.trans h), hrate, hsens, hdays]
  obtain ⟨-, hA, hG, -⟩ := s.measured.rdS_putTerms s.measured.rawTermT (s.rdS tAgeRate * s.mrd kAgeDays)
    (roundDivI (s.rdS tGsensMain * s.measured.rd tG) 16)
  exact ⟨hA, hG⟩

/-- The discipline mode stands as before when HTM_INCR is written. -/
theorem State.lawTerms_hwDiscipline : s.measured.lawTerms.hwDiscipline = s.hwDiscipline :=
  State.hwDiscipline_congr ((s.measured.rd_lawTerms (by decide) (by decide)).trans (s.rd_measured (by decide) (by decide)))

theorem State.trimUpdate_incr (h : s.hwDiscipline = true) : (s.trimUpdate.htm.incr : Int) = max 0x03FEF9DB23 (min 0x04010624DD
    (s.trm.base + roundDivI (s.trm.base * (s.trimUpdate.rdS tMainTotal + s.rdS dServo)) (2 ^ 42))) := by
  have hbase : s.measured.lawTerms.trm.base = s.trm.base := s.measured_base
  have hservo : s.measured.lawTerms.rdS dServo = s.rdS dServo :=
    State.rdS_congr ((s.measured.rd_lawTerms (by decide) (by decide)).trans (s.rd_measured (by decide) (by decide)))
  have hlaw : s.measured.lawTerms.lawIncr =
      s.trm.base + roundDivI (s.trm.base * (s.trimUpdate.rdS tMainTotal + s.rdS dServo)) (2 ^ 42) := by
    rw [State.lawIncr, hbase, hservo, s.rdS_trimUpdate (by decide) (by decide)]
  rw [← hlaw, ← clampIncr_eq, s.trimUpdate_eq, State.writeIncr_hardware (s.lawTerms_hwDiscipline.trans h)]

theorem State.trimUpdate_htm (h : s.hwDiscipline = false) : s.trimUpdate.htm = s.htm := by
  rw [s.trimUpdate_eq, State.writeIncr_software (s.lawTerms_hwDiscipline.trans h)]
  exact (Frame.measured s).blks .htm (by simp [measureTouch]) (by simp [measureTouch, Blk.kind])

end

theorem exec_trimUpdate {s : State} (hrun : s.running = true) : exec .trimUpdate s = .next s.trimUpdate :=
  congrArg Host.Outcome.next (if_pos hrun)

/-! ### The keep trim's rotation term (R270) -/

theorem exec_keepGUpdate {s : State} (hrun : s.running = true) : exec .keepGUpdate s = .next s.keepGUpdate :=
  congrArg Host.Outcome.next (if_pos hrun)

theorem keepGUpdate_sends {s : State} (hrun : s.running = true) (hidle : s.on kBusy = false)
    (hmoved : 4398 ≤ (s.keepG - s.trm.gSent).natAbs) :
    Happens .keepGUpdate s { flds := [kBusy], blks := [.keep, .trm] } fun t => t.rd kBusy = 1 ∧ t.trm.gSent = s.keepG ∧
      t.keep = { s.keep with win := some (0x010028, toBits 32 t.trm.gSent) } := by
  have hsend : s.keepGUpdate =
      State.keepSend { s with trm := { s.trm with gSent := s.keepG } } 0x010028 (toBits 32 s.keepG) := by
    rw [State.keepGUpdate, if_pos (by simp [hmoved, hidle])]
  refine ⟨_, exec_keepGUpdate hrun, ?_⟩
  rw [hsend]
  exact ⟨(((Frame.refl _ s).trm _ (by simp)).keep _ (by simp)).wr _ _ (by simp), State.rd_wr_same _ _ _, rfl, rfl⟩

theorem keepGUpdate_waits {s : State} (hrun : s.running = true) (hbusy : s.on kBusy = true) :
    Happens .keepGUpdate s {} fun _ => True := by
  have hidle : s.keepGUpdate = s := by rw [State.keepGUpdate, if_neg (by simp [hbusy])]
  exact ⟨s, (exec_keepGUpdate hrun).trans (congrArg _ hidle), Frame.refl _ s, trivial⟩

/-! ### The statement -/

/-- Settles O21: the law and HTM_INCR part by part of a trim update, the keep window by whether it is busy. -/
theorem trimLawSetsIncrement : Obligations.TrimLawSetsIncrement := by
  unfold Obligations.TrimLawSetsIncrement
  intro s hrun
  refine ⟨⟨s.trimUpdate, exec_trimUpdate hrun, ?_⟩, keepGUpdate_sends hrun, keepGUpdate_waits hrun⟩
  exact ⟨Frame.trimLaw s, s.trimUpdate_total, s.trimUpdate_hosted, s.trimUpdate_computed, fun h => s.trimUpdate_tG.trans (s.measured_tG h),
    s.trimUpdate_incr, s.trimUpdate_htm⟩

end Sys2Proof.Machine
end

section
/-! SUPPORT. What the calendar goes by, and what its parts may change: status and view words, alarms, reference outputs (spec/07). -/

namespace Sys2Proof.Machine

open F

/-! ### Frames by area -/

section
variable {l : List Fld} {bs : List Blk} {w : Touch} {s t : State} (h : Frame { flds := l, blks := bs } s t)
include h

/-- A frame of fields and parts alone holds where these are among what another allows. -/
theorem Frame.of_flds (hf : ∀ f ∈ l, f ∈ w.flds) (hb : ∀ b ∈ bs, b ∈ w.blks) : Frame w s t :=
  h.mono hf (by simp) hb (by simp) (by simp)

/-- The same where a field may stand in an area instead. -/
theorem Frame.widen (hf : ∀ f ∈ l, f ∈ w.flds ∨ f.lo < 32 ∧ ∃ a ∈ w.areas, a.1 ≤ f.addr ∧ f.addr < a.2)
    (hb : ∀ b ∈ bs, b ∈ w.blks) : Frame w s t where
  regs f hn hlo ho := by
    refine h.regs f (fun g hg => ?_) hlo (by simp [Fld.outside])
    rcases hf g hg with hw | ⟨hglo, a, haw, h1, h2⟩
    · exact hn g hw
    · have hout := ho a haw
      unfold Fld.key
      omega
  mem _ a x _ := h.mem rfl a x (by simp)
  blks b x y := h.blks b (fun z => x (hb b z)) fun z => y (hb _ z)
  queue := h.queue

end

/-- The areas of `w` stand below the host block. -/
def Touch.areasBelowHst (w : Touch) : Prop := ∀ a ∈ w.areas, a.2 ≤ 0x100000

/-- A change of fields and areas below the host block leaves the port of every slot. -/
theorem Frame.portOf_of_areas {w : Touch} {s t : State} (h : Frame w s t) (hw : ∀ g ∈ w.flds, g.belowHst) (ha : w.areasBelowHst) (k : Nat) :
    t.portOf k = s.portOf k := by
  have hkept : ∀ f : Fld, 0x100000 ≤ f.addr → f.lo < 32 → t.rd f = s.rd f := fun f hf hlo =>
    h.regs f (fun g hg => (Fld.belowHst_ne (hw g hg) (by unfold Fld.key; omega)).symm) hlo fun a haw =>
      .inr (Nat.le_trans (ha a haw) hf)
  exact State.portOf_congr k (hkept _ (by simp [hClass, F.rws, hBase]) (by simp [hClass, F.rws]))
    (hkept _ (by simp only [hPort, F.rws, hBase]; omega) (by simp [hPort, F.rws]))

/-- An operation of a ready slot that acts within its frame on fields and areas below the host block. -/
theorem Answers.of_host_areas {i : Instr} {slot : Slot} {s : State} {op : State → Res} {c : Code} {w : Touch} {P : State → Prop}
    (hi : exec i s = host slot s op) (hs : s.ready slot.val = true) (u : State) (hop : op (s.marked slot.val) = (c, u))
    (hframe : Frame w (s.marked slot.val) u) (hw : ∀ g ∈ w.flds, g.belowHst) (ha : w.areasBelowHst)
    (hP : P (State.finish slot (c, u))) : Answers i slot c s w P := by
  refine ⟨_, hi.trans (host_ready slot s op hs), ?_⟩
  rw [hop]
  have hacts : Frame { w with flds := s.slotFlds slot.val c ++ w.flds, blks := .answer :: .last :: w.blks } (s.marked slot.val) u :=
    Frame.mono (fun f hf => List.mem_append_right _ hf) (fun _ h => h) (fun b hb => by simp [hb]) (fun _ h => h) id hframe
  exact ⟨Served.intro slot c w s u [] ((Frame.marked slot c w s).trans hacts)
    (by rw [hframe.portOf_of_areas hw ha, s.portOf_marked]), hP⟩

/-! ### What the calendar goes by -/

/-- From `s` to `t` Hub Time, the leap table, the local offset and the settings of the outputs stay: of the registers below the host block
only those of the calendar's status, view and alarms may change. -/
structure SameClock (s t : State) : Prop where
  htm : t.htm = s.htm
  glb : t.glb = s.glb
  rd  : ∀ f : Fld, f.lo < 32 → f.belowHst → f.outside [(0x030000, 0x030030), (0x030040, 0x030100), (0x030200, 0x030300)] → t.rd f = s.rd f

/-- What the calendar's own operations may change at most, beside its table and settings. -/
def calTouch : Touch := { areas := [(0x030000, 0x030030), (0x030040, 0x030100), (0x030200, 0x030300)], blks := [.cal, .ended] }

theorem Frame.sameClock {s t : State} (h : Frame calTouch s t) : SameClock s t where
  htm := h.blks .htm (by simp [calTouch]) (by simp [calTouch, Blk.kind])
  glb := h.blks .glb (by simp [calTouch]) (by simp [calTouch, Blk.kind])
  rd f hlo _ ho := h.regs f (by simp [calTouch]) hlo ho

theorem State.sameClock_marked (s : State) (k : Nat) : SameClock s (s.marked k) where
  htm := s.marked_htm k
  glb := s.marked_glb k
  rd _ _ hf _ := s.rd_marked_below k hf

section
variable {s t : State} (h : SameClock s t)
include h

theorem SameClock.running : t.running = s.running := by unfold State.running; rw [h.htm, h.glb]

theorem SameClock.nowSec : t.nowSec = s.nowSec := by unfold State.nowSec; rw [h.htm]

/-- A register below the host block that lies beside the areas of status, view and alarms. -/
theorem SameClock.rd_beside {f : Fld} (hlo : f.lo < 32) (h1 : f.addr < 0x030000 ∨ 0x030030 ≤ f.addr)
    (h2 : f.addr < 0x030040 ∨ 0x030100 ≤ f.addr)
    (h3 : f.addr < 0x030200 ∨ 0x030300 ≤ f.addr) (hhst : f.addr < 0x100000) : t.rd f = s.rd f := by
  refine h.rd f hlo (by unfold Fld.belowHst Fld.key; omega) ?_
  simp only [Fld.outside, List.forall_mem_cons]
  exact ⟨h1, h2, h3, by simp⟩

theorem SameClock.rd_low {f : Fld} (hlo : f.lo < 32) (hf : f.addr < 0x030000) : t.rd f = s.rd f :=
  h.rd_beside hlo (by omega) (by omega) (by omega) (by omega)

theorem SameClock.leaps : t.leaps = s.leaps := by
  have hout : ∀ f : Fld, f.lo < 32 → 0x030100 ≤ f.addr → f.addr < 0x030200 → t.rd f = s.rd f := fun f hlo h1 h2 =>
    h.rd_beside hlo (by omega) (by omega) (by omega) (by omega)
  unfold State.leaps
  congr 1
  refine List.map_congr_left fun k hk => ?_
  have hk32 : k < 32 := List.mem_range.1 hk
  rw [hout (cLeapMjd k) (by simp [cLeapMjd, F.rws]) (by simp [cLeapMjd, F.rws]) (by simp only [cLeapMjd, F.rws]; omega),
    hout (cLeapOfs k) (by simp [cLeapOfs, F.rws]) (by simp [cLeapOfs, F.rws]) (by simp only [cLeapOfs, F.rws]; omega)]

theorem SameClock.rd_setting {f : Fld} (hlo : f.lo < 32) (h1 : 0x030300 ≤ f.addr) (h2 : f.addr < 0x031000) : t.rd f = s.rd f :=
  h.rd_beside hlo (by omega) (by omega) (by omega) (by omega)

theorem SameClock.leapHere (x : Nat) : t.leapHere x = s.leapHere x := by unfold State.leapHere; rw [h.leaps]

theorem SameClock.leapNow : t.leapNow = s.leapNow := by
  funext x
  unfold State.leapNow
  rw [h.leaps]

theorem SameClock.fields : t.fields = s.fields := by
  have hlocal : t.rdS cLocalOfs = s.rdS cLocalOfs := 
    State.rdS_congr (h.rd_beside (by decide) (by decide) (by decide) (by decide) (by decide))
  funext scale x
  unfold State.fields State.taiUtc
  rw [h.leaps, h.leapNow, hlocal]

theorem SameClock.viewOk (x : Nat) : t.viewOk x = s.viewOk x := by
  unfold State.viewOk State.on
  rw [h.fields, h.rd_low (by decide) (by decide)]

theorem SameClock.viewValid : t.viewValid = s.viewValid := by
  unfold State.viewValid
  rw [h.nowSec, h.viewOk]

theorem SameClock.almSearch (a : AlmSpec) (fuel x : Nat) : t.almSearch a x fuel = s.almSearch a x fuel := by
  induction fuel generalizing x with
  | zero => rfl
  | succ fuel ih => simp only [State.almSearch, h.fields, ih]

theorem SameClock.almFirst (a : AlmSpec) (x : Nat) : t.almFirst a x = s.almFirst a x := by
  unfold State.almFirst State.leapSecs
  rw [h.fields, h.leapNow, h.leaps, h.almSearch]

theorem SameClock.gateOk (g : Nat) : t.gateOk g = s.gateOk g := by
  unfold State.gateOk State.on State.mode
  rw [h.rd_low (f := htmTimeSet) (by decide) (by decide), h.rd_low (f := glbMode) (by decide) (by decide)]

theorem SameClock.refAllowed (i : Fin 6) : t.refAllowed i = s.refAllowed i := by
  have hset : ∀ f : Fld, f.lo < 32 ∧ 0x030300 ≤ f.addr ∧ f.addr < 0x031000 → t.rd f = s.rd f := fun f hf => h.rd_setting hf.1 hf.2.1 hf.2.2
  obtain ⟨i, hi⟩ := i
  match i with
  | 0 => simp only [State.refAllowed, State.on, h.gateOk, hset cPpsEn (by decide), hset cPpsGate (by decide)]
  | 1 => simp only [State.refAllowed, State.on, h.gateOk, hset cIrigEn (by decide), hset cIrigGate (by decide)]
  | n + 2 =>
    have hen : t.rd (cClkEn n) = s.rd (cClkEn n) := hset _ (by simp only [cClkEn, F.rws]; omega)
    have hgate : t.rd (cClkGate n) = s.rd (cClkGate n) := hset _ (by simp only [cClkGate, F.rws]; omega)
    simp only [State.refAllowed, State.on, h.gateOk, hen, hgate]

end

/-! ### Alarms and their searches -/

theorem State.rd_setAlm (s : State) (n : Nat) (x : AlmS) (f : Fld) : (s.setAlm n x).rd f = s.rd f := rfl

@[simp] theorem State.alm_setAlm (s : State) (n : Nat) (x : AlmS) : (s.setAlm n x).alm n = x := Assoc.get_put_same _ _ _ _

theorem Frame.setAlm {w : Touch} {s t : State} (h : Frame w s t) (n : Nat) (x : AlmS) (hb : .cal ∈ w.blks) : Frame w s (t.setAlm n x) :=
  h.cal _ hb

/-- What the start of a search may change. -/
def busyTouch : Touch := { flds := [cAlmBusy], blks := [.cal] }

theorem Frame.almStart (s : State) (n : Nat) : Frame busyTouch s (s.almStart n) := by
  unfold State.almStart
  split
  · exact ((Frame.refl _ s).setAlm _ _ (by simp [busyTouch])).setBits _ _ (by simp [busyTouch])
  · exact ((Frame.refl _ s).setAlm _ _ (by simp [busyTouch])).clrBits _ _ (by simp [busyTouch])

/-- A search keeps the comparison in force, and starts after now where the alarm is enabled and the view valid (R319, R322). -/
theorem State.alm_almStart (s : State) (n : Nat) : (s.almStart n).alm n =
    { s.alm n with search := if s.on (cAlmEn n) && s.viewValid then some (s.nowSec + 1) else none, owed := false } := by
  unfold State.almStart
  split
  · exact s.alm_setAlm n _
  · exact s.alm_setAlm n _

theorem State.busy_almStart (s : State) (n : Fin 8) (hen : s.on (cAlmEn n) = true) (hview : s.viewValid = true) :
    (s.almStart n).bit cAlmBusy n = true := by
  rw [State.almStart, if_pos (by simp [hen, hview])]
  exact State.bit_setBits_same _ n.isLt

theorem Frame.almRestart (s : State) (loc : Bool) : Frame busyTouch s (s.almRestart loc) := by
  unfold State.almRestart
  refine List.foldlRecOn _ _ (Frame.refl _ s) fun u hu n _ => ?_
  split
  · exact hu.trans (Frame.almStart u n)
  · exact hu

/-! ### Status and view words -/

/-- What the status fields' update may change (R308 to R311, R316). -/
def statusTouch : Touch :=
  { flds := [cView 0, cView 1, cView 2, cView 3, cView 4, cView 5, cViewValid, cLeapNow, cLeapSoon, cTaiUtc, cLeapNextLo, cLeapNextHi] }

theorem cView_mem_statusTouch {i : Nat} (hi : i < 6) : cView i ∈ statusTouch.flds := by
  have hall : ∀ j : Fin 6, cView j ∈ statusTouch.flds := by decide
  exact hall ⟨i, hi⟩

theorem Frame.calStatus (s : State) : Frame statusTouch s s.calStatus := by
  have hst : ∀ (u : State) (f : Fld) (v : Nat), Frame statusTouch s u → f ∈ statusTouch.flds → Frame statusTouch s (u.wr f v) :=
    fun u f v hu hf => hu.wr f v hf
  have hfields : ∀ a b c d e f, Frame statusTouch s
      ((((((s.wr cViewValid a).wr cLeapNow b).wr cLeapSoon c).wr cTaiUtc d).wr cLeapNextLo e).wr cLeapNextHi f) := fun a b c d e f => by
    refine hst _ _ _ (hst _ _ _ (hst _ _ _ (hst _ _ _ (hst _ _ _ (hst _ _ _ (Frame.refl _ s) ?_) ?_) ?_) ?_) ?_) ?_ <;> simp [statusTouch]
  unfold State.calStatus
  refine iteInduction (motive := Frame statusTouch s) (fun _ => hfields ..) fun _ => ?_
  refine List.foldlRecOn _ _ (hfields ..) fun u hu i hi => hst u _ _ hu ?_
  exact cView_mem_statusTouch (List.mem_range.1 hi)

/-- The words are shown in the view, from word `k` on (R312). -/
def State.showWords (s : State) (k : Nat) (l : List Nat) : State := (l.zipIdx k).foldl (fun s wi => s.wr (cView wi.2) wi.1) s

theorem State.showWords_cons (s : State) (k x : Nat) (l : List Nat) : s.showWords k (x :: l) = (s.wr (cView k) x).showWords (k + 1) l := rfl

theorem Frame.showWords {w : Touch} {s t : State} (h : Frame w s t) (k : Nat) (l : List Nat) (hw : ∀ i < l.length, cView (k + i) ∈ w.flds) :
    Frame w s (t.showWords k l) := by
  induction l generalizing t k with
  | nil => exact h
  | cons x l ih =>
    rw [State.showWords_cons]
    refine ih (h.wr _ _ (hw 0 (Nat.zero_lt_succ _))) (k + 1) fun i hi => ?_
    have hnext : k + 1 + i = k + (i + 1) := by omega
    rw [hnext]
    exact hw (i + 1) (Nat.succ_lt_succ hi)

theorem cView_key_ne {i j : Nat} (h : i ≠ j) : (cView i).key ≠ (cView j).key := by
  simp only [Fld.key, cView, F.ro, ne_eq]
  omega

/-- A word shown leaves those before it. -/
theorem State.rd_showWords_before (s : State) {j k : Nat} (l : List Nat) (hj : j < k) : (s.showWords k l).rd (cView j) = s.rd (cView j) := by
  induction l generalizing s k with
  | nil => rfl
  | cons x l ih => rw [State.showWords_cons, ih _ (Nat.lt_succ_of_lt hj), State.rd_wr_ne _ (cView_key_ne (Nat.ne_of_gt hj))]

theorem State.rd_showWords (s : State) (k : Nat) (l : List Nat) {i : Nat} (hi : i < l.length) :
    (s.showWords k l).rd (cView (k + i)) = l[i] % 2 ^ 32 := by
  induction l generalizing s k i with
  | nil => exact absurd hi (Nat.not_lt_zero i)
  | cons x l ih =>
    rw [State.showWords_cons]
    cases i with
    | zero => exact (State.rd_showWords_before _ l (Nat.lt_succ_self k)).trans (State.rd_wr_same _ _ _)
    | succ i =>
      have hnext : k + (i + 1) = k + 1 + i := by omega
      rw [hnext]
      exact ih _ _ (Nat.lt_of_succ_lt_succ hi)

theorem State.viewWords_length (s : State) (x : Nat) : (s.viewWords x).length = 6 := by
  unfold State.viewWords
  split <;> rfl

end Sys2Proof.Machine
end

section
/-! SUPPORT. The second boundary and the reference outputs (R311 to R334): O25. -/

namespace Sys2Proof.Machine

open F

/-! ### Masks -/

theorem maskOf_range_succ (p : Nat → Bool) (n : Nat) :
    maskOf p (List.range (n + 1)) = maskOf p (List.range n) + if p n then 2 ^ n else 0 := by
  rw [maskOf, List.range_succ, List.foldl_append]
  by_cases hp : p n = true <;> simp [maskOf, hp]

theorem maskOf_range_lt (p : Nat → Bool) (n : Nat) : maskOf p (List.range n) < 2 ^ n := by
  induction n with
  | zero => simp [maskOf]
  | succ n ih =>
    rw [maskOf_range_succ, Nat.pow_succ]
    split <;> omega

theorem testBit_maskOf_range (p : Nat → Bool) {n i : Nat} (hi : i < n) : (maskOf p (List.range n)).testBit i = p i := by
  induction n with
  | zero => omega
  | succ n ih =>
    have hlt := maskOf_range_lt p n
    rw [maskOf_range_succ]
    rcases Nat.lt_succ_iff_lt_or_eq.1 hi with hin | rfl
    · rw [← ih hin]
      split
      · rw [Nat.add_comm, Nat.testBit_two_pow_add_gt hin]
      · rfl
    · by_cases hp : p i = true
      · rw [if_pos hp, hp, Nat.add_comm, Nat.testBit_two_pow_add_eq, Nat.testBit_lt_two_pow hlt]; rfl
      · rw [if_neg hp, Nat.add_zero, Nat.testBit_lt_two_pow hlt, Bool.eq_false_iff.2 hp]

/-! ### CLKOUT -/

@[simp] theorem State.clk_setClk (s : State) (n : Nat) (x : ClkS) : (s.setClk n x).clk n = x := Assoc.get_put_same _ _ _ _

theorem State.clk_setClk_ne (s : State) {k n : Nat} (h : k ≠ n) (x : ClkS) : (s.setClk n x).clk k = s.clk k := Assoc.get_put_ne _ _ h _ _

/-- Only the states of the CLKOUTs differ. -/
def ClkOnly (s t : State) : Prop := ∃ l, t = { s with cal := { s.cal with clk := l } }

theorem ClkOnly.refl (s : State) : ClkOnly s s := ⟨s.cal.clk, rfl⟩

theorem ClkOnly.frame {w : Touch} {s t : State} (h : ClkOnly s t) (hb : .cal ∈ w.blks) : Frame w s t := by
  obtain ⟨l, rfl⟩ := h
  exact (Frame.refl w s).cal _ hb

theorem ClkOnly.setClk {s t : State} (h : ClkOnly s t) (n : Nat) (x : ClkS) : ClkOnly s (t.setClk n x) := by
  obtain ⟨l, rfl⟩ := h
  exact ⟨_, rfl⟩

theorem ClkOnly.clkPlan {s t : State} (h : ClkOnly s t) (x n : Nat) : ClkOnly s (t.clkPlan x n) := by
  unfold State.clkPlan
  simp only
  split
  · split
    · exact h
    · exact h.setClk _ _
  · exact h.setClk _ _

theorem ClkOnly.clkBoundary {s t : State} (h : ClkOnly s t) (x n : Nat) : ClkOnly s (t.clkBoundary x n) := by
  unfold State.clkBoundary
  split
  · exact h
  · split
    · exact (h.setClk _ _).clkPlan x n
    · exact h.clkPlan x n

/-- The CLKOUTs at the boundary of second `x`. -/
def State.clkBoundaries (s : State) (x : Nat) : State := (List.range 4).foldl (fun s n => s.clkBoundary x n) s

theorem State.clkBoundaries_only (s : State) (x : Nat) : ClkOnly s (s.clkBoundaries x) :=
  List.foldlRecOn _ _ (ClkOnly.refl s) fun _ hu n _ => hu.clkBoundary x n

/-- PPSOUT and IRIGOUT have their next second, and the outputs that are allowed run (R324). -/
def State.outputsStart (s : State) (x : Nat) : State :=
  { s with cal := { s.cal with
    ppsNext := if s.refRuns 0 then s.cal.ppsNext else firstAfter x (s.rdS cPpsOfs)
    irigNext := if s.refRuns 1 then s.cal.irigNext else firstAfter x (s.rdS cIrigOfs)
    on := maskOf s.refAllowed (List.range 6), resync := false } }

theorem Frame.outputsStart {w : Touch} {s t : State} (h : Frame w s t) (x : Nat) (hb : .cal ∈ w.blks) : Frame w s (t.outputsStart x) :=
  h.cal _ hb

theorem State.testBit_outputsStart_on (s : State) (x : Nat) (i : Fin 6) : (s.outputsStart x).cal.on.testBit i = s.refAllowed i :=
  testBit_maskOf_range _ i.isLt

theorem State.refBoundary_eq (s : State) (x : Nat) : s.refBoundary x = (s.clkBoundaries x).outputsStart x := by
  unfold State.refBoundary State.outputsStart State.clkBoundaries
  rfl

theorem Frame.refBoundary {w : Touch} {s t : State} (h : Frame w s t) (x : Nat) (hb : .cal ∈ w.blks) : Frame w s (t.refBoundary x) := by
  rw [State.refBoundary_eq]
  exact (h.trans ((t.clkBoundaries_only x).frame hb)).outputsStart x hb

theorem State.rd_refBoundary (s : State) (x : Nat) (f : Fld) : (s.refBoundary x).rd f = s.rd f := by
  obtain ⟨l, hl⟩ := s.clkBoundaries_only x
  rw [State.refBoundary_eq, State.outputsStart, State.rd_mk, hl, State.rd_mk]

theorem State.refBoundary_sec (s : State) (x : Nat) : (s.refBoundary x).cal.sec = s.cal.sec := by
  obtain ⟨l, hl⟩ := s.clkBoundaries_only x
  rw [State.refBoundary_eq, State.outputsStart, hl]

/-- Each output runs that EN and GATE allow (R324). -/
theorem State.testBit_refBoundary_on (s : State) (x : Nat) (i : Fin 6) : (s.refBoundary x).cal.on.testBit i = s.refAllowed i := by
  have hclock : SameClock s (s.clkBoundaries x) := (s.clkBoundaries_only x |>.frame (by simp [calTouch])).sameClock
  rw [State.refBoundary_eq, State.testBit_outputsStart_on, hclock.refAllowed]

/-! ### The second boundary -/

theorem Frame.refsCheck {w : Touch} {s t : State} (h : Frame w s t) (hb : .cal ∈ w.blks) : Frame w s t.refsCheck := by
  unfold State.refsCheck
  simp only
  split
  · exact h
  · exact h.cal _ hb

/-- The status and the view words have changed (R312). -/
def State.viewShown (s : State) : State := s.calStatus.showWords 0 (s.viewWords s.nowSec)

/-- Alarms that waited for the view search (R322), and the boundary counts as taken. -/
def State.boundaryTaken (s : State) : State :=
  let u := if !s.on cViewValid && s.viewValid then s.viewShown.almRestart false else s.viewShown
  { u.refsCheck with cal := { u.refsCheck.cal with sec := some s.nowSec } }

theorem State.calBoundary_eq (s : State) : s.calBoundary =
    (if s.boundaryTaken.leapHere s.nowSec then s.boundaryTaken.calEvt 0 else s.boundaryTaken).refBoundary s.nowSec := rfl

theorem Frame.viewShown (s : State) : Frame statusTouch s s.viewShown := by
  refine (Frame.calStatus s).showWords 0 _ fun i hi => ?_
  rw [s.viewWords_length] at hi
  rw [Nat.zero_add]
  exact cView_mem_statusTouch hi

theorem Frame.boundaryTaken (s : State) : Frame busyTouch s.viewShown s.boundaryTaken := by
  have hsearch : Frame busyTouch s.viewShown (if !s.on cViewValid && s.viewValid then s.viewShown.almRestart false else s.viewShown) :=
    iteInduction (motive := Frame busyTouch s.viewShown) (fun _ => Frame.almRestart _ false) fun _ => Frame.refl _ _
  exact (hsearch.refsCheck (by simp [busyTouch])).cal _ (by simp [busyTouch])

/-- What a second boundary may change after the view words. -/
def boundaryTouch : Touch := { flds := [cEvt, cAlmBusy], blks := [.cal] }

theorem Frame.calBoundary_of_viewShown (s : State) : Frame boundaryTouch s.viewShown s.calBoundary := by
  have htaken : Frame boundaryTouch s.viewShown s.boundaryTaken :=
    (Frame.boundaryTaken s).of_flds (by simp [boundaryTouch]) (by simp [boundaryTouch])
  rw [s.calBoundary_eq]
  exact Frame.refBoundary (iteInduction (motive := Frame boundaryTouch s.viewShown) (fun _ => htaken.setBits _ _ (by simp [boundaryTouch]))
    fun _ => htaken) _ (by simp [boundaryTouch])

/-- What a second boundary may change. -/
def secondTouch : Touch :=
  { flds := [cView 0, cView 1, cView 2, cView 3, cView 4, cView 5, cViewValid, cLeapNow, cLeapSoon, cTaiUtc, cLeapNextLo, cLeapNextHi,
      cEvt, cAlmBusy], blks := [.cal] }

theorem Frame.calBoundary (s : State) : Frame secondTouch s s.calBoundary :=
  Frame.trans ((Frame.viewShown s).of_flds (by simp [secondTouch]) (by simp))
    ((Frame.calBoundary_of_viewShown s).of_flds (by simp [secondTouch]) (by simp [secondTouch]))

theorem State.boundaryTaken_sameClock (s : State) : SameClock s s.boundaryTaken := by
  have hview : Frame calTouch s s.viewShown := (Frame.viewShown s).widen (by decide) (by simp)
  exact (hview.trans ((Frame.boundaryTaken s).widen (by decide) (by simp [calTouch]))).sameClock

theorem State.calBoundary_sec (s : State) : s.calBoundary.cal.sec = some s.nowSec := by
  rw [s.calBoundary_eq, State.refBoundary_sec]
  split <;> rfl

theorem State.calBoundary_leapApplied (s : State) (h : s.leapHere s.nowSec = true) : s.calBoundary.bit cEvt 0 = true := by
  rw [s.calBoundary_eq, if_pos ((s.boundaryTaken_sameClock.leapHere _).trans h), State.bit, State.rd_refBoundary]
  exact State.bit_setBits_same _ (by decide)

theorem State.calBoundary_on (s : State) (i : Fin 6) : s.calBoundary.cal.on.testBit i = s.refAllowed i := by
  rw [s.calBoundary_eq, State.testBit_refBoundary_on]
  have hevt : SameClock s.boundaryTaken (s.boundaryTaken.calEvt 0) :=
    Frame.sameClock ((Frame.refl calTouch _).wr_area cEvt _ (0x030000, 0x030030) (by simp [calTouch]) (by decide) (by decide) (by decide))
  split
  · exact (hevt.refAllowed i).trans (s.boundaryTaken_sameClock.refAllowed i)
  · exact s.boundaryTaken_sameClock.refAllowed i

/-- The view word `i` after a boundary is the one of the second that begins (R312). -/
theorem State.rd_view_calBoundary (s : State) (i : Fin 6) :
    s.calBoundary.rd (cView i) = (s.viewWords s.nowSec).getD i 0 % 2 ^ 32 := by
  have hkept : s.calBoundary.rd (cView i) = s.viewShown.rd (cView i) := by
    refine (Frame.calBoundary_of_viewShown s).regs _ ?_ (by simp [cView, F.ro]) (by simp [Fld.outside, boundaryTouch])
    revert i
    unfold boundaryTouch
    decide
  have hshown := s.calStatus.rd_showWords 0 (s.viewWords s.nowSec) (i := i) (by rw [s.viewWords_length]; exact i.isLt)
  rw [Nat.zero_add, List.getElem_eq_getD 0] at hshown
  exact hkept.trans hshown

theorem State.viewWords_invalid {s : State} (h : s.viewValid = false) : s.viewWords s.nowSec = [0, 0, 0, 0, 0, 0] := by
  have hview : s.viewOk s.nowSec = false := h
  simp [State.viewWords, hview]

theorem State.viewWords_valid {s : State} (h : s.viewValid = true) : s.viewWords s.nowSec =
    [s.nowSec % 2 ^ 32, ((s.fields 0 s.nowSec).map CalFields.dateWord).getD 0, ((s.fields 0 s.nowSec).map CalFields.timeWord).getD 0,
      ((s.fields 1 s.nowSec).map CalFields.dateWord).getD 0, ((s.fields 1 s.nowSec).map CalFields.timeWord).getD 0, s.nowSec % 2 ^ 32] := by
  have hview : s.viewOk s.nowSec = true := h
  simp [State.viewWords, hview]

theorem exec_calSecondBoundary {s : State} (hrun : s.running = true) (hsec : s.cal.sec ≠ some s.nowSec) :
    exec .calSecondBoundary s = .next s.calBoundary :=
  congrArg Host.Outcome.next (if_pos (by simp [hrun, hsec]))

theorem calSecondBoundary_happens {s : State} (hrun : s.running = true) (hsec : s.cal.sec ≠ some s.nowSec) :
    Happens .calSecondBoundary s secondTouch fun t =>
      t.cal.sec = some s.nowSec ∧ (s.leapHere s.nowSec = true → t.bit cEvt 0 = true) ∧
      (∀ i : Fin 6, t.cal.on.testBit i = s.refAllowed i) ∧
      (s.viewValid = false → ∀ i : Fin 6, t.rd (cView i) = 0) ∧
      (s.viewValid = true → t.rd (cView 0) = s.nowSec % 2 ^ 32 ∧ t.rd (cView 5) = s.nowSec % 2 ^ 32 ∧
        (∀ f ∈ (s.fields 0 s.nowSec).toList, t.rd (cView 1) = f.dateWord % 2 ^ 32 ∧ t.rd (cView 2) = f.timeWord % 2 ^ 32) ∧
        (∀ f ∈ (s.fields 1 s.nowSec).toList, t.rd (cView 3) = f.dateWord % 2 ^ 32 ∧ t.rd (cView 4) = f.timeWord % 2 ^ 32)) := by
  refine ⟨_, exec_calSecondBoundary hrun hsec, Frame.calBoundary s, s.calBoundary_sec, s.calBoundary_leapApplied, s.calBoundary_on,
    fun hview i => ?_, fun hview => ?_⟩
  · have hzero : ∀ j : Fin 6, [0, 0, 0, 0, 0, 0].getD j 0 % 2 ^ 32 = 0 := by decide
    rw [s.rd_view_calBoundary, State.viewWords_invalid hview, hzero]
  · have hword := s.rd_view_calBoundary
    rw [State.viewWords_valid hview] at hword
    refine ⟨(hword 0).trans (Nat.mod_mod _ _), (hword 5).trans (Nat.mod_mod _ _), fun f hf => ?_, fun f hf => ?_⟩
    · rw [show s.fields 0 s.nowSec = some f from Option.mem_toList.1 hf] at hword
      exact ⟨hword 1, hword 2⟩
    · rw [show s.fields 1 s.nowSec = some f from Option.mem_toList.1 hf] at hword
      exact ⟨hword 3, hword 4⟩

/-! ### PPSOUT, IRIGOUT and the edges of CLKOUT -/

/-- Where nothing is due an event changes nothing. -/
theorem Happens.idle {i : Instr} {s : State} (h : exec i s = .next s) : Happens i s {} fun _ => True := ⟨s, h, Frame.refl _ s, trivial⟩

theorem State.ppsSec_eq (s : State) : s.ppsSec = ((s.htm.time : Int) - s.rdS cPpsOfs * 2 ^ 28) / (10 ^ 9 * 2 ^ 32) := rfl

theorem ppsoutPulse_due {s : State} (hrun : s.running = true) (hon : s.refRuns 0 = true) (hdue : (s.cal.ppsNext : Int) ≤ s.ppsSec) :
    Happens .ppsoutPulse s { blks := [.cal] } fun t => t.cal = { s.cal with
      pps := true, ppsNext := s.ppsSec.toNat + 1
      ppsEnd := s.ppsSec * (10 ^ 9 * 2 ^ 32) + s.rdS cPpsOfs * 2 ^ 28 + s.rd cPpsWidth * 1000 * 2 ^ 32 } :=
  ⟨s.ppsPulse, congrArg Host.Outcome.next (if_pos (by simp [State.ppsDue, hrun, hon, hdue])), (Frame.refl _ s).cal _ (by simp), rfl⟩

theorem ppsoutPulse_early {s : State} (hdue : s.ppsSec < s.cal.ppsNext) : Happens .ppsoutPulse s {} fun _ => True :=
  Happens.idle (congrArg Host.Outcome.next (if_neg (by simp [State.ppsDue, hdue])))

theorem ppsoutPulseEnd_due {s : State} (hrun : s.running = true) (hpps : s.cal.pps = true) (hend : s.cal.ppsEnd ≤ s.htm.time) :
    Happens .ppsoutPulseEnd s { blks := [.cal] } fun t => t.cal = { s.cal with pps := false } :=
  ⟨_, congrArg Host.Outcome.next (if_pos (by simp [hrun, hpps, hend])), (Frame.refl _ s).cal _ (by simp), rfl⟩

theorem ppsoutPulseEnd_early {s : State} (hend : s.htm.time < s.cal.ppsEnd) : Happens .ppsoutPulseEnd s {} fun _ => True :=
  Happens.idle (congrArg Host.Outcome.next (if_neg (by simp [hend])))

theorem irigSymbol_mark (fmt : Nat) (f : CalFields) {e : Nat} (h : isMarkPos e = true) : irigSymbol fmt f e = 2 := by
  simp [irigSymbol, h]

theorem State.irigAt_eq (s : State) (x e : Nat) :
    s.irigAt x e = x * (10 ^ 9 * 2 ^ 32) + s.rdS cIrigOfs * 2 ^ 28 + e * (10 ^ 7 * 2 ^ 32) := by
  simp [State.irigAt, secU, nsU, Int.mul_assoc]

theorem State.irigTurn_next {s : State} {p : Nat × Nat × Nat} (h : s.cal.irig = some p) :
    s.irigTurn = if p.2.1 < 99 then (p.1, p.2.1 + 1) else (p.1 + 1, 0) := by
  simp [State.irigTurn, h]

theorem State.irigTurn_first {s : State} (h : s.cal.irig = none) : s.irigTurn = (s.cal.irigNext, 0) := by
  simp [State.irigTurn, h]

theorem irigoutElement_due {s : State} (hrun : s.running = true) (hon : s.refRuns 1 = true)
    (hdue : s.irigAt s.irigTurn.1 s.irigTurn.2 ≤ s.htm.time) : Happens .irigoutElement s { blks := [.cal] } fun t =>
      t.cal = { s.cal with irig := t.cal.irig } ∧ t.cal.irig ≠ none ∧
      ∀ q ∈ t.cal.irig.toList, (isMarkPos q.2.1 = true → q.2.2 = 2) ∧
        (∀ p ∈ s.cal.irig.toList, (p.2.1 < 99 → q.1 = p.1 ∧ q.2.1 = p.2.1 + 1) ∧ (99 ≤ p.2.1 → q.1 = p.1 + 1 ∧ q.2.1 = 0)) ∧
        (s.cal.irig = none → q.1 = s.cal.irigNext ∧ q.2.1 = 0) := by
  refine ⟨s.irigElement, congrArg Host.Outcome.next (if_pos (by simp [State.irigDue, hrun, hon, hdue])), (Frame.refl _ s).cal _ (by simp), rfl,
    by simp [State.irigElement], fun q hq => ?_⟩
  simp only [State.irigElement, Option.toList_some, List.mem_singleton] at hq
  subst hq
  refine ⟨irigSymbol_mark _ _, fun p hp => ?_, fun hfirst => ?_⟩
  · rw [State.irigTurn_next (Option.mem_toList.1 hp)]
    exact ⟨fun h => by simp [h], fun h => by simp [Nat.not_lt.2 h]⟩
  · simp [State.irigTurn_first hfirst]

theorem irigoutElement_early {s : State} (hdue : s.htm.time < s.irigAt s.irigTurn.1 s.irigTurn.2) :
    Happens .irigoutElement s {} fun _ => True :=
  Happens.idle (congrArg Host.Outcome.next (if_neg (by simp [State.irigDue, hdue])))

/-- A restart planned by ALIGN moves the next edge alone. -/
theorem ClkS.align_kept (x : ClkS) : x.align.level = x.level ∧ x.align.last = x.last ∧ x.align.hp = x.hp := by
  unfold ClkS.align
  split
  · split <;> exact ⟨rfl, rfl, rfl⟩
  · exact ⟨rfl, rfl, rfl⟩

theorem ClkS.align_of_none {x : ClkS} (h : x.restart = none) : x.align.next = x.next := by
  unfold ClkS.align
  rw [h]

theorem State.clkDue_iff (s : State) (n : Nat) : s.clkDue n = true ↔
    s.running = true ∧ s.refRuns (2 + n) = true ∧ (s.clk n).next * 2 ^ 16 ≤ s.htm.time := by
  simp [State.clkDue, and_assoc]

theorem clkoutEdge_early (n : Fin 4) {s : State} (hdue : s.htm.time < (s.clk n).next * 2 ^ 16) : Happens (.clkoutEdge n) s {} fun _ => True :=
  Happens.idle (congrArg Host.Outcome.next (if_neg fun h => absurd ((s.clkDue_iff n).1 h).2.2 (Nat.not_le.2 hdue)))

theorem Frame.clkEdge {w : Touch} {s t : State} (h : Frame w s t) (n : Nat) (hb : .cal ∈ w.blks) : Frame w s (t.clkEdge n) := h.cal _ hb

theorem clkoutEdge_due (n : Fin 4) {s : State} (hrun : s.running = true) (hon : s.refRuns (2 + n) = true)
    (hdue : (s.clk n).next * 2 ^ 16 ≤ s.htm.time) : Happens (.clkoutEdge n) s { blks := [.cal] } fun t =>
      t.cal = { s.cal with clk := t.cal.clk } ∧ (∀ k : Fin 4, k ≠ n → t.clk k = s.clk k) ∧
      (t.clk n).level = !(s.clk n).level ∧ (t.clk n).last = roundDiv (s.clk n).next (2 ^ 12) ∧
      (t.clk n).hp = (if (s.clk n).level then (s.clk n).hp else (s.clk n).pend.getD (s.clk n).hp) ∧
      ((s.clk n).restart = none → (t.clk n).next = (s.clk n).next + (t.clk n).hp) := by
  refine ⟨s.clkEdge n, congrArg Host.Outcome.next (if_pos ((s.clkDue_iff n).2 ⟨hrun, hon, hdue⟩)), (Frame.refl _ s).clkEdge n (by simp), rfl,
    fun k hk => s.clk_setClk_ne (by simpa [Fin.ext_iff] using hk) _, ?_⟩
  rw [State.clkEdge, State.clk_setClk]
  obtain ⟨hlevel, hlast, hhp⟩ := ClkS.align_kept _
  refine ⟨hlevel, hlast, hhp, fun hrestart => ?_⟩
  rw [hhp]
  exact ClkS.align_of_none hrestart

/-! ### CLK_RESYNC and HP_NS -/

theorem clkResync_waits {slot : Slot} {s : State} (hs : s.ready slot.val = true) :
    Answers (.clkResync slot) slot .done s { blks := [.cal] } fun t => t.cal = { s.cal with resync := true } := by
  refine Answers.of_host (op := opClkResync slot) rfl hs _ rfl ((Frame.refl _ _).cal _ (by simp)) (by simp) rfl ?_
  rw [State.finish_cal, State.marked_cal]

/-- A secure slot meets no RWS guard (R766). -/
theorem rwsGuard_of_secure {slot : Slot} {s : State} (l : List Fld) (w : Nat) (k : Res) (h : s.secure slot.val = true) :
    rwsGuard slot l w s k = k := by
  simp [rwsGuard, h]

theorem State.clk_marked (s : State) (k n : Nat) : (s.marked k).clk n = s.clk n := by
  unfold State.clk
  rw [State.marked_cal]

theorem State.clkDue_marked (s : State) (k : Nat) (n : Fin 4) : (s.marked k).clkDue n = s.clkDue n := by
  have hclock := s.sameClock_marked k
  have hallowed : (s.marked k).refAllowed (2 + n) = s.refAllowed (2 + n) := hclock.refAllowed ⟨2 + n, by omega⟩
  unfold State.clkDue State.refRuns
  rw [hclock.running, hallowed, State.clk_marked, State.marked_cal, State.marked_htm]

theorem ofWord_cClkHpNs (n : Nat) (v : Nat) : (cClkHpNs n).ofWord v = v % 2 ^ 29 := rfl

theorem isReserved_cClkHpNs (n : Nat) (v : Nat) : (cClkHpNs n).isReserved v = (decide (v < 8) || decide (500000000 < v)) := rfl

/-- An edge that falls into the cycle of a write of HP_NS comes before it (log 63). -/
def State.edgeBefore (s : State) (n : Nat) : State := if s.clkDue n then s.clkEdge n else s

theorem Frame.edgeBefore (s : State) (n : Nat) : Frame { blks := [.cal] } s (s.edgeBefore n) :=
  iteInduction (motive := Frame { blks := [.cal] } s) (fun _ => (Frame.refl _ s).clkEdge n (by simp)) fun _ => Frame.refl _ s

theorem hpNsWrite_waits (n : Fin 4) {slot : Slot} {v : Word} {s : State} (hs : s.ready slot.val = true) (hsec : s.secure slot.val = true)
    (hmin : 8 ≤ v.toNat % 2 ^ 29) (hmax : v.toNat % 2 ^ 29 ≤ 500000000) : Answers (.hpNsWrite slot n v) slot .done s
      { flds := [cClkHpNs n], blks := [.cal] } fun t =>
        t.rd (cClkHpNs n) = v.toNat % 2 ^ 29 ∧
        (t.clk n).pend = some (v.toNat % 2 ^ 29 * 2 ^ 16 + s.rd (cClkHpFrac n)) ∧
        (s.clkDue n = false → t.clk n = { s.clk n with pend := (t.clk n).pend }) := by
  let m := s.marked slot.val
  let u := m.edgeBefore n
  let x : ClkS := { u.clk n with pend := some (v.toNat % 2 ^ 29 * 2 ^ 16 + u.rd (cClkHpFrac n)) }
  have hop : opHpNsWrite slot n v.toNat m = (.done, (u.wr (cClkHpNs n) (v.toNat % 2 ^ 29)).setClk n x) := by
    rw [opHpNsWrite, rwsGuard_of_secure _ _ _ ((s.secure_marked _).trans hsec)]
    exact if_neg (by simpa [isReserved_cClkHpNs, ofWord_cClkHpNs] using And.intro hmin hmax)
  have hedge : Frame { flds := [cClkHpNs n], blks := [.cal] } m u :=
    (Frame.edgeBefore m n).of_flds (by simp) (by simp)
  have hbelow : (cClkHpNs n).belowHst := by simp only [Fld.belowHst, Fld.key, cClkHpNs, F.rws]; omega
  have hclk : ∀ t : State, t.cal = ((u.wr (cClkHpNs n) (v.toNat % 2 ^ 29)).setClk n x).cal → t.clk n = x := fun t ht => by
    unfold State.clk
    rw [ht]
    exact State.clk_setClk _ _ _
  have hfrac : u.rd (cClkHpFrac n) = s.rd (cClkHpFrac n) := by
    have hframe := (Frame.edgeBefore m n).regs (cClkHpFrac n) (by simp) (by simp [cClkHpFrac, F.rws]) (by simp [Fld.outside])
    exact hframe.trans (s.rd_marked_below _ (by simp only [Fld.belowHst, Fld.key, cClkHpFrac, F.rws]; omega))
  refine Answers.of_host (op := opHpNsWrite slot n v.toNat) rfl hs _ hop ((hedge.wr _ _ (by simp)).cal _ (by simp)) (by simpa using hbelow) rfl ?_
  rw [hclk _ (State.finish_cal ..)]
  refine ⟨?_, by rw [← hfrac], fun hdue => ?_⟩
  · rw [State.rd_finish_below _ _ _ _ hbelow]
    exact (State.rd_wr_same u _ _).trans (Nat.mod_mod _ _)
  · have hnone : u = m := if_neg (by rw [State.clkDue_marked, hdue]; simp)
    simp only [x, hnone]
    rw [State.clk_marked]

theorem hpNsWrite_reserved (n : Fin 4) {slot : Slot} {v : Word} {s : State} (hs : s.ready slot.val = true) (hsec : s.secure slot.val = true)
    (h : v.toNat % 2 ^ 29 < 8 ∨ 500000000 < v.toNat % 2 ^ 29) : Refused (.hpNsWrite slot n v) slot .reservedEncoding s := by
  refine Refused.of_host (op := opHpNsWrite slot n v.toNat) rfl hs ?_
  rw [opHpNsWrite, rwsGuard_of_secure _ _ _ ((s.secure_marked _).trans hsec)]
  exact if_pos (by simpa [isReserved_cClkHpNs, ofWord_cClkHpNs] using h)

/-! ### The statement -/

/-- Settles O25: the boundary word by word, each output by whether its instant has come, HP_NS by its range. -/
theorem secondBoundaryAndOutputs : Obligations.SecondBoundaryAndOutputs := by
  unfold Obligations.SecondBoundaryAndOutputs
  intro slot n v s
  refine ⟨fun hrun => ⟨calSecondBoundary_happens hrun, fun hon => ?_, ppsoutPulseEnd_due hrun, ppsoutPulseEnd_early, fun hon => ?_,
    fun _ => clkoutEdge_early n, clkoutEdge_due n hrun⟩,
    fun hs => ⟨clkResync_waits hs, fun hsec => ⟨hpNsWrite_waits n hs hsec, hpNsWrite_reserved n hs hsec⟩⟩⟩
  · rw [← s.ppsSec_eq]
    exact ⟨ppsoutPulse_due hrun hon, ppsoutPulse_early⟩
  · rw [← s.irigAt_eq]
    exact ⟨irigoutElement_due hrun hon, irigoutElement_early⟩

end Sys2Proof.Machine
end

section
/-! SUPPORT. The leap table, the local offset, the calendar alarms and IRIGIN (R314 to R332): O26. -/

namespace Sys2Proof.Machine

open F

/-! ### The leap table and the local offset -/

/-- The table or the local offset has changed: the status follows, and alarms search again (R316, R319). -/
def State.tableMoved (s : State) (loc : Bool) : State := s.calStatus.almRestart loc

/-- What follows from a change of the table or of the local offset. -/
def movedTouch : Touch := { flds := cAlmBusy :: statusTouch.flds, blks := [.cal] }

theorem Frame.tableMoved (s : State) (loc : Bool) : Frame movedTouch s (s.tableMoved loc) :=
  Frame.trans ((Frame.calStatus s).of_flds (fun _ hf => List.mem_cons_of_mem _ hf) (by simp))
    ((Frame.almRestart _ loc).of_flds (by simp [movedTouch]) (by simp [movedTouch]))

theorem State.rd_tableMoved (s : State) (loc : Bool) {f : Fld} (hlo : f.lo < 32) (hf : ∀ g ∈ movedTouch.flds, g.key ≠ f.key) :
    (s.tableMoved loc).rd f = s.rd f :=
  (Frame.tableMoved s loc).regs f hf hlo (by simp [Fld.outside, movedTouch])

/-- The calendar's status and view, as the statements name them. -/
def viewTouch : Touch := { areas := [(0x030000, 0x030028), (0x030040, 0x030048)], blks := [.cal] }

theorem Frame.view_tableMoved (s : State) (loc : Bool) : Frame viewTouch s (s.tableMoved loc) :=
  (Frame.tableMoved s loc).widen (by decide) (by simp [viewTouch])

theorem Frame.view_atBoundary (s : State) : Frame viewTouch s s.atBoundary :=
  iteInduction (motive := Frame viewTouch s) (fun _ => (Frame.calBoundary s).widen (by decide) (by simp [viewTouch])) fun _ => Frame.refl _ s

theorem Frame.view_calEvt (s : State) (i : Nat) : Frame viewTouch s (s.calEvt i) :=
  (Frame.refl _ s).wr_area cEvt _ (0x030000, 0x030028) (by simp [viewTouch]) (by decide) (by decide) (by decide)

/-- The area of the status and view with further fields. -/
theorem Frame.of_view {s t : State} (h : Frame viewTouch s t) (l : List Fld) : Frame { viewTouch with flds := l } s t :=
  h.mono (by simp [viewTouch]) (by simp) (by simp) (by simp) (by simp [viewTouch])

theorem Fld.ofWord_eq (f : Fld) (w : Nat) : f.ofWord w = w / 2 ^ f.lo % 2 ^ f.width := by
  rw [Fld.ofWord, Nat.shiftRight_eq_div_pow]

/-- The table's entries are none of a slot's marks. -/
theorem State.rd_leap_marked (s : State) (k i : Nat) :
    (s.marked k).rd (cLeapMjd i) = s.rd (cLeapMjd i) ∧ (s.marked k).rd (cLeapOfs i) = s.rd (cLeapOfs i) := by
  constructor <;> refine s.rd_marked _ _ ?_ ?_ <;>
    simp only [Fld.key, hPresent, hWaking, cLeapMjd, cLeapOfs, F.ro, F.rws, ne_eq] <;> omega

theorem State.leapOk_marked (s : State) (slot k mjd ofs : Nat) : (s.marked slot).leapOk k mjd ofs = s.leapOk k mjd ofs := by
  simp only [State.leapOk, State.rd_leap_marked]

/-- An entry of the leap table takes its fields, after the second whose boundary falls into the cycle; TABLE_CHANGED sets (R315). -/
def State.leapSet (s : State) (k mjd ofs : Nat) : State := ((s.atBoundary.wr (cLeapMjd k) mjd).wr (cLeapOfs k) ofs).calEvt 4

/-- What a write of entry `k` may change. -/
def leapTouch (k : Nat) : Touch := { viewTouch with flds := [cLeapMjd k, cLeapOfs k] }

theorem Frame.leapWritten (s : State) (k mjd ofs : Nat) : Frame (leapTouch k) s ((s.leapSet k mjd ofs).tableMoved false) := by
  have hentry : Frame (leapTouch k) s ((s.atBoundary.wr (cLeapMjd k) mjd).wr (cLeapOfs k) ofs) :=
    (((Frame.view_atBoundary s).of_view _).wr _ _ (by simp)).wr _ _ (by simp)
  exact (hentry.trans ((Frame.view_calEvt _ 4).of_view _)).trans ((Frame.view_tableMoved _ false).of_view _)

theorem movedTouch_leap (k : Fin 32) :
    (∀ g ∈ movedTouch.flds, g.key ≠ (cLeapMjd k).key) ∧ (∀ g ∈ movedTouch.flds, g.key ≠ (cLeapOfs k).key) := by
  revert k
  unfold movedTouch statusTouch
  decide

theorem cEvt_key_ne_leap (k : Fin 32) :
    cEvt.key ≠ (cLeapMjd k).key ∧ cEvt.key ≠ (cLeapOfs k).key ∧ (cLeapOfs k).key ≠ (cLeapMjd k).key := by
  revert k
  decide

theorem State.rd_leapWritten (s : State) (k : Fin 32) (mjd ofs : Nat) :
    ((s.leapSet k mjd ofs).tableMoved false).rd (cLeapMjd k) = mjd % 2 ^ 18 ∧
    ((s.leapSet k mjd ofs).tableMoved false).rd (cLeapOfs k) = ofs % 2 ^ 8 ∧
    ((s.leapSet k mjd ofs).tableMoved false).bit cEvt 4 = true := by
  obtain ⟨hmjd, hofs⟩ := movedTouch_leap k
  obtain ⟨hevtMjd, hevtOfs, hne⟩ := cEvt_key_ne_leap k
  refine ⟨?_, ?_, ?_⟩
  · rw [State.rd_tableMoved _ _ (by simp [cLeapMjd, F.rws]) hmjd]
    exact (State.rd_wr_ne _ hevtMjd _).trans ((State.rd_wr_ne _ hne _).trans (State.rd_wr_same _ _ _))
  · rw [State.rd_tableMoved _ _ (by simp [cLeapOfs, F.rws]) hofs]
    exact (State.rd_wr_ne _ hevtOfs _).trans (State.rd_wr_same _ _ _)
  · rw [State.bit, State.rd_tableMoved _ _ (by decide) (by unfold movedTouch statusTouch; decide)]
    exact State.bit_setBits_same _ (by decide)

theorem cLeap_belowHst (k : Fin 32) : (cLeapMjd k).belowHst ∧ (cLeapOfs k).belowHst := by
  constructor <;> simp only [Fld.belowHst, Fld.key, cLeapMjd, cLeapOfs, F.rws] <;> omega

theorem viewTouch_belowHst (l : List Fld) : ({ viewTouch with flds := l } : Touch).areasBelowHst := by
  simp [Touch.areasBelowHst, viewTouch]

/-- The fields of a leap entry in a word. -/
theorem leap_ofWord (k : Nat) (v : Word) : (cLeapMjd k).ofWord v.toNat = v.toNat % 2 ^ 18 ∧ (cLeapOfs k).ofWord v.toNat = v.toNat / 2 ^ 24 := by
  have hlt : v.toNat < 2 ^ 32 := v.isLt
  constructor
  · rfl
  · rw [Fld.ofWord_eq]
    exact Nat.mod_eq_of_lt (show v.toNat / 2 ^ 24 < 2 ^ 8 by omega)

theorem leapWrite_takes (k : Fin 32) {slot : Slot} {v : Word} {s : State} (hs : s.ready slot.val = true) (hsec : s.secure slot.val = true)
    (hok : s.leapOk k (v.toNat % 2 ^ 18) (v.toNat / 2 ^ 24) = true) : Answers (.leapWrite slot k v) slot .done s (leapTouch k) fun t =>
      t.rd (cLeapMjd k) = v.toNat % 2 ^ 18 ∧ t.rd (cLeapOfs k) = v.toNat / 2 ^ 24 ∧ t.bit cEvt 4 = true := by
  have hlt : v.toNat < 2 ^ 32 := v.isLt
  obtain ⟨hwmjd, hwofs⟩ := leap_ofWord k v
  obtain ⟨hbmjd, hbofs⟩ := cLeap_belowHst k
  have hop : opLeapWrite slot k v.toNat (s.marked slot.val) =
      (.done, ((s.marked slot.val).leapSet k (v.toNat % 2 ^ 18) (v.toNat / 2 ^ 24)).tableMoved false) := by
    rw [opLeapWrite, rwsGuard_of_secure _ _ _ ((s.secure_marked _).trans hsec), hwmjd, hwofs]
    exact if_neg (by rw [State.leapOk_marked, hok]; simp)
  refine Answers.of_host_areas (op := opLeapWrite slot k v.toNat) rfl hs _ hop (Frame.leapWritten _ _ _ _)
    (by simpa [leapTouch] using ⟨hbmjd, hbofs⟩) (viewTouch_belowHst _) ?_
  obtain ⟨hmjd, hofs, hevt⟩ := (s.marked slot.val).rd_leapWritten k (v.toNat % 2 ^ 18) (v.toNat / 2 ^ 24)
  rw [State.rd_finish_below _ _ _ _ hbmjd, State.rd_finish_below _ _ _ _ hbofs, State.bit,
    State.rd_finish_below _ _ _ _ (by unfold Fld.belowHst; decide)]
  exact ⟨hmjd.trans (Nat.mod_mod _ _), hofs.trans (Nat.mod_eq_of_lt (by omega)), hevt⟩

theorem leapWrite_outOfRange (k : Fin 32) {slot : Slot} {v : Word} {s : State} (hs : s.ready slot.val = true) (hsec : s.secure slot.val = true)
    (hok : s.leapOk k (v.toNat % 2 ^ 18) (v.toNat / 2 ^ 24) = false) : Refused (.leapWrite slot k v) slot .outOfRange s := by
  obtain ⟨hwmjd, hwofs⟩ := leap_ofWord k v
  refine Refused.of_host (op := opLeapWrite slot k v.toNat) rfl hs ?_
  rw [opLeapWrite, rwsGuard_of_secure _ _ _ ((s.secure_marked _).trans hsec), hwmjd, hwofs]
  exact if_pos (by rw [State.leapOk_marked, hok]; rfl)

theorem localArm_arms {slot : Slot} {v : Word} {s : State} (hs : s.ready slot.val = true) (hsec : s.secure slot.val = true) :
    Answers (.localArm slot v) slot .done s { flds := [cLocalAtHi, cLocalPending] } fun t =>
      t.rd cLocalAtHi = v.toNat % 2 ^ 16 ∧ t.rd cLocalPending = 1 := by
  have hop : opLocalArm slot v.toNat (s.marked slot.val) =
      (.done, ((s.marked slot.val).wr cLocalAtHi v.toNat).wr cLocalPending 1) :=
    rwsGuard_of_secure _ _ _ ((s.secure_marked _).trans hsec)
  refine Answers.of_host (op := opLocalArm slot v.toNat) rfl hs _ hop (((Frame.refl _ _).wr _ _ (by simp)).wr _ _ (by simp))
    (by unfold Fld.belowHst; decide) rfl ?_
  rw [State.rd_finish_below _ _ _ _ (by unfold Fld.belowHst; decide), State.rd_finish_below _ _ _ _ (by unfold Fld.belowHst; decide)]
  exact ⟨(State.rd_wr_ne _ (by decide) _).trans (State.rd_wr_same _ _ _), State.rd_wr_same _ _ _⟩

/-- What the scheduled change of the local offset may change (R318). -/
def localTouch : Touch := { viewTouch with flds := [cLocalOfs] }

theorem State.localChange_eq (s : State) :
    s.localChange = (((s.cp cLocalOfs cLocalNext).wr cLocalPending 0).calEvt 1).tableMoved true := rfl

theorem Frame.localChange (s : State) : Frame localTouch s s.localChange := by
  have hpend : Frame localTouch s ((s.cp cLocalOfs cLocalNext).wr cLocalPending 0) :=
    ((Frame.refl _ s).wr cLocalOfs _ (by simp [localTouch])).wr_area cLocalPending _ (0x030000, 0x030028) (by simp [localTouch, viewTouch])
      (by decide) (by decide) (by decide)
  rw [s.localChange_eq]
  exact (hpend.trans ((Frame.view_calEvt _ 1).of_view _)).trans ((Frame.view_tableMoved _ true).of_view _)

theorem State.rd_localChange (s : State) : s.localChange.rd cLocalOfs = s.rd cLocalNext % 2 ^ 12 ∧ s.localChange.rd cLocalPending = 0 ∧
    s.localChange.bit cEvt 1 = true := by
  have hmoved : ∀ f ∈ [cLocalOfs, cLocalPending, cEvt], f.lo < 32 ∧ ∀ g ∈ movedTouch.flds, g.key ≠ f.key := by
    unfold movedTouch statusTouch
    decide
  have hkept : ∀ f ∈ [cLocalOfs, cLocalPending, cEvt],
      s.localChange.rd f = (((s.cp cLocalOfs cLocalNext).wr cLocalPending 0).calEvt 1).rd f := fun f hf => by
    rw [s.localChange_eq]
    exact State.rd_tableMoved _ _ (hmoved f hf).1 (hmoved f hf).2
  rw [State.bit, hkept cLocalOfs (by simp), hkept cLocalPending (by simp), hkept cEvt (by simp)]
  refine ⟨?_, ?_, State.bit_setBits_same _ (by decide)⟩
  · exact (State.rd_wr_ne _ (by decide) _).trans ((State.rd_wr_ne _ (by decide) _).trans (State.rd_wr_same _ _ _))
  · exact (State.rd_wr_ne _ (by decide) _).trans (State.rd_wr_same _ _ _)

theorem State.localDue_iff (s : State) : s.localDue = true ↔ s.running = true ∧ s.on cLocalPending = true ∧ s.localAt ≤ s.nowSec := by
  simp [State.localDue, and_assoc]

theorem State.localDue_marked (s : State) (k : Nat) : (s.marked k).localDue = s.localDue := by
  have hclock := s.sameClock_marked k
  unfold State.localDue State.localAt
  rw [hclock.running, hclock.nowSec, s.on_marked_below k (by unfold Fld.belowHst; decide), s.rd_marked_below k (by unfold Fld.belowHst; decide),
    s.rd_marked_below k (by unfold Fld.belowHst; decide)]

section
variable {slot : Slot} {s : State} (hs : s.ready slot.val = true)
include hs

theorem cancelLocal_disarms (hpend : s.on cLocalPending = true) (hdue : s.localDue = false) :
    Answers (.cancelLocal slot) slot .done s { flds := [cLocalPending] } fun t => t.rd cLocalPending = 0 := by
  have hop : opCancelLocal slot (s.marked slot.val) = (.done, (s.marked slot.val).wr cLocalPending 0) := by
    rw [opCancelLocal, State.localDue_marked, hdue, s.on_marked_below _ (by unfold Fld.belowHst; decide), hpend]
    rfl
  refine Answers.of_host (op := opCancelLocal slot) rfl hs _ hop ((Frame.refl _ _).wr _ _ (by simp)) (by unfold Fld.belowHst; decide) rfl ?_
  rw [State.rd_finish_below _ _ _ _ (by unfold Fld.belowHst; decide)]
  exact State.rd_wr_same _ _ _

theorem cancelLocal_late (hdue : s.localDue = true) : Answers (.cancelLocal slot) slot .alreadyDone s localTouch fun t =>
    t.rd cLocalOfs = s.rd cLocalNext % 2 ^ 12 ∧ t.rd cLocalPending = 0 ∧ t.bit cEvt 1 = true := by
  have hop : opCancelLocal slot (s.marked slot.val) = (.alreadyDone, (s.marked slot.val).localChange) :=
    if_pos ((s.localDue_marked _).trans hdue)
  refine Answers.of_host_areas (op := opCancelLocal slot) rfl hs _ hop (Frame.localChange _) (by unfold Fld.belowHst localTouch; decide)
    (viewTouch_belowHst _) ?_
  rw [State.bit, State.rd_finish_below _ _ _ _ (by unfold Fld.belowHst; decide), State.rd_finish_below _ _ _ _ (by unfold Fld.belowHst; decide),
    State.rd_finish_below _ _ _ _ (by unfold Fld.belowHst; decide), ← s.rd_marked_below slot.val (f := cLocalNext) (by unfold Fld.belowHst; decide)]
  exact (s.marked slot.val).rd_localChange

theorem cancelLocal_idle (hpend : s.on cLocalPending = false) : Refused (.cancelLocal slot) slot .alreadyDone s := by
  have hdue : s.localDue = false := Bool.eq_false_iff.2 fun h => Bool.eq_false_iff.1 hpend (s.localDue_iff.1 h).2.1
  refine Refused.of_host (op := opCancelLocal slot) rfl hs ?_
  rw [opCancelLocal, State.localDue_marked, hdue, s.on_marked_below _ (by unfold Fld.belowHst; decide), hpend]
  rfl

end

theorem localChange_applies {s : State} (hrun : s.running = true) (hpend : s.on cLocalPending = true) (hat : s.localAt ≤ s.nowSec) :
    Happens .localChange s localTouch fun t =>
      t.rd cLocalOfs = s.rd cLocalNext % 2 ^ 12 ∧ t.rd cLocalPending = 0 ∧ t.bit cEvt 1 = true :=
  ⟨s.localChange, congrArg Host.Outcome.next (if_pos (s.localDue_iff.2 ⟨hrun, hpend, hat⟩)), Frame.localChange s, s.rd_localChange⟩

end Sys2Proof.Machine
end

section
/-! SUPPORT. The calendar alarms (R319 to R323) and the elements of IRIGIN (R329): O26. -/

namespace Sys2Proof.Machine

open F

/-! ### The keys of an alarm's fields -/

@[simp] theorem cAlmNever_key (n : Nat) : (cAlmNever n).key = n * 1024 + 6308111 := by simp only [Fld.key, cAlmNever, F.ro]; omega
@[simp] theorem cAlmLate_key (n : Nat) : (cAlmLate n).key = n * 1024 + 6308110 := by simp only [Fld.key, cAlmLate, F.w1c]; omega
@[simp] theorem cAlmFired_key (n : Nat) : (cAlmFired n).key = n * 1024 + 6308109 := by simp only [Fld.key, cAlmFired, F.w1c]; omega
@[simp] theorem cAlmMask_key (n : Nat) : (cAlmMask n).key = n * 1024 + 6308102 := by simp only [Fld.key, cAlmMask, F.rw]; omega
@[simp] theorem cAlmScale_key (n : Nat) : (cAlmScale n).key = n * 1024 + 6308100 := by simp only [Fld.key, cAlmScale, F.rw]; omega
@[simp] theorem cAlmOneshot_key (n : Nat) : (cAlmOneshot n).key = n * 1024 + 6308097 := by simp only [Fld.key, cAlmOneshot, F.rw]; omega
@[simp] theorem cAlmEn_key (n : Nat) : (cAlmEn n).key = n * 1024 + 6308096 := by simp only [Fld.key, cAlmEn, F.rw]; omega
@[simp] theorem cAlmNextLo_key (n : Nat) : (cAlmNextLo n).key = n * 1024 + 6308224 := by simp only [Fld.key, cAlmNextLo, F.ro]; omega
@[simp] theorem cAlmNextHi_key (n : Nat) : (cAlmNextHi n).key = n * 1024 + 6308352 := by simp only [Fld.key, cAlmNextHi, F.ro]; omega

/-- The fields of an alarm's control and of its next second. -/
def almFlds (n : Nat) : List Fld :=
  [cAlmMask n, cAlmScale n, cAlmOneshot n, cAlmEn n, cAlmFired n, cAlmLate n, cAlmNever n, cAlmNextLo n, cAlmNextHi n, cAlmDate n, cAlmTime n]

theorem almFlds_belowHst (n : Fin 8) : ∀ f ∈ almFlds n, f.belowHst := by
  unfold Fld.belowHst
  revert n
  decide

/-- The start of a search moves none of an alarm's own fields. -/
theorem State.rd_almStart (s : State) (n : Nat) {f : Fld} (hlo : f.lo < 32) (hf : cAlmBusy.key ≠ f.key) : (s.almStart n).rd f = s.rd f :=
  (Frame.almStart s n).regs f (by simpa [busyTouch] using hf) hlo (by simp [Fld.outside, busyTouch])

/-- An alarm's own fields stand apart from the busy bits and the flags. -/
theorem almFlds_apart (n : Nat) : ∀ f ∈ almFlds n, f.lo < 32 ∧ cAlmBusy.key ≠ f.key ∧ cEvt.key ≠ f.key := by
  intro f hf
  have haddr : f.lo < 32 ∧ 0x030200 ≤ f.addr := by
    revert f
    simp only [almFlds, List.forall_mem_cons, cAlmMask, cAlmScale, cAlmOneshot, cAlmEn, cAlmFired, cAlmLate, cAlmNever, cAlmNextLo, cAlmNextHi,
      cAlmDate, cAlmTime, F.rw, F.ro, F.w1c]
    refine ⟨?_, ?_, ?_, ?_, ?_, ?_, ?_, ?_, ?_, ?_, ?_, by simp⟩ <;> omega
  have hbusy : cAlmBusy.key = 6291472 := rfl
  have hevt : cEvt.key = 6291584 := rfl
  rw [hbusy, hevt, Fld.key]
  omega

/-! ### Firing -/

/-- The alarm has fired, and no second is owed (R320). -/
def State.alarmFired (s : State) (n : Nat) : State :=
  let u := (s.wr (cAlmLate n) (s.alm n).owed.toNat).wr (cAlmFired n) 1
  { (u.setAlm n { u.alm n with owed := false }) with ended := .alarm n :: s.ended }

theorem State.almFire_eq (s : State) (n : Nat) : s.almFire n =
    if (s.alarmFired n).on (cAlmOneshot n) then (s.alarmFired n).wr (cAlmEn n) 0 else (s.alarmFired n).almStart n := rfl

/-- What a firing may change. -/
def fireTouch (n : Nat) : Touch := { flds := [cAlmLate n, cAlmFired n, cAlmEn n, cAlmBusy], blks := [.cal, .ended] }

theorem Frame.ended {w : Touch} {s t : State} (h : Frame w s t) (l : List Ended) (hb : .ended ∈ w.blks) : Frame w s { t with ended := l } :=
  h.blk .ended hb rfl rfl rfl fun c n _ => by cases c <;> first | exact absurd rfl n | rfl | trivial

theorem Frame.alarmFired (s : State) (n : Nat) : Frame (fireTouch n) s (s.alarmFired n) :=
  ((((Frame.refl _ s).wr _ _ (by simp [fireTouch])).wr _ _ (by simp [fireTouch])).setAlm n _ (by simp [fireTouch])).ended _
    (by simp [fireTouch])

theorem Frame.almFire (s : State) (n : Nat) : Frame (fireTouch n) s (s.almFire n) := by
  rw [s.almFire_eq]
  split
  · exact (Frame.alarmFired s n).wr _ _ (by simp [fireTouch])
  · exact (Frame.alarmFired s n).trans ((Frame.almStart _ n).of_flds (by simp [fireTouch]) (by simp [fireTouch]))

theorem State.rd_alarmFired_eq (s : State) (n : Nat) (f : Fld) :
    (s.alarmFired n).rd f = ((s.wr (cAlmLate n) (s.alm n).owed.toNat).wr (cAlmFired n) 1).rd f := rfl

theorem State.rd_alarmFired (s : State) (n : Nat) : (s.alarmFired n).rd (cAlmFired n) = 1 ∧
    (s.alarmFired n).rd (cAlmLate n) = (s.alm n).owed.toNat := by
  rw [State.rd_alarmFired_eq, State.rd_alarmFired_eq, State.rd_wr_same, State.rd_wr_ne _ (by simp), State.rd_wr_same]
  refine ⟨rfl, ?_⟩
  cases (s.alm n).owed <;> rfl

theorem State.almFire_ended (s : State) (n : Nat) : (s.almFire n).ended = .alarm n :: s.ended := by
  have hstart : ((s.alarmFired n).almStart n).ended = (s.alarmFired n).ended :=
    (Frame.almStart _ n).blks .ended (by simp [busyTouch]) (by simp [busyTouch, Blk.kind])
  rw [s.almFire_eq]
  split
  · rfl
  · exact hstart

theorem State.rd_almFire (s : State) (n : Nat) : (s.almFire n).rd (cAlmFired n) = 1 ∧ (s.almFire n).rd (cAlmLate n) = (s.alm n).owed.toNat ∧
    (s.on (cAlmOneshot n) = true → (s.almFire n).rd (cAlmEn n) = 0) := by
  obtain ⟨hfired, hlate⟩ := s.rd_alarmFired n
  have honce : (s.alarmFired n).on (cAlmOneshot n) = s.on (cAlmOneshot n) := by
    rw [State.on, State.on, State.rd_alarmFired_eq, State.rd_wr_ne _ (by simp), State.rd_wr_ne _ (by simp)]
  rw [s.almFire_eq, honce]
  split
  · next h => exact ⟨(State.rd_wr_ne _ (by simp) _).trans hfired, (State.rd_wr_ne _ (by simp) _).trans hlate, fun _ => State.rd_wr_same _ _ _⟩
  · next h =>
    have hkept := fun f hf => State.rd_almStart (s.alarmFired n) n (almFlds_apart n f hf).1 (almFlds_apart n f hf).2.1
    exact ⟨(hkept _ (by simp [almFlds])).trans hfired, (hkept _ (by simp [almFlds])).trans hlate, fun ht => absurd ht h⟩

theorem State.almDue_iff (s : State) (n : Nat) : s.almDue n = true ↔
    s.running = true ∧ s.viewValid = true ∧ s.almSet n = true ∧ s.almNext n ≤ s.nowSec := by
  simp [State.almDue, and_assoc]

theorem calAlarmFire_fires {n : Fin 8} {s : State} (hdue : s.almDue n = true) : Happens (.calAlarmFire n) s (fireTouch n) fun t =>
    t.rd (cAlmFired n) = 1 ∧ t.rd (cAlmLate n) = (s.alm n).owed.toNat ∧ t.ended = .alarm n :: s.ended ∧
    (s.on (cAlmOneshot n) = true → t.rd (cAlmEn n) = 0) := by
  obtain ⟨hfired, hlate, honce⟩ := s.rd_almFire n
  exact ⟨s.almFire n, congrArg Host.Outcome.next (if_pos hdue), Frame.almFire s n, hfired, hlate, s.almFire_ended n, honce⟩

/-! ### Writes of CAL_ALM_CTRL -/

/-- The comparison that a write of CAL_ALM_CTRL asks for: the held date and time, and the word's MASK and SCALE (R323). -/
def State.almAsked (s : State) (n v : Nat) : AlmSpec :=
  { date := s.rd (cAlmDate n) * 2 ^ 4, time := s.rd (cAlmTime n) * 2 ^ 5, mask := v / 2 ^ 6 % 2 ^ 7, scale := v / 2 ^ 4 % 4 }

theorem State.almAsked_marked (s : State) (k : Nat) (n : Fin 8) (v : Nat) : (s.marked k).almAsked n v = s.almAsked n v := by
  have hbelow := almFlds_belowHst n
  unfold State.almAsked
  rw [s.rd_marked_below k (hbelow _ (by simp [almFlds])), s.rd_marked_below k (hbelow _ (by simp [almFlds]))]

theorem State.alm_marked (s : State) (k n : Nat) : (s.marked k).alm n = s.alm n := by
  unfold State.alm
  rw [State.marked_cal]

theorem State.almDue_marked (s : State) (k : Nat) (n : Fin 8) : (s.marked k).almDue n = s.almDue n := by
  have hclock := s.sameClock_marked k
  have hbelow := almFlds_belowHst n
  unfold State.almDue State.almSet State.almNext
  rw [hclock.running, hclock.viewValid, hclock.nowSec, State.alm_marked, s.on_marked_below k (hbelow _ (by simp [almFlds])),
    s.on_marked_below k (hbelow _ (by simp [almFlds])), s.rd_marked_below k (hbelow _ (by simp [almFlds])),
    s.rd_marked_below k (hbelow _ (by simp [almFlds]))]

theorem State.ended_marked (s : State) (k : Nat) : (s.marked k).ended = s.ended := by
  rcases s.marked_eq k with h | ⟨-, h⟩
  · rw [h]
  · rw [h]
    rfl

/-- The old setting fires first where its second falls into the cycle of the write (R13). -/
def State.fireBefore (s : State) (n : Nat) : State := if s.almDue n then s.almFire n else s

/-- CAL_ALM_CTRL and the comparison in force are written. -/
def State.almWritten (s : State) (n v date time : Nat) : State :=
  let s := [cAlmMask n, cAlmScale n, cAlmOneshot n, cAlmEn n].foldl (fun s f => s.wr f (f.ofWord v)) s
  let s := (s.clrBits (cAlmFired n) ((cAlmFired n).ofWord v)).clrBits (cAlmLate n) ((cAlmLate n).ofWord v)
  (s.setAlm n { s.alm n with date := date, time := time }).wr (cAlmNever n) 0

/-- The whole of an accepted write: what the register takes, and the search. -/
def State.almSetUp (s : State) (n v : Nat) : State :=
  ((s.fireBefore n).almWritten n v (s.almAsked n v).date (s.almAsked n v).time).almStart n

/-- An EN cleared in the cycle of the firing was too late (R13). -/
def State.almLate (s : State) (n v : Nat) : Bool := (s.fireBefore n).ended.contains (.alarm n) && (cAlmEn n).ofWord v == 0

theorem opAlmCtrlWrite_eq (slot : Slot) (n v : Nat) (s : State) : opAlmCtrlWrite slot n v s =
    if (s.almAsked n v).scale = 3 then (.reservedEncoding, s)
    else if (s.almAsked n v).reserved then (.reservedEncoding, s)
    else (if s.almLate n v then .alreadyDone else .done, s.almSetUp n v) := by
  have hmask : (cAlmMask n).ofWord v = v / 2 ^ 6 % 2 ^ 7 := Fld.ofWord_eq _ _
  have hscale : (cAlmScale n).ofWord v = v / 2 ^ 4 % 4 := Fld.ofWord_eq _ _
  have hasked : s.almAsked n v =
      { date := s.rd (cAlmDate n) * 2 ^ 4, time := s.rd (cAlmTime n) * 2 ^ 5, mask := (cAlmMask n).ofWord v, scale := (cAlmScale n).ofWord v } := by
    rw [hmask, hscale]
    rfl
  unfold State.almSetUp
  rw [hasked]
  rfl

/-- What an accepted write may change, beside what a firing before it leaves. -/
def ctrlTouch (n : Nat) : Touch :=
  { flds := [cAlmMask n, cAlmScale n, cAlmOneshot n, cAlmEn n, cAlmFired n, cAlmLate n, cAlmNever n, cAlmBusy], blks := [.cal] }

theorem ctrlTouch_areas (n : Fin 8) : ∀ f ∈ (ctrlTouch n).flds, f.lo < 32 ∧ ∃ b ∈ calTouch.areas, b.1 ≤ f.addr ∧ f.addr < b.2 := by
  revert n
  decide

theorem ctrlTouch_belowHst (n : Fin 8) : ∀ f ∈ (ctrlTouch n).flds, f.belowHst := by
  unfold Fld.belowHst
  revert n
  decide

theorem Frame.almWritten (s : State) (n v date time : Nat) : Frame (ctrlTouch n) s (s.almWritten n v date time) := by
  have hflds : Frame (ctrlTouch n) s ([cAlmMask n, cAlmScale n, cAlmOneshot n, cAlmEn n].foldl (fun s f => s.wr f (f.ofWord v)) s) :=
    List.foldlRecOn _ _ (Frame.refl _ s) fun u hu f hf =>
      hu.wr f _ (List.mem_append_left [cAlmFired n, cAlmLate n, cAlmNever n, cAlmBusy] hf)
  exact (((hflds.clrBits _ _ (by simp [ctrlTouch])).clrBits _ _ (by simp [ctrlTouch])).setAlm n _ (by simp [ctrlTouch])).wr _ _
    (by simp [ctrlTouch])

theorem State.alm_almWritten (s : State) (n v date time : Nat) :
    (s.almWritten n v date time).alm n = { s.alm n with date := date, time := time } := State.alm_setAlm _ _ _

/-- What the fields of CAL_ALM_CTRL read after a write; FIRED clears where the word has a 1. -/
theorem State.rd_almWritten (s : State) (n v date time : Nat) :
    (s.almWritten n v date time).rd (cAlmEn n) = v % 2 ∧ (s.almWritten n v date time).rd (cAlmMask n) = v / 2 ^ 6 % 2 ^ 7 ∧
    (s.almWritten n v date time).rd (cAlmScale n) = v / 2 ^ 4 % 4 ∧
    (s.almWritten n v date time).rd (cAlmFired n) = (s.rd (cAlmFired n) &&& (1 - v / 2 ^ 13 % 2)) % 2 := by
  have hen : (cAlmEn n).ofWord v = v / 2 ^ 0 % 2 ^ 1 := Fld.ofWord_eq _ _
  have hmask : (cAlmMask n).ofWord v = v / 2 ^ 6 % 2 ^ 7 := Fld.ofWord_eq _ _
  have hscale : (cAlmScale n).ofWord v = v / 2 ^ 4 % 2 ^ 2 := Fld.ofWord_eq _ _
  have hfired : (cAlmFired n).ofWord v = v / 2 ^ 13 % 2 ^ 1 := Fld.ofWord_eq _ _
  have hwidth : (cAlmEn n).width = 1 ∧ (cAlmMask n).width = 7 ∧ (cAlmScale n).width = 2 ∧ (cAlmFired n).width = 1 := ⟨rfl, rfl, rfl, rfl⟩
  simp [State.almWritten, State.clrBits, State.rd_wr_ne, State.rd_setAlm, hen, hmask, hscale, hfired, hwidth]

theorem State.almSpec_congr {s : State} {n : Nat} {a : AlmSpec} (hd : (s.alm n).date = a.date) (ht : (s.alm n).time = a.time)
    (hm : s.rd (cAlmMask n) = a.mask) (hs : s.rd (cAlmScale n) = a.scale) : s.almSpec n = a := by
  rw [State.almSpec, hd, ht, hm, hs]

theorem State.fireBefore_idle {s : State} {n : Nat} (h : s.almDue n = false) : s.fireBefore n = s := if_neg (by simp [h])

/-- After an accepted write: EN, MASK and the comparison asked for stand, FIRED has cleared where the word has a 1, and a search runs where
the alarm is enabled and the view valid. -/
theorem State.almSetUp_spec (s : State) (n : Fin 8) (v : Nat) :
    (s.almSetUp n v).rd (cAlmEn n) = v % 2 ∧ (s.almSetUp n v).rd (cAlmMask n) = v / 2 ^ 6 % 2 ^ 7 ∧
    (s.almSetUp n v).almSpec n = s.almAsked n v ∧
    (s.almSetUp n v).rd (cAlmFired n) = ((s.fireBefore n).rd (cAlmFired n) &&& (1 - v / 2 ^ 13 % 2)) % 2 ∧
    (v % 2 = 1 → s.almDue n = false → s.viewValid = true →
      ((s.almSetUp n v).alm n).search = some (s.nowSec + 1) ∧ (s.almSetUp n v).bit cAlmBusy n = true) := by
  let a := s.almAsked n v
  let u := (s.fireBefore n).almWritten n v a.date a.time
  have hkept : ∀ f ∈ almFlds n, (s.almSetUp n v).rd f = u.rd f := fun f hf =>
    u.rd_almStart n (almFlds_apart n f hf).1 (almFlds_apart n f hf).2.1
  have halm : (s.almSetUp n v).alm n =
      { u.alm n with search := if u.on (cAlmEn n) && u.viewValid then some (u.nowSec + 1) else none, owed := false } := u.alm_almStart n
  have hset := (s.fireBefore n).alm_almWritten n v a.date a.time
  obtain ⟨hen, hmask, hscale, hfired⟩ := (s.fireBefore n).rd_almWritten n v a.date a.time
  refine ⟨(hkept _ (by simp [almFlds])).trans hen, (hkept _ (by simp [almFlds])).trans hmask, State.almSpec_congr ?_ ?_ ?_ ?_,
    (hkept _ (by simp [almFlds])).trans hfired, fun hv hdue hview => ?_⟩
  · rw [halm]
    exact congrArg AlmS.date hset
  · rw [halm]
    exact congrArg AlmS.time hset
  · exact (hkept _ (by simp [almFlds])).trans hmask
  · exact (hkept _ (by simp [almFlds])).trans hscale
  · have hclock : SameClock s u := by
      have hwritten := (Frame.almWritten s n v a.date a.time).widen (w := calTouch) (fun f hf => .inr (ctrlTouch_areas n f hf)) (by simp [calTouch])
      simpa only [u, State.fireBefore_idle hdue] using hwritten.sameClock
    have hon : u.on (cAlmEn n) = true := by rw [State.on, hen, hv]; rfl
    have hvalid : u.viewValid = true := hclock.viewValid.trans hview
    refine ⟨?_, u.busy_almStart n hon hvalid⟩
    rw [halm, hon, hvalid, hclock.nowSec]
    rfl

theorem Frame.almSetUp_idle {s : State} {n : Nat} (v : Nat) (h : s.almDue n = false) : Frame (ctrlTouch n) s (s.almSetUp n v) := by
  unfold State.almSetUp
  rw [State.fireBefore_idle h]
  exact (Frame.almWritten s n v _ _).trans ((Frame.almStart _ n).of_flds (by simp [ctrlTouch]) (by simp [ctrlTouch]))

/-- A write in the cycle of the firing: what both may change. -/
def lateTouch (n : Nat) : Touch := { ctrlTouch n with blks := [.cal, .ended] }

theorem Frame.almSetUp_late {s : State} {n : Nat} (v : Nat) (h : s.almDue n = true) : Frame (lateTouch n) s (s.almSetUp n v) := by
  have hfire : s.fireBefore n = s.almFire n := if_pos h
  have hsub : ∀ f ∈ (ctrlTouch n).flds, f ∈ (lateTouch n).flds := fun _ hf => hf
  have hwritten := (Frame.almWritten (s.almFire n) n v (s.almAsked n v).date (s.almAsked n v).time).of_flds hsub (by simp [lateTouch])
  unfold State.almSetUp
  rw [hfire]
  exact (((Frame.almFire s n).of_flds (by simp [lateTouch, ctrlTouch]) (by simp [lateTouch])).trans hwritten).trans
    ((Frame.almStart _ n).of_flds (by simp [lateTouch, ctrlTouch]) (by simp [lateTouch]))

section
variable {slot : Slot} {n : Fin 8} {v : Word} {s : State} (hs : s.ready slot.val = true)
include hs

theorem calAlmCtrlWrite_reserved (h : (s.almAsked n v.toNat).scale = 3 ∨ (s.almAsked n v.toNat).reserved = true) :
    Refused (.calAlmCtrlWrite slot n v) slot .reservedEncoding s := by
  refine Refused.of_host (op := opAlmCtrlWrite slot n v.toNat) rfl hs ?_
  rw [opAlmCtrlWrite_eq, State.almAsked_marked]
  split
  · rfl
  · next hscale => exact if_pos (h.resolve_left hscale)

/-- An accepted write leaves what `almSetUp` does, and is answered by whether its EN came too late. -/
theorem Answers.of_almSetUp {w : Touch} {P : State → Prop} (hscale : (s.almAsked n v.toNat).scale ≠ 3)
    (hres : (s.almAsked n v.toNat).reserved = false) (hw : w.flds = (ctrlTouch n).flds ∧ w.areas = [])
    (hframe : Frame w (s.marked slot.val) ((s.marked slot.val).almSetUp n v.toNat)) {c : Code}
    (hc : (if (s.marked slot.val).almLate n v.toNat then Code.alreadyDone else .done) = c)
    (hP : P (State.finish slot (c, (s.marked slot.val).almSetUp n v.toNat))) : Answers (.calAlmCtrlWrite slot n v) slot c s w P := by
  have hop : opAlmCtrlWrite slot n v.toNat (s.marked slot.val) = (c, (s.marked slot.val).almSetUp n v.toNat) := by
    rw [opAlmCtrlWrite_eq, State.almAsked_marked, if_neg hscale, if_neg (by simp [hres]), hc]
  refine Answers.of_host (op := opAlmCtrlWrite slot n v.toNat) rfl hs _ hop hframe ?_ hw.2 hP
  rw [hw.1]
  exact ctrlTouch_belowHst n

theorem calAlmCtrlWrite_late (hscale : (s.almAsked n v.toNat).scale ≠ 3) (hres : (s.almAsked n v.toNat).reserved = false)
    (hdue : s.almDue n = true) (hen : v.toNat % 2 = 0) (hkeep : v.toNat.testBit 13 = false) :
    Answers (.calAlmCtrlWrite slot n v) slot .alreadyDone s (lateTouch n) fun t => t.rd (cAlmEn n) = 0 ∧ t.rd (cAlmFired n) = 1 := by
  have hdue' : (s.marked slot.val).almDue n = true := (s.almDue_marked _ n).trans hdue
  have hfire : (s.marked slot.val).fireBefore n = (s.marked slot.val).almFire n := if_pos hdue'
  have hword : (cAlmEn n).ofWord v.toNat = 0 := (Fld.ofWord_eq _ _).trans (by simpa [cAlmEn, F.rw, Fld.width] using hen)
  have hlate : (s.marked slot.val).almLate n v.toNat = true := by simp [State.almLate, hfire, State.almFire_ended, hword]
  obtain ⟨hrdEn, -, -, hfired, -⟩ := (s.marked slot.val).almSetUp_spec n v.toNat
  refine Answers.of_almSetUp (w := lateTouch n) hs hscale hres ⟨rfl, rfl⟩ (Frame.almSetUp_late _ hdue') (if_pos hlate) ⟨?_, ?_⟩
  · rw [State.rd_finish_below _ _ _ _ (almFlds_belowHst n _ (by simp [almFlds])), hrdEn, hen]
  · have hbit : v.toNat / 2 ^ 13 % 2 = 0 := by rw [Nat.testBit_eq_decide_div_mod_eq] at hkeep; simpa using hkeep
    rw [State.rd_finish_below _ _ _ _ (almFlds_belowHst n _ (by simp [almFlds])), hfired, hfire, ((s.marked slot.val).rd_almFire n).1, hbit]
    rfl

theorem calAlmCtrlWrite_sets (hscale : (s.almAsked n v.toNat).scale ≠ 3) (hres : (s.almAsked n v.toNat).reserved = false)
    (hdue : s.almDue n = false) : ∀ c ∈ [Code.done, .alreadyDone], (c = .done ↔ Ended.alarm n ∉ s.ended ∨ v.toNat % 2 = 1) →
      Answers (.calAlmCtrlWrite slot n v) slot c s (ctrlTouch n) fun t =>
        t.rd (cAlmEn n) = v.toNat % 2 ∧ t.rd (cAlmMask n) = v.toNat / 2 ^ 6 % 2 ^ 7 ∧ t.almSpec n = s.almAsked n v.toNat ∧
        (v.toNat.testBit 13 = true → t.rd (cAlmFired n) = 0) ∧
        (v.toNat % 2 = 1 → s.viewValid = true → (t.alm n).search = some (s.nowSec + 1) ∧ t.bit cAlmBusy n = true) := by
  intro c hc hdone
  have hdue' : (s.marked slot.val).almDue n = false := (s.almDue_marked _ n).trans hdue
  have hclock := s.sameClock_marked slot.val
  have hword : (cAlmEn n).ofWord v.toNat = v.toNat % 2 := (Fld.ofWord_eq _ _).trans (by simp [cAlmEn, F.rw, Fld.width])
  have hlate : (s.marked slot.val).almLate n v.toNat = true ↔ c ≠ .done := by
    rw [Ne, hdone, State.almLate, State.fireBefore_idle hdue', State.ended_marked, hword]
    simp
  have hcode : (if (s.marked slot.val).almLate n v.toNat then Code.alreadyDone else .done) = c := by
    simp only [List.mem_cons, List.not_mem_nil, or_false] at hc
    rcases hc with rfl | rfl
    · exact if_neg fun h => hlate.1 h rfl
    · exact if_pos (hlate.2 (by decide))
  obtain ⟨hen, hmask, hspec, hfired, hsearch⟩ := (s.marked slot.val).almSetUp_spec n v.toNat
  have hrd : ∀ f ∈ almFlds n, (State.finish slot (c, (s.marked slot.val).almSetUp n v.toNat)).rd f =
      ((s.marked slot.val).almSetUp n v.toNat).rd f := fun f hf => State.rd_finish_below _ _ _ _ (almFlds_belowHst n f hf)
  have halm : (State.finish slot (c, (s.marked slot.val).almSetUp n v.toNat)).alm n = ((s.marked slot.val).almSetUp n v.toNat).alm n := by
    rw [State.alm, State.finish_cal]
    rfl
  refine Answers.of_almSetUp hs hscale hres ⟨rfl, rfl⟩ (Frame.almSetUp_idle _ hdue') hcode ⟨?_, ?_, ?_, fun hbit => ?_, fun hv hview => ?_⟩
  · rw [hrd _ (by simp [almFlds]), hen]
  · rw [hrd _ (by simp [almFlds]), hmask]
  · rw [State.almSpec, halm, hrd _ (by simp [almFlds]), hrd _ (by simp [almFlds]), ← s.almAsked_marked slot.val n]
    exact hspec
  · have hone : v.toNat / 2 ^ 13 % 2 = 1 := by rw [Nat.testBit_eq_decide_div_mod_eq] at hbit; simpa using hbit
    rw [hrd _ (by simp [almFlds]), hfired, hone]
    simp
  · obtain ⟨hat, hbusy⟩ := hsearch hv hdue' (hclock.viewValid.trans hview)
    rw [halm, hat, hclock.nowSec, State.bit, State.rd_finish_below _ _ _ _ (by unfold Fld.belowHst; decide)]
    exact ⟨rfl, hbusy⟩

end

/-! ### The end of a search -/

/-- The alarm's search no longer runs (R319). -/
def State.searchEnded (s : State) (n : Nat) (owed : Bool) : State :=
  (s.clrBits cAlmBusy (2 ^ n)).setAlm n { s.alm n with search := none, owed := owed }

theorem State.almSpec_clrBusy (s : State) (n m : Nat) : (s.clrBits cAlmBusy m).almSpec n = s.almSpec n := by
  unfold State.almSpec State.clrBits
  rw [State.rd_wr_ne _ (almFlds_apart n _ (by simp [almFlds])).2.1, State.rd_wr_ne _ (almFlds_apart n _ (by simp [almFlds])).2.1]
  rfl

theorem State.sameClock_clrBusy (s : State) (m : Nat) : SameClock s (s.clrBits cAlmBusy m) :=
  Frame.sameClock ((Frame.refl calTouch s).wr_area cAlmBusy _ (0x030000, 0x030030) (by simp [calTouch]) (by decide) (by decide) (by decide))

theorem State.almFirst_clrBusy (s : State) (n m x : Nat) :
    (s.clrBits cAlmBusy m).almFirst ((s.clrBits cAlmBusy m).almSpec n) x = s.almFirst (s.almSpec n) x := by
  rw [s.almSpec_clrBusy, (s.sameClock_clrBusy m).almFirst]

theorem State.almDone_found {s : State} {n x m : Nat} (h : s.almFirst (s.almSpec n) x = some m) :
    s.almDone n x = ((s.searchEnded n (decide (m ≤ s.nowSec))).setAlmNext n m).wr (cAlmNever n) 0 := by
  rw [State.almDone, s.almFirst_clrBusy, h]
  rfl

theorem State.almDone_never {s : State} {n x : Nat} (h : s.almFirst (s.almSpec n) x = none) :
    s.almDone n x = (((s.searchEnded n false).setAlmNext n 0).wr (cAlmNever n) 1).calEvt 3 := by
  rw [State.almDone, s.almFirst_clrBusy, h]
  rfl

/-- What the end of a search may change. -/
def searchTouch (n : Nat) : Touch := { flds := [cAlmBusy, cAlmNextLo n, cAlmNextHi n, cAlmNever n, cEvt], blks := [.cal] }

theorem Frame.searchEnded (s : State) (n m : Nat) (owed : Bool) : Frame (searchTouch n) s ((s.searchEnded n owed).setAlmNext n m) :=
  ((((Frame.refl _ s).clrBits _ _ (by simp [searchTouch])).setAlm n _ (by simp [searchTouch])).wr _ _ (by simp [searchTouch])).wr _ _
    (by simp [searchTouch])

theorem Frame.almDone (s : State) (n x : Nat) : Frame (searchTouch n) s (s.almDone n x) := by
  cases h : s.almFirst (s.almSpec n) x with
  | none =>
    rw [State.almDone_never h]
    exact ((Frame.searchEnded s n 0 false).wr _ _ (by simp [searchTouch])).setBits _ _ (by simp [searchTouch])
  | some m =>
    rw [State.almDone_found h]
    exact (Frame.searchEnded s n m _).wr _ _ (by simp [searchTouch])

theorem State.busy_searchEnded (s : State) (n : Fin 8) (owed : Bool) : (s.searchEnded n owed).bit cAlmBusy n = false := by
  have hclear : ∀ i : Fin 8, (2 ^ 8 - 1 - 2 ^ i.val % 2 ^ 8).testBit i = false := by decide
  have hrd : (s.searchEnded n owed).rd cAlmBusy = (s.rd cAlmBusy &&& (2 ^ 8 - 1 - 2 ^ n.val % 2 ^ 8)) % 2 ^ 8 := State.rd_wr_same _ _ _
  rw [State.bit, hrd, Nat.testBit_mod_two_pow, Nat.testBit_and, hclear, Bool.and_false, Bool.and_false]

theorem State.busy_almDone (s : State) (n : Fin 8) (x : Nat) : (s.almDone n x).bit cAlmBusy n = false := by
  have hapart : ∀ f ∈ almFlds n, f.key ≠ cAlmBusy.key := fun f hf => ((almFlds_apart n f hf).2.1).symm
  have hnext : ∀ (u : State) (m never : Nat), ((u.setAlmNext n m).wr (cAlmNever n) never).rd cAlmBusy = u.rd cAlmBusy := fun u m never => by
    rw [State.setAlmNext, State.rd_wr_ne _ (hapart _ (by simp [almFlds])), State.rd_wr_ne _ (hapart _ (by simp [almFlds])),
      State.rd_wr_ne _ (hapart _ (by simp [almFlds]))]
  unfold State.bit
  cases h : s.almFirst (s.almSpec n) x with
  | none =>
    rw [State.almDone_never h, State.calEvt, State.setBits, State.rd_wr_ne _ (by decide), hnext]
    exact s.busy_searchEnded n false
  | some m =>
    rw [State.almDone_found h, hnext]
    exact s.busy_searchEnded n _

theorem State.almNext_setAlmNext (s : State) (n m : Nat) (h : m < 2 ^ 48) : (s.setAlmNext n m).almNext n = m := by
  have hlo : (s.setAlmNext n m).rd (cAlmNextLo n) = m % 2 ^ 32 := (State.rd_wr_ne _ (by simp) _).trans (State.rd_wr_same _ _ _)
  have hhi : (s.setAlmNext n m).rd (cAlmNextHi n) = m / 2 ^ 32 % 2 ^ 16 := State.rd_wr_same _ _ _
  rw [State.almNext, hlo, hhi]
  omega

theorem State.almNext_wr (s : State) (n : Nat) {f : Fld} (v : Nat) (hlo : f.key ≠ (cAlmNextLo n).key) (hhi : f.key ≠ (cAlmNextHi n).key) :
    (s.wr f v).almNext n = s.almNext n := by
  rw [State.almNext, State.almNext, State.rd_wr_ne _ hlo, State.rd_wr_ne _ hhi]

theorem State.almDone_match {s : State} {n x m : Nat} (h : s.almFirst (s.almSpec n) x = some m) (hm : m < 2 ^ 48) :
    (s.almDone n x).almNext n = m ∧ (s.almDone n x).rd (cAlmNever n) = 0 := by
  rw [State.almDone_found h, State.almNext_wr _ _ _ (by simp) (by simp)]
  exact ⟨State.almNext_setAlmNext _ n m hm, State.rd_wr_same _ _ _⟩

theorem State.almDone_noMatch {s : State} {n x : Nat} (h : s.almFirst (s.almSpec n) x = none) :
    (s.almDone n x).almNext n = 0 ∧ (s.almDone n x).rd (cAlmNever n) = 1 ∧ (s.almDone n x).bit cEvt 3 = true := by
  have hevt : ∀ f ∈ almFlds n, cEvt.key ≠ f.key := fun f hf => (almFlds_apart n f hf).2.2
  rw [State.almDone_never h]
  refine ⟨?_, ?_, State.bit_setBits_same _ (by decide)⟩
  · rw [State.calEvt, State.setBits, State.almNext_wr _ _ _ (hevt _ (by simp [almFlds])) (hevt _ (by simp [almFlds])),
      State.almNext_wr _ _ _ (by simp) (by simp)]
    exact State.almNext_setAlmNext _ n 0 (by decide)
  · exact (State.rd_wr_ne _ (hevt _ (by simp [almFlds])) _).trans (State.rd_wr_same _ _ _)

theorem exec_alarmSearchDone {n : Fin 8} {s : State} {x : Nat} (hrun : s.running = true) (hview : s.viewValid = true)
    (hsearch : (s.alm n).search = some x) : exec (.alarmSearchDone n) s = .next (s.almDone n x) := by
  refine congrArg Host.Outcome.next ((if_pos (by simp [hrun, hview])).trans ?_)
  rw [hsearch]

theorem alarmSearchDone_ends {n : Fin 8} {s : State} (hrun : s.running = true) (hview : s.viewValid = true) :
    ∀ x ∈ (s.alm n).search.toList, Happens (.alarmSearchDone n) s (searchTouch n) fun t =>
      t.bit cAlmBusy n = false ∧
      (∀ m ∈ (s.almFirst (s.almSpec n) x).toList, m < 2 ^ 48 → t.almNext n = m ∧ t.rd (cAlmNever n) = 0) ∧
      (s.almFirst (s.almSpec n) x = none → t.almNext n = 0 ∧ t.rd (cAlmNever n) = 1 ∧ t.bit cEvt 3 = true) := fun x hx =>
  ⟨s.almDone n x, exec_alarmSearchDone hrun hview (Option.mem_toList.1 hx), Frame.almDone s n x, s.busy_almDone n x,
    fun _ hm => State.almDone_match (Option.mem_toList.1 hm), State.almDone_noMatch⟩

/-! ### IRIGIN (R329) -/

theorem irigClass_bad {w : Nat} (h : w < 1000000 ∨ 9500000 < w) : irigClass w = none := by
  unfold irigClass
  rw [if_neg (by omega), if_neg (by omega), if_neg (by omega)]

theorem irigClass_marker {w : Nat} (hmin : 6500000 ≤ w) (hmax : w ≤ 9500000) : irigClass w = some 2 := by
  unfold irigClass
  rw [if_neg (by omega), if_neg (by omega), if_pos ⟨hmin, hmax⟩]

theorem irigClass_binary {w : Nat} (hmin : 1000000 ≤ w) (hmax : w < 6500000) : irigClass w = some (if w < 3500000 then 0 else 1) := by
  unfold irigClass
  by_cases hw : w < 3500000
  · rw [if_pos ⟨hmin, hw⟩, if_pos hw]
  · rw [if_neg (by omega), if_pos ⟨by omega, hmax⟩, if_neg hw]

/-- With another source than DSRC 3 the edge that opens a frame disciplines nothing (R280). -/
theorem State.irigOpen_idle {u : State} (hsrc : u.rd dSrc ≠ 3) (x : Nat) : u.irigOpen x = u := by
  simp [State.irigOpen, hsrc]

theorem exec_iriginElement {lead : Stamp} {w : Nat} {s : State} (hrun : s.running = true) :
    exec (.iriginElement lead w) s = .next (s.irigIn lead w) :=
  congrArg Host.Outcome.next (if_pos hrun)

section
variable {lead : Stamp} {w : Nat} {s : State} (hrun : s.running = true)
include hrun

theorem iriginElement_bad (hw : w < 1000000 ∨ 9500000 < w) (hframe : s.cal.inFrame ≠ none) :
    Happens (.iriginElement lead w) s { flds := [cInBad, cEvt], blks := [.cal] } fun t =>
      t.cal = { s.cal with inMark := false, inFrame := none } ∧ t.rd cInBad = min (s.rd cInBad + 1) 65535 ∧ t.bit cEvt 2 = true := by
  have hin : s.irigIn lead w = s.irigBad.setFrame false none := by
    rw [State.irigIn, irigClass_bad hw]
    exact congrArg (State.setFrame · false none) (if_pos (Option.isSome_iff_ne_none.2 hframe))
  have hcount : (s.irigBad.setFrame false none).rd cInBad = min (s.rd cInBad + 1) 65535 % 2 ^ 16 :=
    (State.rd_wr_ne _ (by decide) _).trans (State.rd_wr_same _ _ _)
  refine ⟨_, (exec_iriginElement hrun).trans (congrArg _ hin), ?_, rfl, by rw [hcount]; omega, ?_⟩
  · exact (((Frame.refl _ s).bump _ _ (by simp)).setBits _ _ (by simp)).cal _ (by simp)
  · exact State.bit_setBits_same (s.bump cInBad) (by decide : 2 < cEvt.width)

theorem iriginElement_opens (hmin : 6500000 ≤ w) (hmax : w ≤ 9500000) (hmark : s.cal.inMark = true) (hnone : s.cal.inFrame = none)
    (hsrc : s.rd dSrc ≠ 3) : Happens (.iriginElement lead w) s { blks := [.cal] } fun t =>
      t.cal = { s.cal with inMark := true, inFrame := some (lead, [2]) } := by
  have hin : s.irigIn lead w = s.setFrame true (some (lead, [2])) := by
    simp only [State.irigIn, irigClass_marker hmin hmax, hmark, hnone, and_self, if_true, Option.isSome_none, Bool.false_eq_true, if_false]
    exact State.irigOpen_idle (u := s.setFrame true (some (lead, [2]))) hsrc lead
  exact ⟨_, (exec_iriginElement hrun).trans (congrArg _ hin), (Frame.refl _ s).cal _ (by simp), rfl⟩

theorem iriginElement_extends (hmin : 1000000 ≤ w) (hmax : w < 6500000) : ∀ f ∈ s.cal.inFrame.toList, f.2.length ≠ 99 →
    Happens (.iriginElement lead w) s { blks := [.cal] } fun t =>
      t.cal = { s.cal with inMark := false, inFrame := some (f.1, (if w < 3500000 then 0 else 1) :: f.2) } := by
  intro f hf hlen
  have hframe : s.cal.inFrame = some f := Option.mem_toList.1 hf
  have hbinary : (if w < 3500000 then 0 else 1) ≠ 2 := by split <;> decide
  have hmark : ((if w < 3500000 then 0 else 1) == 2) = false := beq_false_of_ne hbinary
  have hin : s.irigIn lead w = s.setFrame false (some (f.1, (if w < 3500000 then 0 else 1) :: f.2)) := by
    simp [State.irigIn, irigClass_binary hmin hmax, hframe, hbinary, hmark, hlen]
  exact ⟨_, (exec_iriginElement hrun).trans (congrArg _ hin), (Frame.refl _ s).cal _ (by simp), rfl⟩

end

/-! ### The statement -/

/-- Settles O26: the leap table by R315, the local change by whether it is due, a write of CAL_ALM_CTRL by whether the old setting fires in its
cycle, a search by whether it finds a match, and an IRIGIN element by its class. -/
theorem calendarTableAndAlarms : Obligations.CalendarTableAndAlarms := by
  unfold Obligations.CalendarTableAndAlarms
  intro slot k n v lead w s
  refine ⟨fun hs hsec => ⟨leapWrite_takes k hs hsec, leapWrite_outOfRange k hs hsec, localArm_arms hs hsec⟩,
    fun hs => ⟨cancelLocal_disarms hs, cancelLocal_late hs, cancelLocal_idle hs, calAlmCtrlWrite_reserved hs, calAlmCtrlWrite_late hs,
      calAlmCtrlWrite_sets hs⟩,
    fun hrun => ⟨localChange_applies hrun, fun hview => ⟨alarmSearchDone_ends hrun hview, fun hen hsearch hnever hnext hnow => ?_⟩,
      iriginElement_bad hrun, iriginElement_opens hrun, iriginElement_extends hrun⟩⟩
  have hset : s.almSet n = true := by simp [State.almSet, hen, hsearch, hnever, hnext]
  exact calAlarmFire_fires ((s.almDue_iff n).2 ⟨hrun, hview, hset, hnow⟩)

end Sys2Proof.Machine
end

section
/-! SUPPORT. An item that a hub producer gives to a ring with room (R506, R507, R513): where its words stand, and what else changes. -/

namespace Sys2Proof.Machine

open F

/-! ### Bytes of ring storage -/

/-- The bytes of a word that ends before the end of storage follow each other. -/
theorem State.ringAt_add {s : State} {r i k : Nat} (h : s.ringWhole r i = true) (hk : k < 4) : s.ringAt r (i + k) = s.ringAt r i + k := by
  have hfit : i % s.ringSize r + 4 ≤ s.ringSize r := of_decide_eq_true h
  have hsum : (i + k) % s.ringSize r = i % s.ringSize r + k := by
    rw [Nat.add_mod, Nat.mod_eq_of_lt (by omega : k < s.ringSize r), Nat.mod_eq_of_lt (by omega)]
  rw [State.ringAt, State.ringAt, hsum, Nat.add_assoc]

/-- Two indices less than the storage apart, and less than the Shared Buffer, lie at different bytes of it. -/
theorem State.ringAt_ne (s : State) {r x y : Nat} (hxy : x < y) (hsize : y - x < s.ringSize r) (hbuf : y - x < 2 ^ 20) :
    s.ringAt r x % 2 ^ 20 ≠ s.ringAt r y % 2 ^ 20 := by
  have happart : ∀ m, y - x < m → x % m ≠ y % m := fun m hm he => by
    have hzero : (y - x) % m = 0 := Nat.sub_mod_eq_zero_of_mod_eq he.symm
    rw [Nat.mod_eq_of_lt hm] at hzero
    omega
  have hpos : 0 < s.ringSize r := by omega
  intro heq
  rw [State.ringAt, State.ringAt] at heq
  have hmod : x % s.ringSize r % 2 ^ 20 = y % s.ringSize r % 2 ^ 20 := by omega
  rcases Nat.le_total (s.rd (rSize r)) 20 with hp | hp
  · have hle : s.ringSize r ≤ 2 ^ 20 := Nat.pow_le_pow_right (by decide) hp
    have hx := Nat.mod_lt x hpos
    have hy := Nat.mod_lt y hpos
    rw [Nat.mod_eq_of_lt (Nat.lt_of_lt_of_le hx hle), Nat.mod_eq_of_lt (Nat.lt_of_lt_of_le hy hle)] at hmod
    exact happart _ hsize hmod
  · have hdvd : 2 ^ 20 ∣ s.ringSize r := Nat.pow_dvd_pow 2 hp
    rw [Nat.mod_mod_of_dvd _ hdvd, Nat.mod_mod_of_dvd _ hdvd] at hmod
    exact happart _ hbuf hmod

/-- A word goes into ring storage byte by byte. -/
theorem State.ringSetWord_bytes (s : State) (r i w : Nat) : s.ringSetWord r i w =
    (((s.setByte (s.ringAt r i) (.ofNat 8 w)).setByte (s.ringAt r (i + 1)) (.ofNat 8 (w / 2 ^ 8))).setByte (s.ringAt r (i + 2))
      (.ofNat 8 (w / 2 ^ 16))).setByte (s.ringAt r (i + 3)) (.ofNat 8 (w / 2 ^ 24)) := by
  unfold State.ringSetWord
  split
  · next h => rw [State.ringAt_add h (by decide), State.ringAt_add h (by decide), State.ringAt_add h (by decide)]; rfl
  · rfl

/-- A word of ring storage is read byte by byte. -/
theorem State.ringWord_bytes (s : State) (r i : Nat) : s.ringWord r i =
    (s.sbyte (s.ringAt r i)).toNat + (s.sbyte (s.ringAt r (i + 1))).toNat * 2 ^ 8 + (s.sbyte (s.ringAt r (i + 2))).toNat * 2 ^ 16 +
      (s.sbyte (s.ringAt r (i + 3))).toNat * 2 ^ 24 := by
  unfold State.ringWord
  split
  · next h => rw [State.ringAt_add h (by decide), State.ringAt_add h (by decide), State.ringAt_add h (by decide)]; rfl
  · rfl

/-! ### Words of ring storage -/

theorem State.ringAt_congr {s t : State} (r : Nat) (hsize : t.rd (rSize r) = s.rd (rSize r)) (hofs : t.rd (rOfs r) = s.rd (rOfs r)) (i : Nat) :
    t.ringAt r i = s.ringAt r i := by
  rw [State.ringAt, State.ringAt, State.ringBase, State.ringBase, State.ringSize, State.ringSize, hsize, hofs]

/-- A word reads the same where its four bytes do. -/
theorem State.ringWord_congr {s t : State} {r i : Nat} (hat : ∀ j, t.ringAt r j = s.ringAt r j)
    (hbytes : ∀ k < 4, t.sbyte (s.ringAt r (i + k)) = s.sbyte (s.ringAt r (i + k))) : t.ringWord r i = s.ringWord r i := by
  have hfirst : t.sbyte (s.ringAt r i) = s.sbyte (s.ringAt r i) := hbytes 0 (by decide)
  rw [State.ringWord_bytes, State.ringWord_bytes, hat, hat, hat, hat, hfirst, hbytes 1 (by decide), hbytes 2 (by decide),
    hbytes 3 (by decide)]

theorem State.ringGet_congr {s t : State} (r : Nat) (hsize : t.rd (rSize r) = s.rd (rSize r)) (hofs : t.rd (rOfs r) = s.rd (rOfs r))
    (hbuf : t.sbuf = s.sbuf) (i n : Nat) : t.ringGet r i n = s.ringGet r i n := by
  induction n generalizing i with
  | zero => rfl
  | succ n ih =>
    rw [State.ringGet, State.ringGet, ih, State.ringWord_congr (State.ringAt_congr r hsize hofs) fun _ _ => State.sbyte_congr hbuf _]

theorem State.ringAt_ringSetWord (s : State) (r i w j : Nat) : (s.ringSetWord r i w).ringAt r j = s.ringAt r j := by
  rw [State.ringSetWord_bytes]; rfl

/-- A word that is written reads back. -/
theorem State.ringWord_ringSetWord (s : State) {r i w : Nat} (hsize : 4 ≤ s.ringSize r) : (s.ringSetWord r i w).ringWord r i = w % 2 ^ 32 := by
  have hne : ∀ {x y : Nat}, x < y → y ≤ i + 3 → i ≤ x → s.ringAt r x % 2 ^ 20 ≠ s.ringAt r y % 2 ^ 20 := fun hxy hy hx =>
    s.ringAt_ne hxy (by omega) (by omega)
  rw [State.ringWord_bytes]
  simp only [State.ringAt_ringSetWord]
  rw [State.ringSetWord_bytes, State.sbyte_setByte_same]
  rw [State.sbyte_setByte_ne _ (hne (x := i + 2) (y := i + 3) (by omega) (by omega) (by omega)), State.sbyte_setByte_same]
  rw [State.sbyte_setByte_ne _ (hne (x := i + 1) (y := i + 3) (by omega) (by omega) (by omega)),
    State.sbyte_setByte_ne _ (hne (x := i + 1) (y := i + 2) (by omega) (by omega) (by omega)), State.sbyte_setByte_same]
  rw [State.sbyte_setByte_ne _ (hne (x := i) (y := i + 3) (by omega) (by omega) (by omega)),
    State.sbyte_setByte_ne _ (hne (x := i) (y := i + 2) (by omega) (by omega) (by omega)),
    State.sbyte_setByte_ne _ (hne (x := i) (y := i + 1) (by omega) (by omega) (by omega)), State.sbyte_setByte_same]
  simp only [BitVec.toNat_ofNat]
  omega

theorem Frame.ringSetWord {w : Touch} {s t : State} (h : Frame w s t) (r i v : Nat) (hb : ∀ j < 4, t.ringAt r (i + j) % 2 ^ 20 ∈ w.bytes) :
    Frame w s (t.ringSetWord r i v) := by
  rw [State.ringSetWord_bytes]
  exact (((h.setByte _ _ (hb 0 (by decide))).setByte _ _ (hb 1 (by decide))).setByte _ _ (hb 2 (by decide))).setByte _ _ (hb 3 (by decide))

theorem Frame.ringPut {w : Touch} {s t : State} (h : Frame w s t) (r i : Nat) (ws : List Nat)
    (hb : ∀ j < 4 * ws.length, t.ringAt r (i + j) % 2 ^ 20 ∈ w.bytes) : Frame w s (t.ringPut r i ws) := by
  induction ws generalizing t i with
  | nil => exact h
  | cons v ws ih =>
    rw [List.length_cons] at hb
    refine ih (h.ringSetWord r i v fun j hj => hb j (by omega)) (i + 4) fun j hj => ?_
    rw [State.ringAt_ringSetWord, Nat.add_assoc]
    exact hb (4 + j) (by omega)

/-- A byte at which no word of an item stands reads as before. -/
theorem State.sbyte_ringPut_ne (s : State) (r i : Nat) (ws : List Nat) {a : Nat}
    (ha : ∀ j < 4 * ws.length, s.ringAt r (i + j) % 2 ^ 20 ≠ a % 2 ^ 20) : (s.ringPut r i ws).sbyte a = s.sbyte a := by
  have hframe := (Frame.refl { bytes := (List.range (4 * ws.length)).map fun j => s.ringAt r (i + j) % 2 ^ 20 } s).ringPut r i ws
    fun j hj => List.mem_map.2 ⟨j, List.mem_range.2 hj, rfl⟩
  have hkept := hframe.mem rfl (a % 2 ^ 20) (Nat.mod_lt _ (by decide)) (by simpa using ha)
  simpa only [State.sbyte, Nat.mod_mod] using hkept

/-- The words of an item that fits in the storage read back. -/
theorem State.ringGet_ringPut (s : State) (r i : Nat) (ws : List Nat) (hsize : 4 * ws.length ≤ s.ringSize r) (hbuf : 4 * ws.length ≤ 2 ^ 20) :
    (s.ringPut r i ws).ringGet r i ws.length = ws.map (· % 2 ^ 32) := by
  induction ws generalizing s i with
  | nil => rfl
  | cons w ws ih =>
    rw [List.length_cons] at hsize hbuf
    obtain ⟨m, hm⟩ := (s.ringSetWord r i w).ringPut_eq r (i + 4) ws
    have hfirst : ((s.ringSetWord r i w).ringPut r (i + 4) ws).ringWord r i = w % 2 ^ 32 := by
      rw [← s.ringWord_ringSetWord (by omega : 4 ≤ s.ringSize r)]
      refine State.ringWord_congr (fun j => by rw [hm]; rfl) fun k hk => State.sbyte_ringPut_ne _ _ _ _ fun j hj => ?_
      rw [State.ringAt_ringSetWord, State.ringAt_ringSetWord]
      exact (s.ringAt_ne (by omega) (by omega) (by omega)).symm
    have hkeeps : (s.ringSetWord r i w).ringSize r = s.ringSize r := by rw [State.ringSetWord_bytes]; rfl
    have hrest := ih (s.ringSetWord r i w) (i + 4) (by omega) (by omega)
    rw [State.ringPut, List.length_cons, State.ringGet, hfirst, hrest, List.map_cons]

/-! ### An item that the ring takes -/

/-- The item at WIDX is published. -/
theorem State.stored_ringAppend (s : State) (r : Nat) (ws : List Nat) (hsize : 4 * ws.length ≤ s.ringSize r) (hbuf : 4 * ws.length ≤ 2 ^ 20) :
    Stored r ws s (s.ringAppend r ws) := by
  obtain ⟨m, hm⟩ := s.ringPut_eq r (s.rd (rWidx r)) ws
  have hsizeKey : (rWidx r).key ≠ (rSize r).key := by simp only [Fld.key, rWidx, rSize, F.rw, F.rws, ne_eq]; omega
  have hofsKey : (rWidx r).key ≠ (rOfs r).key := by simp only [Fld.key, rWidx, rOfs, F.rw, F.rws, ne_eq]; omega
  refine ⟨?_, ?_⟩
  · rw [State.ringAppend, State.publish, State.rd_wr_same, hm, State.rd_mk]
    rfl
  · rw [← s.ringGet_ringPut r (s.rd (rWidx r)) ws hsize hbuf]
    exact State.ringGet_congr r (State.rd_wr_ne _ hsizeKey _) (State.rd_wr_ne _ hofsKey _) rfl _ _

theorem Frame.ringAppend_at {w : Touch} {s t : State} (h : Frame w s t) (r : Nat) (ws : List Nat) (hf : rWidx r ∈ w.flds)
    (hb : ∀ a ∈ t.itemBytes r ws.length, a ∈ w.bytes) : Frame w s (t.ringAppend r ws) :=
  (h.ringPut r (t.rd (rWidx r)) ws fun j hj => hb _ (List.mem_map.2 ⟨j, List.mem_range.2 hj, rfl⟩)).wr _ _ hf

/-- A hub producer's item goes at once into a ring that accepts it. -/
theorem State.give_accepted {s : State} {r : Nat} {ws : List Nat} (h : s.accepts r ws.length = true) :
    s.give r ws = State.ringAppend { s with port := { s.port with last := ringBlock r } } r ws := by
  simp only [State.accepts, State.takes, Bool.and_eq_true, decide_eq_true_eq] at h
  obtain ⟨hidle, ⟨⟨hen, hroom⟩, -⟩, -⟩ := h
  have hfit : ¬ s.ringSize r < 4 * ws.length := by omega
  rw [State.give, if_pos hidle]
  exact congrArg Prod.snd ((if_neg (by simpa [State.on] using hen)).trans ((if_neg hfit).trans (if_pos hroom)))

/-- It stands in the ring, and beside it only the port knows who wrote last. -/
theorem State.give_stores {s : State} {r : Nat} {ws : List Nat} (h : s.accepts r ws.length = true) :
    Stored r ws s (s.give r ws) ∧ Frame { flds := [rWidx r], blks := [.port], bytes := s.itemBytes r ws.length } s (s.give r ws) := by
  have hgive := State.give_accepted h
  simp only [State.accepts, State.takes, Bool.and_eq_true, decide_eq_true_eq] at h
  obtain ⟨-, ⟨⟨-, hroom⟩, hmost⟩, -⟩ := h
  rw [hgive]
  have hsize : 4 * ws.length ≤ s.ringSize r := by omega
  exact ⟨State.stored_ringAppend { s with port := { s.port with last := ringBlock r } } r ws hsize (by omega),
    ((Frame.refl _ s).port _ (by simp)).ringAppend_at r ws (by simp) fun a ha => ha⟩

/-- An item stays where fields below the ring registers are written. -/
theorem Stored.wr {r : Nat} {ws : List Nat} {s t : State} (h : Stored r ws s t) {f : Fld} (hf : f.addr < 0x0D1000) (hlo : f.lo < 32) (v : Nat) :
    Stored r ws s (t.wr f v) := by
  have hkey : ∀ g : Fld, 0x0D1000 ≤ g.addr → f.key ≠ g.key := fun g hg => by simp only [Fld.key, ne_eq]; omega
  obtain ⟨hwidx, hwords⟩ := h
  refine ⟨(State.rd_wr_ne _ (hkey _ (by simp only [rWidx, rBase, F.rw]; omega)) _).trans hwidx, Eq.trans ?_ hwords⟩
  exact State.ringGet_congr r (State.rd_wr_ne _ (hkey _ (by simp only [rSize, rBase, F.rws]; omega)) _)
    (State.rd_wr_ne _ (hkey _ (by simp only [rOfs, rBase, F.rws]; omega)) _) rfl _ _

end Sys2Proof.Machine
end

section
/-! SUPPORT. Edges on stamp inputs (R337 to R343, R352): the deglitch filter, acceptance, drops, and the host-assisted stamp. -/

namespace Sys2Proof.Machine

open F

/-! ### The circle of stamps -/

/-- How long after one stamp another is, on the circle of stamps. -/
theorem sinceStamp_eq (l x : Nat) : sinceStamp l x = (((x : Int) - l) % (2 ^ 48 * 10 ^ 9 * 2 ^ 4)).toNat := by
  have hmod : timeMod / 2 ^ 28 = 2 ^ 48 * 10 ^ 9 * 2 ^ 4 := by decide
  rw [sinceStamp, hmod]
  omega

theorem nearStamp_eq_false {last : Option Nat} {x : Nat} (h : ∀ l ∈ last.toList, 128 ≤ sinceStamp l x) : nearStamp last x = false := by
  cases last with
  | none => rfl
  | some l => exact decide_eq_false (Nat.not_lt.2 (h l (by simp)))

theorem nearStamp_eq_true {last : Option Nat} {x l : Nat} (hl : l ∈ last.toList) (h : sinceStamp l x < 128) : nearStamp last x = true := by
  rw [Option.mem_toList.1 hl]
  exact decide_eq_true h

/-! ### One input -/

@[simp] theorem State.stin_setStin (s : State) (n : Nat) (x : StIn) : (s.setStin n x).stin n = x := Assoc.get_put_same _ _ _ _

theorem State.stin_setStin_ne (s : State) {k n : Nat} (h : k ≠ n) (x : StIn) : (s.setStin n x).stin k = s.stin k := Assoc.get_put_ne _ _ h _ _

/-- The stamp block holds the inputs. -/
theorem State.stin_congr {s t : State} (h : t.stp = s.stp) (n : Nat) : t.stin n = s.stin n := by rw [State.stin, State.stin, h]

/-- A dropped edge is counted, which saturates, and flagged, and the next quill is to report it. -/
theorem State.stDrop_counts (s : State) (n : Nat) :
    (s.stDrop n).stin n = { s.stin n with ovf := true } ∧ (s.stDrop n).rd (sDropped n) = min (s.rd (sDropped n) + 1) 65535 ∧
      (s.stDrop n).bit (sEvt n) 0 = true := by
  have hkey : (sEvt n).key ≠ (sDropped n).key := by simp only [Fld.key, sEvt, sDropped, F.w1c, F.rc, ne_eq]; omega
  have hw : (sDropped n).width = 16 := rfl
  refine ⟨State.stin_setStin _ _ _, ?_, State.bit_setBits_same _ (by decide : 0 < 4)⟩
  show (((s.bump (sDropped n)).setBits (sEvt n) (2 ^ 0)).rd (sDropped n)) = _
  rw [State.setBits, State.rd_wr_ne _ hkey, State.bump, State.rd_wr_same, hw]
  omega

theorem Frame.stDrop {w : Touch} {s t : State} (h : Frame w s t) (n : Nat) (hd : sDropped n ∈ w.flds) (he : sEvt n ∈ w.flds)
    (hb : .stin n ∈ w.blks) : Frame w s (t.stDrop n) :=
  ((h.bump _ _ hd).setBits _ _ he).setStin n _ hb

/-- The hub with an edge accepted at this crossing (R341). -/
def State.stAccept (s : State) (n crossing : Nat) : State := s.setStin n { s.stin n with last := some crossing }

theorem Frame.stAccept {w : Touch} {s : State} (n crossing : Nat) (hb : .stin n ∈ w.blks) : Frame w s (s.stAccept n crossing) :=
  (Frame.refl w s).setStin n _ hb

/-- An edge is dropped near the last accepted one; else MODE and the room in the FIFO decide (R341, R342, R343, R352). -/
theorem State.stEdge_near {s : State} {n x : Nat} (pol : Bool) (h : nearStamp (s.stin n).last x = true) : s.stEdge n x pol = s.stDrop n :=
  if_pos h

theorem State.stEdge_assisted {s : State} {n x : Nat} (pol : Bool) (h : nearStamp (s.stin n).last x = false) (hm : s.on (sMode n) = true) :
    s.stEdge n x pol = (s.stAccept n x).stLast n (s.stStamp n x) pol :=
  (if_neg (Bool.eq_false_iff.1 h)).trans (if_pos hm)

theorem State.stEdge_full {s : State} {n x : Nat} (pol : Bool) (h : nearStamp (s.stin n).last x = false) (hm : s.on (sMode n) = false)
    (hf : 4 ≤ (s.stin n).fifo.length) : s.stEdge n x pol = (s.stAccept n x).stDrop n := by
  have hfull : 4 ≤ ((s.stAccept n x).stin n).fifo.length := by rw [State.stAccept, State.stin_setStin]; exact hf
  exact (if_neg (Bool.eq_false_iff.1 h)).trans ((if_neg (Bool.eq_false_iff.1 hm)).trans (if_pos hfull))

theorem State.stEdge_joins {s : State} {n x : Nat} (pol : Bool) (h : nearStamp (s.stin n).last x = false) (hm : s.on (sMode n) = false)
    (hf : (s.stin n).fifo.length < 4) : s.stEdge n x pol = (s.stAccept n x).setStin n { s.stin n with
      last := some x, ovf := false
      fifo := (s.stin n).fifo ++ [{ t := s.stStamp n x, pol := pol, ovf := (s.stin n).ovf, uncal := s.stUncal n }] } := by
  have hin : (s.stAccept n x).stin n = { s.stin n with last := some x } := State.stin_setStin _ _ _
  have hroom : ¬ 4 ≤ ((s.stAccept n x).stin n).fifo.length := by rw [hin]; exact Nat.not_le.2 hf
  refine (if_neg (Bool.eq_false_iff.1 h)).trans ((if_neg (Bool.eq_false_iff.1 hm)).trans ((if_neg hroom).trans ?_))
  show (s.stAccept n x).setStin n { (s.stAccept n x).stin n with
    ovf := false
    fifo := ((s.stAccept n x).stin n).fifo ++ [{ t := s.stStamp n x, pol := pol, ovf := ((s.stAccept n x).stin n).ovf, uncal := s.stUncal n }] } = _
  rw [hin]

/-! ### STP_LAST of a host-assisted input (R352) -/

theorem sLast_key (n i : Nat) : (sLast n i).key = n * 512 + (i * 128 + 10551296) := by simp only [Fld.key, sLast, F.ro]; omega
theorem sLastCnt_key (n : Nat) : (sLastCnt n).key = n * 512 + 10551680 := by simp only [Fld.key, sLastCnt, F.ro]; omega
theorem sLastPol_key (n : Nat) : (sLastPol n).key = n * 512 + 10551707 := by simp only [Fld.key, sLastPol, F.ro]; omega
theorem sLastOverrun_key (n : Nat) : (sLastOverrun n).key = n * 512 + 10551711 := by simp only [Fld.key, sLastOverrun, F.rc]; omega

/-- Fields of one unit stand apart where their places in it do. -/
theorem Fld.key_ne {f g : Fld} {base i j : Nat} (hf : f.key = base + i) (hg : g.key = base + j) (h : i ≠ j) : f.key ≠ g.key := by
  omega

/-- The fields that a host-assisted stamp writes. -/
def lastFlds (n : Nat) : List Fld := [sLast n 0, sLast n 1, sLast n 2, sLastCnt n, sLastPol n, sLastOverrun n]

/-- The three words of a stamp are in STP_LAST. -/
def State.lastWords (s : State) (n t : Nat) : State :=
  let w := time96 (ofStamp t) (s.qual (s.stUncal n))
  ((s.wr (sLast n 0) (w.getD 0 0)).wr (sLast n 1) (w.getD 1 0)).wr (sLast n 2) (w.getD 2 0)

/-- And so are its count and polarity. -/
def State.lastPut (s : State) (n t : Nat) (pol : Bool) : State :=
  ((s.lastWords n t).wr (sLastCnt n) ((s.lastWords n t).rd (sLastCnt n) + 1)).wr (sLastPol n) pol.toNat

/-- OVERRUN marks a stamp that nobody has read. -/
def State.lastMarked (s : State) (n t : Nat) (pol : Bool) : State :=
  if ((s.lastPut n t pol).stin n).unread then (s.lastPut n t pol).wr (sLastOverrun n) 1 else s.lastPut n t pol

theorem State.stLast_eq (s : State) (n t : Nat) (pol : Bool) :
    s.stLast n t pol = (s.lastMarked n t pol).setStin n { (s.lastMarked n t pol).stin n with unread := true } := rfl

theorem State.stin_lastPut (s : State) (n t : Nat) (pol : Bool) : (s.lastPut n t pol).stin n = s.stin n :=
  State.stin_congr (by rw [State.lastPut, State.wr_stp, State.wr_stp, State.lastWords, State.wr_stp, State.wr_stp, State.wr_stp]) n

theorem Frame.lastPut {w : Touch} {s t : State} (h : Frame w s t) (n x : Nat) (pol : Bool) (hw : ∀ f ∈ lastFlds n, f ∈ w.flds) :
    Frame w s (t.lastPut n x pol) :=
  ((((h.wr _ _ (hw _ (by simp [lastFlds]))).wr _ _ (hw _ (by simp [lastFlds]))).wr _ _ (hw _ (by simp [lastFlds]))).wr _ _
    (hw _ (by simp [lastFlds]))).wr _ _ (hw _ (by simp [lastFlds]))

theorem Frame.stLast {w : Touch} {s t : State} (h : Frame w s t) (n x : Nat) (pol : Bool) (hw : ∀ f ∈ lastFlds n, f ∈ w.flds)
    (hb : .stin n ∈ w.blks) : Frame w s (t.stLast n x pol) := by
  have hput := h.lastPut n x pol hw
  rw [State.stLast_eq]
  refine Frame.setStin ?_ _ _ hb
  unfold State.lastMarked
  split
  · exact hput.wr _ _ (hw _ (by simp [lastFlds]))
  · exact hput

theorem State.qual_lt (s : State) (b : Bool) : s.qual b < 4 := by
  unfold State.qual
  repeat' split
  all_goals decide

theorem State.lastPut_reads (s : State) (n t : Nat) (pol : Bool) :
    (s.lastPut n t pol).rd (sLast n 0) = secOf (ofStamp t) % 2 ^ 32 ∧
    (s.lastPut n t pol).rd (sLast n 2) = s.qual (s.stUncal n) * 2 ^ 30 + nsOf (ofStamp t) ∧
    (s.lastPut n t pol).rd (sLastCnt n) = (s.rd (sLastCnt n) + 1) % 2 ^ 16 ∧
    (s.lastPut n t pol).rd (sLastPol n) = pol.toNat := by
  have hns : nsOf (ofStamp t) < 1000000000 := Nat.mod_lt _ (by decide)
  have hqual := s.qual_lt (s.stUncal n)
  have hcnt : (s.lastWords n t).rd (sLastCnt n) = s.rd (sLastCnt n) := by
    rw [State.lastWords, State.rd_wr_ne _ (Fld.key_ne (sLast_key n 2) (sLastCnt_key n) (by decide)),
      State.rd_wr_ne _ (Fld.key_ne (sLast_key n 1) (sLastCnt_key n) (by decide)),
      State.rd_wr_ne _ (Fld.key_ne (sLast_key n 0) (sLastCnt_key n) (by decide))]
  have hkept : ∀ i < 3, (s.lastPut n t pol).rd (sLast n i) = (s.lastWords n t).rd (sLast n i) := fun i hi => by
    rw [State.lastPut, State.rd_wr_ne _ (Fld.key_ne (sLastPol_key n) (sLast_key n i) (by omega)),
      State.rd_wr_ne _ (Fld.key_ne (sLastCnt_key n) (sLast_key n i) (by omega))]
  have hwidth : ∀ i, (sLast n i).width = 32 := fun _ => rfl
  have hcntWidth : (sLastCnt n).width = 16 := rfl
  have hpolWidth : (sLastPol n).width = 1 := rfl
  refine ⟨(hkept 0 (by decide)).trans ?_, (hkept 2 (by decide)).trans ?_, ?_, ?_⟩
  · rw [State.lastWords, State.rd_wr_ne _ (Fld.key_ne (sLast_key n 2) (sLast_key n 0) (by decide)),
      State.rd_wr_ne _ (Fld.key_ne (sLast_key n 1) (sLast_key n 0) (by decide)), State.rd_wr_same, hwidth, time96, List.getD_cons_zero,
      Nat.mod_mod]
  · rw [State.lastWords, State.rd_wr_same, hwidth, time96, List.getD_cons_succ, List.getD_cons_succ, List.getD_cons_zero,
      Nat.mod_eq_of_lt (by omega)]
  · rw [State.lastPut, State.rd_wr_ne _ (Fld.key_ne (sLastPol_key n) (sLastCnt_key n) (by decide)), State.rd_wr_same, hcnt, hcntWidth]
  · rw [State.lastPut, State.rd_wr_same, hpolWidth]
    cases pol <;> rfl

theorem State.stLast_reads (s : State) (n t : Nat) (pol : Bool) :
    (s.stLast n t pol).rd (sLast n 0) = secOf (ofStamp t) % 2 ^ 32 ∧
    (s.stLast n t pol).rd (sLast n 2) = s.qual (s.stUncal n) * 2 ^ 30 + nsOf (ofStamp t) ∧
    (s.stLast n t pol).rd (sLastCnt n) = (s.rd (sLastCnt n) + 1) % 2 ^ 16 ∧
    (s.stLast n t pol).rd (sLastPol n) = pol.toNat ∧ ((s.stLast n t pol).stin n).unread = true ∧
    ((s.stin n).unread = true → (s.stLast n t pol).rd (sLastOverrun n) = 1) := by
  obtain ⟨hsec, hns, hcnt, hpol⟩ := s.lastPut_reads n t pol
  have hstin : ((s.stLast n t pol).stin n).unread = true := by rw [State.stLast_eq, State.stin_setStin]
  have hkept : ∀ f : Fld, (sLastOverrun n).key ≠ f.key → (s.stLast n t pol).rd f = (s.lastPut n t pol).rd f := fun f hf => by
    rw [State.stLast_eq, State.setStin, State.rd_mk, State.lastMarked]
    split
    · exact State.rd_wr_ne _ hf _
    · rfl
  refine ⟨(hkept _ (Fld.key_ne (sLastOverrun_key n) (sLast_key n 0) (by decide))).trans hsec,
    (hkept _ (Fld.key_ne (sLastOverrun_key n) (sLast_key n 2) (by decide))).trans hns,
    (hkept _ (Fld.key_ne (sLastOverrun_key n) (sLastCnt_key n) (by decide))).trans hcnt,
    (hkept _ (Fld.key_ne (sLastOverrun_key n) (sLastPol_key n) (by decide))).trans hpol, hstin, fun hun => ?_⟩
  · rw [State.stLast_eq, State.setStin, State.rd_mk, State.lastMarked, State.stin_lastPut, if_pos hun, State.rd_wr_same]
    rfl

/-! ### What an edge does -/

section

variable {n : Fin 64} {rising : Bool} {x : Stamp} {s : State}

/-- While the timeline runs an edge comes to the filter. -/
theorem exec_stinEdge (hup : s.glb.mainUp = true) (hfr : s.htm.frozen = false) :
    exec (.stinEdge n rising x) s = .next (s.stFilter n x rising) := by
  show event (s.stinEdge n rising x) = _
  rw [State.stinEdge, if_neg (by simp [hup]), if_neg (by simp [hfr])]
  rfl

/-- Without a filter it is decided at once. -/
theorem State.stFilter_none (hd : s.rd (sDgl n) = 0) (hfilt : (s.stin n).filt = []) : s.stFilter n x rising = s.stPass n x rising := by
  have hdgl : s.stDgl n = 0 := by rw [State.stDgl, hd]
  simp [State.stFilter, hfilt, hdgl]

theorem stinEdge_waits (hup : s.glb.mainUp = true) (hfr : s.htm.frozen = false) (hd : s.rd (sDgl n) ≠ 0) (hfilt : (s.stin n).filt = []) :
    Happens (.stinEdge n rising x) s { blks := [.stin n] } fun t => t.stin n = { s.stin n with filt := [(x, rising)] } := by
  have hdgl : s.stDgl n ≠ 0 := by rw [State.stDgl]; omega
  have heq : s.stFilter n x rising = s.setStin n { s.stin n with filt := [(x, rising)] } := by simp [State.stFilter, hfilt, hdgl]
  exact ⟨_, (exec_stinEdge hup hfr).trans (congrArg _ heq), (Frame.refl _ s).setStin _ _ (by simp), State.stin_setStin _ _ _⟩

/-- An edge behind another in the filter ends a pulse that is too short, and with it goes that edge; else it waits too. -/
theorem stinEdge_filtered (hup : s.glb.mainUp = true) (hfr : s.htm.frozen = false) : ∀ g ∈ (s.stin n).filt.getLast?.toList,
    (sinceStamp g.1 x < s.rd (sDgl n) * 4 * 2 ^ 4 → Happens (.stinEdge n rising x) s { blks := [.stin n] } fun t =>
      t.stin n = { s.stin n with filt := (s.stin n).filt.dropLast }) ∧
    (s.rd (sDgl n) * 4 * 2 ^ 4 ≤ sinceStamp g.1 x → Happens (.stinEdge n rising x) s { blks := [.stin n] } fun t =>
      t.stin n = { s.stin n with filt := (s.stin n).filt ++ [(x, rising)] }) := by
  intro g hg
  have hlast : (s.stin n).filt.getLast? = some g := Option.mem_toList.1 hg
  have hfilter : s.stFilter n x rising = if sinceStamp g.1 x < s.stDgl n then s.setStin n { s.stin n with filt := (s.stin n).filt.dropLast }
      else s.setStin n { s.stin n with filt := (s.stin n).filt ++ [(x, rising)] } := by simp [State.stFilter, hlast]
  have hdgl : s.stDgl n = s.rd (sDgl n) * 4 * 2 ^ 4 := by rw [State.stDgl]; omega
  rw [hdgl] at hfilter
  refine ⟨fun hshort => ?_, fun hlong => ?_⟩
  · rw [if_pos hshort] at hfilter
    exact ⟨_, (exec_stinEdge hup hfr).trans (congrArg _ hfilter), (Frame.refl _ s).setStin _ _ (by simp), State.stin_setStin _ _ _⟩
  · rw [if_neg (Nat.not_lt.2 hlong)] at hfilter
    exact ⟨_, (exec_stinEdge hup hfr).trans (congrArg _ hfilter), (Frame.refl _ s).setStin _ _ (by simp), State.stin_setStin _ _ _⟩

/-- An edge that EDGE does not select does nothing, awake or asleep. -/
theorem stinEdge_unselected (hsel : s.edgeSel n rising = false) (hd : s.rd (sDgl n) = 0) (hfilt : (s.stin n).filt = []) :
    Happens (.stinEdge n rising x) s {} fun _ => True := by
  have hpass : s.stPass n x rising = s := if_neg (by simp [hsel])
  have heq : s.stinEdge n rising x = s := by
    rw [State.stinEdge, State.stFilter_none hd hfilt, hpass, hsel]
    simp
  exact ⟨s, congrArg Host.Outcome.next heq, Frame.refl _ s, trivial⟩

section

variable (hup : s.glb.mainUp = true) (hfr : s.htm.frozen = false) (hsel : s.edgeSel n rising = true) (hd : s.rd (sDgl n) = 0)
  (hfilt : (s.stin n).filt = [])

include hup hfr hsel hd hfilt

/-- A selected edge of an input without a filter is judged by its crossing. -/
theorem exec_stinEdge_selected : exec (.stinEdge n rising x) s = .next (s.stEdge n x rising) := by
  rw [exec_stinEdge hup hfr, State.stFilter_none hd hfilt, State.stPass, if_pos hsel]

theorem stinEdge_near : ∀ l ∈ (s.stin n).last.toList, sinceStamp l x < 128 →
    Happens (.stinEdge n rising x) s { flds := [sDropped n, sEvt n], blks := [.stin n] } fun t =>
      t.stin n = { s.stin n with ovf := true } ∧ t.rd (sDropped n) = min (s.rd (sDropped n) + 1) 65535 := by
  intro l hl hnear
  obtain ⟨hstin, hcount, -⟩ := s.stDrop_counts n
  exact ⟨_, (exec_stinEdge_selected hup hfr hsel hd hfilt).trans (congrArg _ (State.stEdge_near rising (nearStamp_eq_true hl hnear))),
    (Frame.refl _ s).stDrop n (by simp) (by simp) (by simp), hstin, hcount⟩

variable (hfar : ∀ l ∈ (s.stin n).last.toList, 128 ≤ sinceStamp l x)

include hfar

theorem stinEdge_joins (hm : s.on (sMode n) = false) (hroom : (s.stin n).fifo.length < 4) :
    Happens (.stinEdge n rising x) s { blks := [.stin n] } fun t => t.stin n = { s.stin n with
      last := some x, ovf := false
      fifo := (s.stin n).fifo ++ [{ t := s.stStamp n x, pol := rising, ovf := (s.stin n).ovf, uncal := s.stUncal n }] } :=
  ⟨_, (exec_stinEdge_selected hup hfr hsel hd hfilt).trans (congrArg _ (State.stEdge_joins rising (nearStamp_eq_false hfar) hm hroom)),
    (Frame.stAccept n x (by simp)).setStin _ _ (by simp), State.stin_setStin _ _ _⟩

theorem stinEdge_full (hm : s.on (sMode n) = false) (hfull : 4 ≤ (s.stin n).fifo.length) :
    Happens (.stinEdge n rising x) s { flds := [sDropped n, sEvt n], blks := [.stin n] } fun t =>
      t.stin n = { s.stin n with last := some x, ovf := true } ∧ t.rd (sDropped n) = min (s.rd (sDropped n) + 1) 65535 ∧
      t.bit (sEvt n) 0 = true := by
  obtain ⟨hstin, hcount, hflag⟩ := (s.stAccept n x).stDrop_counts n
  exact ⟨_, (exec_stinEdge_selected hup hfr hsel hd hfilt).trans (congrArg _ (State.stEdge_full rising (nearStamp_eq_false hfar) hm hfull)),
    (Frame.stAccept n x (by simp)).stDrop n (by simp) (by simp) (by simp),
    hstin.trans (by rw [State.stAccept, State.stin_setStin]), hcount, hflag⟩

theorem stinEdge_assisted (hm : s.on (sMode n) = true) :
    Happens (.stinEdge n rising x) s { flds := lastFlds n, blks := [.stin n] } fun t =>
      t.rd (sLast n 0) = secOf (ofStamp (s.stStamp n x)) % 2 ^ 32 ∧
      t.rd (sLast n 2) = s.qual (s.stUncal n) * 2 ^ 30 + nsOf (ofStamp (s.stStamp n x)) ∧
      t.rd (sLastCnt n) = (s.rd (sLastCnt n) + 1) % 2 ^ 16 ∧ t.rd (sLastPol n) = rising.toNat ∧ (t.stin n).unread = true ∧
      ((s.stin n).unread = true → t.rd (sLastOverrun n) = 1) := by
  obtain ⟨hsec, hns, hcnt, hpol, hunread, hover⟩ := (s.stAccept n x).stLast_reads n (s.stStamp n x) rising
  refine ⟨_, (exec_stinEdge_selected hup hfr hsel hd hfilt).trans (congrArg _ (State.stEdge_assisted rising (nearStamp_eq_false hfar) hm)),
    (Frame.stAccept n x (by simp)).stLast n _ rising (fun f hf => hf) (by simp), hsec, hns, hcnt, hpol, hunread, fun hun => hover ?_⟩
  rw [State.stAccept, State.stin_setStin]
  exact hun

end

end

end Sys2Proof.Machine
end

section
/-! SUPPORT. The drain of one waiting edge (R344, R345, R348 to R351): its quill or angle pair goes to the ring of its group. -/

namespace Sys2Proof.Machine

open F

/-! ### Round robin -/

/-- The one place of eight with a property is found from wherever the turn starts. -/
theorem around8_eq_some {k j : Nat} {p : Nat → Bool} (hj : j < 8) (hp : p j = true) (huniq : ∀ i < 8, p i = true → i = j) :
    around8 k p = some j := by
  have hmem : j ∈ (List.range 8).map fun i => (k + i) % 8 := List.mem_map.2 ⟨(j + 8 - k % 8) % 8, List.mem_range.2 (by omega), by omega⟩
  cases hfind : around8 k p with
  | none => exact absurd hp (List.find?_eq_none.1 hfind j hmem)
  | some i =>
    have hi : i < 8 := by
      obtain ⟨a, -, rfl⟩ := List.mem_map.1 (List.mem_of_find?_eq_some hfind)
      omega
    rw [huniq i hi (List.find?_some hfind)]

theorem around8_eq_none {k : Nat} {p : Nat → Bool} (h : ∀ i < 8, p i = false) : around8 k p = none := by
  refine List.find?_eq_none.2 fun i hi => ?_
  obtain ⟨a, -, rfl⟩ := List.mem_map.1 hi
  simp [h ((k + a) % 8) (by omega)]

/-- The drain serves the only input that holds an edge. -/
theorem State.drainNext_sole {s : State} {n : Fin 64} (hothers : ∀ k : Fin 64, k ≠ n → (s.stin k).fifo = []) (hn : (s.stin n).fifo ≠ []) :
    s.drainNext = some n.val := by
  have hbusy : ∀ k < 64, (!(s.stin k).fifo.isEmpty) = true → k = n.val := fun k hk hb => by
    refine Decidable.byContradiction fun hne => ?_
    rw [hothers ⟨k, hk⟩ fun he => hne (congrArg Fin.val he)] at hb
    cases hb
  have hbusyN : (!(s.stin (8 * (n.val / 8) + n.val % 8)).fifo.isEmpty) = true := by
    rw [Nat.div_add_mod]
    simpa using hn
  have hgroup : around8 s.stp.nextGrp (fun g => (List.range 8).any fun i => !(s.stin (8 * g + i)).fifo.isEmpty) = some (n.val / 8) :=
    around8_eq_some (by omega) (List.any_eq_true.2 ⟨n.val % 8, List.mem_range.2 (by omega), hbusyN⟩) fun g hg hany => by
      obtain ⟨i, hi, hb⟩ := List.any_eq_true.1 hany
      have hi8 := List.mem_range.1 hi
      have := hbusy _ (by omega) hb
      omega
  have hinput : around8 (Assoc.get 0 (n.val / 8) s.stp.nextIn) (fun i => !(s.stin (8 * (n.val / 8) + i)).fifo.isEmpty) = some (n.val % 8) :=
    around8_eq_some (by omega) hbusyN fun i hi hb => by
      have := hbusy _ (by omega) hb
      omega
  rw [State.drainNext, hgroup]
  show Option.map _ (around8 _ _) = _
  rw [hinput, Option.map_some, Nat.div_add_mod]

theorem State.drainNext_none {s : State} (h : ∀ k : Fin 64, (s.stin k).fifo = []) : s.drainNext = none := by
  have hgroup : around8 s.stp.nextGrp (fun g => (List.range 8).any fun i => !(s.stin (8 * g + i)).fifo.isEmpty) = none :=
    around8_eq_none fun g hg => List.any_eq_false.2 fun i hi => by
      have hi8 := List.mem_range.1 hi
      simp [h ⟨8 * g + i, by omega⟩]
  rw [State.drainNext, hgroup]

/-! ### The quills of an edge -/

/-- Where an item stands goes by the register file before it. -/
theorem Stored.of_regs {r : Nat} {ws : List Nat} {s u t : State} (h : Stored r ws u t) (hr : u.regs = s.regs) : Stored r ws s t := by
  have hrd : u.rd (rWidx r) = s.rd (rWidx r) := State.rd_congr hr _
  unfold Stored at h ⊢
  rw [← hrd]
  exact h

/-- The fields of an input lie below the ring registers. -/
theorem stpFlds_below {n : Nat} (hn : n < 64) : ∀ f ∈ [sEvt n, sNoacq n, sAngle n], f.addr < 0x0D1000 ∧ f.lo < 32 := by
  simp only [List.forall_mem_cons, sEvt, sNoacq, sAngle, F.w1c, F.rc, F.rw]
  refine ⟨?_, ?_, ?_, by simp⟩ <;> omega

theorem rWidx_key_ne {r : Nat} {f : Fld} (hf : f.addr < 0x0D1000) (hlo : f.lo < 32) : (rWidx r).key ≠ f.key := by
  simp only [Fld.key, rWidx, rBase, F.rw, ne_eq]
  omega

/-- What quills for `words` words of input n's ring may change beside SEQ. -/
def State.quillTouch (s : State) (n words : Nat) : Touch :=
  { flds := [rWidx (8 + n / 8), sEvt n], blks := [.ringSeq, .port], bytes := s.itemBytes (8 + n / 8) words }

/-- The quills go into the ring that takes them, and STAMP may set. -/
theorem State.stGive_stores {s : State} {n : Nat} {ws : List Nat} (hn : n < 64) (h : s.accepts (8 + n / 8) ws.length = true) :
    Stored (8 + n / 8) ws s ((s.give (8 + n / 8) ws).stStamped n) ∧
      Frame (s.quillTouch n ws.length) s ((s.give (8 + n / 8) ws).stStamped n) := by
  obtain ⟨hstored, hframe⟩ := State.give_stores h
  obtain ⟨haddr, hlo⟩ := stpFlds_below hn (sEvt n) (by simp)
  have hgiven : Frame (s.quillTouch n ws.length) s (s.give (8 + n / 8) ws) := by
    refine hframe.mono ?_ ?_ ?_ ?_ ?_ <;> simp [State.quillTouch]
  unfold State.stStamped
  split
  · exact ⟨hstored.wr haddr hlo _, hgiven.setBits _ _ (by simp [State.quillTouch])⟩
  · exact ⟨hstored, hgiven⟩

/-- The hub once a SEQ of ring `r` is taken (R62). -/
def State.seqTaken (s : State) (r : Nat) : State := (s.nextSeq r).2

theorem State.seqTaken_ringSeq (s : State) (r : Nat) :
    Assoc.get 0 r (s.seqTaken r).ringSeq = (Assoc.get 0 r s.ringSeq + 1) % 2 ^ 16 := Assoc.get_put_same _ _ _ _

theorem Frame.seqTaken {w : Touch} {s t : State} (h : Frame w s t) (r : Nat) (hb : .ringSeq ∈ w.blks) : Frame w s (t.seqTaken r) :=
  h.ringSeq _ hb

section

variable {s : State} {n : Nat} {e : StEdge} (hn : n < 64) (hm : s.on (sMode n) = false)

include hn hm

/-- An edge without ANGLE, or of a mill that has no acquisition, gives its time quill. -/
theorem State.stQuill_alone (hpair : (s.on (sAngle n) && s.on (lAcq (s.rd (sMill n)))) = false) (hacc : s.accepts (8 + n / 8) 4 = true) :
    ∃ u, Stored (8 + n / 8) (timeQuill n e (s.qual e.uncal) (Assoc.get 0 (8 + n / 8) s.ringSeq)) s u ∧ Frame (s.quillTouch n 4) s u ∧
      s.stQuill n e = if s.on (sAngle n) then (u.bump (sNoacq n)).stFlag n 2 else u := by
  have hseq : Frame (s.quillTouch n 4) s (s.seqTaken (8 + n / 8)) := (Frame.refl _ s).seqTaken _ (by simp [State.quillTouch])
  obtain ⟨hstored, hgiven⟩ := State.stGive_stores (s := s.seqTaken (8 + n / 8))
    (ws := timeQuill n e (s.qual e.uncal) (Assoc.get 0 (8 + n / 8) s.ringSeq)) hn hacc
  have hframe := hseq.trans hgiven
  obtain ⟨haddr, hlo⟩ := stpFlds_below hn (sAngle n) (by simp)
  have hkeys : ∀ g ∈ (s.quillTouch n 4).flds, g.key ≠ (sAngle n).key := by
    simp only [State.quillTouch, List.forall_mem_cons]
    refine ⟨rWidx_key_ne haddr hlo, ?_, by simp⟩
    simp only [Fld.key, sEvt, sAngle, F.w1c, F.rw, ne_eq]
    omega
  have hangle := hframe.regs (sAngle n) hkeys hlo (by simp [Fld.outside, State.quillTouch])
  refine ⟨_, hstored.of_regs rfl, hframe, ?_⟩
  rw [State.on, ← hangle]
  exact (if_neg (Bool.eq_false_iff.1 hm)).trans (if_neg (Bool.eq_false_iff.1 hpair))

/-- With ANGLE on a mill that has acquisition the angle quill follows. -/
theorem State.stQuill_pair (hang : s.on (sAngle n) = true) (hacq : s.on (lAcq (s.rd (sMill n))) = true)
    (hacc : s.accepts (8 + n / 8) 8 = true) :
    Stored (8 + n / 8) (timeQuill n e (s.qual e.uncal) (Assoc.get 0 (8 + n / 8) s.ringSeq) ++
        angleQuill n (s.rd (sMill n)) e (angle64 (s.evalMill (s.rd (sMill n)) (ofStamp e.t)).th)
          ((Assoc.get 0 (8 + n / 8) s.ringSeq + 1) % 2 ^ 16)) s (s.stQuill n e) ∧
      Frame (s.quillTouch n 8) s (s.stQuill n e) := by
  have hseq : Frame (s.quillTouch n 8) s ((s.seqTaken (8 + n / 8)).seqTaken (8 + n / 8)) :=
    ((Frame.refl _ s).seqTaken _ (by simp [State.quillTouch])).seqTaken _ (by simp [State.quillTouch])
  have hpair : (s.on (sAngle n) && s.on (lAcq (s.rd (sMill n)))) = true := by rw [hang, hacq]; rfl
  obtain ⟨hstored, hgiven⟩ := State.stGive_stores (s := (s.seqTaken (8 + n / 8)).seqTaken (8 + n / 8))
    (ws := timeQuill n e (s.qual e.uncal) (Assoc.get 0 (8 + n / 8) s.ringSeq) ++
      angleQuill n (s.rd (sMill n)) e (angle64 (s.evalMill (s.rd (sMill n)) (ofStamp e.t)).th)
        (Assoc.get 0 (8 + n / 8) (s.seqTaken (8 + n / 8)).ringSeq)) hn hacc
  rw [← State.seqTaken_ringSeq, show s.stQuill n e = _ from (if_neg (Bool.eq_false_iff.1 hm)).trans (if_pos hpair)]
  exact ⟨hstored.of_regs rfl, hseq.trans hgiven⟩

end

/-! ### The drain -/

/-- The hub once the drain has taken the only edge of input `n`: the turn goes on behind its group and its input (R344). -/
def State.drainTaken (s : State) (n : Nat) : State :=
  let u := s.setStin n { s.stin n with fifo := [] }
  { u with stp := { u.stp with nextGrp := (n / 8 + 1) % 8, nextIn := Assoc.put 0 (n / 8) ((n % 8 + 1) % 8) u.stp.nextIn } }

theorem Frame.drainTaken {w : Touch} {s : State} (n : Nat) (hi : .stin n ∈ w.blks) (hb : .stp ∈ w.blks) : Frame w s (s.drainTaken n) :=
  ((Frame.refl w s).setStin n _ hi).stp _ hb rfl

theorem State.stin_drainTaken (s : State) (n : Nat) : (s.drainTaken n).stin n = { s.stin n with fifo := [] } :=
  State.stin_setStin s n _

theorem State.stin_drainTaken_ne (s : State) {k n : Nat} (h : k ≠ n) : (s.drainTaken n).stin k = s.stin k := State.stin_setStin_ne s h _

/-- The drain of the one waiting edge is that edge's quill, where the quill leaves the inputs. -/
theorem State.drain_sole {s : State} {n : Fin 64} {e : StEdge} (hothers : ∀ k : Fin 64, k ≠ n → (s.stin k).fifo = [])
    (hn : (s.stin n).fifo = [e]) (hkept : ∀ k, ((s.drainTaken n).stQuill n e).stin k = (s.drainTaken n).stin k) :
    s.drain 4 4 = (s.drainTaken n).stQuill n e := by
  have hnone : ((s.drainTaken n).stQuill n e).drainNext = none := State.drainNext_none fun k => by
    rw [hkept]
    by_cases hk : k = n
    · rw [hk, State.stin_drainTaken]
    · rw [State.stin_drainTaken_ne s fun he => hk (Fin.ext he), hothers k hk]
  have hrest : ∀ k, ((s.drainTaken n).stQuill n e).drain k 3 = (s.drainTaken n).stQuill n e := fun k => by
    rw [State.drain, hnone]
  rw [State.drain, State.drainNext_sole hothers (by rw [hn]; simp)]
  simp only [hn]
  rw [if_neg (by split <;> omega)]
  exact hrest _

/-- What the drain of an edge of input n may change, with further fields `fs`. -/
def State.drainTouch (s : State) (n words : Nat) (fs : List Fld) : Touch :=
  { flds := rWidx (8 + n / 8) :: sEvt n :: fs, blks := [.stin n, .stp, .ringSeq, .port], bytes := s.itemBytes (8 + n / 8) words }

/-- The quills of the edge that the drain has taken change no more. -/
theorem Frame.drained {s t : State} {n words : Nat} {fs : List Fld} (h : Frame ((s.drainTaken n).quillTouch n words) (s.drainTaken n) t) :
    Frame (s.drainTouch n words fs) s t := by
  refine (Frame.drainTaken n (by simp [State.drainTouch]) (by simp [State.drainTouch])).trans (h.mono ?_ ?_ ?_ ?_ ?_)
  · simp [State.quillTouch, State.drainTouch]
  · simp [State.quillTouch, State.drainTouch]
  · simp [State.quillTouch, State.drainTouch]
  · exact fun a ha => ha
  · exact fun ha => ha

/-- Quills leave the inputs. -/
theorem Frame.quill_stin {u v : State} {n words : Nat} (h : Frame (u.quillTouch n words) u v) (k : Nat) : v.stin k = u.stin k :=
  h.blks (.stin k) (by simp [State.quillTouch]) (by simp [State.quillTouch, Blk.kind])

section

variable {s : State} {n : Fin 64} {e : StEdge} (hrun : s.running = true) (hm : s.on (sMode n) = false)
  (hothers : ∀ k : Fin 64, k ≠ n → (s.stin k).fifo = []) (hfifo : (s.stin n).fifo = [e])

include hrun hothers hfifo in
theorem exec_stampDrain (hkept : ∀ k, ((s.drainTaken n).stQuill n e).stin k = (s.drainTaken n).stin k) :
    exec .stampDrain s = .next ((s.drainTaken n).stQuill n e) := by
  show event (if s.running then s.drain 4 4 else s) = _
  rw [if_pos hrun, State.drain_sole hothers hfifo hkept]
  rfl

include hrun hm hothers hfifo

theorem stampDrain_time (hang : s.on (sAngle n) = false) (hacc : s.accepts (8 + n.val / 8) 4 = true) :
    Happens .stampDrain s (s.drainTouch n 4 []) fun t =>
      Stored (8 + n.val / 8) (timeQuill n e (s.qual e.uncal) (Assoc.get 0 (8 + n.val / 8) s.ringSeq)) s t ∧ (t.stin n).fifo = [] := by
  obtain ⟨u, hstored, hframe, heq⟩ := State.stQuill_alone (s := s.drainTaken n) (e := e) n.isLt hm
    (show (s.on (sAngle n) && _) = false by rw [hang]; rfl) hacc
  rw [if_neg (Bool.eq_false_iff.1 (show (s.drainTaken n).on (sAngle n) = false from hang))] at heq
  have hkept := hframe.quill_stin
  refine ⟨u, heq ▸ exec_stampDrain hrun hothers hfifo (heq ▸ hkept), hframe.drained, hstored.of_regs rfl, ?_⟩
  rw [hkept, State.stin_drainTaken]

theorem stampDrain_pair (hang : s.on (sAngle n) = true) (hacq : s.on (lAcq (s.rd (sMill n))) = true)
    (hacc : s.accepts (8 + n.val / 8) 8 = true) :
    Happens .stampDrain s (s.drainTouch n 8 []) fun t =>
      Stored (8 + n.val / 8) (timeQuill n e (s.qual e.uncal) (Assoc.get 0 (8 + n.val / 8) s.ringSeq) ++
        angleQuill n (s.rd (sMill n)) e (angle64 (s.evalMill (s.rd (sMill n)) (ofStamp e.t)).th)
          ((Assoc.get 0 (8 + n.val / 8) s.ringSeq + 1) % 2 ^ 16)) s t ∧ (t.stin n).fifo = [] := by
  obtain ⟨hstored, hframe⟩ := State.stQuill_pair (s := s.drainTaken n) (e := e) n.isLt hm hang hacq hacc
  have hkept := hframe.quill_stin
  refine ⟨_, exec_stampDrain hrun hothers hfifo hkept, hframe.drained, hstored.of_regs rfl, ?_⟩
  rw [hkept, State.stin_drainTaken]

/-- A mill without acquisition is counted in NOACQ, which saturates, and flagged (R350). -/
theorem stampDrain_noacq (hang : s.on (sAngle n) = true) (hacq : s.on (lAcq (s.rd (sMill n))) = false)
    (hacc : s.accepts (8 + n.val / 8) 4 = true) :
    Happens .stampDrain s (s.drainTouch n 4 [sNoacq n]) fun t =>
      Stored (8 + n.val / 8) (timeQuill n e (s.qual e.uncal) (Assoc.get 0 (8 + n.val / 8) s.ringSeq)) s t ∧
      t.rd (sNoacq n) = min (s.rd (sNoacq n) + 1) 65535 ∧ t.bit (sEvt n) 2 = true := by
  obtain ⟨u, hstored, hframe, heq⟩ := State.stQuill_alone (s := s.drainTaken n) (e := e) n.isLt hm
    (show (s.on (sAngle n) && s.on (lAcq (s.rd (sMill n)))) = false by rw [hacq, Bool.and_false]) hacc
  rw [if_pos (show (s.drainTaken n).on (sAngle n) = true from hang)] at heq
  obtain ⟨hevtAddr, hevtLo⟩ := stpFlds_below n.isLt (sEvt n) (by simp)
  obtain ⟨hnoAddr, hnoLo⟩ := stpFlds_below n.isLt (sNoacq n) (by simp)
  have hkey : (sEvt n).key ≠ (sNoacq n).key := by simp only [Fld.key, sEvt, sNoacq, F.w1c, F.rc, ne_eq]; omega
  have hflags : Frame (s.drainTouch n 4 [sNoacq n]) s ((u.bump (sNoacq n)).stFlag n 2) :=
    (hframe.drained.bump _ _ (by simp [State.drainTouch])).setBits _ _ (by simp [State.drainTouch])
  have hcount : u.rd (sNoacq n) = s.rd (sNoacq n) :=
    (hframe.drained (fs := [])).regs (sNoacq n) (by
      simp only [State.drainTouch, List.forall_mem_cons]
      exact ⟨rWidx_key_ne hnoAddr hnoLo, hkey, by simp⟩) hnoLo (by simp [Fld.outside, State.drainTouch])
  have hkept : ∀ k, ((s.drainTaken n).stQuill n e).stin k = (s.drainTaken n).stin k := fun k => by
    rw [heq, ← hframe.quill_stin k]
    exact State.stin_congr rfl k
  have hw : (sNoacq n).width = 16 := rfl
  refine ⟨_, heq ▸ exec_stampDrain hrun hothers hfifo hkept, hflags, ?_, ?_, State.bit_setBits_same _ (by decide : 2 < 4)⟩
  · exact ((hstored.of_regs rfl).wr hnoAddr hnoLo _).wr hevtAddr hevtLo _
  · rw [State.stFlag, State.setBits, State.rd_wr_ne _ hkey, State.bump, State.rd_wr_same, hw, hcount]
    omega

end

end Sys2Proof.Machine
end

section
/-! SUPPORT. Calibration of the interpolators (R346, R347, R384), and the statement on stamped edges: O27. -/

namespace Sys2Proof.Machine

open F

/-! ### Bits -/

/-- The mask of all bits but one lacks that bit. -/
theorem testBit_allBut {w i : Nat} (hi : i < w) : (2 ^ w - 1 - 2 ^ i).testBit i = false := by
  have hlt : 2 ^ i < 2 ^ w := Nat.pow_lt_pow_right (by decide) hi
  rw [Nat.sub_sub, Nat.add_comm, Nat.testBit_two_pow_sub_succ hlt, Nat.testBit_two_pow_self]
  simp

/-- A bit that is cleared reads 0. -/
theorem State.bit_clrBits_same (s : State) {f : Fld} {i : Nat} (hi : i < f.width) : (s.clrBits f (2 ^ i)).bit f i = false := by
  have hlt : 2 ^ i < 2 ^ f.width := Nat.pow_lt_pow_right (by decide) hi
  rw [State.bit, State.clrBits, State.rd_wr_same, Nat.mod_eq_of_lt hlt, Nat.testBit_mod_two_pow, Nat.testBit_and, testBit_allBut hi,
    Bool.and_false, Bool.and_false]

/-! ### Inputs -/

/-- The fields of the blocks below the ICU stand apart from the latches. -/
theorem iLatch_key_ne_below {f : Fld} (hf : f.addr < 0x0B0000) (hlo : f.lo < 32) (w : Nat) : (iLatch w).key ≠ f.key := by
  simp only [Fld.key, iLatch, F.w1c, ne_eq]
  omega

theorem State.latch_stp (s : State) (n : Nat) : (s.latch n).stp = s.stp := by
  unfold State.latch
  split <;> rfl

/-- CAL_CNT counts the calibrations of input 63. -/
def State.calCounted (s : State) (n : Nat) : State := if n = 63 then s.wr sCalCnt (s.rd sCalCnt + 1) else s

/-- The fields that counting writes. -/
def cntFlds (n : Nat) : List Fld := if n = 63 then [sCalCnt] else []

/-- The hub with one more failure of input `n`, and source 505 raised. -/
def State.calFailed (s : State) (n : Nat) : State :=
  ((s.calCounted n).setStin n { (s.calCounted n).stin n with fails := min (((s.calCounted n).stin n).fails + 1) 3 }).latch 505

section

variable {s : State} (n : Fin 64)

theorem Frame.calCounted {w : Touch} (hw : ∀ f ∈ cntFlds n, f ∈ w.flds) : Frame w s (s.calCounted n) := by
  unfold State.calCounted
  split
  · next hn => exact (Frame.refl w s).wr _ _ (hw _ (by simp [cntFlds, hn]))
  · exact Frame.refl w s

theorem State.calCounted_stp : (s.calCounted n).stp = s.stp := by
  unfold State.calCounted
  split <;> rfl

theorem sCalCnt_key_ne (w : Nat) : sCalCnt.key ≠ (sUncal w).key := by
  simp only [Fld.key, sCalCnt, sUncal, F.ro, ne_eq]
  omega

theorem State.stUncal_calCounted : (s.calCounted n).stUncal n = s.stUncal n := by
  unfold State.calCounted State.stUncal State.bit
  split
  · rw [State.rd_wr_ne _ (sCalCnt_key_ne _)]
  · rfl

/-- A passed calibration clears the UNCAL bit. -/
theorem interpCal_passes (hrun : s.running = true) :
    Happens (.interpCal (n.castLE (by decide)) true) s { flds := sUncal (n.val / 32) :: cntFlds n, blks := [.stin n] } fun t =>
      t.stUncal n = false ∧ t.stin n = { s.stin n with fails := 0 } ∧ (n.val = 63 → t.rd sCalCnt = (s.rd sCalCnt + 1) % 2 ^ 16) := by
  have heq : s.interpCal n true = ((s.calCounted n).setStin n { (s.calCounted n).stin n with fails := 0 }).clrBits (sUncal (n / 32))
      (2 ^ (n.val % 32)) := if_neg (by omega)
  have hexec : exec (.interpCal (n.castLE (by decide)) true) s = .next (s.interpCal n true) := congrArg Host.Outcome.next (if_pos hrun)
  refine ⟨_, hexec.trans (congrArg _ heq), ?_, State.bit_clrBits_same _ (show n.val % 32 < 32 by omega), ?_, fun hn => ?_⟩
  · exact ((Frame.calCounted n fun f hf => by simp [hf]).setStin _ _ (by simp)).clrBits _ _ (by simp)
  · refine (State.stin_setStin (s.calCounted n) n _).trans ?_
    rw [State.stin_congr (State.calCounted_stp n)]
  · rw [State.clrBits, State.rd_wr_ne _ (sCalCnt_key_ne _).symm, State.setStin, State.rd_mk, State.calCounted, if_pos hn, State.rd_wr_same]
    rfl

/-- A failed one raises 505, and the third in a row sets the bit. -/
theorem interpCal_fails (hrun : s.running = true) :
    Happens (.interpCal (n.castLE (by decide)) false) s
      { flds := sUncal (n.val / 32) :: iLatch 15 :: cntFlds n, blks := [.stin n, .glb] } fun t =>
      t.latched 505 ∧ (2 ≤ (s.stin n).fails → t.stUncal n = true) ∧ ((s.stin n).fails < 2 → t.stUncal n = s.stUncal n) := by
  have hin : (s.calCounted n).stin n = s.stin n := State.stin_congr (State.calCounted_stp n) n
  have heq : s.interpCal n false =
      if 2 ≤ (s.stin n).fails then (s.calFailed n).setBits (sUncal (n / 32)) (2 ^ (n.val % 32)) else s.calFailed n := by
    rw [← hin]
    exact if_neg (by omega)
  have hexec : exec (.interpCal (n.castLE (by decide)) false) s = .next (s.interpCal n false) := congrArg Host.Outcome.next (if_pos hrun)
  have hframe : Frame { flds := sUncal (n.val / 32) :: iLatch 15 :: cntFlds n, blks := [.stin n, .glb] } s (s.calFailed n) :=
    ((Frame.calCounted n fun f hf => by simp [hf]).setStin _ _ (by simp)).latch 505 (by simp) (by simp)
  have hlatched : (s.calFailed n).latched 505 := State.latched_latch _ _
  have haddr : (sUncal (n / 32)).addr < 0x0B0000 := by simp only [sUncal, F.ro]; omega
  have hkey : ∀ w, (iLatch w).key ≠ (sUncal (n / 32)).key := iLatch_key_ne_below haddr (by simp [sUncal, F.ro])
  rw [Happens, After, hexec, heq]
  by_cases hf : 2 ≤ (s.stin n).fails
  · rw [if_pos hf]
    refine ⟨_, rfl, hframe.setBits _ _ (by simp), ?_, fun _ => State.bit_setBits_same _ (show n.val % 32 < 32 by omega), fun hlt => by omega⟩
    exact hlatched.kept (State.rd_wr_ne _ (hkey 15).symm _) fun _ hk => hk
  · rw [if_neg hf]
    refine ⟨_, rfl, hframe, hlatched, fun hge => absurd hge hf, fun _ => ?_⟩
    refine Eq.trans ?_ (State.stUncal_calCounted (s := s) n)
    rw [State.stUncal, State.bit, State.calFailed, State.rd_latch _ _ (hkey _), State.setStin, State.rd_mk]
    rfl

end

/-! ### Inputs of the mills -/

/-- The hub with the marks of the inputs that stand beside STP_UNCAL (R346, R384), and the mill's UNCAL. -/
def State.extraMarked (s : State) (k bits fails : Nat) : State :=
  State.wr { s with stp := { s.stp with uncal := bits, fails := Assoc.put 0 k fails s.stp.fails } } (lUncal (k / 3))
    (decide (bits / 2 ^ (k / 3 * 3) % 8 ≠ 0)).toNat

theorem Frame.extraMarked {w : Touch} {s : State} (k bits fails : Nat) (hf : lUncal (k / 3) ∈ w.flds) (hb : .stp ∈ w.blks) :
    Frame w s (s.extraMarked k bits fails) :=
  ((Frame.refl w s).stp { s.stp with uncal := bits, fails := Assoc.put 0 k fails s.stp.fails } hb rfl).wr _ _ hf

/-- A mill with an uncalibrated input shows UNCAL. -/
theorem State.rd_extraMarked (s : State) {k bits : Nat} (fails : Nat) (hk : bits.testBit k = true) :
    (s.extraMarked k bits fails).rd (lUncal (k / 3)) = 1 := by
  have hne : bits / 2 ^ (k / 3 * 3) % 8 ≠ 0 := fun h0 => by
    have hbit : (bits / 2 ^ (k / 3 * 3) % 2 ^ 3).testBit (k - k / 3 * 3) = true := by
      rw [Nat.testBit_mod_two_pow, Nat.testBit_div_two_pow, Nat.sub_add_cancel (by omega), hk]
      simp
      omega
    rw [show bits / 2 ^ (k / 3 * 3) % 2 ^ 3 = 0 from h0, Nat.zero_testBit] at hbit
    cases hbit
  rw [State.extraMarked, decide_eq_true hne, State.rd_wr_same]
  rfl

section

variable {s : State} (hrun : s.running = true) (k : Fin 48)

include hrun

theorem exec_interpCal_extra (pass : Bool) : exec (.interpCal ⟨64 + k.val, by omega⟩ pass) s = .next (s.extraCal k pass) := by
  have heq : s.interpCal (64 + k.val) pass = s.extraCal k pass := by
    rw [State.interpCal, if_pos (by omega), Nat.add_sub_cancel_left]
  exact (congrArg Host.Outcome.next (if_pos hrun)).trans (congrArg _ heq)

theorem interpCal_extra_passes :
    Happens (.interpCal ⟨64 + k.val, by omega⟩ true) s { flds := [lUncal (k.val / 3)], blks := [.stp] } fun t =>
      t.stp.uncal.testBit k = false := by
  have heq : s.extraCal k true = s.extraMarked k (s.stp.uncal &&& (2 ^ 90 - 1 - 2 ^ k.val)) 0 := if_pos k.isLt
  refine ⟨_, (exec_interpCal_extra hrun k true).trans (congrArg _ heq), Frame.extraMarked _ _ _ (by simp) (by simp), ?_⟩
  show (s.stp.uncal &&& (2 ^ 90 - 1 - 2 ^ k.val)).testBit k = false
  rw [Nat.testBit_and, testBit_allBut (by omega), Bool.and_false]

theorem interpCal_extra_fails :
    Happens (.interpCal ⟨64 + k.val, by omega⟩ false) s { flds := [lUncal (k.val / 3), iLatch 15], blks := [.stp, .glb] } fun t =>
      t.latched 505 ∧ (2 ≤ Assoc.get 0 k.val s.stp.fails → t.stp.uncal.testBit k = true ∧ t.rd (lUncal (k.val / 3)) = 1) := by
  have heq : s.extraCal k false = (s.extraMarked k (if 2 ≤ Assoc.get 0 k.val s.stp.fails then s.stp.uncal ||| 2 ^ k.val else s.stp.uncal)
      (min (Assoc.get 0 k.val s.stp.fails + 1) 3)).latch 505 := congrArg (State.latch · 505) (if_pos k.isLt)
  refine ⟨_, (exec_interpCal_extra hrun k false).trans (congrArg _ heq),
    (Frame.extraMarked _ _ _ (by simp) (by simp)).latch 505 (by simp) (by simp), State.latched_latch _ _, fun hf => ?_⟩
  have hbit : (s.stp.uncal ||| 2 ^ k.val).testBit k = true := by rw [Nat.testBit_or, Nat.testBit_two_pow_self, Bool.or_true]
  have haddr : (lUncal (k.val / 3)).addr < 0x0B0000 := by simp only [lUncal, lBase, F.ro]; omega
  rw [if_pos hf, State.latch_stp, State.rd_latch _ _ (iLatch_key_ne_below haddr (by simp [lUncal, F.ro]) _), State.rd_extraMarked s _ hbit]
  exact ⟨hbit, rfl⟩

end

/-! ### The statement -/

/-- Settles O27: an edge by the filter, EDGE, its distance to the last accepted one, MODE and the room in the FIFO; the drain by ANGLE and the
mill's acquisition; a calibration by its outcome. -/
theorem stampedEdges : Obligations.StampedEdges := by
  unfold Obligations.StampedEdges
  intro n rising x s since
  have hsince : ∀ l y, since l y = sinceStamp l y := fun l y => (sinceStamp_eq l y).symm
  clear_value since
  simp only [hsince]
  refine ⟨fun hup hfr hd => ⟨stinEdge_waits hup hfr hd, stinEdge_filtered hup hfr⟩,
    fun hup hfr hsel hd hfilt => ⟨fun hfar => ⟨?_, ?_, ?_⟩, ?_⟩,
    stinEdge_unselected, fun hrun hm hothers e _ hfifo => ⟨?_, ?_, ?_⟩, fun hrun => ⟨?_, ?_, fun k => ⟨?_, ?_⟩⟩⟩
  · exact stinEdge_joins hup hfr hsel hd hfilt hfar
  · exact stinEdge_full hup hfr hsel hd hfilt hfar
  · exact stinEdge_assisted hup hfr hsel hd hfilt hfar
  · exact stinEdge_near hup hfr hsel hd hfilt
  · exact stampDrain_time hrun hm hothers hfifo
  · exact stampDrain_pair hrun hm hothers hfifo
  · exact stampDrain_noacq hrun hm hothers hfifo
  · exact interpCal_passes n hrun
  · exact interpCal_fails n hrun
  · exact interpCal_extra_passes hrun k
  · exact interpCal_extra_fails hrun k

end Sys2Proof.Machine
end

section
/-! SUPPORT. The statement on the commits of timed outputs fails where TOU_SKEW takes a target before Hub Time 0 (R361). -/

namespace Sys2Proof.Machine

open F

/-- Entry 0 of output 0 is armed for Hub Time 0, with a skew of −2⁻⁴ ns. Hub Time is 0. -/
def skewedBeforeZero : State := ((runningInM4.wr (oEn 0) 1).wr (oState 0 0) 2).wr (oSkew 0) 0xFFFF

/-- Its edge would stand at −2⁻⁴ ns, which the model takes for Hub Time 0: the entry is late, and commits. -/
theorem touCommit_late (t : State) (ht : exec (.touCommit 0 0) skewedBeforeZero = .next t) : t.rd (oState 0 0) = 5 := by
  have h : (match exec (.touCommit 0 0) skewedBeforeZero with | .next t => t.rd (oState 0 0) == 5 | _ => true) = true := by decide
  simpa [ht] using h

/-- Refutes O29: the statement places the edge on the circle of Hub Time, so that an entry whose target plus skew lies before 0 waits for the end
of the circle; the model commits it late, as every entry whose instant has passed (R362, log entry 70). -/
theorem not_timedOutputCommits : ¬ Obligations.TimedOutputCommits := by
  unfold Obligations.TimedOutputCommits
  intro h
  obtain ⟨hcommit, -⟩ := h 0 0 skewedBeforeZero (by decide)
  obtain ⟨-, hwaits⟩ := hcommit 0 (by decide) (by decide) (by decide)
  obtain ⟨t, ht, hframe, -⟩ := hwaits (.inl (by decide))
  have hkept : t.rd (oState 0 0) = skewedBeforeZero.rd (oState 0 0) :=
    hframe.regs (oState 0 0) (by decide) (by decide) (by unfold Fld.outside; decide)
  rw [touCommit_late t ht] at hkept
  exact absurd hkept (by decide)

end Sys2Proof.Machine
end

section
/-! SUPPORT. The statements on mills fail at fields beyond their width: no write leaves a field so (`State.wr` truncates), but both speak of
every `State`. -/

namespace Sys2Proof.Machine

open F

/-! ### An edge writes a mill's fields again -/

/-- The hub in M4, with input A assigned to mill 0, which is not enabled. MIL_EVT of the mill holds 2¹¹, more than its 11 bits. -/
def millEvtBeyondWidth : State :=
  { runningInM4 with regs := [(glbMode.key, 4), ((pinFunc 32).key, 1), ((lEvt 0).key, 2 ^ 11)] }

/-- The edges of one cycle are decided together from the mill's fields as they were before the first (R387): the model writes them again,
which truncates them. -/
theorem millEdge_truncates_evt (t : State) (ht : exec (.millEdge 0 true false false 0) millEvtBeyondWidth = .next t) : t.rd (lEvt 0) = 0 := by
  have h : (match exec (.millEdge 0 true false false 0) millEvtBeyondWidth with | .next t => t.rd (lEvt 0) == 0 | _ => true) = true := by
    decide
  simpa [ht] using h

/-- Refutes O30: it says that an edge on a mill that is not enabled changes no register field. One at an assigned input truncates the mill's
fields to their widths, and so changes a MIL_EVT that holds more. -/
theorem not_millEdgesMoveTheEstimator : ¬ Obligations.MillEdgesMoveTheEstimator := by
  unfold Obligations.MillEdgesMoveTheEstimator
  intro h
  obtain ⟨-, hpass⟩ := h 0 true false false 0 millEvtBeyondWidth (by decide)
  obtain ⟨hdisabled, -⟩ := hpass (by decide) (by decide) (by decide) (by decide)
  obtain ⟨t, ht, hframe, -⟩ := hdisabled (by decide)
  have hkept : t.rd (lEvt 0) = millEvtBeyondWidth.rd (lEvt 0) :=
    hframe.regs (lEvt 0) (by simp) (by decide) (by simp [Fld.outside])
  rw [millEdge_truncates_evt t ht] at hkept
  exact absurd hkept (by decide)

/-! ### DISCARD writes LEASE_BROKEN again -/

/-- The hub in M4, with mill 0 leased by slot 0. The bits of LEASE_BROKEN hold 2⁸, more than the eight of the targets. -/
def leaseBrokenBeyondWidth : State :=
  { runningInM4 with regs := [(glbMode.key, 4), ((hOwner (idMill 0)).key, 0), (iLbrk.key, 2 ^ 8)] }

/-- LEASE_BROKEN takes the bits of the secure targets (R470), truncated to its width. -/
theorem millDiscard_truncates_leaseBroken (t : State) (ht : exec (.millDiscard 0 0) leaseBrokenBeyondWidth = .next t) : t.rd iLbrk = 0 := by
  have h : (match exec (.millDiscard 0 0) leaseBrokenBeyondWidth with | .next t => t.rd iLbrk == 0 | _ => true) = true := by
    decide +kernel
  simpa [ht] using h

/-- Refutes O31: it says that DISCARD leaves every bit of LEASE_BROKEN that was set, where the model keeps those of its width alone. -/
theorem not_millCommands : ¬ Obligations.MillCommands := by
  unfold Obligations.MillCommands
  intro h
  obtain ⟨howner, -⟩ := h 0 0 leaseBrokenBeyondWidth
  obtain ⟨-, -, hdiscard, -⟩ := howner (by decide) (by decide) (by decide)
  obtain ⟨t, ht, -, -, hbroken⟩ := hdiscard
  rw [millDiscard_truncates_leaseBroken t ht] at hbroken
  exact absurd hbroken (by decide)

end Sys2Proof.Machine
end

section
/-! SUPPORT. The statements on general timers fail: one at an edge that leaves the deglitch filter of a clock pin in the command's cycle
(R768), one at a prescaler phase beyond its width, which no write leaves (`State.wr` truncates) but of which the statement speaks. -/

namespace Sys2Proof.Machine

open F

/-! ### A tick by an edge that leaves the filter of the clock pin -/

/-- The hub in M4, 16 ns after Hub Time 0. Timer 0 is slot 0's, a one-shot with GT_LIMIT 1 that runs at count 0 on the edges of GT0P0. A rising
edge crossed at Hub Time 0 and passed the filter of 4 ns: its decision cycle is the present one. -/
def lastEdgeInFilter : State :=
  { (((((((runningInM4.wr (hOwner (idTimer 0)) 0).wr (pinFunc 80) 1).wr (gState 0) 2).wr (ga (gRun 0)) 1).wr (ga (gLimLo 0)) 1).wr
      (ga (gSrc 0)) 3).wr (ga (gDgl 0)) 1) with
    htm := { HtmS.init with mclk := true, pll := true, frozen := false, first := false, time := 16 * nsU }
    gtm := [(0, { GtS.init with clk := [{ t := 0, rising := true, count := 0 }] })] }

/-- The edge makes the expiry tick, to which the STOP of its cycle loses (R432). -/
theorem gtStop_alreadyDone (t : State) (ht : exec (.gtStop 0 0) lastEdgeInFilter = .next t) : t.answer.code = .alreadyDone := by
  have h : (match exec (.gtStop 0 0) lastEdgeInFilter with | .next t => decide (t.answer.code = .alreadyDone) | _ => true) = true := by
    decide +kernel
  simpa [ht] using h

/-- Refutes O33: it answers a STOP with DONE where no tick is due by the timer's prescaler, aligned instant or mill. A timer on its clock pin
has none due so (`State.gtDue`), yet the decision of a filtered edge may tick it in the STOP's cycle, and this tick expires it. -/
theorem not_timerCommands : ¬ Obligations.TimerCommands := by
  unfold Obligations.TimerCommands
  intro h
  obtain ⟨howner, -⟩ := h 0 0 0 0 0 true 0 lastEdgeInFilter
  obtain ⟨hnodue, -⟩ := howner (by decide) (by decide)
  obtain ⟨-, hstop, -⟩ := hnodue (by decide)
  obtain ⟨t, ht, hserved, -⟩ := hstop (by decide)
  have hcode := gtStop_alreadyDone t ht
  rw [hserved.answer] at hcode
  exact absurd hcode (by decide)

/-! ### A prescaler phase beyond its width -/

/-- The hub in M4, with timer 0 running on MCLK, a tick every cycle. Its prescaler phase holds 2³⁰ + 1, more than its 30 bits. -/
def phaseBeyondWidth : State :=
  { runningInM4 with regs := [(glbMode.key, 4), ((gState 0).key, 2), ((gPhase 0).key, 2 ^ 30 + 1)] }

/-- The tick uses up GT_DIV, 1, of the phase, and writes what is left truncated. -/
theorem gtTick_truncates_phase (t : State) (ht : exec (.gtTick 0 true 0) phaseBeyondWidth = .next t) : t.rd (gPhase 0) = 0 := by
  have h : (match exec (.gtTick 0 true 0) phaseBeyondWidth with | .next t => t.rd (gPhase 0) == 0 | _ => true) = true := by decide
  simpa [ht] using h

/-- Refutes O32: it says that a tick lowers the prescaler phase by GT_DIV, where the model keeps the bits of the field's width alone. -/
theorem not_timerTicksCountAndMatch : ¬ Obligations.TimerTicksCountAndMatch := by
  unfold Obligations.TimerTicksCountAndMatch
  intro h
  obtain ⟨-, hdue, -⟩ := h 0 0 true 0 phaseBeyondWidth
  obtain ⟨-, hcounts⟩ := hdue (by decide) phaseBeyondWidth.htm.time (by decide)
  obtain ⟨hnocompare, -⟩ := hcounts (by decide)
  obtain ⟨hpasses, -⟩ := hnocompare (by decide)
  obtain ⟨t, ht, -, -, hphase, -⟩ := hpasses (by decide)
  exact absurd ((gtTick_truncates_phase t ht).symm.trans hphase) (by decide)

end Sys2Proof.Machine
end

section
/-! SUPPORT. A step runs the command at the front of the queue, and what holds of the hub right after reset. -/

namespace Sys2Proof.Machine

open F

/-- Settles O1: `step` reads the queue's front and calls `exec` with the rest. -/
theorem stepRunsFront : Obligations.StepRunsFront := by
  unfold Obligations.StepRunsFront
  intro s c rest h
  simp only [step, h]

/-- Settles O60: State.reset lists no byte of the Shared Buffer and no command. -/
theorem resetMeetsTheInvariants : Obligations.ResetMeetsTheInvariants := by
  unfold Obligations.ResetMeetsTheInvariants
  exact ⟨by decide, by decide, rfl, fun _ => rfl⟩

end Sys2Proof.Machine
end

section
/-! SUPPORT. Who may write the registers of the event controller, and what the writes take (R468, R470, R472, R491, R497, R498). -/

namespace Sys2Proof.Machine

open F

/-! ### The rights -/

/-- The target a slot is bound to stands beside its marks. -/
theorem State.slotTarget_marked (s : State) (k : Nat) : (s.marked k).slotTarget k = s.rd (hTarget k) :=
  s.rd_marked _ _ (by simp only [Fld.key, hPresent, hTarget, F.ro, F.rws, hBase, ne_eq]; omega)
    (by simp only [Fld.key, hWaking, hTarget, F.ro, F.rws, hBase, ne_eq]; omega)

theorem State.boundTo_marked (s : State) (k t : Nat) : (s.marked k).boundTo k t = s.boundTo k t := by
  unfold State.boundTo
  rw [show (s.marked k).rd (hTarget k) = s.rd (hTarget k) from s.slotTarget_marked k]

theorem State.tgt_marked (s : State) (k t : Nat) : (s.marked k).tgt t = s.tgt t := by
  unfold State.tgt
  rw [State.marked_icu]

/-! ### The bits of a field that clear -/

/-- Clearing bits of a field leaves the others of its width. -/
theorem State.bit_clrBits (s : State) (f : Fld) (v b : Nat) (hb : b < f.width) :
    (s.clrBits f v).bit f b = (s.bit f b && !v.testBit b) := by
  have hmask : (2 ^ f.width - 1 - v % 2 ^ f.width).testBit b = !v.testBit b := by
    have h : v % 2 ^ f.width < 2 ^ f.width := Nat.mod_lt _ (by positivity)
    rw [show 2 ^ f.width - 1 - v % 2 ^ f.width = 2 ^ f.width - (v % 2 ^ f.width + 1) by omega, Nat.testBit_two_pow_sub_succ h]
    simp [hb, Nat.testBit_mod_two_pow]
  unfold State.clrBits State.bit
  simp [Nat.testBit_mod_two_pow, hb, hmask]

/-! ### What each write does on the marked hub -/

section
variable (s : State) (slot : Slot)

theorem opLatchClear_secure (w v : Nat) (h : s.secure slot.val = true) : opLatchClear slot w v s = (.done, s.clrBits (iLatch w) v) := by
  simp [opLatchClear, h]

/-- A raised source that the slot's own target does not receive refuses the whole word. -/
theorem opLatchClear_refused (w v b : Nat) (hb : b < 32) (h : s.secure slot.val = false) (hl : isLatched (32 * w + b) = true)
    (hv : v.testBit b = true) (hs : s.bit (iLatch w) b = true) (hm : s.tmask (32 * w + b) (s.slotTarget slot.val) = false) :
    opLatchClear slot w v s = (.secureOnly, s) := by
  have hmod : (32 * w + b) % 32 = b := by omega
  have hmem : 32 * w + b ∈ latchBits w v := by
    simp only [latchBits, List.mem_filter, List.mem_map, List.mem_range]
    exact ⟨⟨b, hb, rfl⟩, by simp [hl, hmod, hv]⟩
  unfold opLatchClear
  rw [if_pos]
  simp only [h, Bool.not_false, Bool.true_and, List.any_eq_true]
  exact ⟨_, hmem, by simp [hmod, hs, hm]⟩

theorem opPrigrpWrite_done (v : Nat) (h : s.secure slot.val = true) (hs : ∀ j : Fin 8, (s.tgt j).stack = []) :
    opPrigrpWrite slot v s = (.done, s.wr iPrigrp v) := by
  have : targets.any (fun t => !(s.tgt t).stack.isEmpty) = false := by
    rw [List.any_eq_false]
    intro t ht
    simp [hs ⟨t, List.mem_range.1 ht⟩]
  simp [opPrigrpWrite, h, this]

theorem opPrigrpWrite_busy (v : Nat) (h : s.secure slot.val = true) (hs : ∃ j : Fin 8, (s.tgt j).stack ≠ []) :
    opPrigrpWrite slot v s = (.busy, s) := by
  obtain ⟨j, hj⟩ := hs
  have : targets.any (fun t => !(s.tgt t).stack.isEmpty) = true :=
    List.any_eq_true.2 ⟨j.val, List.mem_range.2 j.isLt, by simpa using hj⟩
  simp [opPrigrpWrite, h, this]

theorem opSrccfgWrite_secure (n v : Nat) (h : s.secure slot.val = true) :
    opSrccfgWrite slot n v s = (.done, (s.wr (iPrio n) (v / 2 ^ 16 % 256)).wr (iTmask n) (v % 256)) := by
  simp [opSrccfgWrite, h]

/-- Another slot's write that changes its own target's bit alone. -/
theorem opSrccfgWrite_own (n v : Nat) (hk : slot.val < 16) (hp : v / 2 ^ 16 % 256 = s.rd (iPrio n))
    (hd : (v % 256) ^^^ s.rd (iTmask n) = 2 ^ s.slotTarget slot.val) (hn : n ≠ 496) :
    opSrccfgWrite slot n v s = (.done, (s.wr (iPrio n) (v / 2 ^ 16 % 256)).wr (iTmask n) (v % 256)) := by
  rw [opSrccfgWrite, if_neg (by simp only [hk, hp, hd]; simp [hn])]

theorem opTgtcfgWrite_secure (t v : Nat) (h : s.secure slot.val = true) : opTgtcfgWrite slot t v s =
    (.done, ((((((s.wr (iSecure t) (v / 2 ^ 31)).wr (iWakeEn t) (v / 2 ^ 24)).wr (iWakePrio t) (v / 2 ^ 16)).wr (iQlimit t) (v / 2 ^ 8)).wr
      (iMode t) (v / 2)).wr (iGdis t) v)) := by
  simp [opTgtcfgWrite, h]

end

/-! ### The statement -/

section
variable {s : State} {slot : Slot} (hs : s.ready slot.val = true)
include hs

theorem latchClear_secure (w : Fin 16) (v : Word) (h : s.secure slot.val = true) :
    Answers (.latchClear slot w v) slot .done s { flds := [iLatch w] } fun t =>
      ∀ b : Fin 32, t.bit (iLatch w) b = (s.bit (iLatch w) b && !v.toNat.testBit b) := by
  have hbelow : (iLatch w).belowHst := by simp only [Fld.belowHst, Fld.key, iLatch, F.w1c]; omega
  refine Answers.of_host (op := opLatchClear slot w.val v.toNat) rfl hs _
    (opLatchClear_secure _ _ _ _ (by rw [s.secure_marked, h])) ((Frame.refl _ _).clrBits _ _ (by simp)) (by simpa using hbelow) rfl fun b => ?_
  unfold State.bit
  rw [State.rd_finish_below _ _ _ _ hbelow, ← State.rd_marked_below s slot.val hbelow]
  exact State.bit_clrBits _ (iLatch w) _ _ b.isLt

theorem lbrkClear_secure (v : Word) (h : s.secure slot.val = true) :
    Answers (.lbrkClear slot v) slot .done s { flds := [iLbrk] } fun t =>
      ∀ b : Fin 8, t.bit iLbrk b = (s.bit iLbrk b && !v.toNat.testBit b) := by
  have hbelow : iLbrk.belowHst := by simp only [Fld.belowHst, Fld.key, iLbrk, F.w1c]; omega
  refine Answers.of_host (op := opLbrkClear slot v.toNat) rfl hs _
    (secureOnly_of_secure _ _ _ (by rw [s.secure_marked, h])) ((Frame.refl _ _).clrBits _ _ (by simp)) (by simpa using hbelow) rfl fun b => ?_
  have hb : (v.toNat % 256).testBit b = v.toNat.testBit b := by
    rw [show 256 = 2 ^ 8 from rfl, Nat.testBit_mod_two_pow]; simp
  unfold State.bit
  rw [State.rd_finish_below _ _ _ _ hbelow, ← State.rd_marked_below s slot.val hbelow, ← hb]
  exact State.bit_clrBits _ iLbrk _ _ b.isLt

theorem prigrpWrite_secure (v : Word) (h : s.secure slot.val = true) (hst : ∀ j : Fin 8, (s.tgt j).stack = []) :
    Answers (.prigrpWrite slot v) slot .done s { flds := [iPrigrp] } fun t => t.rd iPrigrp = v.toNat % 8 := by
  have hbelow : iPrigrp.belowHst := by simp only [Fld.belowHst, Fld.key, iPrigrp, F.rws]; omega
  refine Answers.of_host (op := opPrigrpWrite slot v.toNat) rfl hs _
    (opPrigrpWrite_done _ _ _ (by rw [s.secure_marked, h]) fun j => by rw [s.tgt_marked, hst]) ((Frame.refl _ _).wr _ _ (by simp))
    (by simpa using hbelow) rfl ?_
  rw [State.rd_finish_below _ _ _ _ hbelow, State.rd_wr_same]
  rfl

/-- A source's PRIO and TMASK take the word's, whoever may write them. -/
theorem srccfgWrite_takes (src : Fin 512) (v : Word)
    (hop : opSrccfgWrite slot src.val v.toNat (s.marked slot.val) =
      (.done, ((s.marked slot.val).wr (iPrio src) (v.toNat / 2 ^ 16 % 256)).wr (iTmask src) (v.toNat % 256))) :
    Answers (.srccfgWrite slot src v) slot .done s { flds := [iPrio src, iTmask src] } fun t =>
      t.rd (iPrio src) = v.toNat / 2 ^ 16 % 256 ∧ t.rd (iTmask src) = v.toNat % 256 := by
  have hprio : (iPrio src).belowHst := by simp only [Fld.belowHst, Fld.key, iPrio, F.rws]; omega
  have hmask : (iTmask src).belowHst := by simp only [Fld.belowHst, Fld.key, iTmask, F.rw]; omega
  have hne : (iTmask src).key ≠ (iPrio src).key := by simp only [Fld.key, iPrio, iTmask, F.rw, F.rws, ne_eq]; omega
  have hwp : (iPrio src).width = 8 := rfl
  have hwm : (iTmask src).width = 8 := rfl
  refine Answers.of_host (op := opSrccfgWrite slot src.val v.toNat) rfl hs _ hop
    (((Frame.refl _ _).wr _ _ (by simp)).wr _ _ (by simp)) (by simp [hprio, hmask]) rfl ⟨?_, ?_⟩
  · rw [State.rd_finish_below _ _ _ _ hprio, State.rd_wr_ne _ hne, State.rd_wr_same, hwp]; omega
  · rw [State.rd_finish_below _ _ _ _ hmask, State.rd_wr_same, hwm]; omega

theorem tgtcfgWrite_secure (g : Fin 8) (v : Word) (h : s.secure slot.val = true) :
    Answers (.tgtcfgWrite slot g v) slot .done s { flds := [iSecure g, iWakeEn g, iWakePrio g, iQlimit g, iMode g, iGdis g] } fun t =>
      t.rd (iSecure g) = v.toNat / 2 ^ 31 ∧ t.rd (iWakePrio g) = v.toNat / 2 ^ 16 % 256 ∧ t.rd (iGdis g) = v.toNat % 2 := by
  have hbelow : ∀ f ∈ [iSecure g, iWakeEn g, iWakePrio g, iQlimit g, iMode g, iGdis g], f.belowHst := by
    simp only [List.mem_cons, List.not_mem_nil, or_false]
    rintro f (rfl | rfl | rfl | rfl | rfl | rfl) <;>
      simp only [Fld.belowHst, Fld.key, iSecure, iWakeEn, iWakePrio, iQlimit, iMode, iGdis, iTgt, F.rws, F.rw] <;> omega
  have hv : v.toNat < 2 ^ 32 := v.isLt
  refine Answers.of_host (op := opTgtcfgWrite slot g.val v.toNat) rfl hs _ (opTgtcfgWrite_secure _ _ _ _ (by rw [s.secure_marked, h]))
    ((((((((Frame.refl _ _).wr _ _ ?_).wr _ _ ?_).wr _ _ ?_).wr _ _ ?_).wr _ _ ?_)).wr _ _ ?_) hbelow rfl ⟨?_, ?_, ?_⟩
  iterate 6 simp
  · rw [State.rd_finish_below _ _ _ _ (hbelow _ (by simp))]
    iterate 5 rw [State.rd_wr_ne _ (by simp [Fld.key, iSecure, iWakeEn, iWakePrio, iQlimit, iMode, iGdis, F.rws, F.rw])]
    rw [State.rd_wr_same, show (iSecure g).width = 1 from rfl]
    omega
  · rw [State.rd_finish_below _ _ _ _ (hbelow _ (by simp))]
    iterate 3 rw [State.rd_wr_ne _ (by simp [Fld.key, iWakePrio, iQlimit, iMode, iGdis, F.rw])]
    rw [State.rd_wr_same, show (iWakePrio g).width = 8 from rfl]
    rfl
  · rw [State.rd_finish_below _ _ _ _ (hbelow _ (by simp)), State.rd_wr_same, show (iGdis g).width = 1 from rfl, pow_one]

end

/-- Settles O36, write by write: each is `host` of an operation that the rights of the marked hub let act or refuse. -/
theorem eventRegisters : Obligations.EventRegisters := by
  unfold Obligations.EventRegisters
  intro slot w src g v s hs
  refine ⟨fun hsec => ⟨latchClear_secure hs w v hsec, lbrkClear_secure hs v hsec, prigrpWrite_secure hs v hsec, fun hst => ?_,
    srccfgWrite_takes hs src v (opSrccfgWrite_secure _ _ _ _ (by rw [s.secure_marked, hsec])), tgtcfgWrite_secure hs g v hsec⟩,
    fun hsec hk => ?_⟩
  · obtain ⟨j, hj⟩ := hst
    exact Refused.of_host (op := opPrigrpWrite slot v.toNat) rfl hs
      (opPrigrpWrite_busy _ _ _ (by rw [s.secure_marked, hsec]) ⟨j, by rwa [s.tgt_marked]⟩)
  have hnot : (s.marked slot.val).secure slot.val = false := by rw [s.secure_marked, hsec]
  have hprio : (s.marked slot.val).rd (iPrio src) = s.rd (iPrio src) :=
    s.rd_marked_below _ (by simp only [Fld.belowHst, Fld.key, iPrio, F.rws]; omega)
  have hmask : (s.marked slot.val).rd (iTmask src) = s.rd (iTmask src) :=
    s.rd_marked_below _ (by simp only [Fld.belowHst, Fld.key, iTmask, F.rw]; omega)
  refine ⟨Refused.secureOnly (fun t => (.done, t.clrBits iLbrk (v.toNat % 256))) rfl hs hsec, fun hv => ?_, ?_, fun hp hd hn => ?_,
    fun hp => ?_, fun hg => ?_⟩
  · refine Refused.of_host (op := opPrigrpWrite slot v.toNat) rfl hs ?_
    have hg : (s.marked slot.val).rd iPrigrp = s.rd iPrigrp :=
      s.rd_marked_below _ (by simp only [Fld.belowHst, Fld.key, iPrigrp, F.rws]; omega)
    simp [opPrigrpWrite, hnot, hg, hv]
  · rintro ⟨b, hl, hvb, hsb, hm⟩
    have hbelow : (iLatch w).belowHst := by simp only [Fld.belowHst, Fld.key, iLatch, F.w1c]; omega
    refine Refused.of_host (op := opLatchClear slot w.val v.toNat) rfl hs (opLatchClear_refused _ _ _ _ _ b.isLt hnot hl hvb ?_ ?_)
    · unfold State.bit at hsb ⊢
      rwa [s.rd_marked_below _ hbelow]
    · rw [s.slotTarget_marked]
      unfold State.tmask State.bit at hm ⊢
      rwa [s.rd_marked_below _ (by simp only [Fld.belowHst, Fld.key, iTmask, F.rw]; omega)]
  · obtain ⟨t, ht, hserved, -, htm⟩ := srccfgWrite_takes hs src v
      (opSrccfgWrite_own _ _ _ _ hk (by rw [hprio, hp]) (by rw [hmask, hd, s.slotTarget_marked]) hn)
    exact ⟨t, ht, hserved, htm⟩
  · refine Refused.of_host (op := opSrccfgWrite slot src.val v.toNat) rfl hs ?_
    rw [opSrccfgWrite, if_pos (by simp only [hnot, hprio, bne_iff_ne.2 hp]; simp)]
  · have hfree : (s.marked slot.val).boundTo slot.val g.val = false := by
      rw [s.boundTo_marked]
      simp [State.boundTo, hg]
    exact ⟨Refused.of_host (op := opTgtcfgWrite slot g.val v.toNat) rfl hs (by simp [opTgtcfgWrite, hnot, hfree]),
      Refused.of_host (op := opTargetReset slot g.val) rfl hs (by simp [opTargetReset, hnot, hfree])⟩

end Sys2Proof.Machine
end

section
/-! SUPPORT. The statements on hosts, pins and slots, on claims, CAN ports and short frames that fail: each leaves out something that its
command changes, or a state in which it does not act. -/

namespace Sys2Proof.Machine

open F

/-- A command's next state, if it has one, shows `p`. -/
def shows (i : Instr) (s : State) (p : State → Bool) : Bool := match exec i s with | .next t => p t | _ => true

theorem of_shows {i : Instr} {s t : State} {p : State → Bool} (h : shows i s p = true) (ht : exec i s = .next t) : p t = true := by
  simpa only [shows, ht] using h

/-! ### A host reset of a slot whose target has a record assigned -/

/-- `recordAssigned` with the bank of port 1 powered, which carries slot 1. -/
def recordForSlotOne : State := { recordAssigned with hst := { HstS.init with bank33 := [(1, 2)] } }

theorem hostReset_writesRecord : writesRecord (.hostReset 1) recordForSlotOne = true := by decide +kernel

/-- Refutes O42: the reset of the target that the slot alone is bound to first writes the record that the ICU has assigned (R491, R492);
the frame of a host reset names no byte of the Shared Buffer. -/
theorem not_hostResets : ¬ Obligations.HostResets := by
  unfold Obligations.HostResets
  intro h
  obtain ⟨hpattern, -⟩ := h 1 0 recordForSlotOne (by decide) rfl
  obtain ⟨hslot, -⟩ := hpattern (by decide) (by decide) (by decide) rfl
  obtain ⟨t, ht, hframe, -⟩ := hslot 1 (by decide)
  exact Frame.not_writesRecord ht hostReset_writesRecord rfl rfl rfl hframe

/-! ### A ball that its mill comes to see -/

/-- Slot 0 holds the lease of mill 0, and ball 32, input A of the mill with FUNC 0, stands high. -/
def ballHighUnseen : State :=
  { runningInM4.wr (hOwner (idMill 0)) 0 with mil := { MilS.init with mills := [(0, { MillS.init with ball := 1 })] } }

theorem pinClaim_seesBall (t : State) (ht : exec (.pinClaim 0 32 0x400000) ballHighUnseen = .next t) : (t.mill 0).a = true := by
  simpa using of_shows (p := fun t => (t.mill 0).a) (by decide +kernel) ht

/-- Refutes O44: with FUNC 1 the mill sees the ball at the level at which it stands (R383, log entry 142); the frame of the write names the
pin's own fields alone. -/
theorem not_pinsNameOneOwner : ¬ Obligations.PinsNameOneOwner := by
  unfold Obligations.PinsNameOneOwner
  intro h
  obtain ⟨-, hserves⟩ := h 0 32 0x400000 ballHighUnseen (by decide) (.pinClaim 0 32 0x400000) (by simp)
  obtain ⟨-, -, -, -, hdone⟩ := hserves (by decide)
  obtain ⟨t, ht, hserved, -⟩ := hdone (by decide) (by decide) (by decide) (by decide)
  have hkept : t.mill 0 = ballHighUnseen.mill 0 := hserved.frame.blks (.mill 0) (by decide) (by decide)
  have hseen := pinClaim_seesBall t ht
  rw [hkept] at hseen
  exact absurd hseen (by decide)

/-! ### EN of a slot beyond its width -/

/-- EN of slot 6 holds 2, more than its one bit. No write leaves a field so (`State.wr` truncates), but the statement speaks of every
`State`. In the word of the slot, EN then reads 0. -/
def slotEnBeyondWidth : State := { runningInM4 with regs := [(glbMode.key, 4), ((hEn 6).key, 2)] }

theorem slotWrite_applies (t : State) (ht : exec (.slotWrite 0 6 0) slotEnBeyondWidth = .next t) : t.rd (hEn 6) = 0 := by
  simpa using of_shows (p := fun t => t.rd (hEn 6) == 0) (by decide +kernel) ht

/-- Refutes O45: it says that the word of a slot whose EN is not 0 waits for a frame. One whose word names no port applies at once. -/
theorem not_slotWordsWaitForAFrame : ¬ Obligations.SlotWordsWaitForAFrame := by
  unfold Obligations.SlotWordsWaitForAFrame
  intro h
  obtain ⟨hsecure, -⟩ := h 0 6 0 0 ⟨false, false, 0, 0, 0⟩ slotEnBeyondWidth
  obtain ⟨-, -, htaken⟩ := hsecure (by decide) (by decide)
  obtain ⟨-, hwaits, -⟩ := htaken (by decide) (by decide)
  obtain ⟨t, ht, hserved, -⟩ := hwaits (by decide) (by decide)
  have hkept : t.rd (hEn 6) = slotEnBeyondWidth.rd (hEn 6) :=
    hserved.frame.regs (hEn 6) (by decide) (by decide) (by unfold Fld.outside; decide)
  rw [slotWrite_applies t ht] at hkept
  exact absurd hkept (by decide)

/-! ### A CAN port while the hub does not run -/

/-- CAN port 0 is enabled and error-active right after reset, while the timeline is frozen. -/
def canBeforeStart : State := (State.reset.wr (nEn 0) 1).wr (nEstate 0) 0

theorem busOff_waits (t : State) (ht : exec (.busOff 0) canBeforeStart = .next t) : t.rd (nEstate 0) = 0 := by
  simpa using of_shows (p := fun t => t.rd (nEstate 0) == 0) (by decide +kernel) ht

/-- Refutes O50: it asks of bus-off only that the controller is enabled, where the controller does nothing while the main domain does not
run (R234). -/
theorem not_canPortsRunAndSend : ¬ Obligations.CanPortsRunAndSend := by
  unfold Obligations.CanPortsRunAndSend
  intro h
  obtain ⟨-, -, -, -, -, -, hbus, -⟩ := h 0 0 0 0 0 0 0 canBeforeStart
  obtain ⟨⟨t, ht, -, hoff, -⟩, -⟩ := hbus (by decide)
  exact absurd ((busOff_waits t ht).symm.trans hoff) (by decide)

/-! ### A target beyond its width -/

/-- TARGET of slot 1 holds 0x27F8, more than its 3 bits. The spurious count of that target would stand where slot 1 has its last result. Its
queue holds a record of a source that is not raised. -/
def targetBeyondWidth : State :=
  { runningInM4 with
    regs := [(glbMode.key, 4), ((hTarget 1).key, 0x27F8)]
    hst := { HstS.init with bank33 := [(1, 2)] }
    icu := { IcuS.init with tgts := [(0x27F8, { TgtS.empty with queue := [{ seq := 0, prio := 0, src := 0, ns := 0 }] })] } }

/-- SPUR of that target and the last result of slot 1 stand at one address. -/
theorem rd_iSpur_eq_hLast (t : State) : t.rd (iSpur 0x27F8) = t.rd (hLast 1) := rfl

/-- Refutes O35: SPUR is to count the claim, and the slot's last result is to be DONE, which one field cannot show. -/
theorem not_claimsAndEndsOfService : ¬ Obligations.ClaimsAndEndsOfService := by
  unfold Obligations.ClaimsAndEndsOfService
  intro h
  obtain ⟨hclaims, -⟩ := h 1 0 0 targetBeyondWidth (by decide)
  obtain ⟨-, hhead, -⟩ := hclaims (by decide) (by decide)
  obtain ⟨-, -, hspurious⟩ := hhead _ (List.mem_singleton.2 rfl)
  obtain ⟨t, -, hserved, -, hcounted⟩ := hspurious (by decide) (by decide)
  have hlast : t.rd (hLast 1) = Code.done.val := hserved.last (by decide)
  have hcount : t.rd (iSpur 0x27F8) = 1 := hcounted
  rw [rd_iSpur_eq_hLast, hlast] at hcount
  exact absurd hcount (by decide)

/-! ### A second request that renews a lease -/

/-- Slot 0 holds the lease of timer 0 for 1,000 ms, of which 5 are left; a request of its waits for the Steward. -/
def requestWaits : State :=
  { ((runningInM4.wr glbStewardReady 1).wr (hOwner (idTimer 0)) 0).wr (hLeft (idTimer 0)) 5 with
    hst := { HstS.init with
      bank33 := [(0, 2)], leaseDur := [(idTimer 0, 1000)]
      jobs := [(0, { slot := 0, req := [0x10260000], resp := none, can := none, turn := 1 })] } }

/-- A frame of DICT_REQ with one word: a READ of entry 0x2600, timer 0's. -/
def readTimerFrame : Wire :=
  { high := false, soon := false, len := 0, rsv := 0, crc := BitVec.ofNat 8 (crc8 (headerBytes 0x20 0x260000 0 ++ bytesOf [0x10260000])) }

theorem dictReq_renews (t : State) (ht : exec (.dictReq 0 0x260000 [0x10260000] readTimerFrame) requestWaits = .next t) :
    t.rd (hLeft (idTimer 0)) = 1000 := by
  simpa using of_shows (p := fun t => t.rd (hLeft (idTimer 0)) == 1000) (by decide +kernel) ht

/-- Refutes O41: a DICT_REQ that is BUSY accesses the entry it names, and so renews the slot's lease of the resource (R586), which the
statement leaves out of what may change. -/
theorem not_otherFrames : ¬ Obligations.OtherFrames := by
  unfold Obligations.OtherFrames
  intro h
  obtain ⟨hframes, -⟩ := h 0 0 0 [0x10260000] 0 readTimerFrame requestWaits 0 (by decide) (by unfold State.carries; decide)
  obtain ⟨-, -, -, -, -, -, -, hserves⟩ := hframes (by decide)
  obtain ⟨-, hreq, -⟩ := hserves (by decide)
  obtain ⟨-, hbusy⟩ := hreq (by decide) (by decide) (by decide +kernel)
  obtain ⟨t, ht, hframed⟩ := hbusy (by decide)
  have hkept : t.rd (hLeft (idTimer 0)) = requestWaits.rd (hLeft (idTimer 0)) :=
    hframed.frame.regs (hLeft (idTimer 0)) (by decide) (by decide) (by unfold Fld.outside; decide)
  rw [dictReq_renews t ht] at hkept
  exact absurd hkept (by decide)

end Sys2Proof.Machine
end

section
/-! SUPPORT. The statements on security and firmware, on dictionary entries and on segmented transfers fail. -/

namespace Sys2Proof.Machine

open F

/-! ### A register beyond the map -/

/-- A trial bank runs; a register above the whole map (R1) holds 1. -/
def trialWithForeignRegister : State := { runningInM4 with regs := [(glbMode.key, 4), (xTrial.key, 1), ((F.ro 0x140000 0 0).key, 1)] }

theorem trialRevert_drops (t : State) (ht : exec .trialRevert trialWithForeignRegister = .next t) : t.rd (F.ro 0x140000 0 0) = 0 := by
  simpa using of_shows (p := fun t => t.rd (F.ro 0x140000 0 0) == 0) (by decide +kernel) ht

/-- Refutes O46: the all-off of a trial bank that fails drops every register outside the sequencer's and the monitor's, where the frame of
the statement names the areas of the map alone. -/
theorem not_securityAndFirmware : ¬ Obligations.SecurityAndFirmware := by
  unfold Obligations.SecurityAndFirmware
  intro h
  obtain ⟨-, -, -, -, hrevert, -⟩ := h 0 0 0 0 false 0 trialWithForeignRegister
  obtain ⟨t, ht, hframe, -⟩ := hrevert (by decide) (by decide) (by decide)
  have hkept : t.rd (F.ro 0x140000 0 0) = trialWithForeignRegister.rd (F.ro 0x140000 0 0) :=
    hframe.regs (F.ro 0x140000 0 0) (by decide) (by decide) (by unfold Fld.outside; decide)
  rw [trialRevert_drops t ht] at hkept
  exact absurd hkept (by decide)

/-! ### Requests while a RESTORE runs -/

/-- The Steward is up and a RESTORE of slot 1 runs. -/
def restoreRuns : State :=
  { runningInM4.wr glbStewardReady 1 with hst := { HstS.init with bank33 := [(0, 2)] }, dict := { DictS.init with restore := some 1 } }

theorem dtpWrite_joins (t : State) (ht : exec (.dtpWrite 0 0x7000 0 []) restoreRuns = .next t) : t.answer.code = .accepted := by
  simpa using of_shows (p := fun t => t.answer.code == .accepted) (by decide +kernel) ht

/-- Refutes O47: it asks that no STORE runs, and forgets RESTORE, behind which a WRITE that would be BAD_LENGTH is ACCEPTED and waits. -/
theorem not_dictionaryEntries : ¬ Obligations.DictionaryEntries := by
  unfold Obligations.DictionaryEntries
  intro h
  obtain ⟨hserved, -⟩ := h 0 0x7000 0 0 0 [] restoreRuns (by decide) (by decide) rfl rfl
  obtain ⟨-, -, -, -, hinteg, -⟩ := hserved rfl
  obtain ⟨-, -, hlength⟩ := hinteg (by decide)
  obtain ⟨t, ht, hrefused⟩ := hlength (by decide)
  have hcode : t.answer.code = .badLength := by rw [hrefused.answer]
  rw [dtpWrite_joins t ht] at hcode
  exact absurd hcode (by decide)

theorem segWriteInit_joins (t : State) (ht : exec (.segWriteInit 0 0x7000 0 0) restoreRuns = .next t) : t.answer.code = .accepted := by
  simpa using of_shows (p := fun t => t.answer.code == .accepted) (by decide +kernel) ht

/-- Refutes O48 by the same state: behind a RESTORE an INIT of total 0 is ACCEPTED and waits. -/
theorem not_segmentedTransfers : ¬ Obligations.SegmentedTransfers := by
  unfold Obligations.SegmentedTransfers
  intro h
  obtain ⟨hserved, -⟩ := h 0 0 false 0 [] 0 0 restoreRuns
  obtain ⟨hnone, -⟩ := hserved (by decide) (by decide) rfl rfl (by decide)
  obtain ⟨hlength, -⟩ := hnone rfl
  obtain ⟨t, ht, hrefused⟩ := hlength (.inl rfl)
  have hcode : t.answer.code = .badLength := by rw [hrefused.answer]
  rw [segWriteInit_joins t ht] at hcode
  exact absurd hcode (by decide)

end Sys2Proof.Machine
end

section
/-! SUPPORT. The statements on partners that report and on QUAR_CLEAR fail. -/

namespace Sys2Proof.Machine

open F

/-! ### A report that names no beacon -/

/-- The link hears on port 0, where partner 1 has joined; no beacon is kept. -/
def joinedWithoutBeacon : State :=
  { (runningInM4.wr pEn 1).wr pPorts 1 with ptn := { PtnS.init with table := [(1, { Partner.init with state := 2 })] } }

/-- A report of battery 1, all else 0. -/
def reportOfBattery : SyncBody := { bseq := 0, flags := 0, lqi := 0, rB := 0, tR := 0, ofs := 0, rate := 0, temp := 0, batt := 1, rx := 0 }

theorem syncReport_keepsBattery (t : State) (ht : exec (.syncReport 0 1 reportOfBattery) joinedWithoutBeacon = .next t) : (t.ptr 1).batt = 0 := by
  simpa using of_shows (p := fun t => (t.ptr 1).batt == 0) (by decide +kernel) ht

/-- Refutes O53: in computed mode a report whose BSEQ names no beacon counts for presence alone (log entry 198); the statement has the
entry take its battery. -/
theorem not_partnersReportAndLeave : ¬ Obligations.PartnersReportAndLeave := by
  unfold Obligations.PartnersReportAndLeave
  intro h
  obtain ⟨hframes, -⟩ := h 0 0 1 reportOfBattery 0 0 0 0 0 joinedWithoutBeacon
  obtain ⟨hjoined, -⟩ := hframes (by decide)
  obtain ⟨-, hreport, -⟩ := hjoined (by decide) (by decide)
  obtain ⟨hnone, -⟩ := hreport (by decide)
  obtain ⟨t, ht, -, htold, -⟩ := hnone (by decide)
  obtain ⟨hbatt, -⟩ := htold
  exact absurd ((syncReport_keepsBattery t ht).symm.trans hbatt) (by decide)

/-! ### An address that the table lists twice -/

/-- Address 5 is listed as FREE and, behind, in QUARANTINE. No write of the table leaves it so (`Assoc.put` erases every entry of the
address first), but the statement speaks of every `State`. -/
def listedTwice : State :=
  { runningInM4 with
    hst := { HstS.init with bank33 := [(0, 2)] }
    ptn := { PtnS.init with table := [(5, { Partner.init with eui := 1 }), (5, { Partner.init with state := 1 })] } }

theorem quarClear_freesBoth (t : State) (ht : exec (.quarClear 0) listedTwice = .next t) : (t.ptr 5).eui = 0 := by
  simpa using of_shows (p := fun t => (t.ptr 5).eui == 0) (by decide +kernel) ht

/-- Refutes O54: the entry reads FREE and is to stay as it is, but the one behind it is freed, and with it the address. -/
theorem not_quarantineIsCleared : ¬ Obligations.QuarantineIsCleared := by
  unfold Obligations.QuarantineIsCleared
  intro h
  obtain ⟨t, ht, -, -, hkept⟩ := h 0 5 listedTwice (by decide) (by decide)
  have heui : (t.ptr 5).eui = 1 := by rw [show t.ptr 5 = listedTwice.ptr 5 from hkept (by decide)]; decide
  exact absurd ((quarClear_freesBoth t ht).symm.trans heui) (by decide)

end Sys2Proof.Machine
end

section
/-! SUPPORT. The statements on sweeps and on radio ports fail. -/

namespace Sys2Proof.Machine

open F

/-! ### A run that was open when MODE 1 became active -/

/-- Slot 0 holds the lease of sweep 0, which is armed with a PERIOD; MODE 1 is active, and a run still waits. -/
def runInModeOne : State :=
  { (((runningInM4.wr (hOwner (idSweep 0)) 0).wr (wa (wMode 0)) 1).wr (wa (wPerLo 0)) 1).wr (wArmed 0) 1 with
    hst := { HstS.init with bank33 := [(0, 2)] }
    swp := [(0, { trig := 0, run := some Run.waiting, again := false })] }

theorem sweepAbort_opensNone (t : State) (ht : exec (.sweepAbort 0 0) runInModeOne = .next t) : t.rd (wRun 0) = 0 := by
  simpa using of_shows (p := fun t => t.rd (wRun 0) == 0) (by decide +kernel) ht

/-- Refutes O55: in MODE 1 the scheduler starts no run (R698), so the ABORT of the one that is open opens no next one, which the statement
has an armed sweep with a PERIOD do in either mode. -/
theorem not_sweepsRunAndClose : ¬ Obligations.SweepsRunAndClose := by
  unfold Obligations.SweepsRunAndClose
  intro h
  obtain ⟨hcommands, -⟩ := h 0 0 0 0 ⟨0, 0, 0, 0, false, 0, [], 0⟩ 0 runInModeOne
  obtain ⟨-, -, howned⟩ := hcommands (by decide)
  obtain ⟨-, -, -, -, -, -, -, habort, -⟩ := howned (by decide)
  obtain ⟨t, ht, -, ⟨-, -, hnext⟩, -⟩ := habort (by decide) Run.waiting (by decide) (by decide) (by decide)
  obtain ⟨hrun, -⟩ := hnext (by decide) (by decide) (by decide)
  exact absurd ((sweepAbort_opensNone t ht).symm.trans hrun) (by decide)

/-! ### A frame that waits behind the one at its port -/

/-- Port 0 is on and idle. The frame it has loaded is for an instant far away; a timed frame whose instant has passed waits behind it. -/
def missedBehindDue : State :=
  { runningInM4.wr (aState 0) 1 with
    rad := [(0, { RadS.init with
      due := some { kind := .hostTimed, inst := some (2 ^ 20), data := [] }
      queue := [{ kind := .hostTimed, inst := some 0, data := [] }] })] }

theorem radioTxCommit_counts (t : State) (ht : exec (.radioTxCommit 0) missedBehindDue = .next t) : t.rd (aTxLate 0) = 1 := by
  simpa using of_shows (p := fun t => t.rd (aTxLate 0) == 1) (by decide +kernel) ht

/-- Refutes O56: it says that a commit cycle changes nothing while the commit of the loaded frame is not due. The frame behind it is
abandoned all the same and counted (R711). -/
theorem not_radioPortsRun : ¬ Obligations.RadioPortsRun := by
  unfold Obligations.RadioPortsRun
  intro h
  obtain ⟨-, hruns, -⟩ := h 0 0 0 0 missedBehindDue
  obtain ⟨-, -, -, -, -, -, -, -, -, hcommit, -⟩ := hruns (by decide)
  obtain ⟨hearly, -⟩ := hcommit _ (Option.mem_toList.2 rfl)
  obtain ⟨t, ht, hframe, -⟩ := hearly ⟨2 ^ 20, by decide, by decide⟩
  have hkept : t.rd (aTxLate 0) = missedBehindDue.rd (aTxLate 0) :=
    hframe.regs (aTxLate 0) (by decide) (by decide) (by unfold Fld.outside; decide)
  rw [radioTxCommit_counts t ht] at hkept
  exact absurd hkept (by decide)

end Sys2Proof.Machine
end

section
/-! SUPPORT. The statement on received CAN frames fails. -/

namespace Sys2Proof.Machine

open F

/-- CAN port 0 runs in hardware mode, and a RING_READ frame of that port is still to move its ring's RIDX. No command leaves such a frame on a
CAN port, but the statement speaks of every `State`. -/
def readOpenOnCan : State :=
  { (runningInM4.wr (nEn 0) 1).wr (nEstate 0) 0 with hst := { HstS.init with reads := [{ port := 6, ring := 0, upTo := 0 }] } }

/-- A frame of node 2 to node 3. -/
def frameToOther : CanFrame :=
  { ext := true, rtr := false, fdf := false, brs := false, esi := false, id := BitVec.ofNat 29 (3 * 2 ^ 17 + 2 * 2 ^ 9), data := [], sof := 0 }

theorem canFrameReceive_endsRead (t : State) (ht : exec (.canFrameReceive 0 frameToOther) readOpenOnCan = .next t) : t.hst.reads = [] := by
  simpa using of_shows (p := fun t => t.hst.reads.isEmpty) (by decide +kernel) ht

/-- Refutes O51: the start of a frame ends the RING_READ frames that are open on its port (R524). The statement shuts out the slot words that
wait for a frame, and not these. -/
theorem not_canFramesAreJudged : ¬ Obligations.CanFramesAreJudged := by
  unfold Obligations.CanFramesAreJudged
  intro h
  obtain ⟨-, -, hhardware⟩ := h 0 frameToOther readOpenOnCan (by decide) (by decide) (by decide) (by decide) rfl (by decide)
  obtain ⟨hother, -⟩ := hhardware (by decide) (by decide) (by decide)
  obtain ⟨-, hplain⟩ := hother (by decide) (by decide) (by decide)
  obtain ⟨t, ht, hframe, -⟩ := hplain (by decide)
  have hkept : { t.hst with portLast := readOpenOnCan.hst.portLast, status := 0, sdo := [], acks := 0 } = readOpenOnCan.hst :=
    hframe.blks .hst (by decide) (by decide)
  have hreads := congrArg HstS.reads hkept
  rw [show _ = t.hst.reads from rfl, canFrameReceive_endsRead t ht] at hreads
  exact absurd hreads (by decide)

end Sys2Proof.Machine
end

section
/-! SUPPORT. The statement on rounds and the ring write port fails. -/

namespace Sys2Proof.Machine

open F

/-- An edge of input 0 that its FIFO holds. -/
def waitingEdge : StEdge := { t := 0, pol := true, ovf := false, uncal := false }

/-- Input 0 has gone to MODE 1 with an edge in its FIFO; an item of ring 39 waits for the ring write port. -/
def edgeInModeOne : State :=
  { runningInM4.wr (sMode 0) 1 with
    port := { PortS.init with wait := [{ blk := 1, ring := 39, words := [0], moved := 0 }] }
    stp := { runningInM4.stp with ins := [(0, { StIn.init with fifo := [waitingEdge] })] } }

theorem stampDrain_writesNoQuill (t : State) (ht : exec .stampDrain edgeInModeOne = .next t) : t.port.wait.length = 1 := by
  simpa using of_shows (p := fun t => t.port.wait.length == 1) (by decide +kernel) ht

/-- Refutes O34: the drain of an input that has gone to MODE 1 writes no quill (R352, log entry 66); the statement has every drained edge
wait at the port. -/
theorem not_roundsAssignTheBest : ¬ Obligations.RoundsAssignTheBest := by
  unfold Obligations.RoundsAssignTheBest
  intro h
  obtain ⟨-, -, -, hwaits, -⟩ := h 0 edgeInModeOne (by decide)
  obtain ⟨hdrain, -⟩ := hwaits (by decide)
  obtain ⟨t, ht, -, -, hport⟩ := hdrain 0 (by decide) (by decide) waitingEdge (List.mem_singleton.2 rfl) rfl
  have hlen : t.port.wait.length = 2 := by rw [hport]; rfl
  exact absurd ((stampDrain_writesNoQuill t ht).symm.trans hlen) (by decide)

end Sys2Proof.Machine
end

section
/-! SUPPORT. Dictionary request bodies (R615 to R617): what the words of a body give back, and the statement that a body spells its command. -/

namespace Sys2Proof.Machine

open F

/-! ### Bytes in words -/

theorem length_le_wordsOf (l : List Nat) : l.length ≤ 4 * (wordsOf l).length := by
  induction l using wordsOf.induct with
  | case1 a b c d t ih => simp only [wordsOf, List.length_cons]; omega
  | _ => simp [wordsOf]

/-- The words of a string of bytes hold it, with padding behind. -/
theorem take_bytesOf_wordsOf (l : List Nat) (h : ∀ b ∈ l, b < 2 ^ 8) : (bytesOf (wordsOf l)).take l.length = l := by
  induction l using wordsOf.induct with
  | case1 a b c d t ih =>
    have ha := h a (by simp)
    have hb := h b (by simp)
    have hc := h c (by simp)
    simp only [List.mem_cons, forall_eq_or_imp] at h
    simp only [wordsOf, bytesOf, List.length_cons, List.take_succ_cons, ih h.2.2.2.2, List.cons.injEq, and_true]
    omega
  | case2 a b c | case3 a b | case4 a =>
    simp only [List.mem_cons, forall_eq_or_imp] at h
    simp only [wordsOf, bytesOf, List.length_cons, List.length_nil, List.take_succ_cons, List.take_zero, List.cons.injEq, and_true]
    omega
  | case5 => rfl

/-- The bytes behind LEN are the value that the body was written for (R617). -/
theorem lenBytes_lenWords (q0 : Nat) (value : List Byte) (h : value.length < 2 ^ 16) : lenBytes (q0 :: lenWords value) = some value := by
  have hlen := length_le_wordsOf (value.map (·.toNat))
  have htake := take_bytesOf_wordsOf (value.map (·.toNat)) (by simp only [List.mem_map]; rintro b ⟨x, -, rfl⟩; exact x.isLt)
  rw [List.length_map] at hlen htake
  have hfits : ¬((q0 :: lenWords value).length < 2 ∨ 2 ^ 16 ≤ value.length ∨ 4 * ((q0 :: lenWords value).length - 2) < value.length) := by
    simp only [lenWords, List.length_cons]; omega
  rw [lenBytes, show (q0 :: lenWords value).getD 1 0 = value.length from rfl, if_neg hfits]
  simp only [lenWords, List.drop_succ_cons, List.drop_zero, htake, List.map_map]
  exact congrArg some (List.map_id'' (fun b => BitVec.ofNat_toNat .. |>.trans (BitVec.setWidth_eq b)) value)

/-! ### Q0 (R615) -/

section
variable (cmd : Nat) (tg : Bool) (i : BitVec 16) (sub : Byte)

theorem dtpQ0_eq : dtpQ0 cmd tg i.toNat sub.toNat = cmd * 2 ^ 28 + tg.toNat * 2 ^ 27 + i.toNat * 2 ^ 8 + sub.toNat := by
  rw [dtpQ0, Nat.mod_eq_of_lt i.isLt, Nat.mod_eq_of_lt sub.isLt]

theorem dtpQ0_cmd : dtpQ0 cmd tg i.toNat sub.toNat / 2 ^ 28 = cmd := by
  have := i.isLt; have := sub.isLt; have := tg.toNat_le; rw [dtpQ0_eq]; omega

theorem dtpQ0_reserved : dtpQ0 cmd tg i.toNat sub.toNat / 2 ^ 24 % 8 = 0 := by
  have := i.isLt; have := sub.isLt; have := tg.toNat_le; rw [dtpQ0_eq]; omega

theorem dtpQ0_toggle : (dtpQ0 cmd tg i.toNat sub.toNat).testBit 27 = tg := by
  have hbit : dtpQ0 cmd tg i.toNat sub.toNat / 2 ^ 27 % 2 = tg.toNat := by
    have := i.isLt; have := sub.isLt; have := tg.toNat_le; rw [dtpQ0_eq]; omega
  rw [Nat.testBit_eq_decide_div_mod_eq, hbit]
  cases tg <;> rfl

theorem dtpQ0_index : BitVec.ofNat 16 (dtpQ0 cmd tg i.toNat sub.toNat / 2 ^ 8) = i := by
  apply BitVec.eq_of_toNat_eq
  have := i.isLt; have := sub.isLt; rw [BitVec.toNat_ofNat, dtpQ0_eq]; omega

theorem dtpQ0_sub : BitVec.ofNat 8 (dtpQ0 cmd tg i.toNat sub.toNat) = sub := by
  apply BitVec.eq_of_toNat_eq
  have := i.isLt; have := sub.isLt; rw [BitVec.toNat_ofNat, dtpQ0_eq]; omega

end

/-- Settles O58, form by form: Q0 gives back CMD, toggle, index and subindex, and the words behind LEN the value. -/
theorem dtpBodiesSpellTheirCommand : Obligations.DtpBodiesSpellTheirCommand := by
  unfold Obligations.DtpBodiesSpellTheirCommand
  intro i slot ws hwf hbody
  cases i with
  | dtpRead k i sub =>
    obtain ⟨rfl, rfl⟩ : k = slot ∧ [dtpQ0 1 false i.toNat sub.toNat] = ws := by simpa [dtpBody] using hbody
    simp [-Nat.reducePow, dtpOf, dtpQ0_cmd, dtpQ0_reserved, dtpQ0_toggle, dtpQ0_index, dtpQ0_sub]
  | dtpWrite k i sub value =>
    obtain ⟨rfl, rfl⟩ : k = slot ∧ dtpQ0 2 false i.toNat sub.toNat :: lenWords value = ws := by simpa [dtpBody] using hbody
    simp [-Nat.reducePow, dtpOf, dtpQ0_cmd, dtpQ0_reserved, dtpQ0_toggle, dtpQ0_index, dtpQ0_sub, lenBytes_lenWords _ value (of_decide_eq_true hwf)]
  | segWriteInit k i sub total =>
    obtain ⟨rfl, rfl⟩ : k = slot ∧ [dtpQ0 3 false i.toNat sub.toNat, total] = ws := by simpa [dtpBody] using hbody
    simp [-Nat.reducePow, dtpOf, dtpQ0_cmd, dtpQ0_reserved, dtpQ0_toggle, dtpQ0_index, dtpQ0_sub]
  | segWriteData k tg i sub seg =>
    obtain ⟨rfl, rfl⟩ : k = slot ∧ dtpQ0 4 tg i.toNat sub.toNat :: lenWords seg = ws := by simpa [dtpBody] using hbody
    simp [-Nat.reducePow, dtpOf, dtpQ0_cmd, dtpQ0_reserved, dtpQ0_toggle, dtpQ0_index, dtpQ0_sub, lenBytes_lenWords _ seg (of_decide_eq_true hwf)]
  | segReadInit k i sub =>
    obtain ⟨rfl, rfl⟩ : k = slot ∧ [dtpQ0 5 false i.toNat sub.toNat] = ws := by simpa [dtpBody] using hbody
    simp [-Nat.reducePow, dtpOf, dtpQ0_cmd, dtpQ0_reserved, dtpQ0_toggle, dtpQ0_index, dtpQ0_sub]
  | segReadData k tg i sub =>
    obtain ⟨rfl, rfl⟩ : k = slot ∧ [dtpQ0 6 tg i.toNat sub.toNat] = ws := by simpa [dtpBody] using hbody
    simp [-Nat.reducePow, dtpOf, dtpQ0_cmd, dtpQ0_reserved, dtpQ0_toggle, dtpQ0_index, dtpQ0_sub]
  | dtpAbort k code =>
    obtain ⟨rfl, rfl⟩ : k = slot ∧ [dtpQ0 7 false 0 0, code.toNat] = ws := by simpa [dtpBody] using hbody
    have hcode := code.isLt
    have htoggle : Nat.testBit 1879048192 27 = false := by decide
    simp [dtpOf, dtpQ0, hcode, htoggle]
  | _ => exact absurd hbody (by simp [dtpBody])

end Sys2Proof.Machine
end

section
/-! SUPPORT. STORE and RESTORE (R609 to R614): what a write of sub 1 of 0x1010 answers, what its completion leaves, and the statement on them. -/

namespace Sys2Proof.Machine

open F

/-! ### A served command by its operation's frame -/

/-- A command that acts within its frame, on blocks below the host block, from the marked hub. -/
theorem Served.of_marked (k : Slot) (c : Code) {w : Touch} {s u : State} (d : List Nat) (hframe : Frame w (s.marked k.val) u)
    (hw : ∀ g ∈ w.flds, g.belowHst) (ha : w.areas = []) : Served k c w s (State.finish k (c, u) d) d := by
  have hacts : Frame { w with flds := s.slotFlds k.val c ++ w.flds, blks := .answer :: .last :: w.blks } (s.marked k.val) u :=
    Frame.mono (fun f hf => List.mem_append_right _ hf) (fun _ h => h) (fun b hb => by simp [hb]) (fun _ h => h) id hframe
  exact Served.intro k c w s u d ((Frame.marked k c w s).trans hacts) (by rw [hframe.portOf hw ha, s.portOf_marked])

/-! ### A write of sub 1 of 0x1010 -/

theorem State.stewardUp_marked (s : State) (k : Nat) : (s.marked k).stewardUp = s.stewardUp := by
  unfold State.stewardUp
  rw [s.on_marked_below k (by unfold Fld.belowHst; decide), s.on_marked_below k (by unfold Fld.belowHst; decide)]

theorem State.abortXfer_none {s : State} {slot : Nat} (h : Assoc.find slot s.dict.xfers = none) : s.abortXfer slot = s := by
  unfold State.abortXfer
  rw [h]

/-- The result of a write of sub 1 of 0x1010 as it comes with its row: ACCEPTED once started. -/
def nvTaken (slot : Slot) (v : Nat) (s : State) : Res := match opNv slot v s with | (some c, t) => (c, t) | (none, t) => (.accepted, t)

/-- With no request waiting, such a write is served at once. -/
theorem stewardNv_served {slot : Slot} {s : State} (p : List Nat → Bool) (ws : List Nat) (v : Nat) (hs : s.heard slot.val = true)
    (hup : s.stewardUp = true) (hjobs : s.hst.jobs = []) :
    stewardNv slot p ws v s id = .next (State.finish slot (nvTaken slot v (s.marked slot.val))) := by
  have hjob : s.jobOf slot p = none := by simp [State.jobOf, hjobs, firstJob]
  have hm10 : (s.marked slot.val).m10Refuses slot.val = false := by rw [s.m10Refuses_marked, ((s.heard_iff _).1 hs).2.2.1]
  have htaken : (!(s.marked slot.val).nvBusy && (s.marked slot.val).stewardTaken) = false := by
    simp [State.stewardTaken, hjobs]
  unfold stewardNv
  rw [hjob]
  dsimp only
  unfold dtpFrame
  rw [served_heard slot s _ _ _ hs (by simp [State.refusedDtp, hm10, s.stewardUp_marked, hup])]
  simp only [htaken, Bool.false_eq_true, if_false, id_eq, nvTaken]
  split <;> simp_all

section
variable {slot : Slot} {s : State} {v : Nat} (hx : Assoc.find slot.val s.dict.xfers = none) (hr : s.reach slot.val = 0)
include hx hr

theorem nvTaken_nonsecure (hsec : s.secure slot.val = false) : nvTaken slot v s = (.secureOnly, s) := by
  have hent : entFor slot.val s 0x1010 1 true = .error .secureOnly := by
    simp [entFor, State.dictReach, hr, entsAt, area1010, subs, Ent.plain, Ent.sized, hsec]
  simp [nvTaken, opNv, State.abortXfer_none hx, hent]

variable (hsec : s.secure slot.val = true) (hv : v = storeWord ∨ v = restoreWord)
include hsec hv

/-- A secure slot's write of one of the two words is refused by the mode, then by a STORE or RESTORE that runs, and else starts. -/
theorem nvTaken_secure : nvTaken slot v s =
    if !(s.mode == 4 || s.mode == 5 || s.mode == 6 || s.mode == 10) then (.notInMode, s.nvResult .notInMode)
    else if s.nvBusy then (.busy, s.nvResult .busy)
    else (.accepted, if v = storeWord then s.storeStart slot.val else s.restoreStart slot.val) := by
  have hent : ∃ e, entFor slot.val s 0x1010 1 true = .ok e :=
    ⟨_, by simp [entFor, State.dictReach, hr, entsAt, area1010, subs, Ent.plain, Ent.sized, hsec]; rfl⟩
  obtain ⟨e, hent⟩ := hent
  have hword : ¬(v ≠ storeWord ∧ v ≠ restoreWord) := by tauto
  unfold nvTaken opNv
  rw [State.abortXfer_none hx]
  dsimp only
  rw [hent]
  dsimp only
  rw [if_neg hword]
  cases hmode : (!(s.mode == 4 || s.mode == 5 || s.mode == 6 || s.mode == 10)) with
  | true => rfl
  | false => cases hbusy : s.nvBusy <;> rfl

end

theorem belowHst_glbDstat : glbDstatRes.belowHst ∧ glbDstatGen.belowHst ∧ glbDnotice.belowHst := by
  unfold Fld.belowHst
  decide

theorem State.reach_marked (s : State) (k : Nat) : (s.marked k).reach k = s.reach k := by
  unfold State.reach
  rw [State.rd_marked _ _ _ (by simp only [Fld.key, hPresent, hReach, F.ro, F.rws, hBase, ne_eq]; omega)
    (by simp only [Fld.key, hWaking, hReach, F.ro, F.rws, hBase, ne_eq]; omega)]

theorem State.newest_congr {s t : State} (h : t.dict = s.dict) : t.newest = s.newest := by unfold State.newest; rw [h]

theorem State.storeStart_store (s : State) (slot : Nat) : (s.storeStart slot).dict.store = some slot := by
  unfold State.storeStart; split <;> rfl

/-- The copy that STORE will write is not valid from its start (R612). -/
theorem State.storeStart_copies {s : State} {c : NvCopy × Bool} (h : s.newest = some c) (slot : Nat) :
    if c.2 then (s.storeStart slot).dict.copyB = none ∧ (s.storeStart slot).dict.copyA = s.dict.copyA
    else (s.storeStart slot).dict.copyA = none ∧ (s.storeStart slot).dict.copyB = s.dict.copyB := by
  obtain ⟨c, isA⟩ := c
  unfold State.storeStart
  rw [h]
  cases isA <;> exact ⟨rfl, rfl⟩

theorem Frame.storeStart (s : State) (slot : Nat) : Frame { blks := [.dict] } s (s.storeStart slot) := (Frame.refl _ s).dict _ (by simp)

section
variable {i : Instr} {slot : Slot} {s : State} {v : Nat} (hi : exec i s = .next (State.finish slot (nvTaken slot v (s.marked slot.val))))
  (hx : Assoc.find slot.val s.dict.xfers = none) (hr : s.reach slot.val = 0)
include hi hx hr

theorem nv_secureOnly (hsec : s.secure slot.val = false) : Refused i slot .secureOnly s := by
  refine ⟨_, hi, ?_⟩
  rw [nvTaken_nonsecure (by rw [State.marked_dict, hx]) (by rw [s.reach_marked, hr]) (by rw [s.secure_marked, hsec])]
  exact Served.of_marked slot .secureOnly [] (Frame.refl _ _) (by simp) rfl

variable (hsec : s.secure slot.val = true) (hv : v = storeWord ∨ v = restoreWord)
include hsec hv

theorem exec_nv_secure : exec i s = .next (State.finish slot
    (if !(s.mode == 4 || s.mode == 5 || s.mode == 6 || s.mode == 10) then (.notInMode, (s.marked slot.val).nvResult .notInMode)
    else if s.nvBusy then (.busy, (s.marked slot.val).nvResult .busy)
    else (.accepted, if v = storeWord then (s.marked slot.val).storeStart slot.val else (s.marked slot.val).restoreStart slot.val))) := by
  rw [hi, nvTaken_secure (by rw [State.marked_dict, hx]) (by rw [s.reach_marked, hr]) (by rw [s.secure_marked, hsec]) hv, s.mode_marked,
    show (s.marked slot.val).nvBusy = s.nvBusy by simp [State.nvBusy]]

theorem nv_notInMode (hm : (s.mode == 4 || s.mode == 5 || s.mode == 6 || s.mode == 10) = false) :
    Answers i slot .notInMode s { flds := [glbDstatRes] } fun _ => True := by
  refine ⟨_, exec_nv_secure hi hx hr hsec hv, ?_, trivial⟩
  rw [hm]
  exact Served.of_marked slot .notInMode [] ((Frame.refl _ _).wr _ _ (by simp)) (by simp [belowHst_glbDstat]) rfl

variable (hm : (s.mode == 4 || s.mode == 5 || s.mode == 6 || s.mode == 10) = true)
include hm

theorem nv_busy (hb : s.nvBusy = true) : Answers i slot .busy s { flds := [glbDstatRes] } fun _ => True := by
  refine ⟨_, exec_nv_secure hi hx hr hsec hv, ?_, trivial⟩
  rw [hm, hb]
  exact Served.of_marked slot .busy [] ((Frame.refl _ _).wr _ _ (by simp)) (by simp [belowHst_glbDstat]) rfl

end

section
variable {slot : Slot} {s : State} (hs : s.heard slot.val = true) (hup : s.stewardUp = true) (hjobs : s.hst.jobs = [])
include hs hup hjobs

theorem exec_store : exec (.store slot) s = .next (State.finish slot (nvTaken slot storeWord (s.marked slot.val))) :=
  stewardNv_served _ _ _ hs hup hjobs

theorem exec_restore : exec (.restore slot) s = .next (State.finish slot (nvTaken slot restoreWord (s.marked slot.val))) :=
  stewardNv_served _ _ _ hs hup hjobs

variable (hx : Assoc.find slot.val s.dict.xfers = none) (hr : s.reach slot.val = 0) (hsec : s.secure slot.val = true)
  (hm : (s.mode == 4 || s.mode == 5 || s.mode == 6 || s.mode == 10) = true) (hb : s.nvBusy = false)
include hx hr hsec hm hb

theorem store_starts : Answers (.store slot) slot .accepted s { blks := [.dict] } fun t => t.dict.store = some slot.val ∧
    (∀ c ∈ s.newest.toList, if c.2 then t.dict.copyB = none ∧ t.dict.copyA = s.dict.copyA
      else t.dict.copyA = none ∧ t.dict.copyB = s.dict.copyB) := by
  have hexec := exec_nv_secure (exec_store hs hup hjobs) hx hr hsec (.inl rfl)
  rw [hm, hb] at hexec
  refine ⟨_, hexec, Served.of_marked slot .accepted [] (Frame.storeStart _ _) (by simp) rfl, ?_⟩
  simp only [State.finish_dict]
  refine ⟨State.storeStart_store _ _, fun c hc => ?_⟩
  have hnewest : (s.marked slot.val).newest = some c := by rw [State.newest_congr (s.marked_dict slot.val)]; exact Option.mem_toList.1 hc
  simpa using State.storeStart_copies hnewest slot.val

theorem restore_starts : Answers (.restore slot) slot .accepted s { blks := [.dict] } fun t =>
    t.dict.restore = some slot.val ∧ t.newest = none := by
  have hexec := exec_nv_secure (exec_restore hs hup hjobs) hx hr hsec (.inr rfl)
  rw [hm, hb] at hexec
  refine ⟨_, hexec, Served.of_marked slot .accepted [] ((Frame.refl _ _).dict _ (by simp)) (by simp) rfl, ?_⟩
  simp only [State.newest, State.finish_dict]
  exact ⟨rfl, rfl⟩

end

/-! ### The completions -/

/-- With no request waiting, the end of a STORE or RESTORE is said as DONE and kept as the last result. -/
theorem State.nvEnd_eq {s : State} (hjobs : s.hst.jobs = []) : s.nvEnd = (s.nvResult .done).say .done := by
  unfold State.nvEnd
  dsimp only
  rw [show (s.nvResult .done).hst.jobs = [] from hjobs]
  rfl

/-- The copy that a STORE leaves. -/
def State.storedCopy (s : State) : NvCopy :=
  { gen := (match s.newest with | some (n, _) => n.gen | none => 0) + 1, regs := s.storeImage, integ := s.dict.integ }

/-- The dictionary part after a STORE. -/
def State.storedDict (s : State) : DictS :=
  match s.newest with
  | some (_, true) => { s.dict with store := none, copyB := some s.storedCopy }
  | _ => { s.dict with store := none, copyA := some s.storedCopy }

theorem State.storeEnd_eq {s : State} (hjobs : s.hst.jobs = []) : s.storeEnd =
    (((({ s with dict := s.storedDict } : State).wr glbDstatGen s.storedCopy.gen).setBits glbDnotice 1).nvResult .done).say .done := by
  unfold State.storeEnd
  rw [State.nvEnd_eq (by simpa [State.setBits] using hjobs)]
  unfold State.storedDict
  rfl

theorem Frame.storeEnd {s : State} (hjobs : s.hst.jobs = []) :
    Frame { flds := [glbDstatRes, glbDstatGen, glbDnotice], blks := [.answer, .dict] } s s.storeEnd := by
  rw [State.storeEnd_eq hjobs]
  exact (((((Frame.refl _ s).dict _ (by simp)).wr _ _ (by simp)).setBits _ _ (by simp)).wr _ _ (by simp)).say _ _ (by simp)

theorem bit_glbDnotice_noticed (s : State) {i : Nat} (hi : i < glbDnotice.width) :
    (((s.setBits glbDnotice (2 ^ i)).nvResult .done).say .done).bit glbDnotice i = true := by
  unfold State.nvResult State.say State.bit
  rw [State.rd_mk, State.rd_wr_ne _ (by decide)]
  exact State.bit_setBits_same s hi

/-- The copy that was not the newest is the one that STORE makes valid (R611). -/
theorem State.storedDict_copies (s : State) :
    if s.newest.any (·.2) then s.storedDict.copyB = some s.storedCopy ∧ s.storedDict.copyA = s.dict.copyA
    else s.storedDict.copyA = some s.storedCopy ∧ s.storedDict.copyB = s.dict.copyB := by
  unfold State.storedDict
  rcases s.newest with _ | ⟨c, isA⟩
  · exact ⟨rfl, rfl⟩
  · cases isA <;> exact ⟨rfl, rfl⟩

theorem State.storedDict_kept (s : State) : s.storedDict.store = none ∧ s.storedDict.integ = s.dict.integ := by
  unfold State.storedDict
  split <;> exact ⟨rfl, rfl⟩

theorem storeComplete_stores {s : State} {k : Nat} (hk : s.dict.store = some k) (hjobs : s.hst.jobs = []) :
    Happens .storeComplete s { flds := [glbDstatRes, glbDstatGen, glbDnotice], blks := [.answer, .dict] } fun t =>
      t.dict = s.storedDict ∧ t.answer = { code := .done, data := [] } ∧ t.bit glbDnotice 0 = true := by
  refine ⟨s.storeEnd, ?_, Frame.storeEnd hjobs, ?_⟩
  · rw [show exec .storeComplete s = event (if s.dict.store.isSome then s.storeEnd else s) from rfl, hk]; rfl
  · rw [State.storeEnd_eq hjobs]
    exact ⟨rfl, rfl, bit_glbDnotice_noticed (i := 0) _ (by decide)⟩

theorem restoreComplete_ends {s : State} {k : Nat} (hk : s.dict.restore = some k) (hjobs : s.hst.jobs = []) :
    Happens .restoreComplete s { flds := [glbDstatRes, glbDnotice], blks := [.answer, .dict] } fun t =>
      t.dict = { s.dict with restore := none } ∧ t.answer = { code := .done, data := [] } ∧ t.bit glbDnotice 3 = true := by
  have hend : s.restoreEnd = (((({ s with dict := { s.dict with restore := none } } : State).setBits glbDnotice 8).nvResult .done).say .done) :=
    State.nvEnd_eq hjobs
  refine ⟨s.restoreEnd, ?_, ?_, ?_⟩
  · rw [show exec .restoreComplete s = event (if s.dict.restore.isSome then s.restoreEnd else s) from rfl, hk]; rfl
  · rw [hend]
    exact ((((Frame.refl _ s).dict _ (by simp)).setBits _ _ (by simp)).wr _ _ (by simp)).say _ _ (by simp)
  · rw [hend]
    exact ⟨rfl, rfl, bit_glbDnotice_noticed (i := 3) _ (by decide)⟩

/-- Settles O49: the two writes are judged in one place, `nvTaken`, and a completion rewrites the dictionary part as `storedDict` says. -/
theorem storeAndRestore : Obligations.StoreAndRestore := by
  unfold Obligations.StoreAndRestore
  intro slot k s gen
  refine ⟨fun hready hup hjobs hr hx => ?_, fun hk hjobs => ?_, fun hk => ?_, fun hk hjobs => restoreComplete_ends hk hjobs, fun hk => ?_⟩
  · have hs := s.ready_heard _ hready
    have hstore := exec_store hs hup hjobs
    have hrestore := exec_restore hs hup hjobs
    refine ⟨fun hsec => ⟨nv_secureOnly hstore hx hr hsec, nv_secureOnly hrestore hx hr hsec⟩, fun hsec => ⟨fun h4 h5 h6 h10 => ?_, fun hm => ?_⟩⟩
    · have hm : (s.mode == 4 || s.mode == 5 || s.mode == 6 || s.mode == 10) = false := by simp [h4, h5, h6, h10]
      exact ⟨nv_notInMode hstore hx hr hsec (.inl rfl) hm, nv_notInMode hrestore hx hr hsec (.inr rfl) hm⟩
    · have hm : (s.mode == 4 || s.mode == 5 || s.mode == 6 || s.mode == 10) = true := by simpa [or_assoc] using hm
      exact ⟨fun hb => ⟨nv_busy hstore hx hr hsec (.inl rfl) hm hb, nv_busy hrestore hx hr hsec (.inr rfl) hm hb⟩,
        fun hb => ⟨store_starts hs hup hjobs hx hr hsec hm hb, restore_starts hs hup hjobs hx hr hsec hm hb⟩⟩
  · obtain ⟨t, ht, hframe, hdict, hanswer, hnotice⟩ := storeComplete_stores hk hjobs
    refine ⟨t, ht, hframe, ?_⟩
    simp only [hdict]
    exact ⟨s.storedDict_kept.1, hanswer, hnotice, s.storedDict_kept.2, s.storedDict_copies⟩
  · exact Happens.idle (by rw [show exec .storeComplete s = event (if s.dict.store.isSome then s.storeEnd else s) from rfl, hk]; rfl)
  · exact Happens.idle (by rw [show exec .restoreComplete s = event (if s.dict.restore.isSome then s.restoreEnd else s) from rfl, hk]; rfl)

end Sys2Proof.Machine
end

section
/-! SUPPORT. Mailbox channels (R527 to R544): who may act on a channel, what a post, a take and an acknowledgement leave, and the statement on
them. -/

namespace Sys2Proof.Machine

open F

/-! ### The notes of CAN slots -/

/-- Nothing but the CAN block differs. -/
def CanOnly (s t : State) : Prop := ∃ x, t = { s with can := x }

theorem CanOnly.refl (s : State) : CanOnly s s := ⟨s.can, rfl⟩

theorem CanOnly.trans {s t u : State} (h : CanOnly s t) (k : CanOnly t u) : CanOnly s u := by
  obtain ⟨x, rfl⟩ := h
  obtain ⟨y, rfl⟩ := k
  exact ⟨y, rfl⟩

theorem CanOnly.frame {s t : State} (h : CanOnly s t) : Frame { blks := [.can] } s t := by
  obtain ⟨x, rfl⟩ := h
  exact (Frame.refl _ s).can x (by simp)

theorem CanOnly.rd {s t : State} (h : CanOnly s t) (f : Fld) : t.rd f = s.rd f := by
  obtain ⟨x, rfl⟩ := h
  rfl

theorem CanOnly.mbx {s t : State} (h : CanOnly s t) : t.mbx = s.mbx := by
  obtain ⟨x, rfl⟩ := h
  rfl

theorem CanOnly.setCanNode (s : State) (p n : Nat) (x : CanNode) : CanOnly s (s.setCanNode p n x) := ⟨_, rfl⟩

theorem CanOnly.canHub (s : State) (p : Nat) (f : CanOut) : CanOnly s (s.canHub p f) := by
  unfold State.canHub State.canSend
  split
  · split
    · exact ⟨_, rfl⟩
    · exact .refl s
  · exact .refl s

theorem CanOnly.canNote (s : State) (k fn : Nat) (ws : List Nat) : CanOnly s (s.canNote k fn ws) := by
  unfold State.canNote
  dsimp only
  split
  · exact (CanOnly.canHub s _ _).trans (.setCanNode _ _ _ _)
  · exact .refl s

theorem CanOnly.canTell (s : State) (k : Nat) : CanOnly s (s.canTell k) := by
  unfold State.canTell
  dsimp only
  split
  · exact (CanOnly.setCanNode s _ _ _).trans (.canNote _ _ _ _)
  · exact .setCanNode s _ _ _

theorem CanOnly.foldl {α : Type} {f : State → α → State} (hf : ∀ s a, CanOnly s (f s a)) (l : List α) (s : State) : CanOnly s (l.foldl f s) := by
  induction l generalizing s with
  | nil => exact .refl s
  | cons a t ih => exact (hf s a).trans (ih (f s a))

theorem State.canNotes_only (s : State) : CanOnly s s.canNotes := CanOnly.foldl CanOnly.canTell _ s

/-- A change with its notes changes what it changes, and the CAN block. -/
theorem Frame.canNotes {w : Touch} {s t : State} (h : Frame w s t) (hb : .can ∈ w.blks) : Frame w s t.canNotes := by
  obtain ⟨x, hx⟩ := t.canNotes_only
  rw [hx]
  exact h.can x hb

/-! ### The fields of a channel -/

def chanFlds (c : Nat) : List Fld :=
  bindFlds c ++ [bRet c, bId c, bSpace c, bAcked c, bMail c, bState c, bRefused c, bPseq c]

theorem chanFlds_belowHst (c : Fin 64) : ∀ f ∈ chanFlds c, f.belowHst := by
  have hc := c.isLt
  intro f hf
  simp only [chanFlds, bindFlds, List.cons_append, List.nil_append, List.mem_cons, List.not_mem_nil, or_false] at hf
  rcases hf with rfl | rfl | rfl | rfl | rfl | rfl | rfl | rfl | rfl | rfl | rfl | rfl | rfl | rfl | rfl | rfl <;>
    simp only [Fld.belowHst, Fld.key, bEn, bForm, bWake, bMailIe, bSpaceIe, bAckIe, bRecv, bSend, bRet, bId, bSpace, bAcked, bMail, bState,
      bRefused, bPseq, F.ro, F.rws, F.rc, F.w1c, bBase] <;> omega

theorem chanKeys_ne (c : Nat) : ((bMail c).key ≠ (bState c).key ∧ (bSpace c).key ≠ (bState c).key ∧ (bAcked c).key ≠ (bState c).key ∧
      (bRefused c).key ≠ (bState c).key) ∧
    ((bMail c).key ≠ (bPseq c).key ∧ (bState c).key ≠ (bPseq c).key) ∧
    ((bPseq c).key ≠ (bId c).key ∧ (bState c).key ≠ (bId c).key ∧ (bMail c).key ≠ (bId c).key) ∧
    (bId c).key ≠ (bPseq c).key ∧ (bSpace c).key ≠ (bMail c).key ∧ ((bState c).key ≠ (bRet c).key ∧ (bAcked c).key ≠ (bRet c).key) ∧
    (bState c).key ≠ (bAcked c).key ∧
    ((bState c).key ≠ (bEn c).key ∧ (bMail c).key ≠ (bEn c).key ∧ (bSpace c).key ≠ (bEn c).key ∧ (bAcked c).key ≠ (bEn c).key) ∧
    (bRefused c).key ≠ (bEn c).key ∧ (bRefused c).key ≠ (bRecv c).key := by
  simp only [Fld.key, bEn, bRecv, bRet, bId, bSpace, bAcked, bMail, bState, bRefused, bPseq, F.ro, F.rws, F.rc, F.w1c, bBase, ne_eq]
  omega

theorem State.rd_chan_marked (s : State) (k : Nat) (c : Fin 64) {f : Fld} (hf : f ∈ chanFlds c) : (s.marked k).rd f = s.rd f :=
  s.rd_marked_below k (chanFlds_belowHst c f hf)

theorem State.on_chan_marked (s : State) (k : Nat) (c : Fin 64) {f : Fld} (hf : f ∈ chanFlds c) : (s.marked k).on f = s.on f :=
  s.on_marked_below k (chanFlds_belowHst c f hf)

/-! ### Who may act on a channel (R530, R531) -/

theorem State.chanSeen_marked (s : State) (k c : Nat) : (s.marked k).chanSeen k c = s.chanSeen k c := by
  unfold State.chanSeen
  rw [s.secure_marked]

theorem State.chanRight_marked (s : State) (k : Nat) (c : Fin 64) {role : Fld} (hrole : role ∈ chanFlds c) :
    (s.marked k).chanRight k c role = s.chanRight k c role := by
  unfold State.chanRight
  rw [s.chanSeen_marked, s.rd_chan_marked k c hrole, s.on_chan_marked k c (f := bEn c) (by simp [chanFlds, bindFlds])]

section
variable {s : State} {k c : Nat} {role : Fld}

theorem chanRight_unseen (hseen : s.chanSeen k c = false) : s.chanRight k c role = some .noSuchAddress := by simp [State.chanRight, hseen]

theorem chanRight_disabled (hseen : s.chanSeen k c = true) (hen : s.on (bEn c) = false) : s.chanRight k c role = some .notInMode := by
  simp [State.chanRight, hseen, hen]

theorem chanRight_other (hseen : s.chanSeen k c = true) (hen : s.on (bEn c) = true) (hrole : s.rd role ≠ k) :
    s.chanRight k c role = some .ownedElsewhere := by
  simp [State.chanRight, hseen, hen, hrole]

theorem chanRight_granted (hseen : s.chanSeen k c = true) (hen : s.on (bEn c) = true) (hrole : s.rd role = k) : s.chanRight k c role = none := by
  simp [State.chanRight, hseen, hen, hrole]

end

/-! ### Commands by their own rules -/

section
variable {i : Instr} {slot : Slot} {s : State} {op : State → Res} (hi : exec i s = hostFree slot s op) (hs : s.heard slot.val = true)
include hi hs

theorem Answers.of_free {c : Code} {w : Touch} {P : State → Prop} {u : State} (hop : op (s.marked slot.val) = (c, u))
    (hframe : Frame w (s.marked slot.val) u) (hw : ∀ g ∈ w.flds, g.belowHst) (ha : w.areas = []) (hP : P (State.finish slot (c, u))) :
    Answers i slot c s w P := by
  refine ⟨_, hi.trans (hostFree_heard slot s op hs), ?_⟩
  rw [hop]
  exact ⟨Served.of_marked slot c [] hframe hw ha, hP⟩

theorem Refused.of_free {c : Code} (hop : op (s.marked slot.val) = (c, s.marked slot.val)) : Refused i slot c s := by
  refine ⟨_, hi.trans (hostFree_heard slot s op hs), ?_⟩
  rw [hop]
  exact Served.of_marked slot c [] (Frame.refl _ _) (by simp) rfl

end

/-- A command that returns data words, served within its frame. -/
theorem After.of_data {i : Instr} {slot : Slot} {s : State} {op : State → Code × State × List Nat} (hi : exec i s = hostData slot s op)
    (hs : s.heard slot.val = true) {c : Code} {w : Touch} {d : List Nat} {P : State → Prop} {u : State}
    (hop : op (s.marked slot.val) = (c, u, d)) (hframe : Frame w (s.marked slot.val) u) (hw : ∀ g ∈ w.flds, g.belowHst) (ha : w.areas = [])
    (hP : P (State.finish slot (c, u) d)) : After i s fun t => Served slot c w s t d ∧ P t := by
  refine ⟨_, hi.trans (hostData_heard slot s op hs), ?_⟩
  rw [hop]
  exact ⟨Served.of_marked slot c d hframe hw ha, hP⟩

theorem After.of_data_refused {i : Instr} {slot : Slot} {s : State} {op : State → Code × State × List Nat} (hi : exec i s = hostData slot s op)
    (hs : s.heard slot.val = true) {c : Code} {d : List Nat} (hop : op (s.marked slot.val) = (c, s.marked slot.val, d)) :
    After i s (Served slot c {} s · d) := by
  obtain ⟨t, ht, hserved, -⟩ := After.of_data (P := fun _ => True) hi hs hop (Frame.refl {} _) (by simp) rfl trivial
  exact ⟨t, ht, hserved⟩

/-! ### Refusals -/

section
variable {slot : Slot} {c : Fin 64} {s : State} {e : Code} (hs : s.heard slot.val = true)
include hs

theorem pinchPost_refused (w : Word) (h : s.chanRight slot.val c (bSend c) = some e) : Refused (.pinchPost ⟨slot, none⟩ c w) slot e s :=
  Refused.of_free (op := opPinchPost slot c w.toNat) rfl hs
    (by rw [opPinchPost, s.chanRight_marked _ c (by simp [chanFlds, bindFlds]), h])

theorem sachetPost_refused (w x1 : Word) (h : s.chanRight slot.val c (bSend c) = some e) : Refused (.sachetPost ⟨slot, none⟩ c w x1) slot e s :=
  Refused.of_free (op := opSachetPost slot c w.toNat x1.toNat) rfl hs
    (by rw [opSachetPost, s.chanRight_marked _ c (by simp [chanFlds, bindFlds]), h])

theorem mbxAck_refused (code : BitVec 16) (h : s.chanRight slot.val c (bRecv c) = some e) : Refused (.mbxAck ⟨slot, none⟩ c code) slot e s :=
  Refused.of_free (op := opMbxAck slot c code.toNat) rfl hs
    (by rw [opMbxAck, s.chanRight_marked _ c (by simp [chanFlds, bindFlds]), h])

theorem take_refused (h : s.chanRight slot.val c (bRecv c) = some e) :
    ∀ i ∈ [Instr.pinchTake ⟨slot, none⟩ c, .sachetTake ⟨slot, none⟩ c], After i s (Served slot e {} s · [0, 0, 0]) := by
  intro i hi
  simp only [List.mem_cons, List.not_mem_nil, or_false] at hi
  have hop : opMbxTake slot c (s.marked slot.val) = (e, s.marked slot.val, [0, 0, 0]) := by
    rw [opMbxTake, s.chanRight_marked _ c (by simp [chanFlds, bindFlds]), h]
  rcases hi with rfl | rfl
  · exact After.of_data_refused (op := opMbxTake slot c) rfl hs hop
  · exact After.of_data_refused (op := opMbxTake slot c) rfl hs hop

end

theorem retract_refused {slot : Slot} {c : Fin 64} {s : State} {e : Code} (hs : s.ready slot.val = true)
    (h : s.chanRight slot.val c (bSend c) = some e) : Refused (.retract slot c) slot e s :=
  Refused.of_host (op := opRetract slot c) rfl hs (by rw [opRetract, s.chanRight_marked _ c (by simp [chanFlds, bindFlds]), h])

/-! ### Posts (R532 to R536) -/

/-- A channel with a post on it, before its notes. -/
def State.posted (s : State) (slot c st w0 w1 : Nat) : State :=
  let s := { s with mbx := { held := Assoc.erase c s.mbx.held, w0 := Assoc.put 0 c w0 s.mbx.w0, w1 := Assoc.put 0 c w1 s.mbx.w1 } }
  (((s.wr (bId c) (s.stampOf slot)).wr (bPseq c) (s.rd (bPseq c) + 1)).wr (bState c) st).wr (bMail c) 1

def postTouch (c : Nat) : Touch := { flds := [bId c, bPseq c, bState c, bMail c], blks := [.mbx, .can] }

theorem Frame.posted (s : State) (slot c st w0 w1 : Nat) : Frame (postTouch c) s (s.posted slot c st w0 w1).canNotes :=
  ((((((Frame.refl _ s).mbx _ (by simp [postTouch])).wr _ _ (by simp [postTouch])).wr _ _ (by simp [postTouch])).wr _ _
    (by simp [postTouch])).wr _ _ (by simp [postTouch])).canNotes (by simp [postTouch])

theorem State.rd_posted (s : State) (slot c st w0 w1 : Nat) : (s.posted slot c st w0 w1).rd (bState c) = st % 2 ^ 3 ∧
    (s.posted slot c st w0 w1).rd (bMail c) = 1 ∧ (s.posted slot c st w0 w1).rd (bPseq c) = (s.rd (bPseq c) + 1) % 256 ∧
    (s.posted slot c st w0 w1).rd (bId c) = s.stampOf slot % 256 := by
  have hkeys := chanKeys_ne c
  simp only [State.posted]
  refine ⟨?_, ?_, ?_, ?_⟩
  · rw [State.rd_wr_ne _ hkeys.1.1, State.rd_wr_same]; rfl
  · rw [State.rd_wr_same]; rfl
  · rw [State.rd_wr_ne _ hkeys.2.1.1, State.rd_wr_ne _ hkeys.2.1.2, State.rd_wr_same]; rfl
  · rw [State.rd_wr_ne _ hkeys.2.2.1.2.2, State.rd_wr_ne _ hkeys.2.2.1.2.1, State.rd_wr_ne _ hkeys.2.2.1.1, State.rd_wr_same]; rfl

/-- Whether a post wakes hangs on the channel's WAKE and receiver, the groups of the slots and the groups that are up. -/
theorem State.postWakes_congr {s t : State} {c : Nat} (hwake : t.rd (bWake c) = s.rd (bWake c)) (hrecv : t.rd (bRecv c) = s.rd (bRecv c))
    (hup : t.rd qGrpUp = s.rd qGrpUp) (hen : ∀ k, t.rd (hGrpEn k) = s.rd (hGrpEn k)) (hgroup : ∀ k, t.rd (hGroup k) = s.rd (hGroup k)) :
    t.postWakes c = s.postWakes c := by
  simp only [State.postWakes, State.on, State.bit, hwake, hrecv, hup, hen, hgroup]

theorem State.postWakes_posted (s : State) (slot : Nat) (c : Fin 64) (st w0 w1 : Nat) :
    (s.posted slot c st w0 w1).postWakes c = s.postWakes c := by
  have hc := c.isLt
  have hkept : ∀ f : Fld, (∀ g ∈ [bId c, bPseq c, bState c, bMail c], g.key ≠ f.key) → (s.posted slot c st w0 w1).rd f = s.rd f := by
    intro f hf
    simp only [List.mem_cons, List.not_mem_nil, or_false, forall_eq_or_imp, forall_eq] at hf
    obtain ⟨hid, hpseq, hstate, hmail⟩ := hf
    simp only [State.posted]
    rw [State.rd_wr_ne _ hmail, State.rd_wr_ne _ hstate, State.rd_wr_ne _ hpseq, State.rd_wr_ne _ hid]
    rfl
  refine State.postWakes_congr (hkept _ ?_) (hkept _ ?_) (hkept _ ?_) (fun k => hkept _ ?_) (fun k => hkept _ ?_) <;>
    simp only [List.mem_cons, List.not_mem_nil, or_false, forall_eq_or_imp, forall_eq, Fld.key, bWake, bRecv, bId, bPseq, bState, bMail, qGrpUp,
      hGrpEn, hGroup, F.ro, F.rws, bBase, hBase] <;>
    omega

theorem State.postWakes_marked (s : State) (k : Nat) (c : Fin 64) : (s.marked k).postWakes c = s.postWakes c := by
  refine State.postWakes_congr (s.rd_chan_marked k c (by simp [chanFlds, bindFlds])) (s.rd_chan_marked k c (by simp [chanFlds, bindFlds]))
    (s.rd_marked_below k (by unfold Fld.belowHst; decide)) (fun j => s.rd_marked k _ ?_ ?_) (fun j => s.rd_marked k _ ?_ ?_) <;>
    simp only [Fld.key, hGrpEn, hGroup, hPresent, hWaking, F.ro, F.rws, hBase] <;>
    omega

theorem State.post_unwoken {s : State} {c : Fin 64} (slot st w0 w1 : Nat) (h : s.postWakes c = false) :
    s.post slot c st w0 w1 = (.done, (s.posted slot c st w0 w1).canNotes) := by
  have hp : (s.posted slot c st w0 w1).postWakes c = false := by rw [s.postWakes_posted, h]
  exact if_neg (by rw [Bool.not_eq_true]; exact hp)

/-- The receiver may be posted to: it is a host, or the Steward is up (R534). -/
def State.recvReady (s : State) (c : Nat) : Prop := s.rd (bRecv c) ≠ 16 ∨ s.on glbStewardReady = true

theorem State.recvReady_marked {s : State} {c : Fin 64} (k : Nat) (h : s.recvReady c) : (s.marked k).recvReady c := by
  unfold State.recvReady
  rw [s.rd_chan_marked k c (by simp [chanFlds, bindFlds]), s.on_marked_below k (by unfold Fld.belowHst; decide)]
  exact h

theorem postBlocked_empty {s : State} {c : Nat} (hrecv : s.recvReady c) (hst : s.rd (bState c) = 0) : s.postBlocked c = none := by
  unfold State.postBlocked
  rw [if_neg (by rcases hrecv with h | h <;> simp [h]), if_neg (by simp [hst])]

theorem postBlocked_full {s : State} {c : Nat} (hrecv : s.recvReady c) (hst : s.rd (bState c) ≠ 0) :
    s.postBlocked c = some (.full, s.bump (bRefused c)) := by
  unfold State.postBlocked
  rw [if_neg (by rcases hrecv with h | h <;> simp [h]), if_pos hst]

theorem opPinchPost_unblocked {slot : Slot} {c w : Nat} {s : State} (hr : s.chanRight slot.val c (bSend c) = none) (hf : s.on (bForm c) = false) :
    opPinchPost slot c w s = (s.postBlocked c).getD (s.post slot.val c 1 w 0) := by
  simp only [opPinchPost, hr, hf]
  cases s.postBlocked c <;> rfl

theorem State.rangeRead_marked (s : State) (k j ofs len : Nat) : (s.marked k).rangeRead j ofs len = s.rangeRead j ofs len := by
  have hsecure : (s.marked k).secure j = s.secure j := by
    unfold State.secure State.on
    rw [s.rd_marked k (hSecure j) (by simp only [Fld.key, hSecure, hPresent, F.ro, F.rws, hBase]; omega)
      (by simp only [Fld.key, hSecure, hWaking, F.ro, F.rws, hBase]; omega)]
  simp only [State.rangeRead, hsecure]
  rw [Bool.eq_iff_iff, List.all_eq_true, List.all_eq_true]
  refine forall₂_congr fun r hr => ?_
  have hr := List.mem_range.1 hr
  rw [s.rd_marked_below k (f := sbufRd r) (by simp only [Fld.belowHst, Fld.key, sbufRd, F.rws]; omega),
    s.on_marked_below k (f := sbufSecure r) (by simp only [Fld.belowHst, Fld.key, sbufSecure, F.rws]; omega)]

/-- A pair that a Sachet can carry to its receiver (R536). -/
def State.pairOk (s : State) (c w0 w1 : Nat) : Prop :=
  w0 % 2 ^ 20 + w1 % 2 ^ 20 ≤ 2 ^ 20 ∧ w0 % 4 = 0 ∧ w1 % 2 ^ 20 ≠ 0 ∧ s.rangeRead (s.rd (bRecv c)) (w0 % 2 ^ 20) (w1 % 2 ^ 20) = true

theorem State.pairOk_marked {s : State} {c : Fin 64} {w0 w1 : Nat} (k : Nat) (h : s.pairOk c w0 w1) : (s.marked k).pairOk c w0 w1 := by
  unfold State.pairOk
  rw [s.rd_chan_marked k c (by simp [chanFlds, bindFlds]), s.rangeRead_marked]
  exact h

theorem opSachetPost_unblocked {slot : Slot} {c w0 w1 : Nat} {s : State} (hr : s.chanRight slot.val c (bSend c) = none)
    (hf : s.on (bForm c) = true) (hpair : s.pairOk c w0 w1) :
    opSachetPost slot c w0 w1 s = (s.postBlocked c).getD (s.post slot.val c 2 (w0 % 2 ^ 20) w1) := by
  obtain ⟨hfit, halign, hlen, hread⟩ := hpair
  simp only [opSachetPost, hr, hf, hread]
  rw [if_neg (by simp), if_neg (by omega), if_neg (by simp)]
  cases s.postBlocked c <;> rfl

section
variable {i : Instr} {slot : Slot} {c : Fin 64} {s : State} {op : State → Res} (hi : exec i s = hostFree slot s op)
  (hs : s.heard slot.val = true)
include hi hs

theorem Answers.posted {st w0 w1 : Nat} (hop : op (s.marked slot.val) = (s.marked slot.val).post slot.val c st w0 w1)
    (hwakes : s.postWakes c = false) : Answers i slot .done s (postTouch c) fun t =>
      t.rd (bState c) = st % 2 ^ 3 ∧ t.rd (bMail c) = 1 ∧ t.rd (bPseq c) = (s.rd (bPseq c) + 1) % 256 ∧
      t.rd (bId c) = s.stampOf slot.val % 256 ∧ t.rx0 c = w0 ∧ Assoc.get 0 c t.mbx.w1 = w1 := by
  have hbelow := chanFlds_belowHst c
  obtain ⟨hstate, hmail, hpseq, hid⟩ := (s.marked slot.val).rd_posted slot.val c st w0 w1
  have hrd := fun f => ((s.marked slot.val).posted slot.val c st w0 w1).canNotes_only.rd f
  have hmbx := ((s.marked slot.val).posted slot.val c st w0 w1).canNotes_only.mbx
  refine Answers.of_free hi hs (hop.trans (State.post_unwoken _ _ _ _ (by rw [s.postWakes_marked, hwakes]))) (Frame.posted _ _ _ _ _ _)
    (fun g hg => hbelow g ?_) rfl ⟨?_, ?_, ?_, ?_, ?_, ?_⟩
  · simp only [postTouch, List.mem_cons, List.not_mem_nil, or_false] at hg
    rcases hg with rfl | rfl | rfl | rfl <;> simp [chanFlds]
  · rw [State.rd_finish_below _ _ _ _ (hbelow _ (by simp [chanFlds])), hrd, hstate]
  · rw [State.rd_finish_below _ _ _ _ (hbelow _ (by simp [chanFlds])), hrd, hmail]
  · rw [State.rd_finish_below _ _ _ _ (hbelow _ (by simp [chanFlds])), hrd, hpseq, s.rd_chan_marked _ c (by simp [chanFlds])]
  · rw [State.rd_finish_below _ _ _ _ (hbelow _ (by simp [chanFlds])), hrd, hid, State.stampOf, State.stampOf, State.postClass, State.postClass,
      s.secure_marked, s.rd_marked slot.val (hClass slot.val) (by simp only [Fld.key, hClass, hPresent, F.ro, F.rws, hBase]; omega)
        (by simp only [Fld.key, hClass, hWaking, F.ro, F.rws, hBase]; omega)]
  · rw [State.rx0, State.finish_mbx, hmbx]; exact Assoc.get_put_same _ _ _ _
  · rw [State.finish_mbx, hmbx]; exact Assoc.get_put_same _ _ _ _

/-- A post on a channel that is not EMPTY is counted (R534). -/
theorem Answers.refusedFull (hop : op (s.marked slot.val) = (.full, (s.marked slot.val).bump (bRefused c))) :
    Answers i slot .full s { flds := [bRefused c] } fun t => t.rd (bRefused c) = min (s.rd (bRefused c) + 1) 65535 := by
  have hbelow : (bRefused c).belowHst := chanFlds_belowHst c _ (by simp [chanFlds])
  refine Answers.of_free hi hs hop ((Frame.refl _ _).wr _ _ (by simp)) (by simpa using hbelow) rfl ?_
  rw [State.rd_finish_below _ _ _ _ hbelow, State.bump, State.rd_wr_same, s.rd_chan_marked _ c (by simp [chanFlds]),
    show 2 ^ (bRefused c).width = 65536 from rfl]
  omega

end

/-! ### Takes (R535, R537) -/

/-- The channel with its count of refused posts read and cleared (R543). -/
def State.rxidRead (s : State) (c : Nat) : State := s.wr (bRefused c) 0

theorem Frame.rxidRead (s : State) (c : Nat) : Frame { flds := [bRefused c] } s (s.rxidRead c) := (Frame.refl _ s).wr _ _ (by simp)

theorem State.rd_state_rxidRead (s : State) (c : Nat) : (s.rxidRead c).rd (bState c) = s.rd (bState c) :=
  State.rd_wr_ne _ (chanKeys_ne c).1.2.2.2 _

theorem State.chanRight_rxidRead (s : State) (k : Nat) (c : Fin 64) :
    (s.rxidRead c).chanRight k c (bRecv c) = s.chanRight k c (bRecv c) := by
  have hc := c.isLt
  have hsecure : (s.rxidRead c).secure k = s.secure k := by
    unfold State.secure State.on State.rxidRead
    rw [State.rd_wr_ne _ (by simp only [Fld.key, hSecure, bRefused, F.rc, F.rws, bBase, hBase]; omega)]
  unfold State.chanRight State.chanSeen State.on
  rw [hsecure, show (s.rxidRead c).rd (bEn c) = s.rd (bEn c) from State.rd_wr_ne _ (by simp [Fld.key, bRefused, bEn, F.rc, F.rws]; omega) _,
    show (s.rxidRead c).rd (bRecv c) = s.rd (bRecv c) from State.rd_wr_ne _ (by simp [Fld.key, bRefused, bRecv, F.rc, F.rws]; omega) _]

theorem opMbxTake_granted {slot : Slot} {c : Fin 64} {s : State} (hr : s.chanRight slot.val c (bRecv c) = none) :
    opMbxTake slot c s = if s.rd (bState c) = 1 ∨ s.rd (bState c) = 2 then (.done, (s.rxidRead c).taken c, [s.rxid c, s.rx1 c, s.rx0 c])
      else (.empty, s.rxidRead c, [s.rxid c, s.rx1 c, 0]) := by
  have hr' : (s.wr (bRefused c) 0).chanRight slot.val c (bRecv c) = none := (s.chanRight_rxidRead slot.val c).trans hr
  have hst : (s.wr (bRefused c) 0).rd (bState c) = s.rd (bState c) := s.rd_state_rxidRead c
  simp only [opMbxTake, opRx0Read, hr, hr', hst]
  split <;> rfl

/-- The channel after a take, before its notes. -/
def State.takenPinch (s : State) (c : Nat) : State := ((s.wr (bState c) 0).wr (bMail c) 0).wr (bSpace c) 1
def State.takenSachet (s : State) (c : Nat) : State := (s.wr (bState c) 3).wr (bMail c) 0

section
variable {slot : Slot} {c : Fin 64} {s : State} (hs : s.heard slot.val = true) (hr : s.chanRight slot.val c (bRecv c) = none)
include hs hr

omit hs in
theorem opMbxTake_marked : opMbxTake slot c (s.marked slot.val) = if s.rd (bState c) = 1 ∨ s.rd (bState c) = 2 then
      (.done, ((s.marked slot.val).rxidRead c).taken c, [s.rxid c, s.rx1 c, s.rx0 c])
      else (.empty, (s.marked slot.val).rxidRead c, [s.rxid c, s.rx1 c, 0]) := by
  have hrd := fun f hf => s.rd_chan_marked slot.val c (f := f) hf
  rw [opMbxTake_granted (by rw [s.chanRight_marked _ c (by simp [chanFlds, bindFlds]), hr])]
  simp only [State.rxid, State.rx1, State.rx0, State.marked_mbx]
  rw [hrd (bState c) (by simp [chanFlds]), hrd (bRefused c) (by simp [chanFlds]), hrd (bPseq c) (by simp [chanFlds]),
    hrd (bId c) (by simp [chanFlds])]

theorem pinchTake_done (hst : s.rd (bState c) = 1) : After (.pinchTake ⟨slot, none⟩ c) s fun t =>
    Served slot .done { flds := [bRefused c, bState c, bMail c, bSpace c], blks := [.can] } s t [s.rxid c, 0, s.rx0 c] ∧
    t.rd (bState c) = 0 ∧ t.rd (bMail c) = 0 ∧ t.rd (bSpace c) = 1 := by
  have hbelow := chanFlds_belowHst c
  have hkeys := chanKeys_ne c
  have hst' : ((s.marked slot.val).rxidRead c).rd (bState c) = 1 := by
    rw [State.rd_state_rxidRead, s.rd_chan_marked _ c (by simp [chanFlds]), hst]
  have htaken : ((s.marked slot.val).rxidRead c).taken c = (((s.marked slot.val).rxidRead c).takenPinch c).canNotes := if_pos hst'
  have hrx1 : s.rx1 c = 0 := by simp [State.rx1, hst]
  have hop := opMbxTake_marked hr
  rw [if_pos (.inl hst), htaken, hrx1] at hop
  have hrd := fun f => (((s.marked slot.val).rxidRead c).takenPinch c).canNotes_only.rd f
  refine After.of_data (op := opMbxTake slot c) rfl hs hop
    ((((((Frame.refl _ _).wr _ _ (by simp)).wr _ _ (by simp)).wr _ _ (by simp)).wr _ _ (by simp)).canNotes (by simp))
    (fun g hg => hbelow g ?_) rfl ⟨?_, ?_, ?_⟩
  · simp only [List.mem_cons, List.not_mem_nil, or_false] at hg
    rcases hg with rfl | rfl | rfl | rfl <;> simp [chanFlds]
  · rw [State.rd_finish_below _ _ _ _ (hbelow _ (by simp [chanFlds])), hrd, State.takenPinch, State.rd_wr_ne _ hkeys.1.2.1,
      State.rd_wr_ne _ hkeys.1.1, State.rd_wr_same, Nat.zero_mod]
  · rw [State.rd_finish_below _ _ _ _ (hbelow _ (by simp [chanFlds])), hrd, State.takenPinch, State.rd_wr_ne _ hkeys.2.2.2.2.1,
      State.rd_wr_same, Nat.zero_mod]
  · rw [State.rd_finish_below _ _ _ _ (hbelow _ (by simp [chanFlds])), hrd, State.takenPinch, State.rd_wr_same]
    rfl

theorem sachetTake_done (hst : s.rd (bState c) = 2) : After (.sachetTake ⟨slot, none⟩ c) s fun t =>
    Served slot .done { flds := [bRefused c, bState c, bMail c], blks := [.can] } s t [s.rxid c, s.rx1 c, s.rx0 c] ∧
    t.rd (bState c) = 3 ∧ t.rd (bMail c) = 0 := by
  have hbelow := chanFlds_belowHst c
  have hkeys := chanKeys_ne c
  have hst' : ((s.marked slot.val).rxidRead c).rd (bState c) = 2 := by
    rw [State.rd_state_rxidRead, s.rd_chan_marked _ c (by simp [chanFlds]), hst]
  have htaken : ((s.marked slot.val).rxidRead c).taken c = (((s.marked slot.val).rxidRead c).takenSachet c).canNotes :=
    if_neg (by rw [hst']; decide)
  have hop := opMbxTake_marked hr
  rw [if_pos (.inr hst), htaken] at hop
  have hrd := fun f => (((s.marked slot.val).rxidRead c).takenSachet c).canNotes_only.rd f
  refine After.of_data (op := opMbxTake slot c) rfl hs hop
    (((((Frame.refl _ _).wr _ _ (by simp)).wr _ _ (by simp)).wr _ _ (by simp)).canNotes (by simp)) (fun g hg => hbelow g ?_) rfl ⟨?_, ?_⟩
  · simp only [List.mem_cons, List.not_mem_nil, or_false] at hg
    rcases hg with rfl | rfl | rfl <;> simp [chanFlds]
  · rw [State.rd_finish_below _ _ _ _ (hbelow _ (by simp [chanFlds])), hrd, State.takenSachet, State.rd_wr_ne _ hkeys.1.1, State.rd_wr_same]
    rfl
  · rw [State.rd_finish_below _ _ _ _ (hbelow _ (by simp [chanFlds])), hrd, State.takenSachet, State.rd_wr_same, Nat.zero_mod]

theorem pinchTake_empty (h1 : s.rd (bState c) ≠ 1) (h2 : s.rd (bState c) ≠ 2) : After (.pinchTake ⟨slot, none⟩ c) s
    (Served slot .empty { flds := [bRefused c] } s · [s.rxid c, s.rx1 c, 0]) := by
  have hop := opMbxTake_marked hr
  rw [if_neg (by simp [h1, h2])] at hop
  obtain ⟨t, ht, hserved, -⟩ := After.of_data (P := fun _ => True) (op := opMbxTake slot c) (i := .pinchTake ⟨slot, none⟩ c) rfl hs hop
    (Frame.rxidRead _ _) (by simpa using chanFlds_belowHst c _ (by simp [chanFlds])) rfl trivial
  exact ⟨t, ht, hserved⟩

/-! ### Acknowledgements (R538) -/

omit hs in
theorem opMbxAck_marked (code : Nat) : opMbxAck slot c code (s.marked slot.val) = if isCode code = false then (.reservedEncoding, s.marked slot.val)
    else if s.rd (bState c) ≠ 3 then (.notInMode, s.marked slot.val)
    else (.done, ((((s.marked slot.val).wr (bRet c) code).wr (bState c) 4).wr (bAcked c) 1).canNotes) := by
  rw [opMbxAck, s.chanRight_marked _ c (by simp [chanFlds, bindFlds]), hr, s.rd_chan_marked _ c (by simp [chanFlds])]
  cases isCode code <;> rfl

theorem mbxAck_done (code : BitVec 16) (hcode : isCode code.toNat = true) (hst : s.rd (bState c) = 3) :
    Answers (.mbxAck ⟨slot, none⟩ c code) slot .done s { flds := [bRet c, bState c, bAcked c], blks := [.can] } fun t =>
      t.rd (bRet c) = code.toNat ∧ t.rd (bState c) = 4 ∧ t.rd (bAcked c) = 1 := by
  have hbelow := chanFlds_belowHst c
  obtain ⟨-, -, -, -, -, ⟨hsr, har⟩, hsa, -⟩ := chanKeys_ne c
  have hop := opMbxAck_marked hr code.toNat
  rw [if_neg (by simp [hcode]), if_neg (by simp [hst])] at hop
  have hrd := fun f => ((((s.marked slot.val).wr (bRet c) code.toNat).wr (bState c) 4).wr (bAcked c) 1).canNotes_only.rd f
  refine Answers.of_free (op := opMbxAck slot c code.toNat) rfl hs hop
    (((((Frame.refl _ _).wr _ _ (by simp)).wr _ _ (by simp)).wr _ _ (by simp)).canNotes (by simp)) (fun g hg => hbelow g ?_) rfl ⟨?_, ?_, ?_⟩
  · simp only [List.mem_cons, List.not_mem_nil, or_false] at hg
    rcases hg with rfl | rfl | rfl <;> simp [chanFlds]
  · rw [State.rd_finish_below _ _ _ _ (hbelow _ (by simp [chanFlds])), hrd, State.rd_wr_ne _ har, State.rd_wr_ne _ hsr, State.rd_wr_same]
    exact Nat.mod_eq_of_lt code.isLt
  · rw [State.rd_finish_below _ _ _ _ (hbelow _ (by simp [chanFlds])), hrd, State.rd_wr_ne _ hsa.symm, State.rd_wr_same]
    rfl
  · rw [State.rd_finish_below _ _ _ _ (hbelow _ (by simp [chanFlds])), hrd, State.rd_wr_same]
    rfl

theorem mbxAck_notInMode (code : BitVec 16) (hcode : isCode code.toNat = true) (hst : s.rd (bState c) ≠ 3) :
    Refused (.mbxAck ⟨slot, none⟩ c code) slot .notInMode s :=
  Refused.of_free (op := opMbxAck slot c code.toNat) rfl hs (by rw [opMbxAck_marked hr, if_neg (by simp [hcode]), if_pos hst])

theorem mbxAck_reserved (code : BitVec 16) (hcode : isCode code.toNat = false) :
    Refused (.mbxAck ⟨slot, none⟩ c code) slot .reservedEncoding s :=
  Refused.of_free (op := opMbxAck slot c code.toNat) rfl hs (by rw [opMbxAck_marked hr, if_pos hcode])

end

/-! ### Retractions, and the clear of ACKED (R539, R542) -/

section
variable {slot : Slot} {c : Fin 64} {s : State} (hr : s.chanRight slot.val c (bSend c) = none)
include hr

theorem opRetract_marked : opRetract slot c (s.marked slot.val) = if s.rd (bState c) = 1 ∨ s.rd (bState c) = 2 then
    (.done, (((s.marked slot.val).wr (bState c) 0).wr (bMail c) 0).canNotes) else (.alreadyDone, s.marked slot.val) := by
  rw [opRetract, s.chanRight_marked _ c (by simp [chanFlds, bindFlds]), hr, s.rd_chan_marked _ c (by simp [chanFlds])]

theorem retract_done (hs : s.ready slot.val = true) (hst : s.rd (bState c) = 1 ∨ s.rd (bState c) = 2) :
    Answers (.retract slot c) slot .done s { flds := [bState c, bMail c], blks := [.can] } fun t => t.rd (bState c) = 0 ∧ t.rd (bMail c) = 0 := by
  have hbelow := chanFlds_belowHst c
  have hop := opRetract_marked hr
  rw [if_pos hst] at hop
  have hrd := fun f => (((s.marked slot.val).wr (bState c) 0).wr (bMail c) 0).canNotes_only.rd f
  refine Answers.of_host (op := opRetract slot c) rfl hs _ hop ((((Frame.refl _ _).wr _ _ (by simp)).wr _ _ (by simp)).canNotes (by simp))
    (fun g hg => hbelow g ?_) rfl ⟨?_, ?_⟩
  · simp only [List.mem_cons, List.not_mem_nil, or_false] at hg
    rcases hg with rfl | rfl <;> simp [chanFlds]
  · rw [State.rd_finish_below _ _ _ _ (hbelow _ (by simp [chanFlds])), hrd, State.rd_wr_ne _ (chanKeys_ne c).1.1, State.rd_wr_same, Nat.zero_mod]
  · rw [State.rd_finish_below _ _ _ _ (hbelow _ (by simp [chanFlds])), hrd, State.rd_wr_same, Nat.zero_mod]

theorem retract_alreadyDone (hs : s.ready slot.val = true) (h1 : s.rd (bState c) ≠ 1) (h2 : s.rd (bState c) ≠ 2) :
    Refused (.retract slot c) slot .alreadyDone s :=
  Refused.of_host (op := opRetract slot c) rfl hs (by rw [opRetract_marked hr, if_neg (by simp [h1, h2])])

theorem ackedClear_done (hs : s.readyReg slot.val = true) (hacked : s.on (bAcked c) = true) :
    Answers (.ackedClear slot c) slot .done s { flds := [bState c, bAcked c], blks := [.can] } fun t =>
      t.rd (bState c) = 0 ∧ t.rd (bAcked c) = 0 := by
  have hbelow := chanFlds_belowHst c
  have hop : opMbxStatWrite slot c (2 ^ 6) (s.marked slot.val) = (.done, (((s.marked slot.val).wr (bAcked c) 0).wr (bState c) 0).canNotes) := by
    rw [opMbxStatWrite, s.chanRight_marked _ c (by simp [chanFlds, bindFlds]), hr]
    simp only [show (2 ^ 6).testBit 7 = false from rfl, show (2 ^ 6).testBit 6 = true from rfl, if_neg Bool.false_ne_true, Bool.true_and]
    rw [s.on_chan_marked _ c (by simp [chanFlds]), if_pos hacked]
  have hrd := fun f => (((s.marked slot.val).wr (bAcked c) 0).wr (bState c) 0).canNotes_only.rd f
  refine ⟨_, (hostReg_ready slot s _ _ hs).trans (by rw [hop]), Served.of_marked slot .done []
    ((((Frame.refl _ _).wr _ _ (by simp)).wr _ _ (by simp)).canNotes (by simp)) (fun g hg => hbelow g ?_) rfl, ?_, ?_⟩
  · simp only [List.mem_cons, List.not_mem_nil, or_false] at hg
    rcases hg with rfl | rfl <;> simp [chanFlds]
  · rw [State.rd_finish_below _ _ _ _ (hbelow _ (by simp [chanFlds])), hrd, State.rd_wr_same, Nat.zero_mod]
  · rw [State.rd_finish_below _ _ _ _ (hbelow _ (by simp [chanFlds])), hrd, State.rd_wr_ne _ (chanKeys_ne c).2.2.2.2.2.2.1, State.rd_wr_same,
      Nat.zero_mod]

end

/-! ### Bindings (R527 to R529) -/

theorem bindFlds_inRange (c v : Nat) : ∀ f ∈ bindFlds c, f.isOutOfRange (f.ofWord v) = false := by
  intro f hf
  simp only [bindFlds, List.mem_cons, List.not_mem_nil, or_false] at hf
  rcases hf with rfl | rfl | rfl | rfl | rfl | rfl | rfl | rfl <;> rfl

/-- A word that a secure slot may write into fields whose values are all legal. -/
theorem wordRefused_legal {s : State} {k v : Nat} {l : List Fld} (hsec : s.secure k = true) (hres : ∀ f ∈ l, f.isReserved (f.ofWord v) = false)
    (hrng : ∀ f ∈ l, f.isOutOfRange (f.ofWord v) = false) : s.wordRefused k v l = none := by
  have hany : ∀ p : Fld → Bool, (∀ f ∈ l, p f = false) → (l.filter fun f => f.ty == .rw || f.ty == .rws).any p = false := by
    intro p hp
    rw [List.any_eq_false]
    intro f hf
    simp [hp f (List.mem_filter.1 hf).1]
  simp only [State.wordRefused, hsec, hany _ hres, hany _ hrng]
  rfl

theorem bState_ne_bEn (c : Nat) : (bState c).key ≠ (bEn c).key := (chanKeys_ne c).2.2.2.2.2.2.2.1.1

section
variable {slot : Slot} {c : Fin 64} {s : State} {v : Word} (hs : s.ready slot.val = true)
include hs

theorem mbxBindWrite_unseen (hseen : s.chanSeen slot.val c = false) : Refused (.mbxBindWrite slot c v) slot .noSuchAddress s :=
  Refused.of_host (op := opMbxBindWrite slot c v.toNat) rfl hs (by rw [opMbxBindWrite, s.chanSeen_marked, hseen]; rfl)

variable (hseen : s.chanSeen slot.val c = true) (hen : s.on (bEn c) = true) (hsec : s.secure slot.val = true)
  (hres : ∀ f ∈ bindFlds c, f.isReserved (f.ofWord v.toNat) = false)
include hseen hen hsec hres

omit hs in
theorem opMbxBindWrite_marked : opMbxBindWrite slot c v.toNat (s.marked slot.val) =
    if !decide (v.toNat / 2 ^ 31 % 2 = 1) && (bindFlds c).tail.all (fun f => f.ofWord v.toNat == (s.marked slot.val).rd f) then
      (.done, ((s.marked slot.val).chanOff c).canNotes) else (.busy, s.marked slot.val) := by
  rw [opMbxBindWrite, s.chanSeen_marked, hseen, wordRefused_legal (by rw [s.secure_marked, hsec]) hres (bindFlds_inRange c _),
    s.on_chan_marked _ c (by simp [chanFlds, bindFlds]), hen]
  rfl

theorem mbxBindWrite_busy (hv : 2 ^ 31 ≤ v.toNat) : Refused (.mbxBindWrite slot c v) slot .busy s := by
  have hlt := v.isLt
  exact Refused.of_host (op := opMbxBindWrite slot c v.toNat) rfl hs
    (by rw [opMbxBindWrite_marked hseen hen hsec hres, if_neg (by simp; omega)])

theorem mbxBindWrite_disables (hv : v.toNat < 2 ^ 31) (hsame : ∀ f ∈ (bindFlds c).tail, f.ofWord v.toNat = s.rd f) :
    Answers (.mbxBindWrite slot c v) slot .done s { flds := [bEn c, bState c, bMail c, bSpace c, bAcked c], blks := [.mbx, .can] } fun t =>
      t.rd (bEn c) = 0 ∧ t.rd (bState c) = 0 := by
  have hbelow := chanFlds_belowHst c
  obtain ⟨⟨hms, hss, has, -⟩, -, -, -, -, -, -, ⟨hse, hme, hspe, hae⟩, -⟩ := chanKeys_ne c
  have hop := opMbxBindWrite_marked hseen hen hsec hres
  have hall : (bindFlds c).tail.all (fun f => f.ofWord v.toNat == (s.marked slot.val).rd f) = true := by
    rw [List.all_eq_true]
    intro f hf
    rw [s.rd_chan_marked _ c (List.mem_append_left _ (List.mem_of_mem_tail hf)), hsame f hf, beq_self_eq_true]
  rw [if_pos (by rw [hall, Nat.div_eq_of_lt hv]; rfl)] at hop
  have hrd := fun f => ((s.marked slot.val).chanOff c).canNotes_only.rd f
  refine Answers.of_host (op := opMbxBindWrite slot c v.toNat) rfl hs _ hop
    ((((((((Frame.refl _ _).mbx _ (by simp)).wr _ _ (by simp)).wr _ _ (by simp)).wr _ _ (by simp)).wr _ _ (by simp)).wr _ _
      (by simp)).canNotes (by simp)) (fun g hg => hbelow g ?_) rfl ⟨?_, ?_⟩
  · simp only [List.mem_cons, List.not_mem_nil, or_false] at hg
    rcases hg with rfl | rfl | rfl | rfl | rfl <;> simp [chanFlds, bindFlds]
  · rw [State.rd_finish_below _ _ _ _ (hbelow _ (by simp [chanFlds, bindFlds])), hrd, State.chanOff]
    rw [State.rd_wr_ne _ hae, State.rd_wr_ne _ hspe, State.rd_wr_ne _ hme, State.rd_wr_ne _ hse, State.rd_wr_same, Nat.zero_mod]
  · rw [State.rd_finish_below _ _ _ _ (hbelow _ (by simp [chanFlds])), hrd, State.chanOff]
    rw [State.rd_wr_ne _ has, State.rd_wr_ne _ hss, State.rd_wr_ne _ hms, State.rd_wr_same, Nat.zero_mod]

end

/-! ### The statement -/

section
variable {slot : Slot} {c : Fin 64} {s : State} (hs : s.heard slot.val = true) (hr : s.chanRight slot.val c (bSend c) = none)
include hs hr

omit hs in
theorem opPinchPost_marked (w : Nat) (hform : s.on (bForm c) = false) : opPinchPost slot c w (s.marked slot.val) =
    ((s.marked slot.val).postBlocked c).getD ((s.marked slot.val).post slot.val c 1 w 0) :=
  opPinchPost_unblocked (by rw [s.chanRight_marked _ c (by simp [chanFlds, bindFlds]), hr])
    (by rw [s.on_chan_marked _ c (by simp [chanFlds, bindFlds]), hform])

omit hs in
theorem opSachetPost_marked (w0 w1 : Nat) (hform : s.on (bForm c) = true) (hpair : s.pairOk c w0 w1) :
    opSachetPost slot c w0 w1 (s.marked slot.val) =
      ((s.marked slot.val).postBlocked c).getD ((s.marked slot.val).post slot.val c 2 (w0 % 2 ^ 20) w1) :=
  opSachetPost_unblocked (by rw [s.chanRight_marked _ c (by simp [chanFlds, bindFlds]), hr])
    (by rw [s.on_chan_marked _ c (by simp [chanFlds, bindFlds]), hform]) (State.pairOk_marked _ hpair)

variable (hrecv : s.recvReady c)
include hrecv

omit hs hr in
theorem postBlocked_marked : (s.marked slot.val).postBlocked c =
    if s.rd (bState c) = 0 then none else some (.full, (s.marked slot.val).bump (bRefused c)) := by
  have hst := s.rd_chan_marked slot.val c (f := bState c) (by simp [chanFlds])
  split
  · next h => exact postBlocked_empty (State.recvReady_marked _ hrecv) (hst.trans h)
  · next h => exact postBlocked_full (State.recvReady_marked _ hrecv) (by rwa [hst])

theorem pinchPost_full (w : Word) (hform : s.on (bForm c) = false) (hst : s.rd (bState c) ≠ 0) :
    Answers (.pinchPost ⟨slot, none⟩ c w) slot .full s { flds := [bRefused c] } fun t =>
      t.rd (bRefused c) = min (s.rd (bRefused c) + 1) 65535 :=
  Answers.refusedFull (op := opPinchPost slot c w.toNat) rfl hs
    (by rw [opPinchPost_marked hr _ hform, postBlocked_marked hrecv, if_neg hst]; rfl)

theorem sachetPost_full (w x1 : Word) (hform : s.on (bForm c) = true) (hpair : s.pairOk c w.toNat x1.toNat) (hst : s.rd (bState c) ≠ 0) :
    Answers (.sachetPost ⟨slot, none⟩ c w x1) slot .full s { flds := [bRefused c] } fun t =>
      t.rd (bRefused c) = min (s.rd (bRefused c) + 1) 65535 :=
  Answers.refusedFull (op := opSachetPost slot c w.toNat x1.toNat) rfl hs
    (by rw [opSachetPost_marked hr _ _ hform hpair, postBlocked_marked hrecv, if_neg hst]; rfl)

variable (hwakes : s.postWakes c = false) (hst : s.rd (bState c) = 0)
include hwakes hst

theorem pinchPost_done (w : Word) (hform : s.on (bForm c) = false) :
    Answers (.pinchPost ⟨slot, none⟩ c w) slot .done s (postTouch c) fun t =>
      t.rd (bState c) = 1 ∧ t.rd (bMail c) = 1 ∧ t.rd (bPseq c) = (s.rd (bPseq c) + 1) % 256 ∧ t.rx0 c = w.toNat ∧
      t.rd (bId c) = s.stampOf slot.val % 256 := by
  obtain ⟨t, ht, hserved, hstate, hmail, hpseq, hid, hrx0, -⟩ := Answers.posted (op := opPinchPost slot c w.toNat)
    (i := .pinchPost ⟨slot, none⟩ c w) rfl hs
    (by rw [opPinchPost_marked hr _ hform, postBlocked_marked hrecv, if_pos hst]; rfl) hwakes
  exact ⟨t, ht, hserved, hstate, hmail, hpseq, hrx0, hid⟩

theorem sachetPost_done (w x1 : Word) (hform : s.on (bForm c) = true) (hpair : s.pairOk c w.toNat x1.toNat) :
    Answers (.sachetPost ⟨slot, none⟩ c w x1) slot .done s (postTouch c) fun t =>
      t.rd (bState c) = 2 ∧ t.rd (bMail c) = 1 ∧ t.rx0 c = w.toNat % 2 ^ 20 ∧ t.rx1 c = x1.toNat := by
  obtain ⟨t, ht, hserved, hstate, hmail, -, -, hrx0, hw1⟩ := Answers.posted (op := opSachetPost slot c w.toNat x1.toNat)
    (i := .sachetPost ⟨slot, none⟩ c w x1) rfl hs
    (by rw [opSachetPost_marked hr _ _ hform hpair, postBlocked_marked hrecv, if_pos hst]; rfl) hwakes
  exact ⟨t, ht, hserved, hstate, hmail, hrx0, by rw [State.rx1, hstate]; exact hw1⟩

end

/-- Settles O38, a clause for each command: a right that is refused answers alone (`chanRight`), a granted one acts as its own lemma above says. -/
theorem mailboxesCarryOneMessage : Obligations.MailboxesCarryOneMessage := by
  unfold Obligations.MailboxesCarryOneMessage
  intro slot c w x1 v code s hs
  refine ⟨fun hseen hen => ⟨fun hsend hrecv hwakes => ?_, fun hready hsend => ?_, fun hrcv => ?_, fun hsend => ?_, fun hrcv => ?_,
    fun hready hsec hres => ?_⟩, fun hseen hen => ?_, fun hsec hc => ?_⟩
  · have hr := chanRight_granted hseen hen hsend
    exact ⟨fun hst => ⟨pinchPost_done hs hr hrecv hwakes hst w, fun hform hfit halign hlen hread =>
        sachetPost_done hs hr hrecv hwakes hst w x1 hform ⟨hfit, halign, hlen, hread⟩⟩,
      fun hst hform hfit halign hlen hread => sachetPost_full hs hr hrecv w x1 hform ⟨hfit, halign, hlen, hread⟩ hst,
      fun hst hform => pinchPost_full hs hr hrecv w hform hst⟩
  · have hr := chanRight_granted hseen hen hsend
    exact ⟨retract_done hr hready, retract_alreadyDone hr hready, ackedClear_done hr⟩
  · have hr := chanRight_granted hseen hen hrcv
    exact ⟨pinchTake_done hs hr, sachetTake_done hs hr, pinchTake_empty hs hr, mbxAck_done hs hr code, mbxAck_notInMode hs hr code,
      mbxAck_reserved hs hr code⟩
  · have hr := chanRight_other hseen hen hsend
    exact ⟨pinchPost_refused hs w hr, sachetPost_refused hs w x1 hr, fun hready => retract_refused hready hr⟩
  · have hr := chanRight_other hseen hen hrcv
    exact ⟨mbxAck_refused hs code hr, take_refused hs hr⟩
  · exact ⟨mbxBindWrite_disables hready hseen hen hsec hres, mbxBindWrite_busy hready hseen hen hsec hres⟩
  · exact ⟨pinchPost_refused hs w (chanRight_disabled hseen hen), sachetPost_refused hs w x1 (chanRight_disabled hseen hen),
      mbxAck_refused hs code (chanRight_disabled hseen hen), take_refused hs (chanRight_disabled hseen hen)⟩
  · have hseen : s.chanSeen slot.val c = false := by simp [State.chanSeen, hsec]; omega
    exact ⟨pinchPost_refused hs w (chanRight_unseen hseen), fun hready => mbxBindWrite_unseen hready hseen⟩

end Sys2Proof.Machine
end

section
/-! SUPPORT. Rings (R506 to R525): who may act on a ring, what a read, a write, an index and a flush leave, and the statement on them. -/

namespace Sys2Proof.Machine

open F

/-! ### The fields of a ring -/

theorem ringFlds_belowHst (r : Fin 48) : ∀ f ∈ ringFlds r, f.belowHst := by
  have hr := r.isLt
  intro f hf
  simp only [ringFlds, ringCfg, List.cons_append, List.nil_append, List.mem_cons, List.not_mem_nil, or_false] at hf
  unfold Fld.belowHst
  rcases hf with rfl | rfl | rfl | rfl | rfl | rfl | rfl | rfl | rfl | rfl | rfl | rfl | rfl | rfl | rfl | rfl | rfl <;>
    simp only [Fld.key, apply_ite Fld.addr, apply_ite Fld.lo, ite_self, rEn, rSecure, rPolicy, rSize, rVar, rIsz, rProd, rCons, rOfs, rThr, rEvtEn, rWidx, rRidx, rDropped, rDrop, rPartial, rPcount, F.rws, F.rw, F.rc, F.w1c, F.ro,
      rBase] <;>
    omega

theorem ringKeys_ne (r : Nat) : ((rRidx r).key ≠ (rWidx r).key ∧ (rDropped r).key ≠ (rWidx r).key ∧ (rDrop r).key ≠ (rWidx r).key) ∧
    ((rPartial r).key ≠ (rWidx r).key ∧ (rPcount r).key ≠ (rWidx r).key) ∧
    ((rPartial r).key ≠ (rRidx r).key ∧ (rPcount r).key ≠ (rRidx r).key) ∧
    (rPcount r).key ≠ (rPartial r).key ∧ ((rRidx r).key ≠ (rPartial r).key ∧ (rRidx r).key ≠ (rPcount r).key) ∧
    ((rWidx r).key ≠ (rPcount r).key ∧ (rDropped r).key ≠ (rPcount r).key ∧ (rDrop r).key ≠ (rPcount r).key) := by
  simp only [Fld.key, rWidx, rRidx, rDropped, rDrop, rPartial, rPcount, F.rw, F.rc, F.w1c, F.ro, ne_eq]
  omega

/-- Two states have the same ring r and the same Shared Buffer. -/
structure SameRing (r : Nat) (s t : State) : Prop where
  flds : ∀ f ∈ ringFlds r, t.rd f = s.rd f
  sbuf : t.sbuf = s.sbuf

theorem State.sameRing_marked (s : State) (k : Nat) (r : Fin 48) : SameRing r s (s.marked k) :=
  ⟨fun f hf => s.rd_marked_below k (ringFlds_belowHst r f hf), s.marked_sbuf k⟩

namespace SameRing

variable {r : Nat} {s t : State} (h : SameRing r s t)
include h

theorem on {f : Fld} (hf : f ∈ ringFlds r) : t.on f = s.on f := by
  unfold State.on
  rw [h.flds f hf]

theorem fill : t.fill r = s.fill r := by
  rw [State.fill, State.fill, h.flds _ (by simp [ringFlds, ringCfg]), h.flds _ (by simp [ringFlds, ringCfg])]

theorem ringSize : t.ringSize r = s.ringSize r := by
  rw [State.ringSize, State.ringSize, h.flds _ (by simp [ringFlds, ringCfg])]

theorem ringAt (i : Nat) : t.ringAt r i = s.ringAt r i :=
  State.ringAt_congr r (h.flds _ (by simp [ringFlds, ringCfg])) (h.flds _ (by simp [ringFlds, ringCfg])) i

theorem ringGet (i n : Nat) : t.ringGet r i n = s.ringGet r i n :=
  State.ringGet_congr r (h.flds _ (by simp [ringFlds, ringCfg])) (h.flds _ (by simp [ringFlds, ringCfg])) h.sbuf i n

theorem takes (n : Nat) : t.takes r n = s.takes r n := by
  rw [State.takes, State.takes, h.fill, h.ringSize, h.on (by simp [ringFlds, ringCfg]), h.flds _ (by simp [ringFlds, ringCfg])]

theorem itemBytes (n : Nat) : t.itemBytes r n = s.itemBytes r n := by
  simp only [State.itemBytes, h.ringAt, h.flds (rWidx r) (by simp [ringFlds, ringCfg])]

theorem ridxRefused (v : Nat) : t.ridxRefused r v = s.ridxRefused r v := by
  simp only [State.ridxRefused, State.wholeItems, h.fill, h.flds (rRidx r) (by simp [ringFlds, ringCfg]),
    h.on (f := rVar r) (by simp [ringFlds, ringCfg]), h.flds (rIsz r) (by simp [ringFlds, ringCfg])]
  rfl

theorem wholeItems (n : Nat) : t.wholeItems r n = s.wholeItems r n := by
  simp only [State.wholeItems, h.on (f := rVar r) (by simp [ringFlds, ringCfg]), h.flds (rIsz r) (by simp [ringFlds, ringCfg])]

end SameRing

/-! ### Who may act on a ring (R508, R510) -/

theorem State.ringRight_marked (s : State) (k : Nat) (r : Fin 48) {role : Fld} (hrole : role ∈ ringFlds r) :
    (s.marked k).ringRight k r role = s.ringRight k r role := by
  have h := s.sameRing_marked k r
  simp only [State.ringRight, s.secure_marked, h.flds role hrole, h.on (f := rSecure r) (by simp [ringFlds, ringCfg]),
    h.on (f := rEn r) (by simp [ringFlds, ringCfg])]

section
variable {s : State} {k r : Nat} {role : Fld} (h8 : 8 ≤ r) (hopen : s.on (rSecure r) = false)
include h8 hopen

omit h8 in
theorem ringRight_other (hrole : s.rd role ≠ k) (hany : s.rd role ≠ 0x1F) : s.ringRight k r role = some .ownedElsewhere := by
  simp [State.ringRight, hopen, hrole, hany]

theorem ringRight_disabled (hrole : s.rd role = k) (hen : s.on (rEn r) = false) : s.ringRight k r role = some .notInMode := by
  simp [State.ringRight, hopen, hrole, hen, show ¬ r < 8 by omega]

theorem ringRight_granted (hrole : s.rd role = k) (hen : s.on (rEn r) = true) : s.ringRight k r role = none := by
  simp [State.ringRight, hopen, hrole, hen, show ¬ r < 8 by omega]

end

/-! ### RING_READ (R523, R524) -/

/-- The whole items of a fixed ring that fit are as many as the bytes published and the words asked both hold. -/
theorem State.wholeBytes_fixed {s : State} {r : Nat} (hvar : s.on (rVar r) = false) (fuel i room left : Nat)
    (hroom : room / (4 * 2 ^ s.rd (rIsz r)) ≤ fuel) : s.wholeBytes r i room left fuel =
      min (room / (4 * 2 ^ s.rd (rIsz r))) (left / (4 * 2 ^ s.rd (rIsz r))) * (4 * 2 ^ s.rd (rIsz r)) := by
  have hsz : 4 ≤ 4 * 2 ^ s.rd (rIsz r) := Nat.le_mul_of_pos_right 4 (Nat.two_pow_pos _)
  have hitem : ∀ i, s.itemSize r i = 4 * 2 ^ s.rd (rIsz r) := fun i => by simp [State.itemSize, hvar]
  induction fuel generalizing i room left with
  | zero => rw [Nat.le_zero.1 hroom, Nat.zero_min, Nat.zero_mul]; rfl
  | succ fuel ih =>
    rw [State.wholeBytes, hitem]
    generalize 4 * 2 ^ s.rd (rIsz r) = z at *
    split
    · next hstop =>
      rcases hstop with h | h | h
      · rw [Nat.div_eq_of_lt (show left < z by omega), Nat.min_zero, Nat.zero_mul]
      · rw [Nat.div_eq_of_lt h, Nat.min_zero, Nat.zero_mul]
      · rw [Nat.div_eq_of_lt h, Nat.zero_min, Nat.zero_mul]
    · next hgo =>
      simp only [not_or, Nat.not_lt] at hgo
      obtain ⟨-, hleft, hfit⟩ := hgo
      have hdiv : ∀ x, z ≤ x → x / z = (x - z) / z + 1 := fun x hx => Nat.div_eq_sub_div (by omega) hx
      rw [ih _ _ _ (by have := hdiv room hfit; omega), hdiv room hfit, hdiv left hleft, Nat.add_min_add_right, Nat.add_mul, Nat.one_mul, Nat.add_comm]

/-- How many items of `sz` bytes a RING_READ of `n` words copies. -/
def State.itemsRead (s : State) (r n : Nat) : Nat := min (4 * n / (4 * 2 ^ s.rd (rIsz r))) (s.fill r / (4 * 2 ^ s.rd (rIsz r)))

section
variable {s : State} {slot : Slot} {r n : Nat} (h1 : 1 ≤ n) (h64 : n ≤ 64)
include h1 h64

theorem ringCopy_noRing (h48 : 48 ≤ r) : s.ringCopy slot r n = (.noSuchAddress, 0, List.replicate n 0) := by
  unfold State.ringCopy
  rw [if_neg (by omega), if_pos h48]

variable (h48 : r < 48)
include h48

theorem ringCopy_refused {c : Code} (hr : s.ringRight slot.val r (rCons r) = some c) :
    s.ringCopy slot r n = (c, 0, List.replicate n 0) := by
  unfold State.ringCopy
  rw [if_neg (by omega), if_neg (by omega), hr]

variable (hr : s.ringRight slot.val r (rCons r) = none) (hvar : s.on (rVar r) = false)
include hr hvar

theorem ringCopy_empty (hfill : s.fill r < 4 * 2 ^ s.rd (rIsz r)) : s.ringCopy slot r n = (.empty, 0, List.replicate n 0) := by
  unfold State.ringCopy
  rw [if_neg (by omega), if_neg (by omega), hr]
  have hitem : s.itemSize r (s.rd (rRidx r)) = 4 * 2 ^ s.rd (rIsz r) := by simp [State.itemSize, hvar]
  simp only [hitem]
  rw [if_pos (.inr hfill)]

theorem ringCopy_items (hfill : 4 * 2 ^ s.rd (rIsz r) ≤ s.fill r) (hfit : 4 * 2 ^ s.rd (rIsz r) ≤ 4 * n) :
    s.ringCopy slot r n = (.done, s.itemsRead r n * (4 * 2 ^ s.rd (rIsz r)),
      s.ringGet r (s.rd (rRidx r)) (s.itemsRead r n * (4 * 2 ^ s.rd (rIsz r)) / 4) ++
        List.replicate (n - s.itemsRead r n * (4 * 2 ^ s.rd (rIsz r)) / 4) 0) := by
  have hsz : 4 ≤ 4 * 2 ^ s.rd (rIsz r) := Nat.le_mul_of_pos_right 4 (Nat.two_pow_pos _)
  have hbytes := s.wholeBytes_fixed hvar 64 (s.rd (rRidx r)) (4 * n) (s.fill r)
    ((Nat.div_le_div_left hsz (by decide)).trans (by omega))
  have hitem : s.itemSize r (s.rd (rRidx r)) = 4 * 2 ^ s.rd (rIsz r) := by simp [State.itemSize, hvar]
  unfold State.ringCopy
  rw [if_neg (by omega), if_neg (by omega), hr]
  simp only [hitem]
  rw [if_neg (by omega), if_neg (by omega), hbytes]
  rfl

end

section
variable {slot : Slot} {q : Fin 64} {n : Nat} {peek : Bool} {s : State} (hs : s.heard slot.val = true)
include hs

/-- A RING_READ that copies nothing changes nothing. -/
theorem ringRead_refused {c : Code} (hcopy : (s.marked slot.val).ringCopy slot q n = (c, 0, List.replicate n 0)) :
    After (.ringRead ⟨slot, none⟩ q peek n true) s (Served slot c {} s · (List.replicate n 0)) :=
  After.of_data_refused (op := opRingRead slot q peek n) rfl hs (by simp only [opRingRead, hcopy, beq_self_eq_true, Bool.or_true, if_true])

variable (h1 : 1 ≤ n) (h64 : n ≤ 64)
include h1 h64

theorem ringRead_noRing (h48 : 48 ≤ q.val) :
    After (.ringRead ⟨slot, none⟩ q peek n true) s (Served slot .noSuchAddress {} s · (List.replicate n 0)) :=
  ringRead_refused hs (ringCopy_noRing h1 h64 h48)

variable {r : Fin 48} (hq : q.val = r.val)
include hq

theorem ringRead_noRight {c : Code} (hr : s.ringRight slot.val r (rCons r) = some c) :
    After (.ringRead ⟨slot, none⟩ q peek n true) s (Served slot c {} s · (List.replicate n 0)) :=
  ringRead_refused hs (hq ▸ ringCopy_refused h1 h64 r.isLt
    (by rw [s.ringRight_marked slot.val r (by simp [ringFlds, ringCfg]), hr]))

variable (hr : s.ringRight slot.val r (rCons r) = none) (hvar : s.on (rVar r) = false)
include hr hvar

theorem ringRead_empty (hfill : s.fill r < 4 * 2 ^ s.rd (rIsz r)) :
    After (.ringRead ⟨slot, none⟩ q peek n true) s (Served slot .empty {} s · (List.replicate n 0)) := by
  have h := s.sameRing_marked slot.val r
  exact ringRead_refused hs (hq ▸ ringCopy_empty h1 h64 r.isLt (by rw [s.ringRight_marked slot.val r (by simp [ringFlds, ringCfg]), hr])
    (by rw [h.on (by simp [ringFlds, ringCfg]), hvar]) (by rwa [h.fill, h.flds (rIsz r) (by simp [ringFlds, ringCfg])]))

theorem ringRead_items (hfill : 4 * 2 ^ s.rd (rIsz r) ≤ s.fill r) (hfit : 4 * 2 ^ s.rd (rIsz r) ≤ 4 * n) :
    After (.ringRead ⟨slot, none⟩ q peek n true) s fun t =>
      Served slot .done { flds := if peek then [] else [rRidx r] } s t
        (s.ringGet r (s.rd (rRidx r)) (s.itemsRead r n * (4 * 2 ^ s.rd (rIsz r)) / 4) ++
          List.replicate (n - s.itemsRead r n * (4 * 2 ^ s.rd (rIsz r)) / 4) 0) ∧
      (peek = false → t.rd (rRidx r) = (s.rd (rRidx r) + s.itemsRead r n * (4 * 2 ^ s.rd (rIsz r))) % 2 ^ 32) := by
  have h := s.sameRing_marked slot.val r
  have hsz : 0 < 4 * 2 ^ s.rd (rIsz r) := Nat.mul_pos (by decide) (Nat.two_pow_pos _)
  have hisz : (s.marked slot.val).rd (rIsz r) = s.rd (rIsz r) := h.flds _ (by simp [ringFlds, ringCfg])
  have hridx : (s.marked slot.val).rd (rRidx r) = s.rd (rRidx r) := h.flds _ (by simp [ringFlds])
  have hcopy := ringCopy_items (s := s.marked slot.val) (slot := slot) (r := r) h1 h64 r.isLt
    (by rw [s.ringRight_marked slot.val r (by simp [ringFlds, ringCfg]), hr]) (by rw [h.on (by simp [ringFlds, ringCfg]), hvar])
    (by rwa [h.fill, hisz]) (by rwa [hisz])
  have hread : (s.marked slot.val).itemsRead r n = s.itemsRead r n := by rw [State.itemsRead, State.itemsRead, h.fill, hisz]
  rw [hread, hisz, hridx, h.ringGet] at hcopy
  have hsome : 0 < s.itemsRead r n := Nat.lt_min.2 ⟨Nat.div_pos hfit hsz, Nat.div_pos hfill hsz⟩
  have hmoves : (s.itemsRead r n * (4 * 2 ^ s.rd (rIsz r)) == 0) = false := by
    rw [beq_eq_false_iff_ne]
    exact (Nat.mul_pos hsome hsz).ne'
  have hop : opRingRead slot q peek n (s.marked slot.val) = (.done, if peek then s.marked slot.val else
      (s.marked slot.val).wr (rRidx r) (s.rd (rRidx r) + s.itemsRead r n * (4 * 2 ^ s.rd (rIsz r))),
      s.ringGet r (s.rd (rRidx r)) (s.itemsRead r n * (4 * 2 ^ s.rd (rIsz r)) / 4) ++
        List.replicate (n - s.itemsRead r n * (4 * 2 ^ s.rd (rIsz r)) / 4) 0) := by
    simp only [opRingRead, hq, hcopy, hmoves, hridx, Bool.or_false]
  have hbelow : (rRidx r).belowHst := ringFlds_belowHst r _ (by simp [ringFlds])
  cases peek with
  | true =>
    obtain ⟨t, ht, hserved, -⟩ := After.of_data (P := fun _ => True) (op := opRingRead slot q true n)
      (i := .ringRead ⟨slot, none⟩ q true n true) rfl hs hop (w := {}) (Frame.refl _ _) (by simp) rfl trivial
    exact ⟨t, ht, hserved, nofun⟩
  | false =>
    refine After.of_data (op := opRingRead slot q false n) rfl hs hop ((Frame.refl _ _).wr _ _ (by simp)) (by simpa using hbelow) rfl fun _ => ?_
    rw [State.rd_finish_below _ _ _ _ hbelow, if_neg Bool.false_ne_true, State.rd_wr_same]
    rfl

end

/-! ### The indices (R514, R515) -/

/-- A register that no dictionary entry stands for, written by a slot that reaches it. -/
theorem Answers.of_reg {i : Instr} {slot : Slot} {s : State} {op : State → Res} (hi : exec i s = hostReg slot s op) (hs : s.readyReg slot.val = true)
    {c : Code} {w : Touch} {P : State → Prop} {u : State} (hop : op (s.marked slot.val) = (c, u)) (hframe : Frame w (s.marked slot.val) u)
    (hw : ∀ g ∈ w.flds, g.belowHst) (ha : w.areas = []) (hP : P (State.finish slot (c, u))) : Answers i slot c s w P := by
  refine ⟨_, hi.trans (hostReg_ready slot s op _ hs), ?_⟩
  rw [hop]
  exact ⟨Served.of_marked slot c [] hframe hw ha, hP⟩

theorem Refused.of_reg {i : Instr} {slot : Slot} {s : State} {op : State → Res} (hi : exec i s = hostReg slot s op) (hs : s.readyReg slot.val = true)
    {c : Code} (hop : op (s.marked slot.val) = (c, s.marked slot.val)) : Refused i slot c s := by
  obtain ⟨t, ht, hserved, -⟩ := Answers.of_reg (P := fun _ => True) hi hs hop (Frame.refl {} _) (by simp) rfl trivial
  exact ⟨t, ht, hserved⟩

section
variable {slot : Slot} {r : Fin 48} {v : Word} {s : State} (hs : s.readyReg slot.val = true)
include hs

theorem ridxWrite_noRight {c : Code} (hr : s.ringRight slot.val r (rCons r) = some c) : Refused (.ridxWrite slot r v) slot c s :=
  Refused.of_reg (op := opRidxWrite slot r v.toNat) rfl hs
    (by rw [opRidxWrite, s.ringRight_marked slot.val r (by simp [ringFlds, ringCfg]), hr])

theorem widxWrite_noRight {c : Code} (hr : s.ringRight slot.val r (rProd r) = some c) : Refused (.widxWrite slot r v) slot c s :=
  Refused.of_reg (op := opWidxWrite slot r v.toNat) rfl hs
    (by rw [opWidxWrite, s.ringRight_marked slot.val r (by simp [ringFlds, ringCfg]), hr])

section
variable (hr : s.ringRight slot.val r (rCons r) = none)
include hr

theorem ridxWrite_refused {c : Code} (h : s.ridxRefused r v.toNat = some c) : Refused (.ridxWrite slot r v) slot c s :=
  Refused.of_reg (op := opRidxWrite slot r v.toNat) rfl hs
    (by rw [opRidxWrite, s.ringRight_marked slot.val r (by simp [ringFlds, ringCfg]), hr, (s.sameRing_marked slot.val r).ridxRefused, h])

theorem ridxWrite_done (h : s.ridxRefused r v.toNat = none) :
    Answers (.ridxWrite slot r v) slot .done s { flds := [rRidx r] } fun t => t.rd (rRidx r) = v.toNat := by
  have hbelow : (rRidx r).belowHst := ringFlds_belowHst r _ (by simp [ringFlds])
  refine Answers.of_reg (op := opRidxWrite slot r v.toNat) rfl hs (u := (s.marked slot.val).wr (rRidx r) v.toNat)
    (by rw [opRidxWrite, s.ringRight_marked slot.val r (by simp [ringFlds, ringCfg]), hr, (s.sameRing_marked slot.val r).ridxRefused, h])
    ((Frame.refl _ _).wr _ _ (by simp)) (by simpa using hbelow) rfl ?_
  rw [State.rd_finish_below _ _ _ _ hbelow, State.rd_wr_same]
  exact Nat.mod_eq_of_lt v.isLt

end

variable (hr : s.ringRight slot.val r (rProd r) = none)
include hr

omit hs in
theorem opWidxWrite_marked : opWidxWrite slot r v.toNat (s.marked slot.val) =
    if s.ringSize r - s.fill r < (v.toNat + 2 ^ 32 - s.rd (rWidx r)) % 2 ^ 32 ||
        !s.wholeItems r ((v.toNat + 2 ^ 32 - s.rd (rWidx r)) % 2 ^ 32) then (.outOfRange, s.marked slot.val)
    else (.done, (s.marked slot.val).publish r ((v.toNat + 2 ^ 32 - s.rd (rWidx r)) % 2 ^ 32)) := by
  have h := s.sameRing_marked slot.val r
  simp only [opWidxWrite, s.ringRight_marked slot.val r (role := rProd r) (by simp [ringFlds, ringCfg]), hr, h.fill, h.ringSize, h.wholeItems,
    h.flds (rWidx r) (by simp [ringFlds])]

theorem widxWrite_outOfRange
    (h : (decide (s.ringSize r - s.fill r < (v.toNat + 2 ^ 32 - s.rd (rWidx r)) % 2 ^ 32) ||
      !s.wholeItems r ((v.toNat + 2 ^ 32 - s.rd (rWidx r)) % 2 ^ 32)) = true) : Refused (.widxWrite slot r v) slot .outOfRange s :=
  Refused.of_reg (op := opWidxWrite slot r v.toNat) rfl hs (by rw [opWidxWrite_marked hr, if_pos h])

theorem widxWrite_done
    (h : (decide (s.ringSize r - s.fill r < (v.toNat + 2 ^ 32 - s.rd (rWidx r)) % 2 ^ 32) ||
      !s.wholeItems r ((v.toNat + 2 ^ 32 - s.rd (rWidx r)) % 2 ^ 32)) = false) :
    Answers (.widxWrite slot r v) slot .done s { flds := [rWidx r] } fun t => t.rd (rWidx r) = v.toNat ∨ 2 ^ 32 ≤ s.rd (rWidx r) := by
  have hv := v.isLt
  have hbelow : (rWidx r).belowHst := ringFlds_belowHst r _ (by simp [ringFlds])
  refine Answers.of_reg (op := opWidxWrite slot r v.toNat) rfl hs
    ((opWidxWrite_marked hr).trans (if_neg (by rw [h]; exact Bool.false_ne_true))) ((Frame.refl _ _).wr _ _ (by simp)) (by simpa using hbelow) rfl ?_
  rw [State.rd_finish_below _ _ _ _ hbelow, State.publish, State.rd_wr_same, (s.sameRing_marked slot.val r).flds _ (by simp [ringFlds]),
    show 2 ^ (rWidx r).width = 2 ^ 32 from rfl]
  omega

end

/-! ### RING_WRITE (R510, R525) -/

section
variable {s : State} {r : Nat} (hvar : s.on (rVar r) = false) {ws : List Nat}
include hvar

theorem framed_short (h0 : 0 < ws.length) (hshort : ws.length < 2 ^ s.rd (rIsz r)) : s.framed r ws 64 = none := by
  cases ws with
  | nil => cases h0
  | cons w ws =>
    rw [State.framed]
    simp only [hvar, Bool.false_eq_true, false_and, false_or, if_false]
    rw [if_pos hshort]

theorem framed_one (hlen : ws.length = 2 ^ s.rd (rIsz r)) : s.framed r ws 64 = some [ws] := by
  cases ws with
  | nil => exact absurd hlen (Nat.two_pow_pos _).ne
  | cons w ws =>
    rw [State.framed]
    simp only [hvar, Bool.false_eq_true, false_and, false_or, if_false]
    rw [if_neg (by omega), List.drop_of_length_le (by omega), List.take_of_length_le (by omega)]
    rfl

end

theorem State.offer_takes {s : State} {r : Nat} {ws : List Nat} (h : s.takes r ws.length = true) : s.offer r ws = (true, s.ringAppend r ws) := by
  simp only [State.takes, Bool.and_eq_true, decide_eq_true_eq] at h
  obtain ⟨⟨⟨hen, hroom⟩, -⟩, -⟩ := h
  exact (if_neg (by simpa [State.on] using hen)).trans ((if_neg (by omega)).trans (if_pos hroom))

/-- The mark by which a FLUSH of the same cycle undoes a RING_WRITE (R521). -/
def State.writeMark (s : State) (r slot : Nat) : Ended := .write r slot (s.rd (rWidx r)) (s.rd (rDropped r)) (s.rd (rDrop r))

section
variable {s : State} {slot : Slot} {r : Nat} {ws : List Nat} (h0 : 0 < ws.length) (h64 : ws.length ≤ 64) (h48 : r < 48)
include h0 h64 h48

theorem opRingWrite_refused {c : Code} (hr : s.ringRight slot.val r (rProd r) = some c) : opRingWrite slot r ws s = (c, s) := by
  unfold opRingWrite
  rw [if_neg (by omega), if_neg (by omega), hr]

variable (hr : s.ringRight slot.val r (rProd r) = none) (hvar : s.on (rVar r) = false)
include hr hvar

theorem opRingWrite_short (hshort : ws.length < 2 ^ s.rd (rIsz r)) : opRingWrite slot r ws s = (.badLength, s) := by
  unfold opRingWrite
  rw [if_neg (by omega), if_neg (by omega), hr, framed_short hvar h0 hshort]

theorem opRingWrite_flushed (hlen : ws.length = 2 ^ s.rd (rIsz r)) (hflush : .flush r ∈ s.ended) :
    opRingWrite slot r ws s = (.aborted, s.partialNote r) := by
  unfold opRingWrite
  rw [if_neg (by omega), if_neg (by omega), hr, framed_one hvar hlen]
  exact if_pos (List.contains_iff_mem.2 hflush)

theorem opRingWrite_takes (hlen : ws.length = 2 ^ s.rd (rIsz r)) (hflush : .flush r ∉ s.ended) (htakes : s.takes r ws.length = true) :
    opRingWrite slot r ws s = (.done, State.ringAppend { s with ended := s.writeMark r slot.val :: s.ended } r ws) := by
  have hroom : s.fill r + 4 * ws.length ≤ s.ringSize r := by simp [State.takes] at htakes; omega
  have hoffer : State.offer { s with ended := s.writeMark r slot.val :: s.ended } r ws = _ := State.offer_takes htakes
  unfold opRingWrite
  rw [if_neg (by omega), if_neg (by omega), hr, framed_one hvar hlen]
  refine (if_neg (by rwa [List.contains_iff_mem])).trans ((if_neg (by simp; omega)).trans ?_)
  exact congrArg (Prod.mk _) (congrArg Prod.snd hoffer)

end

theorem State.finish_ended (k : Slot) (r : Res) (d : List Nat) : (State.finish k r d).ended = r.2.ended := by
  simp only [State.finish, State.countPort, State.setLast, State.bump, State.setBits]
  repeat' split
  all_goals rfl

theorem State.marked_ended (s : State) (k : Nat) : (s.marked k).ended = s.ended := by
  rcases s.marked_eq k with h | ⟨-, h⟩ <;> rw [h]
  rfl

/-- PARTIAL is set, and PCOUNT counts. -/
theorem State.rd_partialNote (s : State) (r : Nat) : (s.partialNote r).rd (rPartial r) = 1 ∧
    (s.partialNote r).rd (rPcount r) = min (s.rd (rPcount r) + 1) 65535 := by
  obtain ⟨-, -, -, hpp, -, -⟩ := ringKeys_ne r
  refine ⟨?_, ?_⟩
  · rw [State.partialNote, State.bump, State.rd_wr_ne _ hpp, State.rd_wr_same]
    rfl
  · rw [State.partialNote, State.bump, State.rd_wr_same, State.rd_wr_ne _ hpp.symm, show 2 ^ (rPcount r).width = 65536 from rfl]
    omega

theorem State.rd_partialNote_ne (s : State) (r : Nat) {f : Fld} (hp : (rPartial r).key ≠ f.key) (hc : (rPcount r).key ≠ f.key) :
    (s.partialNote r).rd f = s.rd f := by
  rw [State.partialNote, State.bump, State.rd_wr_ne _ hc, State.rd_wr_ne _ hp]

theorem Frame.partialNote {w : Touch} {s t : State} (h : Frame w s t) (r : Nat) (hp : rPartial r ∈ w.flds) (hc : rPcount r ∈ w.flds) :
    Frame w s (t.partialNote r) := (h.wr _ _ hp).bump _ _ hc

section
variable {slot : Slot} {q : Fin 64} {r : Fin 48} {ws : List Word} {s : State} (hs : s.heard slot.val = true) (hq : q.val = r.val)
  (h0 : 0 < ws.length) (h64 : ws.length ≤ 64)
include hs hq h0 h64

theorem ringWrite_noRight {c : Code} (hr : s.ringRight slot.val r (rProd r) = some c) : Refused (.ringWrite slot q ws none) slot c s :=
  Refused.of_free (op := opRingWrite slot q (ws.map (·.toNat))) rfl hs
    (hq ▸ opRingWrite_refused (by simpa using h0) (by simpa using h64) r.isLt
      (by rw [s.ringRight_marked slot.val r (by simp [ringFlds, ringCfg]), hr]))

variable (hr : s.ringRight slot.val r (rProd r) = none) (hvar : s.on (rVar r) = false)
include hr hvar

theorem ringWrite_short (hshort : ws.length < 2 ^ s.rd (rIsz r)) : Refused (.ringWrite slot q ws none) slot .badLength s := by
  have h := s.sameRing_marked slot.val r
  exact Refused.of_free (op := opRingWrite slot q (ws.map (·.toNat))) rfl hs
    (hq ▸ opRingWrite_short (by simpa using h0) (by simpa using h64) r.isLt
      (by rw [s.ringRight_marked slot.val r (by simp [ringFlds, ringCfg]), hr]) (by rw [h.on (by simp [ringFlds, ringCfg]), hvar])
      (by rwa [List.length_map, h.flds _ (by simp [ringFlds, ringCfg])]))

theorem ringWrite_flushed (hlen : ws.length = 2 ^ s.rd (rIsz r)) (hflush : .flush r.val ∈ s.ended) :
    Answers (.ringWrite slot q ws none) slot .aborted s { flds := [rPartial r, rPcount r] } fun t =>
      t.rd (rPartial r) = 1 ∧ t.rd (rPcount r) = min (s.rd (rPcount r) + 1) 65535 := by
  have h := s.sameRing_marked slot.val r
  have hbelow := ringFlds_belowHst r
  obtain ⟨hpartial, hpcount⟩ := (s.marked slot.val).rd_partialNote r
  refine Answers.of_free (op := opRingWrite slot q (ws.map (·.toNat))) rfl hs (u := (s.marked slot.val).partialNote r)
    ((congrArg (opRingWrite slot · _ _) hq).trans <| opRingWrite_flushed (by simpa using h0) (by simpa using h64) r.isLt
      (by rw [s.ringRight_marked slot.val r (by simp [ringFlds, ringCfg]), hr]) (by rw [h.on (by simp [ringFlds, ringCfg]), hvar])
      (by rwa [List.length_map, h.flds _ (by simp [ringFlds, ringCfg])]) (by rwa [s.marked_ended]))
    ((Frame.refl _ _).partialNote r (by simp) (by simp)) (fun g hg => hbelow g ?_) rfl ⟨?_, ?_⟩
  · simp only [List.mem_cons, List.not_mem_nil, or_false] at hg
    rcases hg with rfl | rfl <;> simp [ringFlds]
  · rw [State.rd_finish_below _ _ _ _ (hbelow _ (by simp [ringFlds])), hpartial]
  · rw [State.rd_finish_below _ _ _ _ (hbelow _ (by simp [ringFlds])), hpcount, h.flds _ (by simp [ringFlds])]

theorem ringWrite_stores (hlen : ws.length = 2 ^ s.rd (rIsz r)) (hflush : .flush r.val ∉ s.ended) (htakes : s.takes r ws.length = true) :
    Answers (.ringWrite slot q ws none) slot .done s { flds := [rWidx r], blks := [.ended], bytes := s.itemBytes r ws.length } fun t =>
      Stored r (ws.map (·.toNat)) s t ∧ s.writeMark r slot.val ∈ t.ended := by
  have h := s.sameRing_marked slot.val r
  have hbelow := ringFlds_belowHst r
  have hmark : (s.marked slot.val).writeMark r slot.val = s.writeMark r slot.val := by
    rw [State.writeMark, State.writeMark, h.flds _ (by simp [ringFlds]), h.flds _ (by simp [ringFlds]), h.flds _ (by simp [ringFlds])]
  let u : State := { s.marked slot.val with ended := (s.marked slot.val).writeMark r slot.val :: (s.marked slot.val).ended }
  have hu : SameRing r s u := ⟨h.flds, h.sbuf⟩
  have hfit : 4 * ws.length ≤ s.ringSize r ∧ 4 * ws.length ≤ 2 ^ 20 := by simp [State.takes] at htakes; omega
  obtain ⟨hwidx, hget⟩ := u.stored_ringAppend r (ws.map (·.toNat)) (by rw [List.length_map, hu.ringSize]; exact hfit.1)
    (by rw [List.length_map]; exact hfit.2)
  obtain ⟨m, hm⟩ := u.ringPut_eq r (u.rd (rWidx r)) (ws.map (·.toNat))
  have hended : (u.ringAppend r (ws.map (·.toNat))).ended = u.ended := by rw [State.ringAppend, hm]; rfl
  refine Answers.of_free (op := opRingWrite slot q (ws.map (·.toNat))) rfl hs (u := u.ringAppend r (ws.map (·.toNat)))
    ((congrArg (opRingWrite slot · _ _) hq).trans <| opRingWrite_takes (by simpa using h0) (by simpa using h64) r.isLt
      (by rw [s.ringRight_marked slot.val r (by simp [ringFlds, ringCfg]), hr]) (by rw [h.on (by simp [ringFlds, ringCfg]), hvar])
      (by rwa [List.length_map, h.flds _ (by simp [ringFlds, ringCfg])]) (by rwa [s.marked_ended])
      (by rw [List.length_map, h.takes, htakes]))
    (((Frame.refl _ _).ended _ (by simp)).ringAppend_at r _ (by simp) fun a ha => by rw [List.length_map, hu.itemBytes] at ha; exact ha)
    (by simpa using hbelow _ (by simp [ringFlds])) rfl ⟨⟨?_, ?_⟩, ?_⟩
  · rw [State.rd_finish_below _ _ _ _ (hbelow _ (by simp [ringFlds])), ← hu.flds (rWidx r) (by simp [ringFlds])]
    exact hwidx
  · rw [← hget, hu.flds (rWidx r) (by simp [ringFlds])]
    exact State.ringGet_congr r (State.rd_finish_below _ _ _ _ (hbelow _ (by simp [ringFlds, ringCfg])))
      (State.rd_finish_below _ _ _ _ (hbelow _ (by simp [ringFlds, ringCfg]))) (State.finish_sbuf _ _ _) _ _
  · rw [State.finish_ended]
    rw [hended, ← hmark]
    exact List.mem_cons_self

end

/-! ### FLUSH (R519 to R521) -/

/-- No item of ring r has begun, on the ring write port or at a radio port. -/
def State.nothingBegun (s : State) (r : Nat) : Prop :=
  (∀ it ∈ s.port.wait, it.ring = r → it.moved = 0) ∧ (r < 16 ∨ 24 ≤ r ∨ (s.radio (r - 16)).rx = none)

theorem dropPartial_none {s : State} {r : Nat} (h : s.nothingBegun r) : s.dropPartial r = s := by
  obtain ⟨hwait, hrx⟩ := h
  have hany : s.port.wait.any (fun it => it.ring == r && decide (0 < it.moved)) = false := by
    rw [List.any_eq_false]
    intro it hit
    by_cases hring : it.ring = r
    · simp [hwait it hit hring]
    · simp [hring]
  unfold State.dropPartial
  simp only [hany, Bool.false_eq_true, if_false]
  refine if_neg fun h => ?_
  rcases hrx with hlo | hhi | hnone
  · omega
  · omega
  · simp [hnone] at h

theorem dropPartial_begun {s : State} {r : Nat} {it : PortItem} (hwait : s.port.wait = [it]) (hring : it.ring = r) (hmoved : 0 < it.moved)
    (hrx : r < 16 ∨ 24 ≤ r ∨ (s.radio (r - 16)).rx = none) :
    s.dropPartial r = State.partialNote { s with port := { s.port with run := 0, wait := [] } } r := by
  unfold State.dropPartial
  simp only [hwait, hring, List.any_cons, List.any_nil, beq_self_eq_true, hmoved, decide_true, Bool.true_and, Bool.or_false, if_true,
    List.filter_cons, List.filter_nil, Bool.not_true, Bool.false_eq_true, if_false]
  refine if_neg fun h => ?_
  rcases hrx with hlo | hhi | hnone
  · omega
  · omega
  · have hsome : (s.radio (r - 16)).rx.isSome = true := h.2.2
    rw [hnone] at hsome
    cases hsome

theorem ringManager_consumer {s : State} {k r : Nat} (hopen : s.on (rSecure r) = false) (hcons : s.rd (rCons r) = k) : s.ringManager k r = none := by
  simp [State.ringManager, hopen, hcons]

/-- Where a FLUSH puts RIDX. -/
def State.flushed (s : State) (r : Nat) : State := s.wr (rRidx r) (s.rd (rWidx r))

theorem opFlush_consumer {slot : Slot} {s : State} {r : Nat} (h8 : 8 ≤ r) (hopen : s.on (rSecure r) = false) (hcons : s.rd (rCons r) = slot.val) :
    opFlush slot r s = (.done, (State.flushed { s.dropWrites r s.ended with ended := .flush r :: (s.dropWrites r s.ended).ended.filter fun e =>
      match e with | .write q .. => q != r | _ => true } r).dropPartial r) := by
  unfold opFlush
  rw [if_neg (by omega), ringManager_consumer hopen hcons]
  rfl

section
variable {slot : Slot} {r : Fin 48} {s : State} (h8 : 8 ≤ r.val) (hopen : s.on (rSecure r) = false) (hcons : s.rd (rCons r) = slot.val)
include h8 hopen hcons

theorem opFlush_quiet (hended : s.ended = []) :
    opFlush slot r (s.marked slot.val) = (.done, (State.flushed { s.marked slot.val with ended := [.flush r.val] } r).dropPartial r) := by
  have h := s.sameRing_marked slot.val r
  rw [opFlush_consumer h8 (by rw [h.on (by simp [ringFlds, ringCfg]), hopen]) (by rw [h.flds _ (by simp [ringFlds, ringCfg]), hcons]),
    s.marked_ended, hended, State.dropWrites, s.marked_ended, hended]
  rfl

variable (hs : s.ready slot.val = true)
include hs

theorem flush_idle (hbegun : s.nothingBegun r) (hended : s.ended = []) :
    Answers (.flush slot r) slot .done s { flds := [rRidx r], blks := [.ended] } fun t =>
      t.rd (rRidx r) = s.rd (rWidx r) % 2 ^ 32 ∧ t.ended = [.flush r.val] := by
  have h := s.sameRing_marked slot.val r
  have hbelow : (rRidx r).belowHst := ringFlds_belowHst r _ (by simp [ringFlds])
  have hop := opFlush_quiet h8 hopen hcons hended
  rw [dropPartial_none (by simpa [State.nothingBegun, State.flushed, State.radio] using hbegun)] at hop
  refine Answers.of_host (op := opFlush slot r) rfl hs _ hop (((Frame.refl _ _).ended _ (by simp)).wr _ _ (by simp)) (by simpa using hbelow) rfl
    ⟨?_, ?_⟩
  · rw [State.rd_finish_below _ _ _ _ hbelow, State.flushed, State.rd_wr_same, ← h.flds (rWidx r) (by simp [ringFlds])]
    rfl
  · rw [State.finish_ended]
    rfl

theorem flush_begun {it : PortItem} (hended : s.ended = []) (hwait : s.port.wait = [it]) (hring : it.ring = r) (hmoved : 0 < it.moved)
    (hrx : r.val < 16 ∨ 24 ≤ r.val ∨ (s.radio (r.val - 16)).rx = none) :
    Answers (.flush slot r) slot .done s { flds := [rRidx r, rPartial r, rPcount r], blks := [.ended, .port] } fun t =>
      t.rd (rRidx r) = s.rd (rWidx r) % 2 ^ 32 ∧ t.port.wait = [] ∧ t.rd (rPartial r) = 1 ∧
      t.rd (rPcount r) = min (s.rd (rPcount r) + 1) 65535 := by
  have h := s.sameRing_marked slot.val r
  have hbelow := ringFlds_belowHst r
  obtain ⟨-, -, ⟨hpr, hcr⟩, -, ⟨-, hrc⟩, -⟩ := ringKeys_ne r
  have hop := opFlush_quiet h8 hopen hcons hended
  rw [dropPartial_begun (it := it) (by simpa [State.flushed] using hwait) hring hmoved
    (by simpa [State.flushed, State.radio] using hrx)] at hop
  refine Answers.of_host (op := opFlush slot r) rfl hs _ hop
    (((((Frame.refl _ _).ended _ (by simp)).wr _ _ (by simp)).port _ (by simp)).partialNote r (by simp) (by simp)) (fun g hg => hbelow g ?_) rfl
    ⟨?_, ?_, ?_, ?_⟩
  · simp only [List.mem_cons, List.not_mem_nil, or_false] at hg
    rcases hg with rfl | rfl | rfl <;> simp [ringFlds]
  · rw [State.rd_finish_below _ _ _ _ (hbelow _ (by simp [ringFlds])), State.rd_partialNote_ne _ _ hpr hcr, ← h.flds (rWidx r) (by simp [ringFlds])]
    exact State.rd_wr_same _ _ _
  · rw [State.finish_port]
    rfl
  · rw [State.rd_finish_below _ _ _ _ (hbelow _ (by simp [ringFlds])), (State.rd_partialNote _ _).1]
  · rw [State.rd_finish_below _ _ _ _ (hbelow _ (by simp [ringFlds])), (State.rd_partialNote _ _).2, ← h.flds (rPcount r) (by simp [ringFlds])]
    exact congrArg (fun x => min (x + 1) 65535) (State.rd_wr_ne _ hrc _)

end

/-! ### A RING_WRITE that a FLUSH meets (R521) -/

theorem Frame.frameAborted {w : Touch} {s t : State} (h : Frame w s t) {k : Nat} (hk : k < 16) (hport : t.portOf k = s.portOf k)
    (hw : ∀ f ∈ s.slotFlds k .aborted, f ∈ w.flds) (hb : .last ∈ w.blks) : Frame w s (t.frameAborted k) := by
  have hlast : Frame w s (t.wr (hLast k) Code.aborted.val) := h.wr _ _ (hw _ (by simp [State.slotFlds, hk]))
  unfold State.frameAborted
  rw [if_pos hk]
  dsimp only
  rw [State.portOf_last, hport]
  split
  · next p hp =>
    exact (hlast.setLast p _ hb).countPort p _ fun hc f hf => hw f (by
      simp only [State.slotFlds, hp, hc, if_true, List.mem_append]
      exact .inr hf)
  · exact hlast

theorem State.rd_frameAborted_ne (s : State) {k : Nat} {f : Fld} (hlast : (hLast k).key ≠ f.key)
    (hport : ∀ p, ∀ g ∈ [hReject p, hCrcErr p, hPevt p], g.key ≠ f.key) : (s.frameAborted k).rd f = s.rd f := by
  have hrd : (if k < 16 then s.wr (hLast k) Code.aborted.val else s).rd f = s.rd f := by
    split
    · exact State.rd_wr_ne _ hlast _
    · rfl
  unfold State.frameAborted
  dsimp only
  split
  · rw [State.rd_countPort _ _ _ _ (hport _), State.rd_setLast, hrd]
  · exact hrd

theorem State.rd_frameAborted_last (s : State) {k : Nat} (hk : k < 16) : (s.frameAborted k).rd (hLast k) = Code.aborted.val := by
  have hrd : (s.wr (hLast k) Code.aborted.val).rd (hLast k) = Code.aborted.val :=
    (State.rd_wr_same _ _ _).trans (Nat.mod_eq_of_lt (show Code.aborted.val < 2 ^ 16 by decide))
  unfold State.frameAborted
  rw [if_pos hk]
  dsimp only
  split
  · rw [State.rd_countPort _ _ _ _ ?_, State.rd_setLast, hrd]
    simp only [List.mem_cons, List.not_mem_nil, or_false, forall_eq_or_imp, forall_eq, Fld.key, hReject, hCrcErr, hPevt, hLast, F.rc, F.w1c,
      F.ro, hBase]
    omega
  · exact hrd

/-- The fields of port counts and last results lie apart from those that tell a slot's port, and from the registers below the host block. -/
theorem hostCount_ne (p j : Nat) : ∀ g ∈ [hReject p, hCrcErr p, hPevt p, hLast p],
    g.key ≠ (hClass j).key ∧ g.key ≠ (hPort j).key ∧ ∀ f : Fld, f.belowHst → g.key ≠ f.key := by
  intro g hg
  refine ⟨?_, ?_, fun f hf => Fld.belowHst_ne hf ?_⟩ <;>
    simp only [List.mem_cons, List.not_mem_nil, or_false] at hg <;>
    rcases hg with rfl | rfl | rfl | rfl <;>
    simp only [Fld.key, hReject, hCrcErr, hPevt, hLast, hClass, hPort, F.rc, F.w1c, F.ro, F.rws, hBase] <;>
    omega

theorem State.rd_frameAborted_below (s : State) {k : Nat} {f : Fld} (hf : f.belowHst) : (s.frameAborted k).rd f = s.rd f :=
  s.rd_frameAborted_ne ((hostCount_ne k 0 _ (by simp)).2.2 f hf) fun p g hg => (hostCount_ne p 0 g (by simp at hg ⊢; tauto)).2.2 f hf

theorem State.portOf_frameAborted (s : State) (k j : Nat) : (s.frameAborted k).portOf j = s.portOf j :=
  State.portOf_congr j
    (s.rd_frameAborted_ne (hostCount_ne k j _ (by simp)).1 fun p g hg => (hostCount_ne p j g (by simp at hg ⊢; tauto)).1)
    (s.rd_frameAborted_ne (hostCount_ne k j _ (by simp)).2.1 fun p g hg => (hostCount_ne p j g (by simp at hg ⊢; tauto)).2.1)

theorem State.portOf_marked_any (s : State) (k j : Nat) : (s.marked k).portOf j = s.portOf j :=
  State.portOf_congr j
    (State.rd_marked _ _ _ (by simp only [Fld.key, hPresent, hClass, F.ro, F.rws, hBase]; omega)
      (by simp only [Fld.key, hWaking, hClass, F.ro, F.rws, hBase]; omega))
    (State.rd_marked _ _ _ (by simp only [Fld.key, hPresent, hPort, F.ro, F.rws, hBase]; omega)
      (by simp only [Fld.key, hWaking, hPort, F.ro, F.rws, hBase]; omega))

theorem State.slotFlds_marked (s : State) (k j : Nat) (c : Code) : (s.marked k).slotFlds j c = s.slotFlds j c := by
  unfold State.slotFlds
  rw [s.portOf_marked_any]

/-- Ring r as it stood before a RING_WRITE that started at `w`, with the discard noted. -/
def State.unwritten (s : State) (r w : Nat) : State := (((s.wr (rWidx r) w).wr (rDropped r) 0).wr (rDrop r) 0).partialNote r

theorem Frame.unwritten (s : State) (r w : Nat) :
    Frame { flds := [rWidx r, rDropped r, rDrop r, rPartial r, rPcount r] } s (s.unwritten r w) :=
  ((((Frame.refl _ s).wr _ _ (by simp)).wr _ _ (by simp)).wr _ _ (by simp)).partialNote r (by simp) (by simp)

theorem State.rd_unwritten (s : State) (r w : Nat) : (s.unwritten r w).rd (rWidx r) = w % 2 ^ 32 ∧ (s.unwritten r w).rd (rPartial r) = 1 ∧
    (s.unwritten r w).rd (rPcount r) = min (s.rd (rPcount r) + 1) 65535 := by
  obtain ⟨⟨-, hdw, hdrw⟩, ⟨hpw, hcw⟩, -, -, -, hwc, hdc, hdrc⟩ := ringKeys_ne r
  refine ⟨?_, (State.rd_partialNote _ _).1, ?_⟩
  · rw [State.unwritten, State.rd_partialNote_ne _ _ hpw hcw, State.rd_wr_ne _ hdrw, State.rd_wr_ne _ hdw, State.rd_wr_same]
    rfl
  · rw [State.unwritten, (State.rd_partialNote _ _).2, State.rd_wr_ne _ hdrc, State.rd_wr_ne _ hdc, State.rd_wr_ne _ hwc]

/-- The state in which a FLUSH discards the one RING_WRITE of its cycle. -/
def State.writeUndone (s : State) (r k w : Nat) : State := (s.unwritten r w).frameAborted k

/-- What a FLUSH of ring r may change that discards a RING_WRITE of slot k. -/
def State.metTouch (s : State) (r k : Nat) : Touch :=
  { flds := [rRidx r, rWidx r, rDropped r, rDrop r, rPartial r, rPcount r] ++ s.slotFlds k .aborted, blks := [.ended, .last] }

def State.undoTouch (s : State) (r k : Nat) : Touch :=
  { flds := [rWidx r, rDropped r, rDrop r, rPartial r, rPcount r] ++ s.slotFlds k .aborted, blks := [.last] }

theorem State.portOf_writeUndone (s : State) (r : Fin 48) (k w j : Nat) : (s.writeUndone r k w).portOf j = s.portOf j := by
  have hbelow := ringFlds_belowHst r
  rw [State.writeUndone, State.portOf_frameAborted]
  refine (Frame.unwritten s r w).portOf (fun g hg => hbelow g ?_) rfl j
  simp only [List.mem_cons, List.not_mem_nil, or_false] at hg
  rcases hg with rfl | rfl | rfl | rfl | rfl <;> simp [ringFlds]

theorem Frame.writeUndone (s : State) (r : Fin 48) {k : Nat} (w : Nat) (hk : k < 16) : Frame (s.undoTouch r k) s (s.writeUndone r k w) := by
  have hbelow := ringFlds_belowHst r
  have hunwritten := Frame.unwritten s r w
  have hport : (s.unwritten r w).portOf k = s.portOf k := by
    rw [← (s.unwritten r w).portOf_frameAborted k k]
    exact s.portOf_writeUndone r k w k
  have hundo : Frame (s.undoTouch r k) s (s.unwritten r w) :=
    Frame.mono (v := { flds := [rWidx r, rDropped r, rDrop r, rPartial r, rPcount r] }) (fun f hf => List.mem_append_left _ hf) (fun _ h => h)
      (fun b hb => absurd hb List.not_mem_nil) (fun _ h => h) id hunwritten
  exact hundo.frameAborted hk hport (fun f hf => List.mem_append_right _ hf) (by simp [State.undoTouch])

theorem State.rd_writeUndone (s : State) (r : Fin 48) {k : Nat} (w : Nat) (hk : k < 16) :
    (s.writeUndone r k w).rd (rWidx r) = w % 2 ^ 32 ∧ (s.writeUndone r k w).rd (rPartial r) = 1 ∧
    (s.writeUndone r k w).rd (rPcount r) = min (s.rd (rPcount r) + 1) 65535 ∧ (s.writeUndone r k w).rd (hLast k) = Code.aborted.val := by
  have hbelow := ringFlds_belowHst r
  obtain ⟨hwidx, hpartial, hpcount⟩ := s.rd_unwritten r w
  unfold State.writeUndone
  rw [State.rd_frameAborted_below _ (hbelow _ (by simp [ringFlds])), State.rd_frameAborted_below _ (hbelow _ (by simp [ringFlds])),
    State.rd_frameAborted_below _ (hbelow _ (by simp [ringFlds])), State.rd_frameAborted_last _ hk]
  exact ⟨hwidx, hpartial, hpcount, rfl⟩

theorem State.dropWrites_one (s : State) (r k w : Nat) : s.dropWrites r [.write r k w 0 0] = s.writeUndone r k w := by
  simp only [State.dropWrites, if_true]
  rfl

section
variable {slot : Slot} {r : Fin 48} {s : State} (h8 : 8 ≤ r.val) (hopen : s.on (rSecure r) = false) (hcons : s.rd (rCons r) = slot.val)
  (hbegun : s.nothingBegun r) {k : Fin 16} {w : Word} (hended : s.ended = [.write r.val k.val w.toNat 0 0])
include h8 hopen hcons hbegun hended

theorem opFlush_written : opFlush slot r (s.marked slot.val) =
    (.done, State.flushed { (s.marked slot.val).writeUndone r k w.toNat with ended := [.flush r.val] } r) := by
  have h := s.sameRing_marked slot.val r
  have hframe := Frame.writeUndone (s.marked slot.val) r w.toNat k.isLt
  have hkept : ((s.marked slot.val).writeUndone r k w.toNat).ended = s.ended :=
    (hframe.blks .ended (by simp [State.undoTouch]) (by simp [State.undoTouch, Blk.kind])).trans (s.marked_ended _)
  have hport : ((s.marked slot.val).writeUndone r k w.toNat).port = s.port :=
    (hframe.blks .port (by simp [State.undoTouch]) (by simp [State.undoTouch, Blk.kind])).trans (s.marked_port _)
  have hradio : ∀ n, ((s.marked slot.val).writeUndone r k w.toNat).radio n = s.radio n := fun n =>
    (hframe.blks (.radio n) (by simp [State.undoTouch]) (by simp [State.undoTouch, Blk.kind])).trans (by simp [State.radio])
  obtain ⟨hwait, hrx⟩ := hbegun
  rw [opFlush_consumer h8 (by rw [h.on (by simp [ringFlds, ringCfg]), hopen]) (by rw [h.flds _ (by simp [ringFlds, ringCfg]), hcons]),
    s.marked_ended, hended, State.dropWrites_one, hkept, hended]
  rw [List.filter_cons, if_neg (by simp), List.filter_nil]
  exact congrArg (Prod.mk _) (dropPartial_none ⟨fun it (hit : it ∈ ((s.marked slot.val).writeUndone r k w.toNat).port.wait) =>
    hwait it (by rwa [hport] at hit), hrx.imp_right (Or.imp_right fun hnone => (congrArg RadS.rx (hradio _)).trans hnone)⟩)

theorem flush_written (hs : s.ready slot.val = true) (hk : k.val ≠ slot.val) :
    Answers (.flush slot r) slot .done s (s.metTouch r k) fun t =>
      t.rd (rWidx r) = w.toNat ∧ t.rd (rRidx r) = w.toNat ∧ t.rd (rPartial r) = 1 ∧
      t.rd (rPcount r) = min (s.rd (rPcount r) + 1) 65535 ∧ t.rd (hLast k.val) = Code.aborted.val := by
  have h := s.sameRing_marked slot.val r
  have hbelow := ringFlds_belowHst r
  have hwlt : w.toNat % 2 ^ 32 = w.toNat := Nat.mod_eq_of_lt w.isLt
  obtain ⟨⟨hrw, -, -⟩, -, -, -, ⟨hrp, hrc⟩, -⟩ := ringKeys_ne r
  obtain ⟨hwidx, hpartial, hpcount, hlast⟩ := (s.marked slot.val).rd_writeUndone r w.toNat k.isLt
  have hmet : Frame (s.metTouch r k) (s.marked slot.val)
      (State.flushed { (s.marked slot.val).writeUndone r k w.toNat with ended := [.flush r.val] } r) := by
    have hundone : Frame (s.metTouch r k) (s.marked slot.val) ((s.marked slot.val).writeUndone r k w.toNat) := by
      refine Frame.mono (v := (s.marked slot.val).undoTouch r k) (fun f hf => ?_) (fun _ h => h) (fun b hb => List.mem_cons_of_mem _ hb) (fun _ h => h) id
        (Frame.writeUndone (s.marked slot.val) r w.toNat k.isLt)
      rw [State.undoTouch, s.slotFlds_marked] at hf
      exact List.mem_cons_of_mem _ hf
    exact (hundone.ended _ List.mem_cons_self).wr _ _ List.mem_cons_self
  have hframe := (Frame.marked slot .done (s.metTouch r k) s).trans
    (Frame.mono (fun f hf => List.mem_append_right _ hf) (fun _ h => h) (fun b hb => by simp [hb]) (fun _ h => h) id hmet)
  have hport : (State.flushed { (s.marked slot.val).writeUndone r k w.toNat with ended := [.flush r.val] } r).portOf slot.val =
      s.portOf slot.val := by
    refine (((Frame.refl { flds := [rRidx r] } _).wr (rRidx r) _ (by simp)).portOf (by simpa using hbelow _ (by simp [ringFlds])) rfl _).trans ?_
    exact ((s.marked slot.val).portOf_writeUndone r k w.toNat slot.val).trans (s.portOf_marked slot.val)
  refine ⟨_, (host_ready slot s (opFlush slot r) hs).trans (by rw [opFlush_written h8 hopen hcons hbegun hended]),
    Served.intro slot .done _ s _ [] hframe hport, ?_, ?_, ?_, ?_, ?_⟩
  · rw [State.rd_finish_below _ _ _ _ (hbelow _ (by simp [ringFlds])), State.flushed, State.rd_wr_ne _ hrw]
    exact hwidx.trans hwlt
  · rw [State.rd_finish_below _ _ _ _ (hbelow _ (by simp [ringFlds])), State.flushed, State.rd_wr_same]
    exact (congrArg (· % 2 ^ 32) hwidx).trans (by rw [Nat.mod_mod, hwlt])
  · rw [State.rd_finish_below _ _ _ _ (hbelow _ (by simp [ringFlds])), State.flushed, State.rd_wr_ne _ hrp]
    exact hpartial
  · rw [State.rd_finish_below _ _ _ _ (hbelow _ (by simp [ringFlds])), State.flushed, State.rd_wr_ne _ hrc, ← h.flds (rPcount r) (by simp [ringFlds])]
    exact hpcount
  · rw [State.rd_finish _ _ _ _ _ fun g hg => ?_, State.flushed,
      State.rd_wr_ne _ (Fld.belowHst_ne (hbelow _ (by simp [ringFlds])) (by simp only [Fld.key, hLast, F.ro, hBase]; omega)).symm]
    · exact hlast
    · have hg : g = hPresent slot.val ∨ g = hWaking slot.val ∨ g = hLast slot.val := by
        simp only [State.slotFlds, show Code.done.cls = 3 ↔ False by decide, if_false, List.mem_append] at hg
        rcases hg with hg | hg
        · split at hg
          · simpa using hg
          · cases hg
        · split at hg <;> cases hg
      rcases hg with rfl | rfl | rfl <;> simp only [Fld.key, hPresent, hWaking, hLast, F.ro, hBase] <;> omega

end

/-! ### The Rack (R509) -/

theorem rngCfgFlds_inRange (r v : Nat) : ∀ f ∈ rngCfgFlds r, f.isOutOfRange (f.ofWord v) = false := by
  intro f hf
  simp only [rngCfgFlds, List.mem_cons, List.not_mem_nil, or_false] at hf
  rcases hf with rfl | rfl | rfl | rfl | rfl | rfl | rfl | rfl
  · rfl
  · rfl
  · rfl
  · rfl
  · unfold rVar; split <;> rfl
  · unfold rIsz; split <;> rfl
  · unfold rProd; split <;> rfl
  · unfold rCons; split <;> rfl

/-- Every field of RNG_CFG that a write takes is one of a secure slot. -/
theorem rngCfgFlds_rws (r : Nat) : ∀ f ∈ rngCfgFlds r, (f.ty == .rw) = false := by
  intro f hf
  simp only [rngCfgFlds, List.mem_cons, List.not_mem_nil, or_false] at hf
  rcases hf with rfl | rfl | rfl | rfl | rfl | rfl | rfl | rfl
  · rfl
  · rfl
  · rfl
  · rfl
  · unfold rVar; split <;> rfl
  · unfold rIsz; split <;> rfl
  · unfold rProd; split <;> rfl
  · unfold rCons; split <;> rfl

/-- A word that a secure slot may write: the fields that it would change are legal. -/
theorem wordRefused_rws {s : State} {k v : Nat} {l : List Fld} (hsec : s.secure k = true) (hrw : ∀ f ∈ l, (f.ty == .rw) = false)
    (hres : ∀ f ∈ l, f.ty = .rws → f.isReserved (f.ofWord v) = false) (hrng : ∀ f ∈ l, f.isOutOfRange (f.ofWord v) = false) :
    s.wordRefused k v l = none := by
  have hany : ∀ p : Fld → Bool, (∀ f ∈ l, f.ty = .rws → p f = false) → (l.filter fun f => f.ty == .rw || f.ty == .rws).any p = false := by
    intro p hp
    rw [List.any_eq_false]
    intro f hf
    obtain ⟨hmem, hty⟩ := List.mem_filter.1 hf
    rw [hrw f hmem, Bool.false_or, beq_iff_eq] at hty
    simp [hp f hmem hty]
  simp only [State.wordRefused, hsec, hany _ hres, hany _ fun f hf _ => hrng f hf]
  rfl

section
variable {slot : Slot} {r : Fin 48} {v : Word} {s : State} (hs : s.ready slot.val = true) (hsec : s.secure slot.val = true)
  (hen : s.on (rEn r) = true)
include hs hsec hen

omit hs in
theorem opRngCfgWrite_marked (hres : ∀ f ∈ rngCfgFlds r, f.ty = .rws → f.isReserved (f.ofWord v.toNat) = false) :
    opRngCfgWrite slot r v.toNat (s.marked slot.val) =
      if !decide (v.toNat / 2 ^ 31 % 2 = 1) &&
          (rngCfgFlds r).tail.all (fun f => !(f.ty == .rws) || f.ofWord v.toNat == (s.marked slot.val).rd f) then
        (.done, ((s.marked slot.val).ringDisable r).canNotes) else (.busy, s.marked slot.val) := by
  rw [opRngCfgWrite, wordRefused_rws (by rw [s.secure_marked, hsec]) (rngCfgFlds_rws r) hres (rngCfgFlds_inRange r _),
    (s.sameRing_marked slot.val r).on (by simp [ringFlds, ringCfg]), hen]
  rfl

theorem rngCfgWrite_busy (hv : 2 ^ 31 ≤ v.toNat) (hres : ∀ f ∈ rngCfgFlds r, f.isReserved (f.ofWord v.toNat) = false) :
    Refused (.rngCfgWrite slot r v) slot .busy s := by
  have hlt := v.isLt
  exact Refused.of_host (op := opRngCfgWrite slot r v.toNat) rfl hs
    (by rw [opRngCfgWrite_marked hsec hen fun f hf _ => hres f hf, if_neg (by simp; omega)])

theorem rngCfgWrite_disables (h8 : 8 ≤ r.val) (hv : v.toNat < 2 ^ 31)
    (hsame : ∀ f ∈ (rngCfgFlds r).tail, f.ty = .rws → f.ofWord v.toNat = s.rd f ∧ f.isReserved (s.rd f) = false) :
    Answers (.rngCfgWrite slot r v) slot .done s { flds := [rEn r], blks := [.can] } fun t => t.rd (rEn r) = 0 := by
  have h := s.sameRing_marked slot.val r
  have hbelow : (rEn r).belowHst := ringFlds_belowHst r _ (by simp [ringFlds, ringCfg])
  have hmem : ∀ f ∈ (rngCfgFlds r).tail, f ∈ ringFlds r := fun f hf =>
    List.mem_append_left _ (List.mem_append_left [rOfs r.val, rThr r] (List.mem_of_mem_tail hf))
  have hres : ∀ f ∈ rngCfgFlds r, f.ty = .rws → f.isReserved (f.ofWord v.toNat) = false := by
    intro f hf hty
    rcases List.mem_cons.1 hf with rfl | hf
    · rfl
    · obtain ⟨heq, hlegal⟩ := hsame f hf hty
      rw [heq, hlegal]
  have hall : (rngCfgFlds r).tail.all (fun f => !(f.ty == .rws) || f.ofWord v.toNat == (s.marked slot.val).rd f) = true := by
    rw [List.all_eq_true]
    intro f hf
    by_cases hty : f.ty = .rws
    · simp [h.flds f (hmem f hf), (hsame f hf hty).1]
    · simp [hty]
  have hop := opRngCfgWrite_marked hsec hen hres
  rw [if_pos (by rw [hall, Nat.div_eq_of_lt hv]; rfl), State.ringDisable, if_neg (by omega)] at hop
  refine Answers.of_host (op := opRngCfgWrite slot r v.toNat) rfl hs _ hop (((Frame.refl _ _).wr _ _ (by simp)).canNotes (by simp))
    (by simpa using hbelow) rfl ?_
  rw [State.rd_finish_below _ _ _ _ hbelow, (State.canNotes_only _).rd, State.rd_wr_same, Nat.zero_mod]

end

/-! ### The statement -/

/-- Where a slot's turn at a ring fails: the ring is disabled, or it is another slot's. -/
theorem ringRight_fails {s : State} {k r : Nat} {role : Fld} (h8 : 8 ≤ r) (hopen : s.on (rSecure r) = false) {c : Code}
    (hc : c ∈ [Code.notInMode, .ownedElsewhere])
    (h : (c = .notInMode → s.rd role = k ∧ s.on (rEn r) = false) ∧ (c = .ownedElsewhere → s.rd role ≠ k ∧ s.rd role ≠ 0x1F)) :
    s.ringRight k r role = some c := by
  simp only [List.mem_cons, List.not_mem_nil, or_false] at hc
  rcases hc with rfl | rfl
  · obtain ⟨hrole, hen⟩ := h.1 rfl
    exact ringRight_disabled h8 hopen hrole hen
  · obtain ⟨hrole, hany⟩ := h.2 rfl
    exact ringRight_other hopen hrole hany

theorem ridxRefused_back {s : State} {r : Nat} {v : Word} (h : 2 ^ 31 ≤ (v.toNat + 2 ^ 32 - s.rd (rRidx r)) % 2 ^ 32) :
    s.ridxRefused r v.toNat = some .alreadyDone := by
  rw [← Nat.mod_eq_of_lt v.isLt] at h
  exact if_pos h

theorem ridxRefused_forward {s : State} {r : Nat} {v : Word} (hvar : s.on (rVar r) = false)
    (hlt : (v.toNat + 2 ^ 32 - s.rd (rRidx r)) % 2 ^ 32 < 2 ^ 31) : s.ridxRefused r v.toNat =
    if s.fill r < (v.toNat + 2 ^ 32 - s.rd (rRidx r)) % 2 ^ 32 ∨
      (v.toNat + 2 ^ 32 - s.rd (rRidx r)) % 2 ^ 32 % (4 * 2 ^ s.rd (rIsz r)) ≠ 0 then some .outOfRange else none := by
  have hv : v.toNat % 2 ^ 32 = v.toNat := Nat.mod_eq_of_lt v.isLt
  simp only [State.ridxRefused, State.wholeItems, hvar, hv]
  rw [if_neg (by omega)]
  simp

/-- Settles O37, a clause for each command: a right that is refused answers alone (`ringRight`), a granted one acts as its own lemma above
says. -/
theorem ringsMoveWholeItems : Obligations.RingsMoveWholeItems := by
  unfold Obligations.RingsMoveWholeItems
  intro slot q r n ws v peek s hs
  refine ⟨fun hq h8 hopen hvar => ⟨fun hcons hen => ?_, fun hprod hen => ?_, fun c hc => ⟨fun h => ?_, fun h => ?_⟩, fun hready hrx hcons => ?_⟩,
    fun h48 h1 h64 => ringRead_noRing hs h1 h64 h48,
    fun hready hsec hen => ⟨rngCfgWrite_disables hready hsec hen, rngCfgWrite_busy hready hsec hen⟩⟩
  · have hr := ringRight_granted (k := slot.val) h8 hopen hcons hen
    refine ⟨fun h1 h64 _ hfill hfit => ringRead_items hs h1 h64 hq hr hvar hfill hfit,
      fun h1 h64 hfill => ringRead_empty hs h1 h64 hq hr hvar hfill, fun hreg => ⟨fun hle hwhole hlt => ?_, fun hback => ?_, fun hbad hlt => ?_⟩⟩
    · exact ridxWrite_done hreg hr ((ridxRefused_forward hvar hlt).trans (if_neg (by omega)))
    · exact ridxWrite_refused hreg hr (ridxRefused_back hback)
    · exact ridxWrite_refused hreg hr ((ridxRefused_forward hvar hlt).trans (if_pos hbad))
  · have hr := ringRight_granted (k := slot.val) h8 hopen hprod hen
    have hpos : ws.length = 2 ^ s.rd (rIsz r) → 0 < ws.length := fun hlen => hlen ▸ Nat.two_pow_pos _
    refine ⟨fun hlen h64 hflush htakes => ringWrite_stores hs hq (hpos hlen) h64 hr hvar hlen hflush htakes,
      fun hlen h64 hflush => ringWrite_flushed hs hq (hpos hlen) h64 hr hvar hlen hflush,
      fun h0 hshort h64 => ringWrite_short hs hq h0 h64 hr hvar hshort, fun hreg => ⟨fun _ hroom hwhole => ?_, fun hbad => ?_⟩⟩
    · exact widxWrite_done hreg hr (by
        simp only [State.wholeItems, hvar, Bool.false_or, hwhole, beq_self_eq_true, Bool.not_true, Bool.or_false, decide_eq_false_iff_not,
          Nat.not_lt]
        exact hroom)
    · exact widxWrite_outOfRange hreg hr (by
        simp only [State.wholeItems, hvar, Bool.false_or, Bool.or_eq_true, decide_eq_true_eq, Bool.not_eq_true', beq_eq_false_iff_ne]
        exact hbad)
  · have hr := ringRight_fails h8 hopen hc h
    exact ⟨fun h1 h64 => ringRead_noRight hs h1 h64 hq hr, fun hreg => ridxWrite_noRight hreg hr⟩
  · have hr := ringRight_fails h8 hopen hc h
    exact ⟨fun h0 h64 => ringWrite_noRight hs hq h0 h64 hr, fun hreg => widxWrite_noRight hreg hr⟩
  · exact ⟨fun it hended hwait hring hmoved => flush_begun h8 hopen hcons hready hended hwait hring hmoved hrx,
      fun hwait hended => flush_idle h8 hopen hcons hready ⟨hwait, hrx⟩ hended,
      fun k w hwait hk hended => flush_written h8 hopen hcons ⟨hwait, hrx⟩ hended hready hk⟩

end Sys2Proof.Machine
end

section
/-! SUPPORT. The script engine of a radio port (R714 to R717): what each instruction leaves, and the statement on them. -/

namespace Sys2Proof.Machine

open F

/-! ### An item that a ring takes, loses or makes room for -/

/-- A ring whose storage lies where it lay, with WIDX where it was. -/
theorem State.itemBytes_congr {s t : State} {r : Nat} (hsize : t.rd (rSize r) = s.rd (rSize r)) (hofs : t.rd (rOfs r) = s.rd (rOfs r))
    (hwidx : t.rd (rWidx r) = s.rd (rWidx r)) (n : Nat) : t.itemBytes r n = s.itemBytes r n := by
  simp only [State.itemBytes, hwidx, State.ringAt_congr r hsize hofs]

theorem State.itemBytes_wr (s : State) {r : Nat} {f : Fld} (hf : f ∈ [rRidx r, rDropped r, rDrop r]) (v n : Nat) :
    (s.wr f v).itemBytes r n = s.itemBytes r n := by
  have hne : f.key ≠ (rSize r).key ∧ f.key ≠ (rOfs r).key ∧ f.key ≠ (rWidx r).key := by
    simp only [List.mem_cons, List.not_mem_nil, or_false] at hf
    rcases hf with rfl | rfl | rfl <;>
      simp only [Fld.key, rRidx, rDropped, rDrop, rSize, rOfs, rWidx, F.rw, F.rws, F.rc, F.w1c] <;>
      omega
  exact State.itemBytes_congr (s.rd_wr_ne hne.1 v) (s.rd_wr_ne hne.2.1 v) (s.rd_wr_ne hne.2.2 v) n

theorem State.itemBytes_ringLose (s : State) (r k n : Nat) : (s.ringLose r k).itemBytes r n = s.itemBytes r n := by
  rw [State.ringLose, State.bump, State.itemBytes_wr _ (by simp), State.itemBytes_wr _ (by simp)]

theorem State.itemBytes_makeRoom (s : State) (r m fuel n : Nat) : (s.makeRoom r m fuel).itemBytes r n = s.itemBytes r n := by
  induction fuel generalizing s with
  | zero => rfl
  | succ fuel ih =>
    rw [State.makeRoom]
    split
    · rfl
    · rw [ih, State.itemBytes_ringLose, State.itemBytes_wr _ (by simp)]

section
variable {w : Touch} {s t : State} {r : Nat} (h : Frame w s t) (hridx : rRidx r ∈ w.flds) (hdropped : rDropped r ∈ w.flds)
  (hdrop : rDrop r ∈ w.flds)
include h hdropped hdrop

theorem Frame.ringLose_at (k : Nat) : Frame w s (t.ringLose r k) := (h.bump _ _ hdropped).wr _ _ hdrop

include hridx

theorem Frame.makeRoom_at (m fuel : Nat) : Frame w s (t.makeRoom r m fuel) := by
  induction fuel generalizing t with
  | zero => exact h
  | succ fuel ih =>
    rw [State.makeRoom]
    split
    · exact h
    · exact ih ((h.wr _ _ hridx).ringLose_at hdropped hdrop _)

theorem Frame.offer_at (ws : List Nat) (hwidx : rWidx r ∈ w.flds) (hb : ∀ a ∈ t.itemBytes r ws.length, a ∈ w.bytes) :
    Frame w s (t.offer r ws).2 := by
  simp only [State.offer]
  split
  · exact h.bump _ _ hdropped
  · split
    · exact h.ringLose_at hdropped hdrop _
    · split
      · exact h.ringAppend_at r ws hwidx hb
      · split
        · exact (h.makeRoom_at hridx hdropped hdrop _ _).ringAppend_at r ws hwidx fun a ha => hb a (by rwa [State.itemBytes_makeRoom] at ha)
        · exact h.ringLose_at hdropped hdrop _

end

/-- A hub producer's item changes the ring, its storage at WIDX and the port. -/
theorem Frame.give_at (s : State) (r : Nat) (ws : List Nat) : Frame (s.giveTouch r ws.length) s (s.give r ws) := by
  unfold State.give
  split
  · exact ((Frame.refl _ s).port _ (by simp [State.giveTouch])).offer_at (by simp [State.giveTouch]) (by simp [State.giveTouch])
      (by simp [State.giveTouch]) ws (by simp [State.giveTouch]) fun a ha => ha
  · exact (Frame.refl _ s).port _ (by simp [State.giveTouch])

/-! ### The engine at an instruction -/

/-- The port with its program counter moved on. -/
def State.pcNext (s : State) (p : Nat) : State := s.wr (aPc p) (s.rd (aPc p) + 1)

theorem State.rd_pc_pcNext (s : State) (p : Nat) : (s.pcNext p).rd (aPc p) = (s.rd (aPc p) + 1) % 256 := State.rd_wr_same _ _ _

theorem State.rd_pcNext_ne (s : State) {p : Nat} {f : Fld} (h : (aPc p).key ≠ f.key) : (s.pcNext p).rd f = s.rd f := State.rd_wr_ne _ h _

theorem State.radio_setRadio (s : State) (p : Nat) (x : RadS) : (s.setRadio p x).radio p = x := Assoc.get_put_same _ _ _ _

theorem State.a_setRadio (s : State) (p : Nat) (x : RadS) (f : Fld) : (s.setRadio p x).a f = s.a f := rfl

theorem Frame.pcNext {w : Touch} {s t : State} (h : Frame w s t) (p : Nat) (hf : aPc p ∈ w.flds) : Frame w s (t.pcNext p) := h.wr _ _ hf

/-- The instruction `op` is at the program counter. -/
def State.atOp (s : State) (p op : Nat) : Prop := s.atInstr p = true ∧ scriptOk (s.word p) = true ∧ s.word p / 2 ^ 24 = op

theorem script_runs {s : State} {p op : Nat} (h : s.atOp p op) (k : Nat → State → State) : s.script p op k = .next (k (s.word p) (s.pcNext p)) := by
  obtain ⟨hat, hok, hop⟩ := h
  unfold State.script
  rw [if_pos (by rw [hat, hok, hop]; simp)]
  rfl

theorem script_idle {s : State} {p : Nat} (h : s.atInstr p = false) (op : Nat) (k : Nat → State → State) : s.script p op k = .next s := by
  unfold State.script
  rw [h]
  rfl

section
variable {i : Instr} {s : State} {p : Fin 8} {op : Nat} {k : Nat → State → State} (hi : exec i s = s.script p op k) (hop : s.atOp p op)
include hi hop

theorem Happens.scripted {w : Touch} {P : State → Prop} {u : State} (hk : k (s.word p) (s.pcNext p) = u) (hframe : Frame w s u) (hP : P u) :
    Happens i s w P :=
  ⟨u, hi.trans ((script_runs hop k).trans (by rw [hk])), hframe, hP⟩

/-- An instruction that sets the engine and no more. -/
theorem Happens.scriptSets (y : RadS) (hk : k (s.word p) (s.pcNext p) = (s.pcNext p).setRadio p y) :
    Happens i s { flds := [aPc p], blks := [.radio p] } fun t => t.radio p = y ∧ t.rd (aPc p) = (s.rd (aPc p) + 1) % 256 :=
  Happens.scripted hi hop hk (((Frame.refl _ s).pcNext _ (by simp)).setRadio _ _ (by simp)) ⟨State.radio_setRadio _ _ _, s.rd_pc_pcNext p⟩

end

section
variable {p : Fin 8} {miso : Byte} {bytes : List Byte} {lqi rssi : Byte} {s : State}

theorem scriptXfer_sends (h : s.atOp p 1) : Happens (.scriptXfer p miso) s { flds := [aPc p], blks := [.radio p] } fun t =>
    t.radio p = { s.radio p with a := miso.toNat, cs := (s.word p).testBit 8, mosi := [s.word p % 256], bytes := 1 } ∧
    t.rd (aPc p) = (s.rd (aPc p) + 1) % 256 :=
  Happens.scriptSets (k := fun w s => s.spi p w w miso.toNat) rfl h _ (by rw [State.spi, Nat.mod_eq_of_lt miso.isLt]; rfl)

theorem scriptXferA_sends (h : s.atOp p 2) : Happens (.scriptXferA p miso) s { flds := [aPc p], blks := [.radio p] } fun t =>
    t.radio p = { s.radio p with a := miso.toNat, cs := (s.word p).testBit 8, mosi := [(s.radio p).a % 256], bytes := 1 } ∧
    t.rd (aPc p) = (s.rd (aPc p) + 1) % 256 :=
  Happens.scriptSets (k := fun w s => s.spi p w (s.radio p).a miso.toNat) rfl h _ (by rw [State.spi, Nat.mod_eq_of_lt miso.isLt]; rfl)

/-- SEND_FRAME's bytes: LENBYTE counts the two of the FCS. -/
theorem frameBytes_due (x : RadS) (len : Bool) : x.frameBytes len = match x.due with
    | some f => (if len then [(f.data.length + 2) % 256] else []) ++ f.data ++ fcs f.data
    | none => [] := by
  unfold RadS.frameBytes
  cases x.due with
  | none => rfl
  | some f => simp only [List.length_append, List.append_assoc]; rfl

theorem scriptSendFrame_sends (h : s.atOp p 3) : Happens (.scriptSendFrame p) s { flds := [aPc p], blks := [.radio p] } fun t =>
    t.radio p = { s.radio p with cs := (s.word p).testBit 8, mosi := (s.radio p).frameBytes ((s.word p).testBit 9)
                                 bytes := ((s.radio p).frameBytes ((s.word p).testBit 9)).length } ∧
    t.rd (aPc p) = (s.rd (aPc p) + 1) % 256 :=
  Happens.scriptSets (k := fun w s => s.setRadio p { s.radio p with
    cs := w.testBit 8, mosi := (s.radio p).frameBytes (w.testBit 9), bytes := ((s.radio p).frameBytes (w.testBit 9)).length }) rfl h _ rfl

theorem scriptRecvFrame_receives (h : s.atOp p 4) (hlen : bytes.length = (s.radio p).a) :
    Happens (.scriptRecvFrame p bytes lqi rssi) s { flds := [aPc p], blks := [.radio p, .fresh] } fun t =>
      t.rd (aPc p) = (s.rd (aPc p) + 1) % 256 ∧
      t.radio p = { s.radio p with cs := (s.word p).testBit 8, mosi := [], bytes := (s.radio p).a + s.word p / 2 ^ 9 % 4, rx := (t.radio p).rx } ∧
      (∀ i ∈ (t.radio p).rx.toList, i.psdu = bytes.map (·.toNat) ∧ (1 ≤ s.word p / 2 ^ 9 % 4 → i.lqi = lqi.toNat) ∧
        (s.word p / 2 ^ 9 % 4 = 2 → i.rssi = rssi.toNat)) ∧
      (t.radio p).rx.isSome = true := by
  have hexec : exec (.scriptRecvFrame p bytes lqi rssi) s =
      s.script p 4 fun w s => s.recvFrame p w (bytes.map (·.toNat)) lqi.toNat rssi.toNat := if_pos hlen
  refine Happens.scripted hexec h rfl
    ((((Frame.refl _ s).pcNext _ (by simp)).fresh _ (by simp)).setRadio _ _ (by simp)) ?_
  unfold State.recvFrame
  rw [State.radio_setRadio]
  refine ⟨s.rd_pc_pcNext p, ?_, ?_, rfl⟩
  · rw [List.length_map, hlen]
    rfl
  · intro i hi
    simp only [Option.toList_some, List.mem_singleton] at hi
    subst hi
    exact ⟨rfl, fun hm => if_neg (by omega), fun hm => if_pos hm⟩

theorem scriptLoada_loads (h : s.atOp p 6) : Happens (.scriptLoada p) s { flds := [aPc p], blks := [.radio p] } fun t =>
    t.radio p = { s.radio p with a := s.word p % 256 } ∧ t.rd (aPc p) = (s.rd (aPc p) + 1) % 256 :=
  Happens.scriptSets (k := fun w s => s.setRadio p { s.radio p with a := w % 256 }) rfl h _ rfl

theorem scriptAnda_masks (h : s.atOp p 7) : Happens (.scriptAnda p) s { flds := [aPc p], blks := [.radio p] } fun t =>
    t.radio p = { s.radio p with a := (s.radio p).a &&& (s.word p % 256) } ∧ t.rd (aPc p) = (s.rd (aPc p) + 1) % 256 :=
  Happens.scriptSets (k := fun w s => s.setRadio p { s.radio p with a := (s.radio p).a &&& (w % 256) }) rfl h _ rfl

theorem scriptWaitIrq_waits (h : s.atOp p 9) : Happens (.scriptWaitIrq p) s { flds := [aPc p], blks := [.radio p] } fun t =>
    t.radio p = { s.radio p with wait := true } ∧ t.rd (aPc p) = (s.rd (aPc p) + 1) % 256 :=
  Happens.scriptSets (k := fun _ s => s.setRadio p { s.radio p with wait := true }) rfl h _ rfl

theorem scriptDelay_waits (h : s.atOp p 10) : Happens (.scriptDelay p) s { flds := [aPc p], blks := [.radio p] } fun t =>
    t.radio p = { s.radio p with delay := true } ∧ t.rd (aPc p) = (s.rd (aPc p) + 1) % 256 :=
  Happens.scriptSets (k := fun _ s => s.setRadio p { s.radio p with delay := true }) rfl h _ rfl

theorem scriptReset_drives (h : s.atOp p 11) : Happens (.scriptReset p) s { flds := [aPc p], blks := [.radio p] } fun t =>
    t.radio p = { s.radio p with rst := (s.word p).testBit 0 } ∧ t.rd (aPc p) = (s.rd (aPc p) + 1) % 256 :=
  Happens.scriptSets (k := fun w s => s.setRadio p { s.radio p with rst := w.testBit 0 }) rfl h _ rfl

theorem scriptArmTxt_arms (h : s.atOp p 12) : Happens (.scriptArmTxt p) s { flds := [aPc p], blks := [.radio p] } fun t =>
    t.radio p = { s.radio p with armed := true } ∧ t.rd (aPc p) = (s.rd (aPc p) + 1) % 256 :=
  Happens.scriptSets (k := fun _ s => s.setRadio p { s.radio p with armed := true }) rfl h _ rfl

/-- A JUMP that its word defines is taken as its condition says. -/
theorem jumps_iff (x : RadS) {c : Nat} (hc : c < 4) : x.jumps c = true ↔ c = 0 ∨ (c = 1 ∧ x.a = 0) ∨ (c = 2 ∧ x.a ≠ 0) ∨ (c = 3 ∧ x.t = true) := by
  match c, hc with
  | 0, _ => simp [RadS.jumps]
  | 1, _ => simp [RadS.jumps]
  | 2, _ => simp [RadS.jumps]
  | 3, _ => simp [RadS.jumps]

theorem scriptOk_jump {w : Nat} (h : scriptOk w = true) (hop : w / 2 ^ 24 = 8) : w / 2 ^ 8 % 8 < 4 := by
  simp only [scriptOk, hop, Bool.and_eq_true, Bool.not_eq_true', beq_self_eq_true, Bool.true_and, decide_eq_false_iff_not, Nat.not_le] at h
  exact h.1.2

theorem scriptJump_jumps (h : s.atOp p 8) : Happens (.scriptJump p) s { flds := [aPc p] } fun t =>
    t.rd (aPc p) = if s.word p / 2 ^ 8 % 8 = 0 ∨ (s.word p / 2 ^ 8 % 8 = 1 ∧ (s.radio p).a = 0) ∨
      (s.word p / 2 ^ 8 % 8 = 2 ∧ (s.radio p).a ≠ 0) ∨ (s.word p / 2 ^ 8 % 8 = 3 ∧ (s.radio p).t = true) then s.word p % 256
      else (s.rd (aPc p) + 1) % 256 := by
  have hc := jumps_iff (s.radio p) (scriptOk_jump h.2.1 h.2.2)
  refine Happens.scripted (k := fun w s => if (s.radio p).jumps (w / 2 ^ 8 % 8) then s.wr (aPc p) (w % 256) else s) rfl h rfl ?_ ?_
  · split
    · exact ((Frame.refl _ s).pcNext _ (by simp)).wr _ _ (by simp)
    · exact (Frame.refl _ s).pcNext _ (by simp)
  · rw [show ((s.pcNext p).radio p) = s.radio p from rfl]
    by_cases hj : (s.radio p).jumps (s.word p / 2 ^ 8 % 8) = true
    · rw [if_pos hj, if_pos (hc.1 hj), State.rd_wr_same]
      exact Nat.mod_mod _ _
    · rw [if_neg hj, if_neg (mt hc.2 hj), s.rd_pc_pcNext]

theorem scriptWaitEnd_goes {irq : Bool} (hon : s.radioOn p = true) (hwait : (s.radio p).wait = true) :
    Happens (.scriptWaitEnd p irq) s { blks := [.radio p] } fun t => t.radio p = { s.radio p with wait := false, t := !irq } :=
  ⟨_, congrArg Host.Outcome.next (if_pos (by rw [hon, hwait]; rfl)), (Frame.refl _ s).setRadio _ _ (by simp), State.radio_setRadio _ _ _⟩

theorem scriptDelayEnd_goes (hon : s.radioOn p = true) (hdelay : (s.radio p).delay = true) :
    Happens (.scriptDelayEnd p) s { blks := [.radio p] } fun t => t.radio p = { s.radio p with delay := false } :=
  ⟨_, congrArg Host.Outcome.next (if_pos (by rw [hon, hdelay]; rfl)), (Frame.refl _ s).setRadio _ _ (by simp), State.radio_setRadio _ _ _⟩

end

/-! ### The end of a slot (R714) -/

/-- A register in which the engine keeps its state, its slot and its program counter. -/
def Fld.ofEngine (f : Fld) (p : Nat) : Prop := f = aPc p ∨ f = aState p ∨ f = aSlot p

theorem ofEngine_key {f : Fld} {p : Nat} (h : f.ofEngine p) : f.key / 32 = aBase p + 4 := by
  rcases h with rfl | rfl | rfl <;> simp only [Fld.key, aPc, aState, aSlot, F.ro] <;> omega

theorem rd_wr_engine {s : State} {f g : Fld} {p : Nat} (h : f.ofEngine p) (hg : g.key / 32 ≠ aBase p + 4) (v : Nat) : (s.wr f v).rd g = s.rd g :=
  State.rd_wr_ne _ (fun e => hg (by rw [← e, ofEngine_key h])) _

/-- What decides whether a port has a transmission due: the link's registers, and the port's active configuration. -/
def linkFlds (p : Nat) : List Fld := [pBp, pBofs, pEn, pPorts, glbMode, pa pRbStart, aa (aTxLat p), aa (aLoadLead p), aa (aMode p)]

theorem linkFlds_apart {p : Nat} (hp : p < 8) : ∀ g ∈ linkFlds p, g.key / 32 ≠ aBase p + 4 := by
  intro g hg
  simp only [linkFlds, List.mem_cons, List.not_mem_nil, or_false] at hg
  rcases hg with rfl | rfl | rfl | rfl | rfl | rfl | rfl | rfl | rfl <;>
    simp only [Fld.key, pBp, pBofs, pEn, pPorts, glbMode, pRbStart, pa, aa, active, aTxLat, aLoadLead, aMode, F.rws, F.rw, F.ro, aBase] <;>
    omega

theorem noTx_congr {s t : State} {p : Nat} (hrd : ∀ g ∈ linkFlds p, t.rd g = s.rd g) (hhtm : t.htm = s.htm) (hrad : t.radio p = s.radio p) :
    t.noTx p = s.noTx p := by
  simp only [linkFlds, List.mem_cons, List.not_mem_nil, or_false, forall_eq_or_imp, forall_eq] at hrd
  obtain ⟨hbp, hbofs, hen, hports, hmode, hrb, hlat, hlead, hamode⟩ := hrd
  simp only [State.noTx, State.txPick, State.linkPort, State.beaconMode, State.mode, State.loadAt, State.commitDue, State.inDownlink,
    State.beaconAt, State.nextBeacon, State.superframe, State.bpNs, State.bofsNs, State.nowStamp, State.aon, State.a, State.on, State.bit, hbp,
    hbofs, hen, hports, hmode, hrb, hlat, hlead, hamode, hhtm, hrad, apply_ite Option.isNone, Option.isNone_some]
  rfl

theorem noTx_wr_engine {s : State} {p : Nat} (hp : p < 8) {f : Fld} (hf : f.ofEngine p) (v : Nat) : (s.wr f v).noTx p = s.noTx p :=
  noTx_congr (fun g hg => rd_wr_engine hf (linkFlds_apart hp g hg) v) rfl rfl

theorem hubStart_running {s : State} {p : Nat} (h : s.rd (aState p) = 2) (j : Nat) : s.hubStart p j =
    if s.aon (aMode p) then s else s.setRadio p { s.radio p with starts := (s.radio p).starts ||| 2 ^ j } := by
  unfold State.hubStart State.slotStart
  rw [h]
  rfl

/-- The starts that the end of slot k makes. -/
def State.startsAfter (s : State) (p k : Nat) : Nat :=
  if s.aon (aMode p) then 0 else if k = 0 ∨ (k = 5 ∧ s.noTx p = true) then 2 else if k = 3 then 16 else 0

/-- A running port whose slot k has asked for its successor. -/
def State.followed (s : State) (p k : Nat) : State :=
  if k = 0 ∨ (k = 5 ∧ s.noTx p) then s.hubStart p 1 else if k = 3 then s.hubStart p 4 else s

theorem slotEnd_eq (s : State) (p : Nat) :
    s.slotEnd p = (((s.wr (aState p) 2).followed p (s.rd (aSlot p))).wr (aState p) 1).slotNext p := rfl

theorem followed_starts {s : State} {p : Nat} (h : s.rd (aState p) = 2) (k : Nat) :
    (s.followed p k).radio p = { s.radio p with starts := (s.radio p).starts ||| s.startsAfter p k } ∧
    (∀ f, (s.followed p k).rd f = s.rd f) ∧ Frame { blks := [.radio p] } s (s.followed p k) := by
  have hstart : ∀ j, (s.hubStart p j).radio p =
      { s.radio p with starts := (s.radio p).starts ||| if s.aon (aMode p) then 0 else 2 ^ j } ∧
      (∀ f, (s.hubStart p j).rd f = s.rd f) ∧ Frame { blks := [.radio p] } s (s.hubStart p j) := by
    intro j
    rw [hubStart_running h]
    split
    · exact ⟨by rw [Nat.or_zero], fun _ => rfl, Frame.refl _ s⟩
    · exact ⟨State.radio_setRadio _ _ _, fun _ => rfl, (Frame.refl _ s).setRadio _ _ (by simp)⟩
  unfold State.followed State.startsAfter
  split
  · exact hstart 1
  · split
    · exact hstart 4
    · exact ⟨by rw [ite_self, Nat.or_zero], fun _ => rfl, Frame.refl _ s⟩

theorem lowestBit_lt {m j : Nat} (h : lowestBit m = some j) : j < 8 := List.mem_range.1 (List.mem_of_find?_eq_some h)

/-- The registers of a slot that starts, and its engine. -/
def State.slotRegs (s : State) (p j : Nat) : State := ((s.wr (aState p) 2).wr (aSlot p) j).wr (aPc p) (s.a (aEntry p j))

def RadS.slotOn (x : RadS) (j : Nat) : RadS :=
  if j = 1 then { x with wait := false, delay := false, recv := true, sfd := none } else { x with wait := false, delay := false }

theorem RadS.slotOn_starts (x : RadS) (j : Nat) : (x.slotOn j).starts = x.starts := by
  unfold RadS.slotOn
  split <;> rfl

theorem a_entry_wr_engine {s : State} {p : Nat} {f : Fld} (hf : f.ofEngine p) (v j : Nat) : (s.wr f v).a (aEntry p j) = s.a (aEntry p j) :=
  rd_wr_engine hf (by simp only [Fld.key, aa, active, aEntry, F.rw, aBase]; omega) v

theorem slotGo_eq (s : State) (p j : Nat) : s.slotGo p j = (s.slotRegs p j).setRadio p ((s.radio p).slotOn j) := by
  have hentry : ((s.wr (aState p) 2).wr (aSlot p) j).a (aEntry p j) = s.a (aEntry p j) := by
    rw [a_entry_wr_engine (.inr (.inr rfl)), a_entry_wr_engine (.inr (.inl rfl))]
  unfold State.slotRegs RadS.slotOn State.slotGo
  rw [← hentry]
  split <;> rfl

theorem slotGo_starts {s : State} {p j : Nat} (hj : j < 8) :
    (s.slotGo p j).rd (aState p) = 2 ∧ (s.slotGo p j).rd (aSlot p) = j ∧ (s.slotGo p j).rd (aPc p) = s.a (aEntry p j) % 256 ∧
    ((s.slotGo p j).radio p).starts = (s.radio p).starts ∧
    Frame { flds := [aState p, aSlot p, aPc p], blks := [.radio p] } s (s.slotGo p j) := by
  have hkeys : (aPc p).key ≠ (aSlot p).key ∧ (aPc p).key ≠ (aState p).key ∧ (aSlot p).key ≠ (aState p).key := by
    simp only [Fld.key, aPc, aSlot, aState, F.ro]
    omega
  have hrd : ∀ f, (s.slotGo p j).rd f = (s.slotRegs p j).rd f := fun f => by rw [slotGo_eq]; rfl
  refine ⟨?_, ?_, ?_, ?_, ?_⟩
  · rw [hrd, State.slotRegs, State.rd_wr_ne _ hkeys.2.1, State.rd_wr_ne _ hkeys.2.2, State.rd_wr_same]
    rfl
  · rw [hrd, State.slotRegs, State.rd_wr_ne _ hkeys.1, State.rd_wr_same]
    exact Nat.mod_eq_of_lt hj
  · rw [hrd, State.slotRegs, State.rd_wr_same]
    rfl
  · rw [slotGo_eq, State.radio_setRadio, RadS.slotOn_starts]
  · rw [slotGo_eq]
    exact ((((Frame.refl _ s).wr _ _ (by simp)).wr _ _ (by simp)).wr _ _ (by simp)).setRadio _ _ (by simp)

section
variable {s : State} {p : Nat} (h : s.rd (aState p) = 1)
include h

theorem slotNext_some {j : Nat} (hj : lowestBit (s.radio p).starts = some j) :
    s.slotNext p = (s.setRadio p { s.radio p with starts := (s.radio p).starts - 2 ^ j }).slotGo p j := by
  unfold State.slotNext
  rw [hj]
  exact if_pos h

omit h in
theorem slotNext_none (hn : lowestBit (s.radio p).starts = none) : s.slotNext p = s := by
  unfold State.slotNext
  rw [hn]

end

theorem startsAfter_wr_engine {s : State} {p : Nat} (hp : p < 8) {f : Fld} (hf : f.ofEngine p) (v k : Nat) :
    (s.wr f v).startsAfter p k = s.startsAfter p k := by
  unfold State.startsAfter State.aon State.on
  rw [noTx_wr_engine hp hf, rd_wr_engine hf (linkFlds_apart hp _ (by simp [linkFlds]))]

/-- The port as the end of its slot leaves it, before the next waiting start. -/
def State.slotOver (s : State) (p : Nat) : State := (((s.wr (aState p) 2).followed p (s.rd (aSlot p))).wr (aState p) 1)

theorem slotOver_pcNext {s : State} {p : Nat} (hp : p < 8) :
    ((s.pcNext p).slotOver p).rd (aState p) = 1 ∧
    ((s.pcNext p).slotOver p).radio p = { s.radio p with starts := (s.radio p).starts ||| s.startsAfter p (s.rd (aSlot p)) } ∧
    (∀ j, ((s.pcNext p).slotOver p).a (aEntry p j) = s.a (aEntry p j)) ∧
    Frame { flds := [aState p, aSlot p, aPc p], blks := [.radio p] } s ((s.pcNext p).slotOver p) := by
  have hpc : (aPc p).ofEngine p := .inl rfl
  have hst : (aState p).ofEngine p := .inr (.inl rfl)
  have hslot : (s.pcNext p).rd (aSlot p) = s.rd (aSlot p) := s.rd_pcNext_ne (by simp only [Fld.key, aPc, aSlot, F.ro]; omega)
  have hafter : ((s.pcNext p).wr (aState p) 2).startsAfter p (s.rd (aSlot p)) = s.startsAfter p (s.rd (aSlot p)) := by
    rw [startsAfter_wr_engine hp hst, State.pcNext, startsAfter_wr_engine hp hpc]
  obtain ⟨hradio, hrd, hframe⟩ := followed_starts (s := (s.pcNext p).wr (aState p) 2) (p := p) (State.rd_wr_same _ _ _) (s.rd (aSlot p))
  rw [hafter] at hradio
  unfold State.slotOver
  rw [hslot]
  refine ⟨State.rd_wr_same _ _ _, hradio, fun j => ?_, ?_⟩
  · rw [a_entry_wr_engine hst, State.a, hrd]
    exact (a_entry_wr_engine hst 2 j).trans (a_entry_wr_engine hpc _ j)
  · have hpre : Frame { flds := [aState p, aSlot p, aPc p], blks := [.radio p] } s ((s.pcNext p).wr (aState p) 2) :=
      ((Frame.refl _ s).pcNext p (by simp)).wr _ _ (by simp)
    exact (hpre.trans (Frame.mono (v := { blks := [.radio p] }) (fun _ hf => absurd hf List.not_mem_nil) (fun _ h => h) (fun _ h => h)
      (fun _ h => h) id hframe)).wr _ _ (by simp)

theorem scriptEnd_ends {p : Fin 8} {s : State} (h : s.atOp p 0) :
    Happens (.scriptEnd p) s { flds := [aState p, aSlot p, aPc p], blks := [.radio p] } fun t =>
      (lowestBit ((s.radio p).starts ||| s.startsAfter p (s.rd (aSlot p))) = none →
        t.rd (aState p) = 1 ∧ (t.radio p).starts = (s.radio p).starts ||| s.startsAfter p (s.rd (aSlot p))) ∧
      ∀ j ∈ (lowestBit ((s.radio p).starts ||| s.startsAfter p (s.rd (aSlot p)))).toList,
        t.rd (aState p) = 2 ∧ t.rd (aSlot p) = j ∧ t.rd (aPc p) = s.a (aEntry p j) % 256 ∧
        (t.radio p).starts = ((s.radio p).starts ||| s.startsAfter p (s.rd (aSlot p))) - 2 ^ j := by
  obtain ⟨hstate, hradio, hentry, hframe⟩ := slotOver_pcNext (s := s) p.isLt
  have hrun : (s.pcNext p).slotEnd p = ((s.pcNext p).slotOver p).slotNext p := slotEnd_eq _ _
  cases hlow : lowestBit ((s.radio p).starts ||| s.startsAfter p (s.rd (aSlot p))) with
  | none =>
    refine Happens.scripted (k := fun _ s => s.slotEnd p) rfl h (hrun.trans (slotNext_none (by rw [hradio, hlow]))) hframe
      ⟨fun _ => ⟨hstate, by rw [hradio]⟩, fun j hj => absurd hj List.not_mem_nil⟩
  | some j =>
    obtain ⟨hst, hs, hpc, hstarts, hgo⟩ := slotGo_starts (s := ((s.pcNext p).slotOver p).setRadio p
      { ((s.pcNext p).slotOver p).radio p with starts := (((s.pcNext p).slotOver p).radio p).starts - 2 ^ j }) (p := p) (lowestBit_lt hlow)
    refine Happens.scripted (k := fun _ s => s.slotEnd p) rfl h (hrun.trans (slotNext_some hstate (j := j) (by rw [hradio, hlow])))
      ((hframe.setRadio _ _ (by simp)).trans hgo) ⟨nofun, fun i hi => ?_⟩
    simp only [Option.toList_some, List.mem_singleton] at hi
    subst hi
    refine ⟨hst, hs, ?_, ?_⟩
    · rw [hpc, State.a_setRadio, hentry]
    · rw [hstarts, State.radio_setRadio, hradio]

/-! ### A port that halts (R717) -/

/-- What giving up a frame may change: its marks, and the ring of its report. -/
def State.lateTouch (s : State) (p : Nat) : Touch := (s.giveTouch (16 + p) 5).and { flds := [aEvt p, aTxLate p], blks := [.radio p] }

/-- A port's registers lie apart from those of its receive ring. -/
theorem radioFld_apart {p : Nat} {f : Fld} (hp : p < 8) (hf : f.addr = aBase p + 4 ∨ f.addr = aBase p + 0xC ∨ f.addr = aBase p + 0x64) :
    ∀ g ∈ [rWidx (16 + p), rRidx (16 + p), rDropped (16 + p), rDrop (16 + p), rSize (16 + p), rOfs (16 + p)], g.key ≠ f.key := by
  intro g hg
  simp only [List.mem_cons, List.not_mem_nil, or_false] at hg
  rcases hg with rfl | rfl | rfl | rfl | rfl | rfl <;>
    simp only [Fld.key, rWidx, rRidx, rDropped, rDrop, rSize, rOfs, F.rw, F.rc, F.w1c, F.rws, rBase, ne_eq] <;>
    unfold aBase at hf <;>
    omega

theorem giveTouch_wr {s : State} {p : Nat} {f : Fld} (hp : p < 8)
    (hf : f.addr = aBase p + 4 ∨ f.addr = aBase p + 0xC ∨ f.addr = aBase p + 0x64) (v n : Nat) :
    (s.wr f v).giveTouch (16 + p) n = s.giveTouch (16 + p) n := by
  have hne := radioFld_apart hp hf
  unfold State.giveTouch
  rw [State.itemBytes_congr (s := s) (s.rd_wr_ne (hne (rSize (16 + p)) (by simp)).symm v) (s.rd_wr_ne (hne (rOfs (16 + p)) (by simp)).symm v)
    (s.rd_wr_ne (hne (rWidx (16 + p)) (by simp)).symm v)]

theorem State.rd_give {s : State} {p : Nat} {f : Fld} (hp : p < 8) (hlo : f.lo < 32)
    (hf : f.addr = aBase p + 4 ∨ f.addr = aBase p + 0xC ∨ f.addr = aBase p + 0x64) (ws : List Nat) : (s.give (16 + p) ws).rd f = s.rd f :=
  (Frame.give_at s (16 + p) ws).regs f (fun g hg => radioFld_apart hp hf g (by simp [State.giveTouch] at hg ⊢; tauto)) hlo
    (by simp [Fld.outside, State.giveTouch])

theorem State.radio_give (s : State) (r : Nat) (ws : List Nat) (p : Nat) : (s.give r ws).radio p = s.radio p :=
  (Frame.give_at s r ws).blks (.radio p) (by simp [State.giveTouch]) (by simp [State.giveTouch, Blk.kind])

/-- A frame given up, before its report. -/
def State.lateMarked (s : State) (p : Nat) (late : Option Nat) : State :=
  ((s.setRadio p { s.radio p with due := none, armed := false, missed := late }).bump (aTxLate p)).radFlag p 3

theorem txLate_none {s : State} {p : Nat} (h : (s.radio p).due = none) : s.txLate p = s := by
  simp only [State.txLate, h]

theorem txReport_length (s : State) (t result : Nat) : (varItem 0x02 (s.time96b t ++ [result, 0, 0, 0])).length = 5 := rfl

/-- A frame that is given up is marked, and reported unless it is the hub's own. -/
theorem txLate_some {s : State} {p : Nat} (h : (s.radio p).due ≠ none) :
    ∃ late, s.txLate p = s.lateMarked p late ∨ ∃ ws, ws.length = 5 ∧ s.txLate p = (s.lateMarked p late).give (16 + p) ws := by
  obtain ⟨f, hf⟩ := Option.ne_none_iff_exists'.1 h
  refine ⟨if f.kind = .beacon then f.inst else (s.radio p).missed, ?_⟩
  unfold State.txLate
  simp only [hf]
  split
  · exact .inl rfl
  · exact .inl rfl
  · exact .inr ⟨_, txReport_length _ _ 1, rfl⟩

theorem lateMarked_marks (s : State) (p : Nat) (late : Option Nat) :
    (s.lateMarked p late).rd (aTxLate p) = min (s.rd (aTxLate p) + 1) 65535 ∧ (s.lateMarked p late).bit (aEvt p) 3 = true ∧
    ((s.lateMarked p late).radio p).due = none := by
  have hkey : (aEvt p).key ≠ (aTxLate p).key := by
    simp only [Fld.key, aEvt, aTxLate, F.w1c, F.rc]
    omega
  refine ⟨?_, State.bit_setBits_same _ (show 3 < 9 by decide), ?_⟩
  · rw [State.lateMarked, State.radFlag, State.setBits, State.rd_wr_ne _ hkey, State.bump, State.rd_wr_same,
      show 2 ^ (aTxLate p).width = 65536 from rfl]
    exact Nat.mod_eq_of_lt (Nat.lt_succ_of_le (Nat.min_le_right _ _))
  · exact congrArg RadS.due (State.radio_setRadio s p _)

theorem bit_lateMarked {s : State} {p : Nat} (late : Option Nat) {i : Nat} (hi : i < 9) (h : s.bit (aEvt p) i = true) :
    (s.lateMarked p late).bit (aEvt p) i = true := by
  refine State.bit_setBits _ _ _ _ ?_ hi
  unfold State.bit at h ⊢
  rw [State.bump, State.rd_wr_ne _ (by simp only [Fld.key, aEvt, aTxLate, F.w1c, F.rc]; omega)]
  exact h

theorem Frame.lateMarked {w : Touch} {s t : State} {p : Nat} (h : Frame w s t) (late : Option Nat) (hl : aTxLate p ∈ w.flds) (he : aEvt p ∈ w.flds)
    (hb : .radio p ∈ w.blks) : Frame w s (t.lateMarked p late) := ((h.setRadio _ _ hb).bump _ _ hl).setBits _ _ he

theorem giveTouch_lateMarked {s : State} {p : Nat} (hp : p < 8) (late : Option Nat) (n : Nat) :
    (s.lateMarked p late).giveTouch (16 + p) n = s.giveTouch (16 + p) n := by
  rw [State.lateMarked, State.radFlag, State.setBits, giveTouch_wr hp (.inr (.inl rfl)), State.bump, giveTouch_wr hp (.inr (.inr rfl))]
  rfl

theorem Frame.txLate {s : State} {p : Nat} (hp : p < 8) : Frame (s.lateTouch p) s (s.txLate p) := by
  by_cases hdue : (s.radio p).due = none
  · rw [txLate_none hdue]
    exact Frame.refl _ s
  · obtain ⟨late, hlate⟩ := txLate_some hdue
    have hmark : Frame (s.lateTouch p) s (s.lateMarked p late) :=
      (Frame.refl _ s).lateMarked late (by simp [State.lateTouch, Touch.and]) (by simp [State.lateTouch, Touch.and])
        (by simp [State.lateTouch, Touch.and])
    rcases hlate with heq | ⟨ws, hlen, heq⟩
    · rw [heq]
      exact hmark
    · have hgive := Frame.give_at (s.lateMarked p late) (16 + p) ws
      rw [giveTouch_lateMarked hp, hlen] at hgive
      rw [heq]
      exact hmark.trans (Frame.mono (v := s.giveTouch (16 + p) 5) (fun f hf => List.mem_append_left _ hf) (fun _ h => h)
        (fun b hb => List.mem_append_left _ hb) (fun a ha => List.mem_append_left _ ha) nofun hgive)

/-- The engine's own word stays. -/
theorem State.rd_txLate {s : State} {p : Nat} (hp : p < 8) {f : Fld} (hf : f.addr = aBase p + 4) (hlo : f.lo < 32) :
    (s.txLate p).rd f = s.rd f := by
  refine (Frame.txLate hp).regs f (fun g hg => ?_) hlo (by simp [Fld.outside, State.lateTouch, State.giveTouch, Touch.and])
  rcases List.mem_append.1 hg with hg | hg
  · exact radioFld_apart hp (.inl hf) g (by simp [State.giveTouch] at hg ⊢; tauto)
  · simp only [List.mem_cons, List.not_mem_nil, or_false] at hg
    rcases hg with rfl | rfl <;> simp only [Fld.key, aEvt, aTxLate, F.w1c, F.rc] <;> omega

theorem txLate_marks {s : State} {p : Nat} (hp : p < 8) (hdue : (s.radio p).due ≠ none) :
    (s.txLate p).rd (aTxLate p) = min (s.rd (aTxLate p) + 1) 65535 ∧ (s.txLate p).bit (aEvt p) 3 = true ∧
    ((s.txLate p).radio p).due = none := by
  obtain ⟨late, hlate⟩ := txLate_some hdue
  have hmarks := lateMarked_marks s p late
  rcases hlate with heq | ⟨ws, -, heq⟩ <;> rw [heq]
  · exact hmarks
  · rwa [State.bit, State.rd_give hp (show 16 < 32 by decide) (.inr (.inr rfl)), State.rd_give hp (show 0 < 32 by decide) (.inr (.inl rfl)), State.radio_give]

theorem bit_txLate {s : State} {p i : Nat} (hp : p < 8) (hi : i < 9) (h : s.bit (aEvt p) i = true) : (s.txLate p).bit (aEvt p) i = true := by
  by_cases hdue : (s.radio p).due = none
  · rwa [txLate_none hdue]
  · obtain ⟨late, hlate⟩ := txLate_some hdue
    have hbit := bit_lateMarked late hi h
    rcases hlate with heq | ⟨ws, -, heq⟩ <;> rw [heq]
    · exact hbit
    · rwa [State.bit, State.rd_give hp (show 0 < 32 by decide) (.inr (.inl rfl))]

/-- A halted port, its frame given up. -/
def State.haltLate (s : State) (p : Nat) : State := if (s.radio p).armed then (s.wr (aState p) 3).txLate p else s.wr (aState p) 3

def RadS.halted (x : RadS) : RadS := { x with starts := 0, wait := false, delay := false, recv := false, queue := [], await := false }

theorem radioHalt_eq (s : State) (p : Nat) : s.radioHalt p = (s.haltLate p).setRadio p ((s.haltLate p).radio p).halted := rfl

/-- What a halt may change: the engine, and the ring of the report on the frame that it gives up. -/
def State.haltTouch (s : State) (p : Nat) : Touch :=
  (s.giveTouch (16 + p) 5).and { flds := [aState p, aEvt p, aTxLate p, aHaltCode p, aPc p], blks := [.radio p] }

theorem lateTouch_wr {s : State} {p : Nat} {f : Fld} (hp : p < 8) (hf : f.addr = aBase p + 4 ∨ f.addr = aBase p + 0xC ∨ f.addr = aBase p + 0x64)
    (v : Nat) : (s.wr f v).lateTouch p = s.lateTouch p := by
  rw [State.lateTouch, giveTouch_wr hp hf, State.lateTouch]

theorem Frame.of_late {s t u : State} {p : Nat} (h : Frame (s.lateTouch p) t u) : Frame (s.haltTouch p) t u :=
  Frame.mono (v := s.lateTouch p)
    (fun f hf => by
      simp only [State.lateTouch, State.haltTouch, Touch.and, List.mem_append, List.mem_cons, List.not_mem_nil, or_false] at hf ⊢
      tauto)
    (fun _ h => h) (fun _ h => h) (fun _ h => h) id h

theorem radioHalt_halts {s : State} {p : Nat} (hp : p < 8) :
    Frame (s.haltTouch p) s (s.radioHalt p) ∧ (s.radioHalt p).rd (aState p) = 3 ∧ ((s.radioHalt p).radio p).starts = 0 ∧
    ((s.radioHalt p).radio p).queue = [] ∧
    (∀ f : Fld, f.addr = aBase p + 4 → f.lo < 32 → (aState p).key ≠ f.key → (s.radioHalt p).rd f = s.rd f) ∧
    (∀ i < 9, s.bit (aEvt p) i = true → (s.radioHalt p).bit (aEvt p) i = true) ∧
    ((s.radio p).armed = true → (s.radio p).due ≠ none → (s.radioHalt p).rd (aTxLate p) = min (s.rd (aTxLate p) + 1) 65535 ∧
      (s.radioHalt p).bit (aEvt p) 3 = true ∧ ((s.radioHalt p).radio p).due = none) := by
  have hst : (aState p).addr = aBase p + 4 := rfl
  have hkeys : (aState p).key ≠ (aTxLate p).key ∧ (aState p).key ≠ (aEvt p).key := by
    simp only [Fld.key, aState, aTxLate, aEvt, F.ro, F.rc, F.w1c]
    omega
  have hframe : Frame (s.haltTouch p) s (s.haltLate p) := by
    have hwr : Frame (s.haltTouch p) s (s.wr (aState p) 3) := (Frame.refl _ s).wr _ _ (by simp [State.haltTouch, Touch.and])
    unfold State.haltLate
    split
    · have hlate := Frame.txLate (s := s.wr (aState p) 3) hp
      rw [lateTouch_wr hp (.inl hst)] at hlate
      exact hwr.trans hlate.of_late
    · exact hwr
  have hrd : ∀ f : Fld, f.addr = aBase p + 4 → f.lo < 32 → (s.haltLate p).rd f = (s.wr (aState p) 3).rd f := by
    intro f hf hlo
    unfold State.haltLate
    split
    · exact State.rd_txLate hp hf hlo
    · rfl
  have hbit : ∀ i < 9, s.bit (aEvt p) i = true → (s.haltLate p).bit (aEvt p) i = true := by
    intro i hi h
    have hkept : (s.wr (aState p) 3).bit (aEvt p) i = true := by rwa [State.bit, State.rd_wr_ne _ hkeys.2]
    unfold State.haltLate
    split
    · exact bit_txLate hp hi hkept
    · exact hkept
  rw [radioHalt_eq]
  refine ⟨hframe.setRadio _ _ (by simp [State.haltTouch, Touch.and]), (hrd _ hst (show 0 < 32 by decide)).trans (State.rd_wr_same _ _ _), ?_, ?_,
    fun f hf hlo hne => (hrd f hf hlo).trans (State.rd_wr_ne _ hne _), hbit, fun harmed hdue => ?_⟩
  · rw [State.radio_setRadio]; rfl
  · rw [State.radio_setRadio]; rfl
  · have hlate : s.haltLate p = (s.wr (aState p) 3).txLate p := if_pos harmed
    obtain ⟨hcount, hflag, hgone⟩ := txLate_marks (s := s.wr (aState p) 3) hp hdue
    rw [State.rd_wr_ne _ hkeys.1] at hcount
    rw [State.radio_setRadio, hlate]
    exact ⟨hcount, hflag, hgone⟩

theorem haltTouch_wr {s : State} {p : Nat} {f : Fld} (hp : p < 8) (hf : f.addr = aBase p + 4 ∨ f.addr = aBase p + 0xC ∨ f.addr = aBase p + 0x64)
    (v : Nat) : (s.wr f v).haltTouch p = s.haltTouch p := by
  rw [State.haltTouch, giveTouch_wr hp hf, State.haltTouch]

/-- The port has halted: nothing waits, and an armed frame is given up. -/
def State.haltedFrom (t s : State) (p : Nat) : Prop :=
  t.rd (aState p) = 3 ∧ (t.radio p).starts = 0 ∧ (t.radio p).queue = [] ∧
    ((s.radio p).armed = true → (s.radio p).due ≠ none → t.rd (aTxLate p) = min (s.rd (aTxLate p) + 1) 65535 ∧ t.bit (aEvt p) 3 = true ∧
      (t.radio p).due = none)

/-- The state in which HALT stops the engine: PC back at the word, the code and the flag set. -/
def State.haltNoted (s : State) (p w : Nat) : State := ((s.wr (aPc p) (s.rd (aPc p) + 255)).wr (aHaltCode p) w).radFlag p 7

theorem engineKeys_ne (p : Nat) : ((aPc p).key ≠ (aTxLate p).key ∧ (aHaltCode p).key ≠ (aTxLate p).key ∧ (aEvt p).key ≠ (aTxLate p).key) ∧
    ((aEvt p).key ≠ (aPc p).key ∧ (aHaltCode p).key ≠ (aPc p).key ∧ (aState p).key ≠ (aPc p).key) ∧
    ((aEvt p).key ≠ (aHaltCode p).key ∧ (aState p).key ≠ (aHaltCode p).key) := by
  simp only [Fld.key, aPc, aTxLate, aHaltCode, aEvt, aState, F.ro, F.rc, F.w1c]
  omega

section
variable {p : Fin 8} {s : State}

theorem scriptHalt_halts (h : s.atOp p 13) : Happens (.scriptHalt p) s (s.haltTouch p) fun t =>
    t.haltedFrom s p ∧ t.rd (aHaltCode p) = s.word p % 256 ∧ t.bit (aEvt p) 7 = true ∧ t.rd (aPc p) = s.rd (aPc p) % 256 := by
  obtain ⟨⟨hpl, hcl, hel⟩, ⟨hep, hcp, hsp⟩, hec, hsc⟩ := engineKeys_ne p
  obtain ⟨hframe, hstate, hstarts, hqueue, hrd, hbits, hlate⟩ :=
    radioHalt_halts (s := (s.pcNext p).haltNoted p (s.word p)) p.isLt
  have hcount : ((s.pcNext p).haltNoted p (s.word p)).rd (aTxLate p) = s.rd (aTxLate p) := by
    rw [State.haltNoted, State.radFlag, State.setBits, State.rd_wr_ne _ hel, State.rd_wr_ne _ hcl, State.rd_wr_ne _ hpl, s.rd_pcNext_ne hpl]
  have hflag : ((s.pcNext p).haltNoted p (s.word p)).bit (aEvt p) 7 = true := State.bit_setBits_same _ (show 7 < 9 by decide)
  have htouch : ((s.pcNext p).haltNoted p (s.word p)).haltTouch p = s.haltTouch p := by
    rw [State.haltNoted, State.radFlag, State.setBits, haltTouch_wr p.isLt (.inr (.inl rfl)), haltTouch_wr p.isLt (.inl rfl),
      haltTouch_wr p.isLt (.inl rfl), State.pcNext, haltTouch_wr p.isLt (.inl rfl)]
  rw [htouch] at hframe
  rw [hcount] at hlate
  refine Happens.scripted (k := fun w s => (s.haltNoted p w).radioHalt p) rfl h rfl
    ((((((Frame.refl _ s).pcNext _ (by simp [State.haltTouch, Touch.and])).wr _ _ (by simp [State.haltTouch, Touch.and])).wr _ _
      (by simp [State.haltTouch, Touch.and])).setBits _ _ (by simp [State.haltTouch, Touch.and])).trans hframe)
    ⟨⟨hstate, hstarts, hqueue, hlate⟩, ?_, hbits 7 (by decide) hflag, ?_⟩
  · rw [hrd _ rfl (show 24 < 32 by decide) hsc, State.haltNoted, State.radFlag, State.setBits, State.rd_wr_ne _ hec, State.rd_wr_same]
    rfl
  · rw [hrd _ rfl (show 16 < 32 by decide) hsp, State.haltNoted, State.radFlag, State.setBits, State.rd_wr_ne _ hep, State.rd_wr_ne _ hcp,
      State.rd_wr_same, s.rd_pc_pcNext, show 2 ^ (aPc p.val).width = 256 from rfl]
    omega

theorem scriptBadOp_halts (hat : s.atInstr p = true) (hbad : scriptOk (s.word p) = false) :
    Happens (.scriptBadOp p) s (s.haltTouch p) fun t => t.haltedFrom s p ∧ t.bit (aEvt p) 6 = true ∧ t.rd (aPc p) = s.rd (aPc p) := by
  obtain ⟨⟨-, -, hel⟩, ⟨hep, -, hsp⟩, -⟩ := engineKeys_ne p
  obtain ⟨hframe, hstate, hstarts, hqueue, hrd, hbits, hlate⟩ := radioHalt_halts (s := s.radFlag p 6) p.isLt
  rw [State.radFlag, State.setBits, haltTouch_wr p.isLt (.inr (.inl rfl))] at hframe
  rw [show (s.radFlag p 6).rd (aTxLate p) = s.rd (aTxLate p) from State.rd_wr_ne _ hel _] at hlate
  refine ⟨(s.radFlag p 6).radioHalt p, congrArg Host.Outcome.next (if_pos (by rw [hat, hbad]; rfl)),
    ((Frame.refl _ s).setBits _ _ (by simp [State.haltTouch, Touch.and])).trans hframe, ⟨hstate, hstarts, hqueue, hlate⟩,
    hbits 6 (by decide) (State.bit_setBits_same _ (show 6 < 9 by decide)), ?_⟩
  rw [hrd _ rfl (show 16 < 32 by decide) hsp]
  exact State.rd_wr_ne _ hep _

theorem scriptEnd_idle (h : s.atInstr p = false) : Happens (.scriptEnd p) s {} fun _ => True := Happens.idle (script_idle h 0 fun _ s => s.slotEnd p)

theorem scriptBadOp_idle (h : s.atInstr p = false) : Happens (.scriptBadOp p) s {} fun _ => True :=
  Happens.idle (congrArg Host.Outcome.next (if_neg (by rw [h]; exact Bool.false_ne_true)))

end

/-! ### POST (R712, R716) -/

/-- What a dropped frame of the link may count: the port's BAD_HDR, and the partner's own. -/
theorem Frame.postDrop {w : Touch} {s t : State} (h : Frame w s t) (p : Nat) (bs : List Nat) (hb : pBadHdr p ∈ w.flds) (he : pEvt p ∈ w.flds)
    (hp : .ptn ∈ w.blks) : Frame w s (t.postDrop p bs) := by
  have hcount : ∀ a, Frame w s (t.badHdr p a) := by
    intro a
    unfold State.badHdr
    dsimp only
    split
    · exact ((h.bump _ _ hb).setBits _ _ he).ptn _ hp
    · exact (h.bump _ _ hb).setBits _ _ he
  unfold State.postDrop
  split
  · split
    · exact hcount _
    · exact h
  · exact h

theorem State.postDrop_sbuf (s : State) (p : Nat) (bs : List Nat) : (s.postDrop p bs).sbuf = s.sbuf := by
  have hcount : ∀ a, (s.badHdr p a).sbuf = s.sbuf := by
    intro a
    unfold State.badHdr
    dsimp only
    split <;> rfl
  unfold State.postDrop
  split
  · split
    · exact hcount _
    · rfl
  · rfl

theorem postDrop_foreign {s : State} {p : Nat} {bs : List Nat} (h : s.ptlOf bs = none) : s.postDrop p bs = s := by
  unfold State.postDrop
  rw [h]
  split
  · next b hb => split at hb <;> cases hb
  · rfl

theorem ringFlds_span (r : Nat) : ∀ f ∈ ringFlds r, rBase r * 32 ≤ f.key ∧ f.key < (rBase r + 0x20) * 32 ∧ f.lo < 32 := by
  intro f hf
  simp only [ringFlds, ringCfg, List.cons_append, List.nil_append, List.mem_cons, List.not_mem_nil, or_false] at hf
  rcases hf with rfl | rfl | rfl | rfl | rfl | rfl | rfl | rfl | rfl | rfl | rfl | rfl | rfl | rfl | rfl | rfl | rfl <;>
    simp only [Fld.key, apply_ite Fld.addr, apply_ite Fld.lo, ite_self, rEn, rSecure, rPolicy, rSize, rVar, rIsz, rProd, rCons, rOfs, rThr,
      rEvtEn, rWidx, rRidx, rDropped, rDrop, rPartial, rPcount, F.rws, F.rw, F.rc, F.w1c, F.ro] <;>
    omega

/-- A change of other fields leaves a ring. -/
theorem SameRing.of_frame {w : Touch} {s t : State} {r : Nat} (h : Frame w s t) (ha : w.areas = [])
    (hw : ∀ g ∈ w.flds, g.key < rBase r * 32 ∨ (rBase r + 0x20) * 32 ≤ g.key) (hbuf : t.sbuf = s.sbuf) : SameRing r s t where
  flds f hf := by
    obtain ⟨hlo, hhi, h32⟩ := ringFlds_span r f hf
    exact h.regs f (fun g hg => by have := hw g hg; omega) h32 (by simp [Fld.outside, ha])
  sbuf := hbuf

theorem SameRing.stored {s u t : State} {r : Nat} {ws : List Nat} (h : SameRing r s u) (hs : Stored r ws u t) : Stored r ws s t := by
  have hwidx := h.flds (rWidx r) (by simp [ringFlds])
  unfold Stored at hs ⊢
  rwa [hwidx] at hs

/-- The partner engine judges a frame by the link's registers and its table. -/
theorem linkTakes_wr_engine {s : State} {p q : Nat} (hp : p < 8) {f : Fld} (hf : f.ofEngine p) (v : Nat) (bs : List Nat) :
    (s.wr f v).linkTakes q bs = s.linkTakes q bs ∧ (s.wr f v).ptlOf bs = s.ptlOf bs := by
  have hpan : (s.wr f v).rd pPan = s.rd pPan := rd_wr_engine hf (by simp only [Fld.key, pPan, F.rws, aBase]; omega) v
  have hhears : (s.wr f v).ptnHears q = s.ptnHears q := by
    unfold State.ptnHears State.on State.bit
    rw [rd_wr_engine hf (linkFlds_apart hp pEn (by simp [linkFlds])), rd_wr_engine hf (linkFlds_apart hp pPorts (by simp [linkFlds]))]
    rfl
  have hptl : (s.wr f v).ptlOf bs = s.ptlOf bs := by simp only [State.ptlOf, hpan]
  refine ⟨?_, hptl⟩
  unfold State.linkTakes
  rw [hhears, hptl]
  rfl

/-- The port with its item handed on. -/
def State.rxGone (s : State) (p : Nat) : State := s.setRadio p { s.radio p with rx := none }

/-- What POST reports of an item that came with an SFD. -/
def RxItem.report (i : RxItem) (a q : Nat) : List Nat :=
  varItem 1 ((time96 (ofStamp a) q).flatMap le32 ++ [i.lqi, i.rssi, i.psdu.length, 0] ++ i.psdu.take (i.psdu.length - 2))

theorem postItem_none {s : State} {p : Nat} (hrx : (s.radio p).rx = none) : s.postItem p = s := by
  simp only [State.postItem, hrx]

theorem postItem_noSfd {s : State} {p : Nat} {i : RxItem} (hrx : (s.radio p).rx = some i) (hsfd : (s.radio p).sfd = none) :
    s.postItem p = ((s.rxGone p).bump (aNosfd p)).radFlag p 0 := by
  unfold State.postItem
  dsimp only
  split
  · next h => rw [hrx] at h; cases h
  · rfl
  · next h => rw [hsfd] at h; cases h

theorem postItem_sfd {s : State} {p : Nat} {i : RxItem} {a q : Nat} (hrx : (s.radio p).rx = some i) (hsfd : (s.radio p).sfd = some (a, q)) :
    s.postItem p = if i.psdu.length < 3 ∨ 127 < i.psdu.length then (s.rxGone p).radFlag p 1
      else if !s.aon (aRaw p) && s.linkTakes p (i.psdu.take (i.psdu.length - 2)) then s.rxGone p
      else ((s.rxGone p).postDrop p (i.psdu.take (i.psdu.length - 2))).give (16 + p) (i.report a q) := by
  unfold State.postItem
  dsimp only
  split
  · next h => rw [hrx] at h; cases h
  · next h => rw [hsfd] at h; cases h
  · next hi hs =>
    rw [hrx, Option.some_inj] at hi
    rw [hsfd, Option.some_inj, Prod.mk.injEq] at hs
    obtain ⟨rfl, rfl⟩ := hs
    subst hi
    rfl

section
variable {p : Fin 8} {s : State} (h : s.atOp p 5)
include h

theorem scriptPost_without (hrx : (s.radio p).rx = none) : Happens (.scriptPost p) s { flds := [aPc p], blks := [.radio p] } fun t =>
    t.radio p = s.radio p ∧ t.rd (aPc p) = (s.rd (aPc p) + 1) % 256 :=
  Happens.scripted (k := fun _ s => s.postItem p) rfl h (postItem_none (s := s.pcNext p) hrx) ((Frame.refl _ s).pcNext _ (by simp))
    ⟨rfl, s.rd_pc_pcNext p⟩

variable {i : RxItem} (hrx : (s.radio p).rx = some i)
include hrx

theorem scriptPost_noSfd (hsfd : (s.radio p).sfd = none) :
    Happens (.scriptPost p) s { flds := [aPc p, aNosfd p, aEvt p], blks := [.radio p] } fun t =>
      (t.radio p = { s.radio p with rx := none } ∧ t.rd (aPc p) = (s.rd (aPc p) + 1) % 256) ∧
      t.rd (aNosfd p) = min (s.rd (aNosfd p) + 1) 65535 ∧ t.bit (aEvt p) 0 = true := by
  have hkeys : (aEvt p).key ≠ (aPc p).key ∧ (aNosfd p).key ≠ (aPc p).key ∧ (aEvt p).key ≠ (aNosfd p).key ∧ (aPc p).key ≠ (aNosfd p).key := by
    simp only [Fld.key, aEvt, aPc, aNosfd, F.ro, F.rc, F.w1c]
    omega
  obtain ⟨hep, hnp, hen, hpn⟩ := hkeys
  refine Happens.scripted (k := fun _ s => s.postItem p) rfl h (postItem_noSfd (s := s.pcNext p) hrx hsfd)
    (((((Frame.refl _ s).pcNext _ (by simp)).setRadio _ _ (by simp)).bump _ _ (by simp)).setBits _ _ (by simp)) ⟨⟨?_, ?_⟩, ?_, ?_⟩
  · exact State.radio_setRadio (s.pcNext p) p _
  · rw [State.radFlag, State.setBits, State.rd_wr_ne _ hep, State.bump, State.rd_wr_ne _ hnp]
    exact s.rd_pc_pcNext p
  · rw [State.radFlag, State.setBits, State.rd_wr_ne _ hen, State.bump, State.rd_wr_same, show 2 ^ (aNosfd p.val).width = 65536 from rfl,
      ← s.rd_pcNext_ne hpn]
    exact Nat.mod_eq_of_lt (Nat.lt_succ_of_le (Nat.min_le_right _ _))
  · exact State.bit_setBits_same _ (show 0 < 9 by decide)

variable {a q : Nat} (hsfd : (s.radio p).sfd = some (a, q))
include hsfd

theorem scriptPost_badLength (hlen : i.psdu.length < 3 ∨ 127 < i.psdu.length) :
    Happens (.scriptPost p) s { flds := [aPc p, aEvt p], blks := [.radio p] } fun t =>
      (t.radio p = { s.radio p with rx := none } ∧ t.rd (aPc p) = (s.rd (aPc p) + 1) % 256) ∧ t.bit (aEvt p) 1 = true := by
  have hep : (aEvt p).key ≠ (aPc p).key := by
    simp only [Fld.key, aEvt, aPc, F.ro, F.w1c]
    omega
  refine Happens.scripted (k := fun _ s => s.postItem p) rfl h ((postItem_sfd (s := s.pcNext p) hrx hsfd).trans (if_pos hlen))
    ((((Frame.refl _ s).pcNext _ (by simp)).setRadio _ _ (by simp)).setBits _ _ (by simp)) ⟨⟨?_, ?_⟩, ?_⟩
  · exact State.radio_setRadio (s.pcNext p) p _
  · rw [State.radFlag, State.setBits, State.rd_wr_ne _ hep]
    exact s.rd_pc_pcNext p
  · exact State.bit_setBits_same _ (show 1 < 9 by decide)

variable (h3 : 3 ≤ i.psdu.length) (h127 : i.psdu.length ≤ 127)
include h3 h127

omit h in
theorem postItem_pcNext : (s.pcNext p).postItem p =
    if !s.aon (aRaw p) && s.linkTakes p (i.psdu.take (i.psdu.length - 2)) then (s.pcNext p).rxGone p
    else (((s.pcNext p).rxGone p).postDrop p (i.psdu.take (i.psdu.length - 2))).give (16 + p) (i.report a q) := by
  have hraw : (s.pcNext p).aon (aRaw p) = s.aon (aRaw p) := by
    unfold State.aon State.on
    rw [s.rd_pcNext_ne (by simp only [Fld.key, aPc, aRaw, aa, active, F.ro, F.rw]; omega)]
  have hlink : (s.pcNext p).linkTakes p (i.psdu.take (i.psdu.length - 2)) = s.linkTakes p (i.psdu.take (i.psdu.length - 2)) :=
    (linkTakes_wr_engine p.isLt (.inl rfl) _ _).1
  rw [postItem_sfd (s := s.pcNext p) hrx hsfd, if_neg (by omega), hraw, hlink]

theorem scriptPost_taken (hraw : s.aon (aRaw p) = false) (htakes : s.linkTakes p (i.psdu.take (i.psdu.length - 2)) = true) :
    Happens (.scriptPost p) s { flds := [aPc p], blks := [.radio p] } fun t =>
      t.radio p = { s.radio p with rx := none } ∧ t.rd (aPc p) = (s.rd (aPc p) + 1) % 256 :=
  Happens.scriptSets (k := fun _ s => s.postItem p) rfl h _
    ((postItem_pcNext hrx hsfd h3 h127).trans (if_pos (by rw [hraw, htakes]; rfl)))

/-- What a report may change: the engine, the ring, and the counts of a frame that the link drops. -/
def State.reportTouch (s : State) (p n : Nat) : Touch :=
  { flds := [aPc p, rWidx (16 + p), pBadHdr p, pEvt p], blks := [.port, .radio p, .ptn], bytes := s.itemBytes (16 + p) n }

/-- The state in which POST gives its report. -/
def State.posting (s : State) (p : Nat) (bs : List Nat) : State := ((s.pcNext p).rxGone p).postDrop p bs

omit h hrx hsfd h3 h127 in
theorem posting_facts (bs : List Nat) :
    Frame { flds := [aPc p, pBadHdr p, pEvt p], blks := [.radio p, .ptn] } s (s.posting p bs) ∧
    (s.posting p bs).radio p = { s.radio p with rx := none } ∧ (s.posting p bs).rd (aPc p) = (s.rd (aPc p) + 1) % 256 ∧
    (s.ptlOf bs = none → (s.posting p bs).ptn = s.ptn ∧ (s.posting p bs).rd (pBadHdr p) = s.rd (pBadHdr p)) := by
  have hp := p.isLt
  have hdrop : Frame { flds := [pBadHdr p, pEvt p], blks := [.ptn] } ((s.pcNext p).rxGone p) (s.posting p bs) :=
    (Frame.refl _ _).postDrop p _ (by simp) (by simp) (by simp)
  have hgone : Frame { flds := [aPc p, pBadHdr p, pEvt p], blks := [.radio p, .ptn] } s ((s.pcNext p).rxGone p) :=
    ((Frame.refl _ s).pcNext _ (by simp)).setRadio _ _ (by simp)
  refine ⟨hgone.postDrop p _ (by simp) (by simp) (by simp), ?_, ?_, fun hptl => ?_⟩
  · exact (hdrop.blks (.radio p) (by simp) (by simp [Blk.kind])).trans (State.radio_setRadio _ _ _)
  · refine (hdrop.regs (aPc p) (fun g hg => ?_) (show 16 < 32 by decide) (by simp [Fld.outside])).trans (s.rd_pc_pcNext p)
    simp only [List.mem_cons, List.not_mem_nil, or_false] at hg
    rcases hg with rfl | rfl <;> simp only [Fld.key, aPc, pBadHdr, pEvt, F.ro, F.rc, F.w1c, aBase] <;> omega
  · have hsame : s.posting p bs = (s.pcNext p).rxGone p :=
      postDrop_foreign ((linkTakes_wr_engine (s := s) (q := p) hp (.inl rfl) (s.rd (aPc p) + 1) bs).2.trans hptl)
    rw [hsame]
    exact ⟨rfl, s.rd_pcNext_ne (by simp only [Fld.key, aPc, pBadHdr, F.ro, F.rc, aBase]; omega)⟩

theorem scriptPost_reports (hreport : s.aon (aRaw p) = true ∨ s.linkTakes p (i.psdu.take (i.psdu.length - 2)) = false)
    (haccepts : s.accepts (16 + p) (i.report a q).length = true) :
    Happens (.scriptPost p) s (s.reportTouch p (i.report a q).length) fun t =>
      (t.radio p = { s.radio p with rx := none } ∧ t.rd (aPc p) = (s.rd (aPc p) + 1) % 256) ∧ Stored (16 + p) (i.report a q) s t ∧
      (s.ptlOf (i.psdu.take (i.psdu.length - 2)) = none → t.ptn = s.ptn ∧ t.rd (pBadHdr p) = s.rd (pBadHdr p)) := by
  have hp := p.isLt
  obtain ⟨hu, hradio, hpc, hlink⟩ := posting_facts (s := s) (p := p) (i.psdu.take (i.psdu.length - 2))
  have hsame : SameRing (16 + p) s (s.posting p (i.psdu.take (i.psdu.length - 2))) := by
    refine .of_frame hu rfl (fun g hg => .inr ?_) (State.postDrop_sbuf _ _ _)
    simp only [List.mem_cons, List.not_mem_nil, or_false] at hg
    rcases hg with rfl | rfl | rfl <;> simp only [Fld.key, aPc, pBadHdr, pEvt, F.ro, F.rc, F.w1c, aBase, rBase] <;> omega
  have hidle : (s.posting p (i.psdu.take (i.psdu.length - 2))).portIdle = s.portIdle := by
    unfold State.portIdle
    rw [show _ = s.icu from hu.blks .icu (by simp) (by simp [Blk.kind]), show _ = s.port from hu.blks .port (by simp) (by simp [Blk.kind])]
  obtain ⟨hstored, hgive⟩ := State.give_stores (s := s.posting p (i.psdu.take (i.psdu.length - 2))) (r := 16 + p) (ws := i.report a q)
    (by rw [State.accepts, hidle, hsame.takes, ← State.accepts, haccepts])
  rw [hsame.itemBytes] at hgive
  have hbefore : Frame (s.reportTouch p (i.report a q).length) s (s.posting p (i.psdu.take (i.psdu.length - 2))) :=
    Frame.mono (v := { flds := [aPc p, pBadHdr p, pEvt p], blks := [.radio p, .ptn] }) (by simp [State.reportTouch]) (by simp)
      (by simp [State.reportTouch]) (by simp) id hu
  have hgiven : Frame (s.reportTouch p (i.report a q).length) (s.posting p (i.psdu.take (i.psdu.length - 2)))
      ((s.posting p (i.psdu.take (i.psdu.length - 2))).give (16 + p) (i.report a q)) :=
    Frame.mono (v := { flds := [rWidx (16 + p)], blks := [.port], bytes := s.itemBytes (16 + p) (i.report a q).length })
      (by simp [State.reportTouch]) (by simp) (by simp [State.reportTouch]) (fun _ h => h) id hgive
  refine Happens.scripted (k := fun _ s => s.postItem p) rfl h
    ((postItem_pcNext hrx hsfd h3 h127).trans (if_neg (by rcases hreport with hr | hr <;> simp [hr]))) (hbefore.trans hgiven)
    ⟨⟨(State.radio_give _ _ _ _).trans hradio, (State.rd_give hp (show 16 < 32 by decide) (.inl rfl) _).trans hpc⟩, hsame.stored hstored,
      fun hptl => ?_⟩
  obtain ⟨hptn, hbad⟩ := hlink hptl
  refine ⟨(hgive.blks .ptn (by simp) (by simp [Blk.kind])).trans hptn, (hgive.regs (pBadHdr p) (fun g hg => ?_) (show 0 < 32 by decide)
    (by simp [Fld.outside])).trans hbad⟩
  simp only [List.mem_cons, List.not_mem_nil, or_false] at hg
  subst hg
  simp only [Fld.key, rWidx, pBadHdr, F.rw, F.rc, rBase]
  omega

end

/-! ### The statement -/

/-- Settles O57, a clause for each instruction: each is its own lemma above. -/
theorem scriptEngine : Obligations.ScriptEngine := by
  unfold Obligations.ScriptEngine
  intro p miso bytes lqi rssi irq s
  refine ⟨scriptEnd_ends, scriptXfer_sends, scriptXferA_sends, fun h => ?_, scriptRecvFrame_receives,
    fun h => ⟨scriptPost_without h, fun i hi => ⟨scriptPost_noSfd h (Option.mem_toList.1 hi), fun aq haq => ⟨?_, fun h3 h127 => ⟨?_, ?_⟩⟩⟩⟩,
    scriptLoada_loads, scriptAnda_masks, scriptJump_jumps, scriptWaitIrq_waits, scriptDelay_waits, scriptReset_drives, scriptArmTxt_arms,
    fun h => ?_, fun hat hbad => ?_, scriptWaitEnd_goes, scriptDelayEnd_goes, fun h => ⟨scriptEnd_idle h, scriptBadOp_idle h⟩⟩
  · have hsends := scriptSendFrame_sends h
    rw [frameBytes_due] at hsends
    exact hsends
  · exact scriptPost_badLength h (Option.mem_toList.1 hi) (Option.mem_toList.1 haq)
  · exact scriptPost_reports h (Option.mem_toList.1 hi) (Option.mem_toList.1 haq) h3 h127
  · exact scriptPost_taken h (Option.mem_toList.1 hi) (Option.mem_toList.1 haq) h3 h127
  · exact scriptHalt_halts h
  · exact scriptBadOp_halts hat hbad

end Sys2Proof.Machine
end

section
/-! SUPPORT. The Shared Buffer (R501) stays in canonical form: the form itself, what it asks of an outcome, and the operations that every
block uses. -/

namespace Sys2Proof.Machine

open F

/-- The Shared Buffer in canonical form: rising addresses below 1 MiB, and no zero byte (R501). -/
def BufOk (m : List Host.Cell) : Prop := Memory.wf m = true ∧ (m.all fun c => decide (c.1 < 2 ^ 20)) = true

theorem State.memOk_iff (s : State) : s.memOk = true ↔ BufOk s.sbuf := by
  simp [State.memOk, BufOk]

@[simp] theorem bufOk_nil : BufOk [] := ⟨rfl, rfl⟩

/-! What a branch, a pair or a fold leaves of the Shared Buffer. -/

@[simp] theorem ite_buf (c : Prop) [Decidable c] (s t : State) :
    (if c then s else t).sbuf = if c then s.sbuf else t.sbuf := apply_ite _ _ _ _

@[simp] theorem ite_res_buf {α : Type} (c : Prop) [Decidable c] (r q : α × State) :
    (if c then r else q).2.sbuf = if c then r.2.sbuf else q.2.sbuf := by
  split <;> rfl

@[simp] theorem ite_data_buf {α β : Type} (c : Prop) [Decidable c] (r q : α × State × β) :
    (if c then r else q).2.1.sbuf = if c then r.2.1.sbuf else q.2.1.sbuf := by
  split <;> rfl

@[simp] theorem bufOk_ite (c : Prop) [Decidable c] (m n : List Host.Cell) :
    BufOk (if c then m else n) ↔ if c then BufOk m else BufOk n := by
  split <;> rfl

/-- A function folded over a list that leaves the Shared Buffer alone. -/
def KeepsBuf {α : Type} (f : State → α → State) : Prop := ∀ s a, (f s a).sbuf = s.sbuf

@[simp] theorem keepsBuf_iff {α : Type} (f : State → α → State) : KeepsBuf f ↔ ∀ s a, (f s a).sbuf = s.sbuf := Iff.rfl

@[simp] theorem foldl_buf {α : Type} {f : State → α → State} (hf : KeepsBuf f) (l : List α) (s : State) : (l.foldl f s).sbuf = s.sbuf := by
  induction l generalizing s with
  | nil => rfl
  | cons a t ih => exact (ih (f s a)).trans (hf s a)

@[simp] theorem foldr_buf {α : Type} {f : α → State → State} (hf : ∀ a s, (f a s).sbuf = s.sbuf) (l : List α) (s : State) :
    (l.foldr f s).sbuf = s.sbuf := by
  induction l with
  | nil => rfl
  | cons a t ih => exact (hf a _).trans ih

theorem foldl_bufOk {α : Type} {f : State → α → State} (hf : ∀ s a, BufOk s.sbuf → BufOk (f s a).sbuf) (l : List α) {s : State}
    (h : BufOk s.sbuf) : BufOk (l.foldl f s).sbuf := by
  induction l generalizing s with
  | nil => exact h
  | cons a t ih => exact ih (hf s a h)

/-- An outcome whose next state, if there is one, has a canonical Shared Buffer. -/
def OutOk (o : Out) : Prop := ∀ t, o = .next t → BufOk t.sbuf

@[simp] theorem outOk_next (s : State) : OutOk (.next s) ↔ BufOk s.sbuf :=
  ⟨fun h => h s rfl, fun h _ ht => by cases ht; exact h⟩

@[simp] theorem outOk_event (s : State) : OutOk (event s) ↔ BufOk s.sbuf := outOk_next s

@[simp] theorem outOk_ite (c : Prop) [Decidable c] (o q : Out) : OutOk (if c then o else q) ↔ if c then OutOk o else OutOk q := by
  split <;> rfl

@[simp] theorem State.wrS_buf (s : State) (f : Fld) (i : Int) : (s.wrS f i).sbuf = s.sbuf := rfl

@[simp] theorem State.bump_buf (s : State) (f : Fld) (k : Nat) : (s.bump f k).sbuf = s.sbuf := rfl

@[simp] theorem State.setBits_buf (s : State) (f : Fld) (m : Nat) : (s.setBits f m).sbuf = s.sbuf := by simp [State.setBits]

@[simp] theorem State.clrBits_buf (s : State) (f : Fld) (m : Nat) : (s.clrBits f m).sbuf = s.sbuf := rfl

@[simp] theorem State.wrWord_buf (s : State) (w : Nat) (l : List Fld) : (s.wrWord w l).sbuf = s.sbuf := by
  induction l generalizing s with
  | nil => rfl
  | cons f t ih => simp [State.wrWord, ih]

@[simp] theorem State.cp_buf (s : State) (dst src : Fld) : (s.cp dst src).sbuf = s.sbuf := rfl

@[simp] theorem State.draw_buf (s : State) : s.draw.2.sbuf = s.sbuf := rfl

@[simp] theorem State.countPort_buf (s : State) (p : Nat) (c : Code) : (s.countPort p c).sbuf = s.sbuf := by simp [State.countPort]

@[simp] theorem State.setLast_buf (s : State) (p : Nat) (c : Code) : (s.setLast p c).sbuf = s.sbuf := by simp [State.setLast]

@[simp] theorem secureOnly_buf {slot : Slot} {s : State} {k : Res} (hk : k.2.sbuf = s.sbuf) : (secureOnly slot s k).2.sbuf = s.sbuf := by
  simp [secureOnly, hk]

theorem secureOnly_bufOk {slot : Slot} {s : State} {k : Res} (h : BufOk s.sbuf) (hk : BufOk k.2.sbuf) :
    BufOk (secureOnly slot s k).2.sbuf := by
  simp [secureOnly, h, hk]

@[simp] theorem State.lateCode_buf (s : State) (slot : Slot) (c : Code) (via : Option (Nat × Nat)) :
    (s.lateCode slot c via).sbuf = s.sbuf := by
  unfold State.lateCode
  split <;> simp

@[simp] theorem State.latch_buf (s : State) (n : Nat) : (s.latch n).sbuf = s.sbuf := by simp [State.latch]

@[simp] theorem State.leaveM5_buf (s : State) : s.leaveM5.sbuf = s.sbuf := by simp [State.leaveM5]

@[simp] theorem State.setMode_buf (s : State) (m : Nat) : (s.setMode m).sbuf = s.sbuf := by simp [State.setMode]

@[simp] theorem State.nextSeq_buf (s : State) (r : Nat) : (s.nextSeq r).2.sbuf = s.sbuf := rfl

@[simp] theorem State.setByte_bufOk (s : State) (a : Nat) (b : BitVec 8) (h : BufOk s.sbuf) : BufOk (s.setByte a b).sbuf :=
  (State.memOk_iff _).1 (s.memOk_setByte a b ((State.memOk_iff _).2 h))

@[simp] theorem State.setWord_bufOk (s : State) (off w : Nat) (h : BufOk s.sbuf) : BufOk (s.setWord off w).sbuf := by
  apply_rules [State.setByte_bufOk, h]

end Sys2Proof.Machine
end

section
/-! SUPPORT. The Shared Buffer under what the blocks share: rings, monitor log, plans, hosts, served operations and sources. -/

namespace Sys2Proof.Machine

open F

/-! ### Rings and their storage -/

@[simp] theorem State.ringSetWord_bufOk (s : State) (r i w : Nat) (h : BufOk s.sbuf) : BufOk (s.ringSetWord r i w).sbuf := by
  rw [State.ringSetWord_bytes]
  apply_rules [State.setByte_bufOk]

@[simp] theorem State.ringPut_bufOk (s : State) (r i : Nat) (ws : List Nat) (h : BufOk s.sbuf) : BufOk (s.ringPut r i ws).sbuf := by
  induction ws generalizing s i with
  | nil => exact h
  | cons w t ih => exact ih _ _ (State.ringSetWord_bufOk s r i w h)

@[simp] theorem State.ringRise_buf (s : State) (a : RingAdv) : (s.ringRise a).sbuf = s.sbuf := by simp [State.ringRise]

@[simp] theorem State.ringRises_buf (s : State) (p : RingAdv → Bool) : (s.ringRises p).sbuf = s.sbuf := by simp [State.ringRises]

@[simp] theorem State.publish_buf (s : State) (r n : Nat) : (s.publish r n).sbuf = s.sbuf := rfl

@[simp] theorem State.ringLose_buf (s : State) (r k : Nat) : (s.ringLose r k).sbuf = s.sbuf := rfl

@[simp] theorem State.makeRoom_buf (s : State) (r n fuel : Nat) : (s.makeRoom r n fuel).sbuf = s.sbuf := by
  induction fuel generalizing s with
  | zero => rfl
  | succ fuel ih =>
    rw [State.makeRoom]
    split
    · rfl
    · simp [ih]

@[simp] theorem State.ringAppend_bufOk (s : State) (r : Nat) (ws : List Nat) (h : BufOk s.sbuf) : BufOk (s.ringAppend r ws).sbuf := by
  apply_rules [State.ringPut_bufOk, h]

@[simp] theorem State.offer_bufOk (s : State) (r : Nat) (ws : List Nat) (h : BufOk s.sbuf) : BufOk (s.offer r ws).2.sbuf := by
  simp [State.offer, h]

@[simp] theorem State.give_bufOk (s : State) (r : Nat) (ws : List Nat) (h : BufOk s.sbuf) : BufOk (s.give r ws).sbuf := by
  simp [State.give, h]

@[simp] theorem State.portMove_bufOk (s : State) (b run : Nat) (h : BufOk s.sbuf) : BufOk (s.portMove b run).sbuf := by
  unfold State.portMove
  split <;> simp [h]

@[simp] theorem State.portCycle_bufOk (s : State) (h : BufOk s.sbuf) : BufOk s.portCycle.sbuf := by
  unfold State.portCycle
  dsimp only
  repeat' split
  all_goals simp [h]

@[simp] theorem State.portFinish_bufOk (s : State) (h : BufOk s.sbuf) : BufOk s.portFinish.sbuf :=
  foldl_bufOk (fun s it hs => s.offer_bufOk it.ring it.words hs) _ h

/-! ### The monitor log -/

@[simp] theorem State.scanCheck_buf (s : State) : s.scanCheck.sbuf = s.sbuf := by simp [State.scanCheck]

@[simp] theorem State.setLogWord_buf (s : State) (k v : Nat) : (s.setLogWord k v).sbuf = s.sbuf := rfl

@[simp] theorem State.monEvt_buf (s : State) (i : Nat) : (s.monEvt i).sbuf = s.sbuf := rfl

@[simp] theorem State.logDrop_buf (s : State) : s.logDrop.sbuf = s.sbuf := rfl

@[simp] theorem State.fullCheck_buf (s : State) : s.fullCheck.sbuf = s.sbuf := by simp [State.fullCheck]

@[simp] theorem State.cause_buf (s : State) (bits : Nat) : (s.cause bits).sbuf = s.sbuf := by simp [State.cause]

@[simp] theorem State.causesEnd_buf (s : State) : s.causesEnd.sbuf = s.sbuf := rfl

@[simp] theorem State.mortar_buf (s : State) (type source cause : Nat) (detail : List Nat) :
    (s.mortar type source cause detail).sbuf = s.sbuf := by
  unfold State.mortar
  dsimp only
  repeat' split
  all_goals simp

/-! ### Plans and causes -/

@[simp] theorem State.copyTo_buf (s : State) (act : Fld → Fld) (l : List Fld) : (s.copyTo act l).sbuf = s.sbuf := by
  induction l generalizing s with
  | nil => rfl
  | cons f t ih => simp [State.copyTo, ih]

@[simp] theorem State.copyFrom_buf (s : State) (act : Fld → Fld) (l : List Fld) : (s.copyFrom act l).sbuf = s.sbuf := by
  induction l generalizing s with
  | nil => rfl
  | cons f t ih => simp [State.copyFrom, ih]

/-! ### Slots, leases and what a slot holds -/

@[simp] theorem State.dropStaged_buf (s : State) (n e : Nat) : (s.dropStaged n e).sbuf = s.sbuf := by
  induction e with
  | zero => rfl
  | succ e ih => simp [State.dropStaged, ih]

@[simp] theorem State.rollback_buf (s : State) (id : Nat) : (s.rollback id).sbuf = s.sbuf := by simp [State.rollback]

@[simp] theorem State.leaseBroken_buf (s : State) : s.leaseBroken.sbuf = s.sbuf := rfl

@[simp] theorem State.endLease_buf (s : State) (id : Nat) : (s.endLease id).sbuf = s.sbuf := by simp [State.endLease]

@[simp] theorem State.leaseThaw_buf (ms : Nat) (s : State) (id : Nat) : (State.leaseThaw ms s id).sbuf = s.sbuf := by simp [State.leaseThaw]

@[simp] theorem State.endLeasesOf_buf (s : State) (slot : Nat) (l : List Nat) : (s.endLeasesOf slot l).sbuf = s.sbuf := by
  induction l generalizing s with
  | nil => rfl
  | cons id t ih => simp [State.endLeasesOf, ih]

@[simp] theorem State.touch_buf (s : State) (slot id : Nat) : (s.touch slot id).sbuf = s.sbuf := by simp [State.touch]

@[simp] theorem leased_buf {slot : Slot} {id : Nat} {s : State} {k : State → Res} (hk : ∀ u, (k u).2.sbuf = u.sbuf) :
    (leased slot id s k).2.sbuf = s.sbuf := by
  simp [leased, hk]

theorem leased_bufOk {slot : Slot} {id : Nat} {s : State} {k : State → Res} (hk : ∀ u, BufOk u.sbuf → BufOk (k u).2.sbuf) (h : BufOk s.sbuf) :
    BufOk (leased slot id s k).2.sbuf := by
  unfold leased
  split
  · exact hk _ (by simpa using h)
  · split <;> exact h

@[simp] theorem State.hostEvt_buf (s : State) (i : Nat) : (s.hostEvt i).sbuf = s.sbuf := rfl

@[simp] theorem State.losePins_buf (s : State) (slot : Nat) (l : List Nat) : (s.losePins slot l).sbuf = s.sbuf := by
  induction l generalizing s with
  | nil => rfl
  | cons p t ih => simp [State.losePins, ih]

@[simp] theorem State.demandSet_buf (s : State) (g : Nat) : (s.demandSet g).sbuf = s.sbuf := by simp [State.demandSet]

@[simp] theorem State.icuWake_buf (s : State) (t prio : Nat) : (s.icuWake t prio).sbuf = s.sbuf := by simp [State.icuWake]

@[simp] theorem State.icuRecord_bufOk (s : State) (t : Nat) (a : IcuAsg) (h : BufOk s.sbuf) : BufOk (s.icuRecord t a).sbuf := by
  simp [State.icuRecord, h]

@[simp] theorem State.resetTgt_bufOk (s : State) (t : Nat) (h : BufOk s.sbuf) : BufOk (s.resetTgt t).sbuf := by
  have hwritten : BufOk ((s.icu.asg.filter (·.tgt == t)).foldl (fun s a => s.icuRecord t a) s).sbuf :=
    foldl_bufOk (fun s a hs => s.icuRecord_bufOk t a hs) _ h
  unfold State.resetTgt
  simp [hwritten]

@[simp] theorem State.icuFinish_bufOk (s : State) (h : BufOk s.sbuf) : BufOk s.icuFinish.sbuf := by
  have hwritten : BufOk (s.icu.asg.foldl (fun s a => s.icuRecord a.tgt a) s).sbuf :=
    foldl_bufOk (fun (u : State) (a : IcuAsg) hu => State.icuRecord_bufOk u a.tgt a hu) _ h
  unfold State.icuFinish
  refine foldl_bufOk (fun (u : State) (t : Nat) hu => State.resetTgt_bufOk u t hu) _ ?_
  simpa using hwritten

@[simp] theorem State.abortTaken_buf (s : State) (slot : Nat) (l : List Nat) : (s.abortTaken slot l).sbuf = s.sbuf := by
  induction l generalizing s with
  | nil => rfl
  | cons c t ih => simp [State.abortTaken, ih]

@[simp] theorem State.endXfer_buf (s : State) (slot : Nat) : (s.endXfer slot).sbuf = s.sbuf := rfl

@[simp] theorem State.abortXfer_buf (s : State) (slot : Nat) : (s.abortXfer slot).sbuf = s.sbuf := by
  unfold State.abortXfer
  repeat' split
  all_goals simp

@[simp] theorem State.endHold_buf (s : State) (slot : Nat) : (s.endHold slot).sbuf = s.sbuf := by simp [State.endHold]

@[simp] theorem State.hostReset_bufOk (s : State) (k : Nat) (silence : Bool) (h : BufOk s.sbuf) : BufOk (s.hostReset k silence).sbuf := by
  simp [State.hostReset, h]

@[simp] theorem State.hostResets_bufOk (s : State) (l : List Nat) (h : BufOk s.sbuf) : BufOk (s.hostResets l).sbuf := by
  induction l generalizing s with
  | nil => exact h
  | cons k t ih => exact ih _ (s.hostReset_bufOk k false h)

@[simp] theorem State.applySlot_buf (s : State) (k : Nat) : (s.applySlot k).sbuf = s.sbuf := by
  simp only [State.applySlot]
  repeat' split
  all_goals simp

@[simp] theorem State.frameStart_buf (s : State) (p : Nat) : (s.frameStart p).sbuf = s.sbuf := by simp [State.frameStart]

/-! ### Serving an operation -/

@[simp] theorem State.asleepFrame_buf (s : State) (p : Nat) : (s.asleepFrame p).sbuf = s.sbuf := by simp [State.asleepFrame]

@[simp] theorem State.turnedAway_buf (s : State) (p : Option Nat) : (s.turnedAway p).sbuf = s.sbuf := by
  unfold State.turnedAway
  split <;> simp

@[simp] theorem State.frameIn_buf (s : State) (slot : Nat) : (s.frameIn slot).sbuf = s.sbuf := by
  unfold State.frameIn
  split <;> simp

@[simp] theorem State.cutShort_buf (s : State) (p : Nat) : (s.cutShort p).sbuf = s.sbuf := rfl

@[simp] theorem State.stranger_buf (s : State) (p : Option Nat) : (s.stranger p).sbuf = s.sbuf := by
  unfold State.stranger
  split <;> simp

theorem served_bufOk {slot : Slot} {s : State} {refuse : State → Option Code} {op : State → Code × State × List Nat} {renew : State → State}
    (hop : ∀ u, BufOk u.sbuf → BufOk (op u).2.1.sbuf) (hrenew : ∀ u, BufOk u.sbuf → BufOk (renew u).sbuf) (h : BufOk s.sbuf) :
    BufOk (served slot s refuse op renew).sbuf := by
  have hin : BufOk (s.frameIn slot.val).sbuf := by simpa using h
  unfold served
  dsimp only
  split
  · split
    · split
      · simpa using hrenew _ hin
      · simpa using hop _ hin
    · simpa using h
  · simpa using h

theorem host_outOk {slot : Slot} {s : State} {op : State → Res} (hop : ∀ u, BufOk u.sbuf → BufOk (op u).2.sbuf) (h : BufOk s.sbuf) :
    OutOk (host slot s op) :=
  (outOk_next _).2 (served_bufOk hop (fun _ hu => hu) h)

theorem hostOwned_outOk {slot : Slot} {id : Nat} {s : State} {op : State → Res} (hop : ∀ u, BufOk u.sbuf → BufOk (op u).2.sbuf)
    (h : BufOk s.sbuf) : OutOk (hostOwned slot id s op) :=
  (outOk_next _).2 (served_bufOk hop (fun _ hu => by simpa using hu) h)

theorem hostReg_outOk {slot : Slot} {s : State} {op : State → Res} {renew : State → State} (hop : ∀ u, BufOk u.sbuf → BufOk (op u).2.sbuf)
    (hrenew : ∀ u, BufOk u.sbuf → BufOk (renew u).sbuf) (h : BufOk s.sbuf) : OutOk (hostReg slot s op renew) :=
  (outOk_next _).2 (served_bufOk hop hrenew h)

theorem hostDict_outOk {slot : Slot} {s : State} {op : State → Res} (hop : ∀ u, BufOk u.sbuf → BufOk (op u).2.sbuf) (h : BufOk s.sbuf) :
    OutOk (hostDict slot s op) :=
  (outOk_next _).2 (served_bufOk hop (fun _ hu => hu) h)

theorem hostFree_outOk {slot : Slot} {s : State} {op : State → Res} (hop : ∀ u, BufOk u.sbuf → BufOk (op u).2.sbuf) (h : BufOk s.sbuf) :
    OutOk (hostFree slot s op) :=
  (outOk_next _).2 (served_bufOk hop (fun _ hu => hu) h)

theorem hostData_outOk {slot : Slot} {s : State} {op : State → Code × State × List Nat}
    (hop : ∀ u, BufOk u.sbuf → BufOk (op u).2.1.sbuf) (h : BufOk s.sbuf) : OutOk (hostData slot s op) :=
  (outOk_next _).2 (served_bufOk hop (fun _ hu => hu) h)

theorem hostRead_outOk {slot : Slot} {s : State} {op : State → Code × State × List Nat}
    (hop : ∀ u, BufOk u.sbuf → BufOk (op u).2.1.sbuf) (h : BufOk s.sbuf) : OutOk (hostRead slot s op) :=
  (outOk_next _).2 (served_bufOk hop (fun _ hu => hu) h)

/-! ### Sources of events -/

@[simp] theorem State.irqKeep_buf (s : State) : s.irqKeep.sbuf = s.sbuf := by simp [State.irqKeep]

end Sys2Proof.Machine
end

section
/-! SUPPORT. The Shared Buffer under time, power, keep domain, sequencer, monitor and disciplines: only a published record or item writes
it. -/

namespace Sys2Proof.Machine

open F

/-! ### The calendar -/

@[simp] theorem State.calStatus_buf (s : State) : s.calStatus.sbuf = s.sbuf := by simp [State.calStatus]

/-! ### Steps of the timeline and what follows them -/

@[simp] theorem State.setAlm_buf (s : State) (n : Nat) (x : AlmS) : (s.setAlm n x).sbuf = s.sbuf := rfl

@[simp] theorem State.millWindow_buf (s : State) (m : Nat) : (s.millWindow m).sbuf = s.sbuf := by
  rw [State.millWindow]
  split
  · iterate 4 rw [State.wr_sbuf]
  · rfl

@[simp] theorem State.millsMoved_buf (s : State) (d : Int) : (s.millsMoved d).sbuf = s.sbuf := by simp [State.millsMoved]

@[simp] theorem State.pinSees_buf (s : State) (p : Nat) : (s.pinSees p).sbuf = s.sbuf := by simp [State.pinSees]

@[simp] theorem State.touWaits_buf (s : State) (n e : Nat) : (s.touWaits n e).sbuf = s.sbuf := by simp [State.touWaits]

@[simp] theorem State.setTrail_buf (s : State) (n : Nat) (t : Option Nat) : (s.setTrail n t).sbuf = s.sbuf := rfl

@[simp] theorem State.touDrive_buf (s : State) (n v : Nat) : (s.touDrive n v).sbuf = s.sbuf := by simp [State.touDrive]

@[simp] theorem State.touTrailAt_buf (s : State) (n t : Nat) : (s.touTrailAt n t).sbuf = s.sbuf := by
  unfold State.touTrailAt
  dsimp only
  split <;> simp

@[simp] theorem State.touShow_buf (n : Nat) (s : State) (g : TouEdge) : (State.touShow n s g).sbuf = s.sbuf := by
  unfold State.touShow
  dsimp only
  repeat' split
  all_goals simp

@[simp] theorem State.touArrive_buf (s : State) (n : Nat) : (s.touArrive n).sbuf = s.sbuf := by simp [State.touArrive]

@[simp] theorem State.touFlush_buf (s : State) (n : Nat) : (s.touFlush n).sbuf = s.sbuf := by simp [State.touFlush]

@[simp] theorem State.gtDrive_buf (s : State) (n c v : Nat) : (s.gtDrive n c v).sbuf = s.sbuf := rfl

@[simp] theorem State.gtIdle_buf (s : State) (n c : Nat) : (s.gtIdle n c).sbuf = s.sbuf := rfl

@[simp] theorem State.gtTrailAt_buf (s : State) (n c t : Nat) : (s.gtTrailAt n c t).sbuf = s.sbuf := by simp [State.gtTrailAt]

@[simp] theorem State.gtShow_buf (s : State) (n c : Nat) (g : TouEdge) : (s.gtShow n c g).sbuf = s.sbuf := by
  unfold State.gtShow
  dsimp only
  repeat' split
  all_goals simp

@[simp] theorem State.gtFlush_buf (s : State) (n : Nat) : (s.gtFlush n).sbuf = s.sbuf := by simp [State.gtFlush]

@[simp] theorem State.touMoved_buf (s : State) (d : Int) : (s.touMoved d).sbuf = s.sbuf := by simp [State.touMoved]

@[simp] theorem State.almStart_buf (s : State) (n : Nat) : (s.almStart n).sbuf = s.sbuf := by simp [State.almStart]

@[simp] theorem State.almMoved_buf (s : State) (was n : Nat) : (s.almMoved was n).sbuf = s.sbuf := by simp [State.almMoved]

@[simp] theorem State.refsDrop_buf (s : State) : s.refsDrop.sbuf = s.sbuf := rfl

@[simp] theorem State.calMoved_buf (s : State) (was : Nat) : (s.calMoved was).sbuf = s.sbuf := by simp [State.calMoved]

@[simp] theorem State.discMoved_buf (s : State) (d : Int) : (s.discMoved d).sbuf = s.sbuf := rfl

@[simp] theorem State.stpMoved_buf (s : State) (d : Int) : (s.stpMoved d).sbuf = s.sbuf := rfl

@[simp] theorem State.gtsMoved_buf (s : State) (d : Int) : (s.gtsMoved d).sbuf = s.sbuf := rfl

@[simp] theorem State.pairsMoved_buf (s : State) (d : Int) : (s.pairsMoved d).sbuf = s.sbuf := rfl

@[simp] theorem State.radsMoved_buf (s : State) (d : Int) : (s.radsMoved d).sbuf = s.sbuf := rfl

@[simp] theorem State.cansMoved_buf (s : State) (d : Int) : (s.cansMoved d).sbuf = s.sbuf := rfl

@[simp] theorem State.stepBlocks_buf (s : State) (was : Nat) (d : Int) : (s.stepBlocks was d).sbuf = s.sbuf := by simp [State.stepBlocks]

/-! ### Hub Time -/

@[simp] theorem State.endSlew_buf (s : State) : s.endSlew.sbuf = s.sbuf := by simp [State.endSlew]

@[simp] theorem State.timeCycle_buf (s : State) : s.timeCycle.sbuf = s.sbuf := by simp [State.timeCycle]

@[simp] theorem State.moveTime_buf (s : State) (t : Nat) (step : Bool) : (s.moveTime t step).sbuf = s.sbuf := by simp [State.moveTime]

@[simp] theorem State.applySet_buf (s : State) (staged elapsed : Nat) : (s.applySet staged elapsed).sbuf = s.sbuf := by
  simp [State.applySet]

@[simp] theorem State.uncancelled_buf (s : State) (how : Nat) : (s.uncancelled how).sbuf = s.sbuf := by
  unfold State.uncancelled
  split <;> simp

@[simp] theorem State.pendSetEdge_buf (s : State) (how edge : Nat) : (s.pendSetEdge how edge).sbuf = s.sbuf := by
  unfold State.pendSetEdge
  dsimp only
  split <;> simp

@[simp] theorem opSet_buf (slot : Slot) (s : State) : (opSet slot s).2.sbuf = s.sbuf := by simp [opSet]

@[simp] theorem opCancelSet_buf (slot : Slot) (s : State) : (opCancelSet slot s).2.sbuf = s.sbuf := by
  unfold opCancelSet
  rw [secureOnly_buf]
  split <;> simp

@[simp] theorem opStep_buf (slot : Slot) (s : State) : (opStep slot s).2.sbuf = s.sbuf := by simp [opStep]

@[simp] theorem opSlewStart_buf (slot : Slot) (s : State) : (opSlewStart slot s).2.sbuf = s.sbuf := by simp [opSlewStart]

@[simp] theorem opSlewAbort_buf (slot : Slot) (s : State) : (opSlewAbort slot s).2.sbuf = s.sbuf := by simp [opSlewAbort]

@[simp] theorem opSelfCapture_bufOk (slot : Slot) (s : State) (h : BufOk s.sbuf) : BufOk (opSelfCapture slot s).2.sbuf := by
  apply_rules [State.give_bufOk, h]

@[simp] theorem opPlanSwitch_buf (slot : Slot) (s : State) : (opPlanSwitch slot s).2.sbuf = s.sbuf := by simp [opPlanSwitch]

@[simp] theorem opIncrLoWrite_buf (v : Nat) (s : State) : (opIncrLoWrite v s).2.sbuf = s.sbuf := by simp [opIncrLoWrite]

@[simp] theorem opIncrHiWrite_buf (v : Nat) (s : State) : (opIncrHiWrite v s).2.sbuf = s.sbuf := by simp [opIncrHiWrite]

/-! ### Rails and power modes -/

@[simp] theorem State.mainOff_bufOk (s : State) : BufOk s.mainOff.sbuf := by simp [State.mainOff]

@[simp] theorem State.onBank_buf (s : State) (b : Nat) : (s.onBank b).sbuf = s.sbuf := by simp [State.onBank]

@[simp] theorem State.reverted_buf (s : State) : s.reverted.sbuf = s.sbuf := by simp [State.reverted]

@[simp] theorem State.bootBank_buf (s : State) : s.bootBank.sbuf = s.sbuf := by simp [State.bootBank]

@[simp] theorem State.keepRetrim_buf (s : State) : s.keepRetrim.sbuf = s.sbuf := by simp [State.keepRetrim]

@[simp] theorem State.freezeOn_bufOk (s : State) (p : Option TickPair) (unplanned : Bool) (h : BufOk s.sbuf) :
    BufOk (s.freezeOn p unplanned).sbuf := by
  simp [State.freezeOn, h]

@[simp] theorem State.freezeNow_bufOk (s : State) (h : BufOk s.sbuf) : BufOk s.freezeNow.sbuf := by simp [State.freezeNow, h]

@[simp] theorem State.unkeep_buf (s : State) (n : Nat) : (s.unkeep n).sbuf = s.sbuf := rfl

@[simp] theorem State.enableRail_buf (s : State) (n : Nat) : (s.enableRail n).sbuf = s.sbuf := rfl

@[simp] theorem State.disableRail_buf (s : State) (n : Nat) : (s.disableRail n).sbuf = s.sbuf := by simp [State.disableRail]

@[simp] theorem State.railIsDown_buf (s : State) (n : Nat) : (s.railIsDown n).sbuf = s.sbuf := by simp [State.railIsDown]

@[simp] theorem State.pumpUp_buf (s : State) (n : Nat) : (s.pumpUp n).sbuf = s.sbuf := by simp [State.pumpUp]

@[simp] theorem State.pumpDown_bufOk (s : State) (n : Nat) (h : BufOk s.sbuf) : BufOk (s.pumpDown n).sbuf := by simp [State.pumpDown, h]

@[simp] theorem State.pumpAll_bufOk (s : State) (l : List Nat) (h : BufOk s.sbuf) : BufOk (s.pumpAll l).sbuf := by
  induction l generalizing s with
  | nil => exact h
  | cons n t ih => exact ih _ (by simp [h])

@[simp] theorem State.hrstCheck_bufOk (s : State) (k : Nat) (h : BufOk s.sbuf) : BufOk (s.hrstCheck k).sbuf := by simp [State.hrstCheck, h]

@[simp] theorem State.wakeGroup_buf (s : State) (g : Nat) : (s.wakeGroup g).sbuf = s.sbuf := by simp [State.wakeGroup]

@[simp] theorem State.mainOn_buf (s : State) : s.mainOn.sbuf = s.sbuf := rfl

@[simp] theorem State.refresh_bufOk (s : State) (h : BufOk s.sbuf) : BufOk s.refresh.sbuf := by
  unfold State.refresh
  extract_lets s1 s2 q s3 s4
  have hchecked : BufOk s4.sbuf :=
    foldl_bufOk (fun (u : State) k hu => State.hrstCheck_bufOk u k hu) _ (by simpa [s1, s2, s3] using h)
  simp [hchecked]

@[simp] theorem State.endOp_buf (s : State) (stop : Bool) : (s.endOp stop).sbuf = s.sbuf := by simp [State.endOp]

@[simp] theorem State.opDone_bufOk (s : State) (h : BufOk s.sbuf) : BufOk s.opDone.sbuf := by
  unfold State.opDone
  split <;> simp [h]

@[simp] theorem State.settle_bufOk (s : State) (h : BufOk s.sbuf) : BufOk s.settle.sbuf := by
  rw [State.settle, State.scanCheck_buf]
  exact State.opDone_bufOk _ (by simp [h])

@[simp] theorem State.fromM2_buf (s : State) : s.fromM2.sbuf = s.sbuf := rfl

@[simp] theorem State.startSet_buf (s : State) (cause : Nat) : (s.startSet cause).sbuf = s.sbuf := by simp [State.startSet]

@[simp] theorem State.wake_buf (s : State) (cause : Nat) : (s.wake cause).sbuf = s.sbuf := by simp [State.wake]

@[simp] theorem State.demand_buf (s : State) (g : Nat) : (s.demand g).sbuf = s.sbuf := by simp [State.demand]

@[simp] theorem State.driveDown_buf (s : State) (low : Bool) : (s.driveDown low).sbuf = s.sbuf := by simp [State.driveDown]

@[simp] theorem State.requestDown_buf (s : State) (why : DownReq) : (s.requestDown why).sbuf = s.sbuf := by simp [State.requestDown]

@[simp] theorem State.offRest_bufOk (s : State) (h : BufOk s.sbuf) : BufOk s.offRest.sbuf := by simp [State.offRest, h]

@[simp] theorem State.allOffRail_buf (s : State) (n : Nat) : (s.allOffRail n).sbuf = s.sbuf := by simp [State.allOffRail]

@[simp] theorem State.allRailsOff_buf (s : State) (l : List Nat) : (s.allRailsOff l).sbuf = s.sbuf := by
  induction l generalizing s with
  | nil => rfl
  | cons n t ih => simp [State.allRailsOff, ih]

@[simp] theorem State.lastOff_buf (s : State) (cause rail : Nat) (ov : Bool) : (s.lastOff cause rail ov).sbuf = s.sbuf := by
  unfold State.lastOff
  dsimp only
  split <;> simp

@[simp] theorem State.offSource_buf (s : State) (cause rail : Nat) : (s.offSource cause rail).sbuf = s.sbuf := by simp [State.offSource]

@[simp] theorem State.unnapped_buf (s : State) : s.unnapped.sbuf = s.sbuf := by
  unfold State.unnapped
  rw [foldr_buf]
  intro x t
  split <;> simp

@[simp] theorem State.allOffFirst_bufOk (s : State) (cause rail : Nat) (ov : Bool) (beyond : Nat) :
    BufOk (s.allOffFirst cause rail ov beyond).sbuf := by
  simp [State.allOffFirst]

@[simp] theorem State.allOffAlso_buf (s : State) (cause rail : Nat) (ov : Bool) : (s.allOffAlso cause rail ov).sbuf = s.sbuf := by
  simp [State.allOffAlso]

@[simp] theorem State.allOff_bufOk (s : State) (cause rail : Nat) (ov : Bool) (beyond : Nat) (h : BufOk s.sbuf) :
    BufOk (s.allOff cause rail ov beyond).sbuf := by
  simp [State.allOff, h]

/-! ### Holdover -/

@[simp] theorem State.discEvt_buf (s : State) (i : Nat) : (s.discEvt i).sbuf = s.sbuf := rfl

@[simp] theorem State.putServo_buf (s : State) (i v : Int) : (s.putServo i v).sbuf = s.sbuf := by simp [State.putServo]

@[simp] theorem State.setServo_buf (s : State) (i kp : Int) : (s.setServo i kp).sbuf = s.sbuf := by simp [State.setServo]

@[simp] theorem State.holdEntry_buf (s : State) (keepI : Bool) : (s.holdEntry keepI).sbuf = s.sbuf := by simp [State.holdEntry]

@[simp] theorem State.holdBegin_buf (s : State) (keepI : Bool) : (s.holdBegin keepI).sbuf = s.sbuf := by simp [State.holdBegin]

/-! ### The keep domain -/

@[simp] theorem State.keepRecWords_bufOk (s : State) (r : KeepRec) (h : BufOk s.sbuf) : BufOk (s.keepRecWords r).sbuf := by
  apply_rules [State.give_bufOk, h]

@[simp] theorem State.keepRec_bufOk (s : State) (kind detail count : Nat) (h : BufOk s.sbuf) :
    BufOk (s.keepRec kind detail count).sbuf := by
  simp [State.keepRec, h]

@[simp] theorem State.keepQuill_bufOk (s : State) (e : KeepEnt) (h : BufOk s.sbuf) : BufOk (s.keepQuill e).sbuf := by
  apply_rules [State.give_bufOk, h]

@[simp] theorem State.keepDrain_bufOk (s : State) (h : BufOk s.sbuf) : BufOk s.keepDrain.sbuf := by
  unfold State.keepDrain
  dsimp only
  repeat' split
  all_goals simp [h]

@[simp] theorem State.mirrorNow_buf (s : State) : s.mirrorNow.sbuf = s.sbuf := rfl

@[simp] theorem State.writeSwRec_buf (s : State) (detail : Nat) : (s.writeSwRec detail).sbuf = s.sbuf := rfl

@[simp] theorem State.chargerCheck_buf (s : State) : s.chargerCheck.sbuf = s.sbuf := rfl

@[simp] theorem State.shelve_bufOk (s : State) : BufOk s.shelve.sbuf := by simp [State.shelve]

@[simp] theorem State.enterShelf_bufOk (s : State) (detail : Nat) : BufOk (s.enterShelf detail).sbuf := by simp [State.enterShelf]

@[simp] theorem State.toVbat_bufOk (s : State) (cause : Nat) (h : BufOk s.sbuf) : BufOk (s.toVbat cause).sbuf := by simp [State.toVbat, h]

@[simp] theorem State.supplySelect_buf (s : State) : s.supplySelect.sbuf = s.sbuf := by simp [State.supplySelect]

@[simp] theorem State.seeSupplies_buf (s : State) (vmainMv vbatMv : Nat) : (s.seeSupplies vmainMv vbatMv).sbuf = s.sbuf := by
  simp [State.seeSupplies]

@[simp] theorem State.tickPair_buf (s : State) (edge was : Nat) : (s.tickPair edge was).sbuf = s.sbuf := by simp [State.tickPair]

@[simp] theorem State.tickWaits_buf (s : State) : s.tickWaits.sbuf = s.sbuf := rfl

@[simp] theorem State.keepReset_buf (s : State) : s.keepReset.sbuf = s.sbuf := rfl

@[simp] theorem State.keepTick_bufOk (s : State) (edge : Nat) (h : BufOk s.sbuf) : BufOk (s.keepTick edge).sbuf := by
  unfold State.keepTick
  dsimp only
  repeat' split
  all_goals simp [h]

@[simp] theorem State.keepPowerOn_buf (s : State) (vmainMv vbatMv : Nat) : (s.keepPowerOn vmainMv vbatMv).sbuf = s.sbuf := by
  simp [State.keepPowerOn]

@[simp] theorem State.keepSample_bufOk (s : State) (temp vbatMv : Nat) (h : BufOk s.sbuf) : BufOk (s.keepSample temp vbatMv).sbuf := by
  simp [State.keepSample, h]

@[simp] theorem State.keepAgeDay_buf (s : State) : s.keepAgeDay.sbuf = s.sbuf := by simp [State.keepAgeDay]

theorem nextAlarm_buf (s : State) (n next : Nat) : (if s.rd (kAlmPer n) = 0 then s.wr (kAlmEn n) 0
    else (s.wr (kAlmLo n) (next % 2 ^ 32)).wr (kAlmHi n) (next / 2 ^ 32)).sbuf = s.sbuf := by
  simp only [ite_buf, State.wr_sbuf, ite_self]

@[simp] theorem State.keepAlarm_bufOk (s : State) (n : Nat) (h : BufOk s.sbuf) : BufOk (s.keepAlarm n).sbuf := by
  unfold State.keepAlarm
  extract_lets next s1 s2 s3
  have hstamped : BufOk s2.sbuf := by rwa [nextAlarm_buf s1 n next]
  have hrecorded : BufOk s3.sbuf := by simp [s3, hstamped]
  simp [hrecorded]

@[simp] theorem State.keepEdge_bufOk (s : State) (n : Nat) (h : BufOk s.sbuf) : BufOk (s.keepEdge n).sbuf := by simp [State.keepEdge, h]

@[simp] theorem State.vmainFell_buf (s : State) : s.vmainFell.sbuf = s.sbuf := by simp [State.vmainFell]

@[simp] theorem State.toVmain_buf (s : State) : s.toVmain.sbuf = s.sbuf := rfl

@[simp] theorem State.collapseKeep_bufOk (s : State) (h : BufOk s.sbuf) : BufOk s.collapseKeep.sbuf := by
  unfold State.collapseKeep
  repeat' split
  all_goals simp [h]

@[simp] theorem opKeepWrite_buf (slot : Slot) (addr w : Nat) (s : State) : (opKeepWrite slot addr w s).2.sbuf = s.sbuf := by
  simp [opKeepWrite]

@[simp] theorem State.applyFld_buf (s : State) (w : Nat) (f : Fld) : (s.applyFld w f).sbuf = s.sbuf := by
  unfold State.applyFld
  split <;> simp

@[simp] theorem State.applyFlds_buf (s : State) (w : Nat) (l : List Fld) : (s.applyFlds w l).sbuf = s.sbuf := by
  induction l generalizing s with
  | nil => rfl
  | cons f t ih => simp [State.applyFlds, ih]

@[simp] theorem State.keepCmd_buf (s : State) (w : Nat) : (s.keepCmd w).sbuf = s.sbuf := by simp [State.keepCmd]

@[simp] theorem State.keepApply_buf (s : State) (addr w : Nat) : (s.keepApply addr w).sbuf = s.sbuf := by
  unfold State.keepApply
  dsimp only
  repeat' split
  all_goals simp

@[simp] theorem State.keepFlush_buf (s : State) : s.keepFlush.sbuf = s.sbuf := by
  unfold State.keepFlush
  split <;> simp

/-! ### The sequencer -/

@[simp] theorem State.flagRail_buf (s : State) (f : Fld) (n : Nat) : (s.flagRail f n).sbuf = s.sbuf := rfl

@[simp] theorem State.leaveM8_buf (s : State) : s.leaveM8.sbuf = s.sbuf := by simp [State.leaveM8]

@[simp] theorem State.onRest_buf (s : State) : s.onRest.sbuf = s.sbuf := by simp [State.onRest]

@[simp] theorem State.stepRise_bufOk (s : State) (high : Bool) (h : BufOk s.sbuf) : BufOk (s.stepRise high).sbuf := by
  unfold State.stepRise
  dsimp only
  split
  · simp [h]
  · split
    · exact State.offRest_bufOk _ (by simpa using h)
    · simp [h]

@[simp] theorem State.unturned_buf (s : State) : s.unturned.sbuf = s.sbuf := by
  unfold State.unturned
  split <;> simp

@[simp] theorem State.stageMode_buf (s : State) (down : Bool) : (s.stageMode down).sbuf = s.sbuf := by simp [State.stageMode]

@[simp] theorem State.stageStart_bufOk (s : State) (down : Bool) (k : Nat) (h : BufOk s.sbuf) : BufOk (s.stageStart down k).sbuf := by
  simp [State.stageStart, h]

@[simp] theorem State.releaseStep_buf (s : State) : s.releaseStep.sbuf = s.sbuf := rfl

@[simp] theorem State.leaveM9_bufOk (s : State) (h : BufOk s.sbuf) : BufOk s.leaveM9.sbuf :=
  State.offRest_bufOk _ (by simpa using h)

@[simp] theorem State.holdupDown_buf (s : State) : s.holdupDown.sbuf = s.sbuf := by simp [State.holdupDown]

@[simp] theorem State.tearEntry_buf (s : State) (k : Nat) : (s.tearEntry k).sbuf = s.sbuf := by
  unfold State.tearEntry
  dsimp only
  split <;> simp

@[simp] theorem State.brownOut_bufOk (s : State) : BufOk s.brownOut.sbuf := by simp [State.brownOut]

@[simp] theorem opGroupUp_buf (slot : Slot) (g : Nat) (s : State) : (opGroupUp slot g s).2.sbuf = s.sbuf := by simp [opGroupUp]

@[simp] theorem opGroupDown_bufOk (slot : Slot) (g : Nat) (s : State) (h : BufOk s.sbuf) : BufOk (opGroupDown slot g s).2.sbuf := by
  unfold opGroupDown
  split
  · exact h
  · split
    · exact h
    · split
      · exact h
      · dsimp only
        exact State.settle_bufOk _ h

@[simp] theorem State.serveDemand_bufOk (s : State) (g : Nat) (h : BufOk s.sbuf) : BufOk (s.serveDemand g).sbuf := by
  unfold State.serveDemand
  extract_lets q s1 s2
  split
  · exact h
  · exact State.settle_bufOk _ h

@[simp] theorem opRelease_buf (slot : Slot) (stage : Nat) (s : State) : (opRelease slot stage s).2.sbuf = s.sbuf := by simp [opRelease]

@[simp] theorem planAccess_buf {slot : Slot} {s : State} {k : State → Res} (hk : ∀ u, (k u).2.sbuf = u.sbuf) :
    (planAccess slot s k).2.sbuf = s.sbuf := by
  simp [planAccess, hk]

theorem planAccess_bufOk {slot : Slot} {s : State} {k : State → Res} (hk : ∀ u, BufOk u.sbuf → BufOk (k u).2.sbuf) (h : BufOk s.sbuf) :
    BufOk (planAccess slot s k).2.sbuf := by
  unfold planAccess
  split
  · simpa using h
  · exact leased_bufOk hk h

@[simp] theorem State.keepRails_buf (s : State) : s.keepRails.sbuf = s.sbuf := rfl

@[simp] theorem opCommit_bufOk (slot : Slot) (s : State) (h : BufOk s.sbuf) : BufOk (opCommit slot s).2.sbuf := by
  unfold opCommit
  refine planAccess_bufOk (fun u hu => ?_) h
  simp [hu]

@[simp] theorem opPlanDiscard_buf (slot : Slot) (s : State) : (opPlanDiscard slot s).2.sbuf = s.sbuf := by simp [opPlanDiscard]

@[simp] theorem opForceOff_bufOk (slot : Slot) (beyond : Nat) (s : State) (h : BufOk s.sbuf) : BufOk (opForceOff slot beyond s).2.sbuf := by
  refine secureOnly_bufOk h ?_
  split
  · exact State.allOff_bufOk _ _ _ _ _ h
  · exact h

@[simp] theorem State.turned_buf (t s : State) (slot : Slot) : (t.turned s slot).sbuf = t.sbuf := by
  simp [State.turned]

@[simp] theorem opUp_buf (slot : Slot) (s : State) : (opUp slot s).2.sbuf = s.sbuf := by
  unfold opUp
  rw [secureOnly_buf]
  repeat' split
  all_goals simp

@[simp] theorem opDown_buf (slot : Slot) (s : State) : (opDown slot s).2.sbuf = s.sbuf := by
  unfold opDown
  rw [secureOnly_buf]
  repeat' split
  all_goals simp

theorem late_outOk {slot : Slot} {s : State} {c : Option Code} {o : Out} (ho : OutOk o) (h : BufOk s.sbuf) : OutOk (late slot s c o) := by
  unfold late
  split
  · simpa using h
  · exact ho

/-! ### The monitor -/

@[simp] theorem State.warnJudge_buf (s : State) (n code : Nat) : (s.warnJudge n code).sbuf = s.sbuf := by simp [State.warnJudge]

@[simp] theorem State.judgeRail_bufOk (s : State) (n code : Nat) (pg : Bool) (h : BufOk s.sbuf) : BufOk (s.judgeRail n code pg).sbuf := by
  simp [State.judgeRail, h]

@[simp] theorem State.reading_buf (s : State) (k v : Nat) : (s.reading k v).sbuf = s.sbuf := rfl

@[simp] theorem State.xtemp_buf (s : State) (code : Nat) : (s.xtemp code).sbuf = s.sbuf := by simp [State.xtemp]

@[simp] theorem State.xtStart_buf (s : State) (was : Bool) : (s.xtStart was).sbuf = s.sbuf := by simp [State.xtStart]

@[simp] theorem State.scanRec_bufOk (s : State) (kind : Nat) (h : BufOk s.sbuf) : BufOk (s.scanRec kind).sbuf := by
  apply_rules [State.give_bufOk, h]

@[simp] theorem State.scanEnd_bufOk (s : State) (h : BufOk s.sbuf) : BufOk s.scanEnd.sbuf := by simp [State.scanEnd, h]

@[simp] theorem State.conversion_bufOk (s : State) (code : Nat) (pg : Bool) (h : BufOk s.sbuf) : BufOk (s.conversion code pg).sbuf := by
  simp [State.conversion, h]

@[simp] theorem opScanNow_buf (s : State) : (opScanNow s).2.sbuf = s.sbuf := by simp [opScanNow]

@[simp] theorem opSnap_buf (slot : Slot) (s : State) : (opSnap slot s).2.sbuf = s.sbuf := by simp [opSnap]

@[simp] theorem opClear_buf (slot : Slot) (s : State) : (opClear slot s).2.sbuf = s.sbuf := by simp [opClear]

@[simp] theorem State.entryDone_buf (s : State) : s.entryDone.sbuf = s.sbuf := by simp [State.entryDone]

@[simp] theorem State.writeEntry_buf (s : State) (words : List Nat) : (s.writeEntry words).sbuf = s.sbuf := by simp [State.writeEntry]

@[simp] theorem State.entryBegin_buf (s : State) : s.entryBegin.sbuf = s.sbuf := by
  unfold State.entryBegin
  dsimp only
  repeat' split
  all_goals simp

@[simp] theorem State.entryCommit_buf (s : State) : s.entryCommit.sbuf = s.sbuf := by
  unfold State.entryCommit
  split <;> simp

@[simp] theorem State.logScanNow_buf (s : State) : s.logScanNow.sbuf = s.sbuf := by
  unfold State.logScanNow
  dsimp only
  repeat' split
  all_goals simp

@[simp] theorem State.hostItem_buf (s : State) : s.hostItem.sbuf = s.sbuf := by simp [State.hostItem]

/-! ### Trims and learners -/

/-- Two writes at once: where a value is a long computation, one step each would make the kernel compare the values. -/
theorem State.wr_wr_buf (s : State) (f g : Fld) (v w : Nat) : ((s.wr f v).wr g w).sbuf = s.sbuf := rfl

@[simp] theorem State.trmEvt_buf (s : State) (i : Nat) : (s.trmEvt i).sbuf = s.sbuf := rfl

@[simp] theorem State.gGather_buf (s : State) (w : Nat) (acq : Bool) : (s.gGather w acq).sbuf = s.sbuf := by simp [State.gGather]

@[simp] theorem State.gUpdate_buf (s : State) : s.gUpdate.sbuf = s.sbuf := by
  unfold State.gUpdate
  split
  · simp
  · rw [State.gGather_buf]
    split
    · exact State.wr_wr_buf _ _ _ _ _
    · rfl

@[simp] theorem State.lawTerms_buf (s : State) : s.lawTerms.sbuf = s.sbuf := by simp [State.lawTerms]

@[simp] theorem State.writeIncr_buf (s : State) : s.writeIncr.sbuf = s.sbuf := by simp [State.writeIncr]

@[simp] theorem State.trimUpdate_buf (s : State) : s.trimUpdate.sbuf = s.sbuf := by simp [State.trimUpdate]

@[simp] theorem State.keepSend_buf (s : State) (addr v : Nat) : (s.keepSend addr v).sbuf = s.sbuf := rfl

@[simp] theorem State.keepGUpdate_buf (s : State) : s.keepGUpdate.sbuf = s.sbuf := by simp [State.keepGUpdate]

@[simp] theorem opKcalMeasure_buf (_slot : Slot) (s : State) : (opKcalMeasure _slot s).2.sbuf = s.sbuf := by simp [opKcalMeasure]

@[simp] theorem State.kcalDone_buf (s : State) : s.kcalDone.sbuf = s.sbuf := by
  unfold State.kcalDone
  split <;> simp

@[simp] theorem State.kcalAuto_buf (s : State) : s.kcalAuto.sbuf = s.sbuf := by
  unfold State.kcalAuto
  split <;> simp

@[simp] theorem State.kcalDrop_buf (s : State) : s.kcalDrop.sbuf = s.sbuf := by simp [State.kcalDrop]

@[simp] theorem State.glSample_buf (s : State) : s.glSample.sbuf = s.sbuf := by simp [State.glSample]

@[simp] theorem State.slopeOf_buf (s : State) (n : Int) (d : Nat) : (s.slopeOf n d).2.sbuf = s.sbuf := by simp [State.slopeOf]

@[simp] theorem State.learnMain_buf (s : State) (w : GlWin) : (s.learnMain w).sbuf = s.sbuf := by simp [State.learnMain]

@[simp] theorem State.learnKeep_buf (s : State) (w : GlWin) : (s.learnKeep w).sbuf = s.sbuf := by simp [State.learnKeep]

@[simp] theorem State.glEnd_buf (s : State) (w : GlWin) : (s.glEnd w).sbuf = s.sbuf := by simp [State.glEnd]

@[simp] theorem State.glDiscard_buf (s : State) : s.glDiscard.sbuf = s.sbuf := rfl

@[simp] theorem opGlRestart_buf (_slot : Slot) (s : State) : (opGlRestart _slot s).2.sbuf = s.sbuf := rfl

@[simp] theorem opFold_buf (slot : Slot) (s : State) : (opFold slot s).2.sbuf = s.sbuf := by simp [opFold]

/-! ### Disciplines -/

@[simp] theorem State.servoUpdate_buf (s : State) (th : Int) : (s.servoUpdate th).sbuf = s.sbuf := by simp [State.servoUpdate]

@[simp] theorem State.servoCoast_buf (s : State) : s.servoCoast.sbuf = s.sbuf := by simp [State.servoCoast]

@[simp] theorem State.logSecond_buf (s : State) (th : Option Int) : (s.logSecond th).sbuf = s.sbuf := rfl

@[simp] theorem State.unlock_buf (s : State) (cause : Nat) : (s.unlock cause).sbuf = s.sbuf := by simp [State.unlock]

@[simp] theorem State.lock_buf (s : State) : s.lock.sbuf = s.sbuf := by simp [State.lock]

@[simp] theorem State.discRecord_bufOk (s : State) (x : Sample) (label : Option Nat) (h : BufOk s.sbuf) :
    BufOk (s.discRecord x label).sbuf := by
  unfold State.discRecord
  dsimp only
  repeat' split
  all_goals apply_rules [State.give_bufOk, h]

@[simp] theorem State.autoAct_buf (s : State) (x : Sample) (label : Option Nat) : (s.autoAct x label).sbuf = s.sbuf := by
  unfold State.autoAct
  split <;> simp

@[simp] theorem State.autoAcq_buf (s : State) (x : Sample) (label : Option Nat) : (s.autoAcq x label).sbuf = s.sbuf := by
  unfold State.autoAcq
  dsimp only
  split <;> simp

@[simp] theorem State.judgeSample_bufOk (s : State) (x : Sample) (label : Option Nat) (h : BufOk s.sbuf) :
    BufOk (s.judgeSample x label).sbuf := by
  simp [State.judgeSample, h]

@[simp] theorem State.judgeHeld_bufOk (s : State) (label : Option Nat) (h : BufOk s.sbuf) : BufOk (s.judgeHeld label).sbuf := by
  unfold State.judgeHeld
  split <;> simp [h]

@[simp] theorem State.acceptEdge_buf (s : State) (x : Sample) : (s.acceptEdge x).sbuf = s.sbuf := by simp [State.acceptEdge]

@[simp] theorem State.servoDue_bufOk (s : State) (h : BufOk s.sbuf) : BufOk s.servoDue.sbuf := by
  unfold State.servoDue
  split <;> simp [h]

@[simp] theorem State.onTimeEdge_bufOk (s : State) (kind ht : Nat) (step : Bool) (h : BufOk s.sbuf) :
    BufOk (s.onTimeEdge kind ht step).sbuf := by
  simp [State.onTimeEdge, h]

@[simp] theorem State.ppsinEdge_bufOk (s : State) (ht : Nat) (h : BufOk s.sbuf) : BufOk (s.ppsinEdge ht).sbuf := by
  simp [State.ppsinEdge, h]

@[simp] theorem State.missingSecond_bufOk (s : State) (h : BufOk s.sbuf) : BufOk s.missingSecond.sbuf := by
  unfold State.missingSecond
  extract_lets s1 due s2 s3 q s4 s5 s6
  have hjudged : BufOk s1.sbuf := by simp [s1, h]
  have hrecorded : BufOk s3.sbuf := by simp [s3, s2, hjudged]
  have hcoasted : BufOk s5.sbuf := by simp [s5, s4, hrecorded]
  simp [s6, hcoasted]

@[simp] theorem State.zdaLabel_bufOk (s : State) (l : Nat) (h : BufOk s.sbuf) : BufOk (s.zdaLabel l).sbuf := by simp [State.zdaLabel, h]

@[simp] theorem State.zdaBad_buf (s : State) : s.zdaBad.sbuf = s.sbuf := rfl

@[simp] theorem State.zdaSentence_bufOk (s : State) (text : List Nat) (h : BufOk s.sbuf) : BufOk (s.zdaSentence text).sbuf := by
  unfold State.zdaSentence
  repeat' split
  all_goals simp [h]

@[simp] theorem opDeclareLock_buf (slot : Slot) (s : State) : (opDeclareLock slot s).2.sbuf = s.sbuf := by simp [opDeclareLock]

@[simp] theorem opDeclareUnlock_buf (slot : Slot) (s : State) : (opDeclareUnlock slot s).2.sbuf = s.sbuf := by simp [opDeclareUnlock]

@[simp] theorem opIntegClear_buf (slot : Slot) (s : State) : (opIntegClear slot s).2.sbuf = s.sbuf := by
  unfold opIntegClear
  rw [secureOnly_buf]
  simp

@[simp] theorem State.holdExit_buf (s : State) (cause : Nat) : (s.holdExit cause).sbuf = s.sbuf := by simp [State.holdExit]

@[simp] theorem State.holdSecond_buf (s : State) : s.holdSecond.sbuf = s.sbuf := by
  rw [State.holdSecond]
  split
  · rw [State.holdExit_buf, State.wr_sbuf, State.wr_sbuf]
  · split
    · rw [State.holdExit_buf, State.wr_sbuf, State.wr_sbuf]
    · rw [State.wr_sbuf, State.wr_sbuf]

@[simp] theorem State.discFlush_bufOk (s : State) (h : BufOk s.sbuf) : BufOk s.discFlush.sbuf := by
  unfold State.discFlush
  dsimp only
  repeat' split
  all_goals simp [h]

@[simp] theorem State.dsrcChanged_buf (s : State) : s.dsrcChanged.sbuf = s.sbuf := by simp [State.dsrcChanged]

end Sys2Proof.Machine
end

section
/-! SUPPORT. The Shared Buffer under CAN frames, ports, events, rings, mailboxes, timed outputs and mills. -/

namespace Sys2Proof.Machine

open F

/-! ### Frames to CAN nodes -/

@[simp] theorem State.setCanPort_buf (s : State) (p : Nat) (x : CanPort) : (s.setCanPort p x).sbuf = s.sbuf := rfl

@[simp] theorem State.setCanNode_buf (s : State) (p n : Nat) (x : CanNode) : (s.setCanNode p n x).sbuf = s.sbuf := rfl

@[simp] theorem State.canSend_buf (s : State) (p : Nat) (f : CanOut) : (s.canSend p f).sbuf = s.sbuf := by simp [State.canSend]

@[simp] theorem State.canGone_buf (s : State) : s.canGone.sbuf = s.sbuf := by simp [State.canGone]

@[simp] theorem State.canHub_buf (s : State) (p : Nat) (f : CanOut) : (s.canHub p f).sbuf = s.sbuf := by simp [State.canHub]

@[simp] theorem State.canPost_buf (s : State) (p fn dest seq : Nat) (ws : List Nat) : (s.canPost p fn dest seq ws).sbuf = s.sbuf := by
  simp [State.canPost]

@[simp] theorem State.canNote_buf (s : State) (k fn : Nat) (ws : List Nat) : (s.canNote k fn ws).sbuf = s.sbuf := by simp [State.canNote]

@[simp] theorem State.notePending_buf (s : State) (k : Nat) : (s.notePending k).sbuf = s.sbuf := by simp [State.notePending]

@[simp] theorem State.noteAttn_buf (s : State) (k : Nat) : (s.noteAttn k).sbuf = s.sbuf := by simp [State.noteAttn]

@[simp] theorem State.pendingDue_buf (s : State) (k : Nat) : (s.pendingDue k).sbuf = s.sbuf := rfl

@[simp] theorem State.pendingSend_buf (s : State) (k : Nat) : (s.pendingSend k).sbuf = s.sbuf := by simp [State.pendingSend]

@[simp] theorem State.canTell_buf (s : State) (k : Nat) : (s.canTell k).sbuf = s.sbuf := by simp [State.canTell]

@[simp] theorem State.pendingNotes_buf (s : State) : s.pendingNotes.sbuf = s.sbuf := by simp [State.pendingNotes]

@[simp] theorem State.canNotes_buf (s : State) : s.canNotes.sbuf = s.sbuf := by simp [State.canNotes]

/-! ### Ports -/

@[simp] theorem State.send_buf (s : State) (p : Nat) (sh : Shape) (acted : Bool) (c : Code) (d : List Nat) :
    (s.send p sh acted c d).sbuf = s.sbuf := by
  simp [State.send]

@[simp] theorem State.open_buf (s : State) (p : Nat) (high : Bool) : (s.open_ p high).2.sbuf = s.sbuf := by simp [State.open_]

@[simp] theorem State.close_buf (s : State) (p : Nat) (k : Option Slot) (sh : Shape) (acted : Bool) (c : Code) (d : List Nat) :
    (s.close p k sh acted c d).sbuf = s.sbuf := by
  unfold State.close
  split <;> simp

theorem frame_outOk {p : Port} {w : Wire} {sh : Shape} {reads : Bool} {refused : Option Code} {s : State}
    {op : Slot → State → Code × State × List Nat} {renew : Slot → State → State}
    (hop : ∀ k u, BufOk u.sbuf → BufOk (op k u).2.1.sbuf) (hrenew : ∀ k u, BufOk u.sbuf → BufOk (renew k u).sbuf) (h : BufOk s.sbuf) :
    OutOk (frame p w sh reads refused s op renew) := by
  have hopen : BufOk (s.open_ p.val w.high).2.sbuf := by simpa using h
  unfold frame
  rw [outOk_next]
  split
  · simpa using h
  · dsimp only
    split
    · simpa using h
    · split
      · simpa using h
      · have hmarked : ∀ k, BufOk ((s.open_ p.val w.high).2.marked k).sbuf := fun k => by simpa using h
        split
        · simp [hrenew _ _ (hmarked _), h]
        · split
          · simpa using h
          · simpa using hop _ _ (hmarked _)

theorem readFrame_outOk {p : Port} {w : Wire} {reads : Bool} {op field mask n : Nat} {s : State}
    {act : Slot → State → Code × State × List Nat} (hact : ∀ k u, BufOk u.sbuf → BufOk (act k u).2.1.sbuf) (h : BufOk s.sbuf) :
    OutOk (readFrame p w reads op field mask n s act) :=
  frame_outOk hact (fun _ _ hu => hu) h

theorem writeFrame_outOk {p : Port} {w : Wire} {op field mask : Nat} {payload : List Nat} {s : State} {act : Slot → State → Res}
    {renew : Slot → State → State} (hact : ∀ k u, BufOk u.sbuf → BufOk (act k u).2.sbuf)
    (hrenew : ∀ k u, BufOk u.sbuf → BufOk (renew k u).sbuf) (h : BufOk s.sbuf) :
    OutOk (writeFrame p w op field mask payload s act renew) :=
  frame_outOk hact hrenew h

@[simp] theorem State.shortFrame_buf (s : State) (p : Nat) (sck : Bool) (wire : Wire) : (s.shortFrame p sck wire).sbuf = s.sbuf := by
  simp [State.shortFrame]

theorem byWire_outOk {slot : Slot} {wire : Option Wire} {s : State} {plain : Out} {framed : Port → Wire → Out} (hplain : OutOk plain)
    (hframed : ∀ p w, OutOk (framed p w)) : OutOk (byWire slot wire s plain framed) := by
  unfold byWire
  split
  · split
    · exact hframed _ _
    · exact hplain
  · exact hplain

theorem fixedRead_outOk {slot : Slot} {wire : Option Wire} {op field mask n : Nat} {s : State}
    {act : Slot → State → Code × State × List Nat} (hact : ∀ k u, BufOk u.sbuf → BufOk (act k u).2.1.sbuf) (h : BufOk s.sbuf) :
    OutOk (fixedRead slot wire op field mask n s act) :=
  byWire_outOk (hostData_outOk (hact slot) h) fun _ _ => frame_outOk hact (fun _ _ hu => hu) h

theorem fixedWrite_outOk {slot : Slot} {wire : Option Wire} {op field mask : Nat} {payload : List Nat} {s : State} {act : Slot → State → Res}
    (hact : ∀ k u, BufOk u.sbuf → BufOk (act k u).2.sbuf) (h : BufOk s.sbuf) : OutOk (fixedWrite slot wire op field mask payload s act) :=
  byWire_outOk (hostFree_outOk (hact slot) h) fun _ _ => frame_outOk hact (fun _ _ hu => hu) h

/-! ### The event controller -/

@[simp] theorem State.icuRound_buf (s : State) : s.icuRound.sbuf = s.sbuf := by
  unfold State.icuRound
  split
  · rfl
  · split <;> rfl

@[simp] theorem State.icuRingOff_bufOk (s : State) (t : Nat) (h : BufOk s.sbuf) : BufOk (s.icuRingOff t).sbuf := by
  simp [State.icuRingOff, h]

@[simp] theorem State.icuPublish_bufOk (s : State) (t : Nat) (h : BufOk s.sbuf) : BufOk (s.icuPublish t).sbuf := by
  unfold State.icuPublish
  split <;> simp [h]

@[simp] theorem tgtAccess_buf {slot : Slot} {t : Nat} {s : State} {k : Code × State × List Nat} (hk : k.2.1.sbuf = s.sbuf) :
    (tgtAccess slot t s k).2.1.sbuf = s.sbuf := by
  simp [tgtAccess, hk]

@[simp] theorem State.icuClaim_buf (s : State) (t : Nat) : (s.icuClaim t).2.1.sbuf = s.sbuf := by
  unfold State.icuClaim
  dsimp only
  split <;> simp

@[simp] theorem opClaim_buf (slot : Slot) (t : Nat) (s : State) : (opClaim slot t s).2.1.sbuf = s.sbuf := by simp [opClaim]

@[simp] theorem opEventClaim_buf (slot : Slot) (s : State) : (opEventClaim slot s).2.1.sbuf = s.sbuf := by simp [opEventClaim]

@[simp] theorem State.icuEoi_buf (s : State) (t src : Nat) : (s.icuEoi t src).2.sbuf = s.sbuf := by
  unfold State.icuEoi
  dsimp only
  split <;> simp

@[simp] theorem opEoi_buf (slot : Slot) (t src : Nat) (s : State) : (opEoi slot t src s).2.sbuf = s.sbuf := by simp [opEoi]

@[simp] theorem opEventEoi_buf (slot : Slot) (src : Nat) (s : State) : (opEventEoi slot src s).2.sbuf = s.sbuf := by simp [opEventEoi]

@[simp] theorem opLatchClear_buf (slot : Slot) (w v : Nat) (s : State) : (opLatchClear slot w v s).2.sbuf = s.sbuf := by simp [opLatchClear]

@[simp] theorem opLbrkClear_buf (slot : Slot) (v : Nat) (s : State) : (opLbrkClear slot v s).2.sbuf = s.sbuf := by
  unfold opLbrkClear
  rw [secureOnly_buf]
  simp

@[simp] theorem opTargetReset_bufOk (slot : Slot) (t : Nat) (s : State) (h : BufOk s.sbuf) : BufOk (opTargetReset slot t s).2.sbuf := by
  simp [opTargetReset, h]

@[simp] theorem opPrigrpWrite_buf (slot : Slot) (v : Nat) (s : State) : (opPrigrpWrite slot v s).2.sbuf = s.sbuf := by simp [opPrigrpWrite]

@[simp] theorem opSrccfgWrite_buf (slot : Slot) (n v : Nat) (s : State) : (opSrccfgWrite slot n v s).2.sbuf = s.sbuf := by
  simp [opSrccfgWrite]

@[simp] theorem opTgtcfgWrite_buf (slot : Slot) (t v : Nat) (s : State) : (opTgtcfgWrite slot t v s).2.sbuf = s.sbuf := by
  simp [opTgtcfgWrite]

/-! ### Radio items -/

@[simp] theorem State.setPtr_buf (s : State) (a : Nat) (x : Partner) : (s.setPtr a x).sbuf = s.sbuf := rfl

@[simp] theorem State.radFlag_buf (s : State) (p i : Nat) : (s.radFlag p i).sbuf = s.sbuf := rfl

@[simp] theorem State.ptnFlag_buf (s : State) (p i : Nat) : (s.ptnFlag p i).sbuf = s.sbuf := rfl

/-! ### Rings as a slot uses them -/

@[simp] theorem opRingRead_buf (slot : Slot) (r : Nat) (peek : Bool) (words : Nat) (s : State) :
    (opRingRead slot r peek words s).2.1.sbuf = s.sbuf := by
  simp [opRingRead]

@[simp] theorem opRingReadFrame_buf (p : Nat) (slot : Slot) (r : Nat) (peek : Bool) (words : Nat) (s : State) :
    (opRingReadFrame p slot r peek words s).2.1.sbuf = s.sbuf := by
  simp [opRingReadFrame]

@[simp] theorem State.cutRead_buf (s : State) (slot : Nat) (p : Option Nat) : (s.cutRead slot p).sbuf = s.sbuf := by
  unfold State.cutRead
  dsimp only
  repeat' split
  all_goals simp

@[simp] theorem State.partialNote_buf (s : State) (r : Nat) : (s.partialNote r).sbuf = s.sbuf := rfl

@[simp] theorem opRingWrite_bufOk (slot : Slot) (r : Nat) (ws : List Nat) (s : State) (h : BufOk s.sbuf) :
    BufOk (opRingWrite slot r ws s).2.sbuf := by
  unfold opRingWrite
  repeat' split
  case h_2.isFalse.isFalse =>
    exact foldl_bufOk (fun (u : State) (it : List Nat) hu => State.offer_bufOk u r it hu) _ h
  all_goals simp [h]

@[simp] theorem opWidxWrite_buf (slot : Slot) (r v : Nat) (s : State) : (opWidxWrite slot r v s).2.sbuf = s.sbuf := by
  unfold opWidxWrite
  split
  · rfl
  · extract_lets adv
    split
    · rfl
    · exact State.publish_buf _ _ _

@[simp] theorem opRidxWrite_buf (slot : Slot) (r v : Nat) (s : State) : (opRidxWrite slot r v s).2.sbuf = s.sbuf := by
  unfold opRidxWrite
  -- the kernel must not evaluate the two judgements, which compute with 2³²
  generalize s.ridxRefused r v = late
  generalize s.ringRight slot.val r (rCons r) = right
  cases right <;> cases late <;> rfl

@[simp] theorem State.dropPartial_buf (s : State) (r : Nat) : (s.dropPartial r).sbuf = s.sbuf := by simp [State.dropPartial]

@[simp] theorem State.frameAborted_buf (s : State) (slot : Nat) : (s.frameAborted slot).sbuf = s.sbuf := by
  unfold State.frameAborted
  dsimp only
  split <;> simp

@[simp] theorem State.dropWrites_buf (s : State) (r : Nat) (l : List Ended) : (s.dropWrites r l).sbuf = s.sbuf := by
  induction l generalizing s with
  | nil => rfl
  | cons e t ih => cases e <;> simp [State.dropWrites, ih]

@[simp] theorem opFlush_bufOk (slot : Slot) (r : Nat) (s : State) (h : BufOk s.sbuf) : BufOk (opFlush slot r s).2.sbuf := by
  unfold opFlush
  dsimp only
  repeat' split
  all_goals simp [h]

@[simp] theorem State.ringEnable_buf (s : State) (r : Nat) : (s.ringEnable r).sbuf = s.sbuf := rfl

@[simp] theorem State.ringDisable_bufOk (s : State) (r : Nat) (h : BufOk s.sbuf) : BufOk (s.ringDisable r).sbuf := by
  simp [State.ringDisable, h]

@[simp] theorem opRngCfgWrite_bufOk (slot : Slot) (r v : Nat) (s : State) (h : BufOk s.sbuf) : BufOk (opRngCfgWrite slot r v s).2.sbuf := by
  unfold opRngCfgWrite
  split <;> simp [h]

@[simp] theorem opRngBaseWrite_buf (slot : Slot) (r v : Nat) (s : State) : (opRngBaseWrite slot r v s).2.sbuf = s.sbuf := by
  unfold opRngBaseWrite
  split <;> simp

@[simp] theorem opRngThrWrite_buf (slot : Slot) (r v : Nat) (s : State) : (opRngThrWrite slot r v s).2.sbuf = s.sbuf := by
  unfold opRngThrWrite
  split <;> simp

@[simp] theorem opRngEvtWrite_buf (slot : Slot) (r v : Nat) (s : State) : (opRngEvtWrite slot r v s).2.sbuf = s.sbuf := by
  unfold opRngEvtWrite
  split <;> simp

@[simp] theorem opRngCtlWrite_bufOk (slot : Slot) (r v : Nat) (s : State) (h : BufOk s.sbuf) : BufOk (opRngCtlWrite slot r v s).2.sbuf := by
  simp [opRngCtlWrite, h]

/-! ### Mailboxes -/

@[simp] theorem State.post_buf (s : State) (slot c st w0 w1 : Nat) : (s.post slot c st w0 w1).2.sbuf = s.sbuf := by
  unfold State.post
  dsimp only
  split <;> simp

theorem State.postBlocked_buf {s : State} {c : Nat} {r : Res} (hr : s.postBlocked c = some r) : r.2.sbuf = s.sbuf := by
  unfold State.postBlocked at hr
  split at hr
  · cases hr
    rfl
  · split at hr
    · cases hr
      simp
    · nomatch hr

@[simp] theorem opPinchPost_buf (slot : Slot) (c w : Nat) (s : State) : (opPinchPost slot c w s).2.sbuf = s.sbuf := by
  unfold opPinchPost
  split
  · rfl
  · split
    · rfl
    · split
      · exact State.postBlocked_buf ‹_›
      · simp

@[simp] theorem opSachetPost_buf (slot : Slot) (c w0 w1 : Nat) (s : State) : (opSachetPost slot c w0 w1 s).2.sbuf = s.sbuf := by
  unfold opSachetPost
  split
  · rfl
  · extract_lets ofs len
    split
    · rfl
    · split
      · rfl
      · split
        · rfl
        · split
          · exact State.postBlocked_buf ‹_›
          · simp

@[simp] theorem State.taken_buf (s : State) (c : Nat) : (s.taken c).sbuf = s.sbuf := by simp [State.taken]

@[simp] theorem opRx0Read_buf (slot : Slot) (c : Nat) (s : State) : (opRx0Read slot c s).2.1.sbuf = s.sbuf := by
  unfold opRx0Read
  split <;> simp

@[simp] theorem opMbxTake_buf (slot : Slot) (c : Nat) (s : State) : (opMbxTake slot c s).2.1.sbuf = s.sbuf := by
  unfold opMbxTake
  split <;> simp

@[simp] theorem opMbxAck_buf (slot : Slot) (c code : Nat) (s : State) : (opMbxAck slot c code s).2.sbuf = s.sbuf := by
  unfold opMbxAck
  split <;> simp

@[simp] theorem opRetract_buf (slot : Slot) (c : Nat) (s : State) : (opRetract slot c s).2.sbuf = s.sbuf := by
  unfold opRetract
  split <;> simp

@[simp] theorem opMbxStatWrite_buf (slot : Slot) (c v : Nat) (s : State) : (opMbxStatWrite slot c v s).2.sbuf = s.sbuf := by
  unfold opMbxStatWrite
  split <;> simp

@[simp] theorem opTx0Write_buf (slot : Slot) (c v : Nat) (s : State) : (opTx0Write slot c v s).2.sbuf = s.sbuf := by
  unfold opTx0Write
  split <;> simp

@[simp] theorem opTx1Write_buf (slot : Slot) (c v : Nat) (s : State) : (opTx1Write slot c v s).2.sbuf = s.sbuf := by
  unfold opTx1Write
  split <;> simp

@[simp] theorem opMbxCmd_buf (slot : Slot) (c v : Nat) (s : State) : (opMbxCmd slot c v s).2.sbuf = s.sbuf := by
  unfold opMbxCmd
  split <;> simp

@[simp] theorem State.chanOff_buf (s : State) (c : Nat) : (s.chanOff c).sbuf = s.sbuf := rfl

@[simp] theorem opMbxBindWrite_buf (slot : Slot) (c v : Nat) (s : State) : (opMbxBindWrite slot c v s).2.sbuf = s.sbuf := by
  unfold opMbxBindWrite
  dsimp only
  repeat' split
  all_goals simp

/-! ### Predicted edges -/

@[simp] theorem State.touEnd_buf (s : State) (n e st : Nat) : (s.touEnd n e st).sbuf = s.sbuf := rfl

@[simp] theorem State.touAct_buf (s : State) (n e place : Nat) (late : Bool) : (s.touAct n e place late).sbuf = s.sbuf := by
  simp [State.touAct]

@[simp] theorem State.touCommitAt_buf (s : State) (n e t : Nat) (late : Bool) : (s.touCommitAt n e t late).sbuf = s.sbuf := by
  simp [State.touCommitAt]

@[simp] theorem State.touCommits_buf (s : State) (n : Nat) (upTo : Option Nat) (fuel : Nat) : (s.touCommits n upTo fuel).sbuf = s.sbuf := by
  induction fuel generalizing s with
  | zero => rfl
  | succ fuel ih =>
    rw [State.touCommits]
    split
    · dsimp only
      split <;> simp [ih]
    · rfl

@[simp] theorem State.touCommit_buf (s : State) (n e : Nat) : (s.touCommit n e).sbuf = s.sbuf := by simp [State.touCommit]

@[simp] theorem State.touRelock_buf (s : State) (m n e : Nat) : (s.touRelock m n e).sbuf = s.sbuf := by
  unfold State.touRelock
  dsimp only
  repeat' split
  all_goals simp

@[simp] theorem State.touPred_buf (s : State) (n e t : Nat) : (s.touPred n e t).sbuf = s.sbuf := by simp [State.touPred]

@[simp] theorem State.touPredict_buf (s : State) (m n e : Nat) : (s.touPredict m n e).sbuf = s.sbuf := by
  unfold State.touPredict
  dsimp only
  repeat' split
  all_goals simp

@[simp] theorem State.touRepredict_buf (s : State) (m : Nat) : (s.touRepredict m).sbuf = s.sbuf := by simp [State.touRepredict]

@[simp] theorem State.touThawOut_buf (s : State) (n fuel : Nat) : (s.touThawOut n fuel).sbuf = s.sbuf := by
  induction fuel generalizing s with
  | zero => rfl
  | succ fuel ih =>
    rw [State.touThawOut]
    split
    · simp [ih]
    · rfl

@[simp] theorem State.touThaw_buf (s : State) : s.touThaw.sbuf = s.sbuf := by simp [State.touThaw]

/-! ### Mills -/

@[simp] theorem State.milFlag_buf (s : State) (m i : Nat) : (s.milFlag m i).sbuf = s.sbuf := rfl

@[simp] theorem State.milRec_buf (s : State) (m kind detail t rev : Nat) : (s.milRec m kind detail t rev).sbuf = s.sbuf := by
  simp [State.milRec]

@[simp] theorem State.milEvent_buf (s : State) (m flag kind detail t : Nat) : (s.milEvent m flag kind detail t).sbuf = s.sbuf := by
  simp [State.milEvent]

@[simp] theorem State.milLose_buf (s : State) (m detail t : Nat) : (s.milLose m detail t).sbuf = s.sbuf := by simp [State.milLose]

@[simp] theorem State.milQuill_buf (s : State) (m i t : Nat) (pol : Bool) : (s.milQuill m i t pol).sbuf = s.sbuf := by simp [State.milQuill]

@[simp] theorem State.milShowAs_buf (s : State) (m : Nat) (k : MillSt) (seq : Nat) : (s.milShowAs m k seq).sbuf = s.sbuf := by
  rw [State.milShowAs]
  exact foldl_buf (fun s (wi : Nat × Nat) => State.wr_sbuf s _ wi.1) _ s

@[simp] theorem State.milShow_buf (s : State) (m : Nat) : (s.milShow m).sbuf = s.sbuf := by
  unfold State.milShow
  split <;> simp

@[simp] theorem State.milShift_buf (s : State) (m : Nat) (d : Int) : (s.milShift m d).sbuf = s.sbuf := by simp [State.milShift]

@[simp] theorem State.milSlip_buf (s : State) (m t : Nat) : (s.milSlip m t).sbuf = s.sbuf := by simp [State.milSlip]

@[simp] theorem State.milReference_buf (s : State) (m t pos : Nat) (badGap : Bool) : (s.milReference m t pos badGap).sbuf = s.sbuf := by
  simp [State.milReference]

@[simp] theorem State.milKeep_buf (s : State) (m : Nat) (k : MillSt) : (s.milKeep m k).sbuf = s.sbuf := by
  rw [State.milKeep, State.wr_sbuf, State.milShowAs_buf, State.setMill_sbuf]

@[simp] theorem State.milMark_buf (s : State) (m t pos : Nat) : (s.milMark m t pos).sbuf = s.sbuf := by
  unfold State.milMark
  dsimp only
  split <;> simp

@[simp] theorem State.milSpeed_buf (s : State) (m t : Nat) (w : Int) : (s.milSpeed m t w).sbuf = s.sbuf := by simp [State.milSpeed]

@[simp] theorem State.milAcquire_buf (s : State) (m t : Nat) : (s.milAcquire m t).sbuf = s.sbuf := by simp [State.milAcquire]

@[simp] theorem State.milJudge_buf (s : State) (m t : Nat) (e : Int) : (s.milJudge m t e).sbuf = s.sbuf := by simp [State.milJudge]

theorem judgedWith_buf (s : State) (m t : Nat) (e : Option Int) :
    (match e with | some e => s.milJudge m t e | none => s).sbuf = s.sbuf := by
  cases e with
  | none => rfl
  | some e => exact s.milJudge_buf m t e

@[simp] theorem State.milTake_buf (s : State) (m : Nat) (g : MillEdge) : (s.milTake m g).sbuf = s.sbuf := by
  unfold State.milTake
  extract_lets x r bw s1 s2 s3 s4 s5 y s6
  have hmarked : s3.sbuf = s.sbuf := by
    rw [State.milMark_buf, State.wr_sbuf, State.milKeep_buf, State.setMill_sbuf]
  have hjudged : s4.sbuf = s3.sbuf := judgedWith_buf _ _ _ _
  have hspeed : s6.sbuf = s4.sbuf := by
    simp only [s6]
    split
    · rw [State.setMill_sbuf, State.milSpeed_buf]
    · rw [State.milSpeed_buf]
  rw [State.milAcquire_buf, hspeed, hjudged, hmarked]

@[simp] theorem State.milFlush_buf (s : State) (m t : Nat) : (s.milFlush m t).sbuf = s.sbuf := by
  unfold State.milFlush
  dsimp only
  split
  · split
    · rw [State.setMill_sbuf, State.touRepredict_buf, State.milTake_buf]
    · rfl
  · rfl

@[simp] theorem State.milEstimate_buf (s : State) (m : Nat) (g : MillEdge) : (s.milEstimate m g).sbuf = s.sbuf := by
  simp [State.milEstimate]

@[simp] theorem State.milWrap_buf (s : State) (m t old new : Nat) : (s.milWrap m t old new).sbuf = s.sbuf := by simp [State.milWrap]

@[simp] theorem State.milDir_buf (s : State) (m t : Nat) (neg : Bool) : (s.milDir m t neg).sbuf = s.sbuf := by simp [State.milDir]

@[simp] theorem State.milCount_buf (s : State) (m : Nat) (neg : Bool) : (s.milCount m neg).sbuf = s.sbuf := by simp [State.milCount]

@[simp] theorem State.milUnits_buf (s : State) (m : Nat) (turned : Bool) : (s.milUnits m turned).sbuf = s.sbuf := by simp [State.milUnits]

@[simp] theorem State.milCounted_buf (s : State) (m t : Nat) (neg z : Bool) : (s.milCounted m t neg z).sbuf = s.sbuf := by
  simp [State.milCounted]

@[simp] theorem State.milQerr_buf (s : State) (m t : Nat) : (s.milQerr m t).sbuf = s.sbuf := by simp [State.milQerr]

@[simp] theorem State.milZ_buf (s : State) (m t : Nat) : (s.milZ m t).sbuf = s.sbuf := by simp [State.milZ]

@[simp] theorem State.milPass_buf (s : State) (m : Nat) (l : List (Nat × Nat)) : (s.milPass m l).sbuf = s.sbuf := by
  unfold State.milPass
  extract_lets x at_ dA dB dZ a b z tA tB tZ s1 s2 s3 s4 zEdge rev dirIn s5 counted neg s6
  have hquills : s4.sbuf = s.sbuf := by simp [s4, s3, s2, s1]
  have hcounted : s5.sbuf = s.sbuf := by simp [s5, hquills]
  have hsource : s6.sbuf = s.sbuf := by simp [s6, hquills]
  split
  · rfl
  · split
    · simp [hcounted]
    · simp [hsource]
    · simp [hquills]

@[simp] theorem State.milDecide_buf (s : State) (m : Nat) (l : List (Nat × Nat)) (fuel : Nat) : (s.milDecide m l fuel).sbuf = s.sbuf := by
  induction fuel generalizing s l with
  | zero => rfl
  | succ fuel ih =>
    rw [State.milDecide]
    split
    · rfl
    · rw [ih, State.milPass_buf]

@[simp] theorem State.milTogether_buf (s : State) (m : Nat) (l : List (Nat × Nat)) : (s.milTogether m l).sbuf = s.sbuf := by
  simp [State.milTogether]

@[simp] theorem State.milSettle_buf (s : State) (m : Nat) : (s.milSettle m).sbuf = s.sbuf := by simp [State.milSettle]

@[simp] theorem State.milEdge_buf (s : State) (m : Nat) (a b z : Bool) (t : Nat) : (s.milEdge m a b z t).sbuf = s.sbuf := by
  simp [State.milEdge]

@[simp] theorem State.milAsleep_buf (s : State) (m : Nat) (a b z : Bool) : (s.milAsleep m a b z).sbuf = s.sbuf := by simp [State.milAsleep]

@[simp] theorem State.milStall_buf (s : State) (m : Nat) : (s.milStall m).sbuf = s.sbuf := by simp [State.milStall]

@[simp] theorem State.milRestart_buf (s : State) (m : Nat) : (s.milRestart m).sbuf = s.sbuf := rfl

@[simp] theorem State.milApply_buf (s : State) (m : Nat) : (s.milApply m).sbuf = s.sbuf := by
  unfold State.milApply
  extract_lets core z0 s1 d x old s2
  have hcopied : s1.sbuf = s.sbuf := State.copyTo_buf _ _ _
  have hshifted : s2.sbuf = s.sbuf := by
    rw [State.milShift_buf, State.setMill_sbuf, hcopied]
  split
  · rw [State.milRestart_buf, hcopied]
  · split
    · rw [State.milWrap_buf, hshifted]
    · exact hshifted

@[simp] theorem opMillApply_buf (slot : Slot) (m : Nat) (s : State) : (opMillApply slot m s).2.sbuf = s.sbuf := by
  unfold opMillApply
  refine leased_buf (fun u => ?_)
  simp

@[simp] theorem opMillDiscard_buf (slot : Slot) (m : Nat) (s : State) : (opMillDiscard slot m s).2.sbuf = s.sbuf := by
  refine leased_buf fun u => ?_
  exact (State.leaseBroken_buf _).trans (State.copyFrom_buf _ _ _)

theorem evalWords_buf (s : State) (m : Nat) (ws : List Nat) (v : Nat) :
    (((ws.zipIdx.foldl (fun s wi => s.wr (lEval m wi.2) wi.1) s).wr (lEvalDone m) 1).wr (lEvalValid m) v).sbuf = s.sbuf := by
  simp

@[simp] theorem opEval_buf (slot : Slot) (m : Nat) (s : State) : (opEval slot m s).2.sbuf = s.sbuf := by
  refine leased_buf fun u => ?_
  exact (evalWords_buf _ _ _ _).trans (u.milSettle_buf m)

@[simp] theorem opInject_buf (slot : Slot) (m : Nat) (s : State) : (opInject slot m s).2.sbuf = s.sbuf := by
  unfold opInject
  refine leased_buf (fun u => ?_)
  simp

@[simp] theorem State.milNext_buf (s : State) (m : Nat) : (s.milNext m).sbuf = s.sbuf := rfl

@[simp] theorem State.milOfferRec_bufOk (s : State) (m : Nat) (h : BufOk s.sbuf) : BufOk (s.milOfferRec m).sbuf := by
  unfold State.milOfferRec
  dsimp only
  repeat' split
  all_goals apply_rules [State.give_bufOk, h]

@[simp] theorem State.milOfferQuill_bufOk (s : State) (m : Nat) (h : BufOk s.sbuf) : BufOk (s.milOfferQuill m).sbuf := by
  unfold State.milOfferQuill
  dsimp only
  repeat' split
  all_goals apply_rules [State.give_bufOk, h]

@[simp] theorem State.milOffer_bufOk (s : State) (h : BufOk s.sbuf) : BufOk s.milOffer.sbuf := by
  unfold State.milOffer
  repeat' split
  all_goals simp [h]

@[simp] theorem State.milsCycle_buf (s : State) : s.milsCycle.sbuf = s.sbuf := by simp [State.milsCycle]

@[simp] theorem State.milThaw_buf (s : State) (m : Nat) : (s.milThaw m).sbuf = s.sbuf := by simp [State.milThaw]

@[simp] theorem State.milsThaw_buf (s : State) : s.milsThaw.sbuf = s.sbuf := by simp [State.milsThaw]

end Sys2Proof.Machine
end

section
/-! SUPPORT. The Shared Buffer under partners, radio, stamps, calendar, Backup Store, sweeps, timers and timed outputs. -/

namespace Sys2Proof.Machine

open F

/-! ### The table of partners -/

@[simp] theorem State.ptnItem_bufOk (s : State) (a old new cause : Nat) (x : Partner) (h : BufOk s.sbuf) :
    BufOk (s.ptnItem a old new cause x).sbuf := by
  simp [State.ptnItem, h]

@[simp] theorem State.ptnState_bufOk (s : State) (a new cause : Nat) (x : Partner) (h : BufOk s.sbuf) :
    BufOk (s.ptnState a new cause x).sbuf := by
  unfold State.ptnState
  dsimp only
  repeat' split
  all_goals apply_rules [State.ptnItem_bufOk, h]

@[simp] theorem State.losePath_bufOk (s : State) (r cause : Nat) (h : BufOk s.sbuf) : BufOk (s.losePath r cause).sbuf := by
  refine foldl_bufOk (fun u kx hu => ?_) _ h
  dsimp only
  split <;> simp [hu]

@[simp] theorem State.regainPath_bufOk (s : State) (r : Nat) (h : BufOk s.sbuf) : BufOk (s.regainPath r).sbuf := by
  refine foldl_bufOk (fun u kx hu => ?_) _ h
  dsimp only
  split <;> simp [hu]

@[simp] theorem State.ptnMove_bufOk (s : State) (a new cause : Nat) (x : Partner) (h : BufOk s.sbuf) :
    BufOk (s.ptnMove a new cause x).sbuf := by
  simp [State.ptnMove, h]

@[simp] theorem State.ptlFrame_buf (s : State) (dst : Nat × Bool) (data : List Nat) : (s.ptlFrame dst data).2.sbuf = s.sbuf := rfl

@[simp] theorem State.sendPtl_buf (s : State) (p : Nat) (data : List Nat) : (s.sendPtl p data).sbuf = s.sbuf := by simp [State.sendPtl]

@[simp] theorem State.quarantine_bufOk (s : State) (a cause : Nat) (h : BufOk s.sbuf) : BufOk (s.quarantine a cause).sbuf := by
  simp [State.quarantine, h]

@[simp] theorem State.evict_bufOk (s : State) (a reason retry cause : Nat) (h : BufOk s.sbuf) :
    BufOk (s.evict a reason retry cause).sbuf := by
  simp [State.evict, h]

/-! ### Partner commands and frames -/

@[simp] theorem State.layoutNow_buf (s : State) : s.layoutNow.sbuf = s.sbuf := by
  unfold State.layoutNow
  split <;> simp

@[simp] theorem State.layoutTake_buf (s : State) : s.layoutTake.sbuf = s.sbuf := by simp [State.layoutTake]

@[simp] theorem State.layoutCycle_buf (s : State) : s.layoutCycle.sbuf = s.sbuf := by simp [State.layoutCycle]

@[simp] theorem State.layoutThaw_buf (s : State) (was : Nat) : (s.layoutThaw was).sbuf = s.sbuf := by simp [State.layoutThaw]

@[simp] theorem State.restartGrace_buf (s : State) (ports : Nat) : (s.restartGrace ports).sbuf = s.sbuf := by simp [State.restartGrace]

@[simp] theorem State.beaconPort_buf (s : State) (seq out p : Nat) : (s.beaconPort seq out p).sbuf = s.sbuf := by simp [State.beaconPort]

@[simp] theorem State.beaconGo_buf (s : State) (n tb can : Nat) : (s.beaconGo n tb can).sbuf = s.sbuf := by simp [State.beaconGo]

@[simp] theorem opLayoutApply_buf (slot : Slot) (s : State) : (opLayoutApply slot s).2.sbuf = s.sbuf := by
  unfold opLayoutApply
  rw [secureOnly_buf]
  simp

@[simp] theorem opLayoutDiscard_buf (slot : Slot) (s : State) : (opLayoutDiscard slot s).2.sbuf = s.sbuf := by
  unfold opLayoutDiscard
  rw [secureOnly_buf]
  simp

@[simp] theorem State.answerPtl_buf (s : State) (p : Nat) (data : List Nat) : (s.answerPtl p data).sbuf = s.sbuf := rfl

@[simp] theorem State.denyJoin_buf (s : State) (p : Nat) (r : JoinReq) (reason retry : Nat) :
    (s.denyJoin p r reason retry).sbuf = s.sbuf := rfl

@[simp] theorem State.grantJoin_bufOk (s : State) (p a : Nat) (r : JoinReq) (x : Partner) (h : BufOk s.sbuf) :
    BufOk (s.grantJoin p a r x).sbuf := by
  simp [State.grantJoin, h]

@[simp] theorem State.tryGrant_bufOk (s : State) (p : Nat) (r : JoinReq) (h : BufOk s.sbuf) : BufOk (s.tryGrant p r).sbuf := by
  unfold State.tryGrant
  dsimp only
  repeat' split
  all_goals simp [h]

@[simp] theorem State.regrant_bufOk (s : State) (p a : Nat) (r : JoinReq) (h : BufOk s.sbuf) : BufOk (s.regrant p a r).sbuf := by
  unfold State.regrant
  split <;> simp [h]

@[simp] theorem State.holdJoin_bufOk (s : State) (p : Nat) (r : JoinReq) (h : BufOk s.sbuf) : BufOk (s.holdJoin p r).sbuf := by
  simp [State.holdJoin, h]

@[simp] theorem State.joinReq_bufOk (s : State) (p : Nat) (r : JoinReq) (h : BufOk s.sbuf) : BufOk (s.joinReq p r).sbuf := by
  unfold State.joinReq
  repeat' split
  all_goals simp [h]

@[simp] theorem State.takeTicket_buf (s : State) (k : Nat) : (s.takeTicket k).2.sbuf = s.sbuf := rfl

@[simp] theorem ptnJudge_buf {slot : Slot} {s : State} {k : Res} (hk : k.2.sbuf = s.sbuf) : (ptnJudge slot s k).2.sbuf = s.sbuf := by
  simp [ptnJudge, hk]

theorem ptnJudge_bufOk {slot : Slot} {s : State} {k : Res} (h : BufOk s.sbuf) (hk : BufOk k.2.sbuf) : BufOk (ptnJudge slot s k).2.sbuf := by
  simp [ptnJudge, h, hk]

@[simp] theorem opApprove_bufOk (slot : Slot) (k : Nat) (s : State) (h : BufOk s.sbuf) : BufOk (opApprove slot k s).2.sbuf := by
  refine ptnJudge_bufOk h ?_
  have htaken : BufOk (s.takeTicket k).2.sbuf := by simpa using h
  generalize s.takeTicket k = r at htaken
  obtain ⟨_ | t, u⟩ := r
  · exact h
  · exact State.tryGrant_bufOk _ _ _ htaken

@[simp] theorem opDeny_buf (slot : Slot) (k retry : Nat) (s : State) : (opDeny slot k retry s).2.sbuf = s.sbuf := by
  refine ptnJudge_buf ?_
  have htaken : (s.takeTicket k).2.sbuf = s.sbuf := by simp
  generalize s.takeTicket k = r at htaken
  obtain ⟨_ | t, u⟩ := r
  · rfl
  · exact (State.denyJoin_buf _ _ _ _ _).trans htaken

@[simp] theorem State.badHdr_buf (s : State) (p a : Nat) : (s.badHdr p a).sbuf = s.sbuf := by simp [State.badHdr]

@[simp] theorem State.countFwd_buf (s : State) (l : List Nat) : (s.countFwd l).sbuf = s.sbuf := by simp [State.countFwd]

@[simp] theorem State.ptnAccept_buf (s : State) (p a : Nat) (rx : Stamp) : (s.ptnAccept p a rx).sbuf = s.sbuf := by simp [State.ptnAccept]

theorem State.uplink_bufOk {s : State} {p a : Nat} {ok : Bool} {k : State → State} (hk : BufOk s.sbuf → BufOk (k s).sbuf) (h : BufOk s.sbuf) :
    BufOk (s.uplink p a ok k).sbuf := by
  simp [State.uplink, h, hk]

@[simp] theorem State.newRate_buf (s : State) (p : Nat) (x : Partner) (ofs : Int) (tb gen : Nat) (jump : Bool) :
    (s.newRate p x ofs tb gen jump).2.sbuf = s.sbuf := by
  unfold State.newRate
  split <;> simp

@[simp] theorem State.alert_buf (s : State) (a : Nat) (v : Int) (lim : Fld) (i f : Nat) : (s.alert a v lim i f).sbuf = s.sbuf := by
  simp [State.alert]

@[simp] theorem State.syncTold_buf (s : State) (a : Nat) (y : SyncBody) : (s.syncTold a y).sbuf = s.sbuf := rfl

@[simp] theorem State.syncReport_bufOk (s : State) (p a : Nat) (y : SyncBody) (h : BufOk s.sbuf) : BufOk (s.syncReport p a y).sbuf := by
  unfold State.syncReport
  dsimp only
  split <;> simp [h]

@[simp] theorem State.keepalive_buf (s : State) (p a flags lqi batt : Nat) (rx : Stamp) :
    (s.keepalive p a flags lqi batt rx).sbuf = s.sbuf := by
  simp [State.keepalive]

@[simp] theorem State.leave_bufOk (s : State) (a : Nat) (h : BufOk s.sbuf) : BufOk (s.leave a).sbuf := by simp [State.leave, h]

@[simp] theorem State.judgeHeard_bufOk (s : State) (a : Nat) (h : BufOk s.sbuf) : BufOk (s.judgeHeard a).sbuf := by
  simp [State.judgeHeard, h]

@[simp] theorem State.judgeMissed_bufOk (s : State) (a : Nat) (h : BufOk s.sbuf) : BufOk (s.judgeMissed a).sbuf := by
  simp [State.judgeMissed, h]

@[simp] theorem State.judge_bufOk (s : State) (a : Nat) (h : BufOk s.sbuf) : BufOk (s.judge a).sbuf := by
  unfold State.judge
  dsimp only
  repeat' split
  all_goals apply_rules [State.judgeMissed_bufOk, State.judgeHeard_bufOk, h]

@[simp] theorem State.freeEntry_bufOk (s : State) (a cause : Nat) (h : BufOk s.sbuf) : BufOk (s.freeEntry a cause).sbuf := by
  apply_rules [State.ptnItem_bufOk, h]

@[simp] theorem opEvict_bufOk (slot : Slot) (a retry : Nat) (s : State) (h : BufOk s.sbuf) : BufOk (opEvict slot a retry s).2.sbuf := by
  unfold opEvict
  refine secureOnly_bufOk h ?_
  simp [h]

@[simp] theorem opQuarClear_bufOk (slot : Slot) (s : State) (h : BufOk s.sbuf) : BufOk (opQuarClear slot s).2.sbuf := by
  refine secureOnly_bufOk h (foldl_bufOk (fun u kx hu => ?_) _ h)
  split <;> simp [hu]

@[simp] theorem opPtnWsel_buf (slot : Slot) (a : Nat) (s : State) : (opPtnWsel slot a s).2.sbuf = s.sbuf := by simp [opPtnWsel]

@[simp] theorem opPtnCmd_bufOk (slot : Slot) (w : Nat) (s : State) (h : BufOk s.sbuf) : BufOk (opPtnCmd slot w s).2.sbuf := by
  unfold opPtnCmd
  split <;> simp [h]

/-! ### Radio ports -/

@[simp] theorem State.slotGo_buf (s : State) (p k : Nat) : (s.slotGo p k).sbuf = s.sbuf := by simp [State.slotGo]

@[simp] theorem State.slotStart_buf (s : State) (p k : Nat) : (s.slotStart p k).sbuf = s.sbuf := by simp [State.slotStart]

@[simp] theorem State.hubStart_buf (s : State) (p k : Nat) : (s.hubStart p k).sbuf = s.sbuf := by simp [State.hubStart]

@[simp] theorem State.slotNext_buf (s : State) (p : Nat) : (s.slotNext p).sbuf = s.sbuf := by
  unfold State.slotNext
  split <;> simp

@[simp] theorem State.txReport_bufOk (s : State) (p : Nat) (at_ : List Nat) (result : Nat) (h : BufOk s.sbuf) :
    BufOk (s.txReport p at_ result).sbuf := by
  simp [State.txReport, h]

@[simp] theorem State.txLate_bufOk (s : State) (p : Nat) (h : BufOk s.sbuf) : BufOk (s.txLate p).sbuf := by
  unfold State.txLate
  dsimp only
  repeat' split
  all_goals apply_rules [State.txReport_bufOk, h]

@[simp] theorem State.radioHalt_bufOk (s : State) (p : Nat) (h : BufOk s.sbuf) : BufOk (s.radioHalt p).sbuf := by
  unfold State.radioHalt
  dsimp only
  repeat' split
  all_goals simp
  all_goals apply_rules [State.txLate_bufOk, h]

@[simp] theorem State.slotEnd_buf (s : State) (p : Nat) : (s.slotEnd p).sbuf = s.sbuf := by simp [State.slotEnd]

@[simp] theorem State.txLoad_buf (s : State) (p : Nat) : (s.txLoad p).sbuf = s.sbuf := by
  unfold State.txLoad
  split <;> simp

@[simp] theorem State.txCommit_bufOk (s : State) (p : Nat) (h : BufOk s.sbuf) : BufOk (s.txCommit p).sbuf := by
  unfold State.txCommit
  dsimp only
  split <;> simp [h]

@[simp] theorem State.hostMissed_bufOk (s : State) (p : Nat) (f : TxFrame) (h : BufOk s.sbuf) : BufOk (s.hostMissed p f).sbuf := by
  apply_rules [State.txReport_bufOk, h]

@[simp] theorem State.txMissed_bufOk (s : State) (p : Nat) (h : BufOk s.sbuf) : BufOk (s.txMissed p).sbuf := by
  unfold State.txMissed
  extract_lets s1 x a
  have hmissed : BufOk s1.sbuf := foldl_bufOk (fun (u : State) (f : TxFrame) hu => State.hostMissed_bufOk u p f hu) _ h
  simp [hmissed]

@[simp] theorem State.putInst_buf (s : State) (f : Nat → Fld) (stamp qual : Nat) : (s.putInst f stamp qual).sbuf = s.sbuf := by
  simp [State.putInst]

@[simp] theorem State.radioSfd_buf (s : State) (p stamp : Nat) : (s.radioSfd p stamp).sbuf = s.sbuf := by simp [State.radioSfd]

@[simp] theorem State.radioIrq_bufOk (s : State) (p : Nat) (h : BufOk s.sbuf) : BufOk (s.radioIrq p).sbuf := by
  unfold State.radioIrq
  dsimp only
  repeat' split
  all_goals simp [h]
  all_goals apply_rules [State.txReport_bufOk, h]

@[simp] theorem State.txBadItem_bufOk (s : State) (p : Nat) (h : BufOk s.sbuf) : BufOk (s.txBadItem p).sbuf := by
  apply_rules [State.txReport_bufOk, h]

@[simp] theorem State.txItem_bufOk (s : State) (p tag : Nat) (bs ws : List Nat) (h : BufOk s.sbuf) : BufOk (s.txItem p tag bs ws).sbuf := by
  unfold State.txItem
  dsimp only
  repeat' split
  all_goals apply_rules [State.txReport_bufOk, State.txBadItem_bufOk, h]

@[simp] theorem State.takeTxItem_bufOk (s : State) (p : Nat) (h : BufOk s.sbuf) : BufOk (s.takeTxItem p).sbuf := by
  unfold State.takeTxItem
  dsimp only
  repeat' split
  all_goals apply_rules [State.txItem_bufOk, State.txBadItem_bufOk, h]

theorem radioAccess_buf {slot : Slot} {p : Nat} {s : State} {k : State → Res} (hk : ∀ u, (k u).2.sbuf = u.sbuf) :
    (radioAccess slot p s k).2.sbuf = s.sbuf :=
  leased_buf hk

theorem radioAccess_bufOk {slot : Slot} {p : Nat} {s : State} {k : State → Res} (hk : ∀ u, BufOk u.sbuf → BufOk (k u).2.sbuf)
    (h : BufOk s.sbuf) : BufOk (radioAccess slot p s k).2.sbuf :=
  leased_bufOk hk h

@[simp] theorem State.radioClear_buf (s : State) (p : Nat) : (s.radioClear p).sbuf = s.sbuf := rfl

@[simp] theorem State.radioInit_buf (s : State) (p : Nat) : (s.radioInit p).sbuf = s.sbuf := by simp [State.radioInit]

@[simp] theorem opRadioRestart_bufOk (slot : Slot) (p : Nat) (s : State) (h : BufOk s.sbuf) : BufOk (opRadioRestart slot p s).2.sbuf := by
  unfold opRadioRestart
  refine radioAccess_bufOk (fun u hu => ?_) h
  simp [hu]

@[simp] theorem State.radioApplied_buf (s : State) (p : Nat) (was : Bool) : (s.radioApplied p was).sbuf = s.sbuf := by
  simp [State.radioApplied]

@[simp] theorem opRadioApply_buf (slot : Slot) (p : Nat) (s : State) : (opRadioApply slot p s).2.sbuf = s.sbuf := by
  unfold opRadioApply
  refine radioAccess_buf (fun u => ?_)
  simp

@[simp] theorem opRadioDiscard_buf (slot : Slot) (p : Nat) (s : State) : (opRadioDiscard slot p s).2.sbuf = s.sbuf := by
  refine radioAccess_buf fun u => ?_
  exact (State.leaseBroken_buf _).trans (State.copyFrom_buf _ _ _)

@[simp] theorem opRunSlot_buf (slot : Slot) (p k : Nat) (s : State) : (opRunSlot slot p k s).2.sbuf = s.sbuf := by
  unfold opRunSlot
  refine radioAccess_buf (fun u => ?_)
  simp

@[simp] theorem opRadCmd_bufOk (slot : Slot) (p w : Nat) (s : State) (h : BufOk s.sbuf) : BufOk (opRadCmd slot p w s).2.sbuf := by
  refine radioAccess_bufOk (fun u hu => ?_) h
  split
  · exact opRadioRestart_bufOk _ _ _ hu
  · simpa using hu
  · simpa using hu
  · simpa using hu
  · exact hu

theorem State.script_outOk {s : State} {p op : Nat} {k : Nat → State → State} (hk : ∀ w u, BufOk u.sbuf → BufOk (k w u).sbuf)
    (h : BufOk s.sbuf) : OutOk (s.script p op k) := by
  unfold State.script
  rw [outOk_event]
  split
  · exact hk _ _ h
  · exact h

@[simp] theorem State.spi_buf (s : State) (p w out miso : Nat) : (s.spi p w out miso).sbuf = s.sbuf := rfl

@[simp] theorem State.recvFrame_buf (s : State) (p w : Nat) (bs : List Nat) (lqi rssi : Nat) :
    (s.recvFrame p w bs lqi rssi).sbuf = s.sbuf := by
  simp [State.recvFrame]

@[simp] theorem State.postDrop_buf (s : State) (p : Nat) (bs : List Nat) : (s.postDrop p bs).sbuf = s.sbuf := by
  unfold State.postDrop
  split <;> simp

@[simp] theorem State.postItem_bufOk (s : State) (p : Nat) (h : BufOk s.sbuf) : BufOk (s.postItem p).sbuf := by
  unfold State.postItem
  dsimp only
  split <;> simp [h]

@[simp] theorem State.beaconPassed_buf (s : State) (p : Nat) : (s.beaconPassed p).sbuf = s.sbuf := by simp [State.beaconPassed]

@[simp] theorem State.radiosThaw_buf (s : State) : s.radiosThaw.sbuf = s.sbuf := by simp [State.radiosThaw]

/-! ### Stamps -/

@[simp] theorem State.stFlag_buf (s : State) (n bit : Nat) : (s.stFlag n bit).sbuf = s.sbuf := rfl

@[simp] theorem State.stDrop_buf (s : State) (n : Nat) : (s.stDrop n).sbuf = s.sbuf := rfl

theorem lastWords_buf (s : State) (n a b c d : Nat) (pol : Bool) :
    (((((s.wr (sLast n 0) a).wr (sLast n 1) b).wr (sLast n 2) c).wr (sLastCnt n) d).wr (sLastPol n) pol.toNat).sbuf = s.sbuf := rfl

@[simp] theorem State.stLast_buf (s : State) (n t : Nat) (pol : Bool) : (s.stLast n t pol).sbuf = s.sbuf := by
  unfold State.stLast
  extract_lets w s1 s2 s3
  have hread : s3.sbuf = s2.sbuf := by
    simp only [s3]
    split
    · rw [State.wr_sbuf]
    · rfl
  rw [State.setStin_sbuf, hread]
  exact lastWords_buf _ _ _ _ _ _ _

@[simp] theorem State.stEdge_buf (s : State) (n crossing : Nat) (pol : Bool) : (s.stEdge n crossing pol).sbuf = s.sbuf := by
  simp [State.stEdge]

@[simp] theorem State.stinLost_buf (s : State) (n : Nat) : (s.stinLost n).sbuf = s.sbuf := rfl

@[simp] theorem State.stinAsleep_buf (s : State) (n : Nat) (rising : Bool) : (s.stinAsleep n rising).sbuf = s.sbuf := by
  simp [State.stinAsleep]

@[simp] theorem State.stPass_buf (s : State) (n crossing : Nat) (rising : Bool) : (s.stPass n crossing rising).sbuf = s.sbuf := by
  simp [State.stPass]

@[simp] theorem State.stFilter_buf (s : State) (n crossing : Nat) (rising : Bool) : (s.stFilter n crossing rising).sbuf = s.sbuf := by
  unfold State.stFilter
  dsimp only
  split <;> simp

@[simp] theorem State.stSettle_buf (s : State) (n : Nat) : (s.stSettle n).sbuf = s.sbuf := by simp [State.stSettle]

@[simp] theorem State.stinEdge_buf (s : State) (n : Nat) (rising : Bool) (crossing : Stamp) :
    (s.stinEdge n rising crossing).sbuf = s.sbuf := by
  simp [State.stinEdge]

@[simp] theorem State.stStamped_buf (s : State) (n : Nat) : (s.stStamped n).sbuf = s.sbuf := by simp [State.stStamped]

@[simp] theorem State.stCarry_buf (s : State) (n : Nat) (ovf : Bool) : (s.stCarry n ovf).sbuf = s.sbuf := by
  unfold State.stCarry
  dsimp only
  repeat' split
  all_goals simp

@[simp] theorem State.stQuill_bufOk (s : State) (n : Nat) (e : StEdge) (h : BufOk s.sbuf) : BufOk (s.stQuill n e).sbuf := by
  unfold State.stQuill
  dsimp only
  repeat' split
  all_goals simp
  all_goals apply_rules [State.give_bufOk, h]

@[simp] theorem State.drain_bufOk (s : State) (k fuel : Nat) (h : BufOk s.sbuf) : BufOk (s.drain k fuel).sbuf := by
  induction fuel generalizing s k with
  | zero => exact h
  | succ fuel ih =>
    unfold State.drain
    split
    · exact h
    · split
      · exact h
      · extract_lets cost s1 q s2
        split
        · exact h
        · exact ih _ _ (State.stQuill_bufOk _ _ _ h)

@[simp] theorem State.extraCal_buf (s : State) (k : Nat) (pass : Bool) : (s.extraCal k pass).sbuf = s.sbuf := by simp [State.extraCal]

@[simp] theorem State.interpCal_buf (s : State) (n : Nat) (pass : Bool) : (s.interpCal n pass).sbuf = s.sbuf := by simp [State.interpCal]

@[simp] theorem State.uncalAll_buf (s : State) : s.uncalAll.sbuf = s.sbuf := by simp [State.uncalAll]

/-! ### Alarms, clocks and pulses -/

@[simp] theorem State.calEvt_buf (s : State) (i : Nat) : (s.calEvt i).sbuf = s.sbuf := rfl

@[simp] theorem rwsGuard_buf {slot : Slot} {l : List Fld} {w : Nat} {s : State} {k : Res} (hk : k.2.sbuf = s.sbuf) :
    (rwsGuard slot l w s k).2.sbuf = s.sbuf := by
  simp [rwsGuard, hk]

@[simp] theorem State.setClk_buf (s : State) (n : Nat) (x : ClkS) : (s.setClk n x).sbuf = s.sbuf := rfl

@[simp] theorem State.refsCheck_buf (s : State) : s.refsCheck.sbuf = s.sbuf := by simp [State.refsCheck]

@[simp] theorem State.clkPlan_buf (s : State) (t n : Nat) : (s.clkPlan t n).sbuf = s.sbuf := by
  unfold State.clkPlan
  dsimp only
  repeat' split
  all_goals simp

@[simp] theorem State.clkStart_buf (s : State) (t n : Nat) : (s.clkStart t n).sbuf = s.sbuf := by simp [State.clkStart]

@[simp] theorem State.clkBoundary_buf (s : State) (t n : Nat) : (s.clkBoundary t n).sbuf = s.sbuf := by simp [State.clkBoundary]

@[simp] theorem State.refBoundary_buf (s : State) (t : Nat) : (s.refBoundary t).sbuf = s.sbuf := by simp [State.refBoundary]

@[simp] theorem State.almRestart_buf (s : State) (loc : Bool) : (s.almRestart loc).sbuf = s.sbuf := by simp [State.almRestart]

@[simp] theorem State.calBoundary_buf (s : State) : s.calBoundary.sbuf = s.sbuf := by simp [State.calBoundary]

@[simp] theorem State.atBoundary_buf (s : State) : s.atBoundary.sbuf = s.sbuf := by simp [State.atBoundary]

@[simp] theorem opLeapWrite_buf (slot : Slot) (k v : Nat) (s : State) : (opLeapWrite slot k v s).2.sbuf = s.sbuf := by
  refine rwsGuard_buf ?_
  dsimp only
  split
  · rfl
  · rw [State.almRestart_buf, State.calStatus_buf, State.calEvt_buf, State.wr_sbuf, State.wr_sbuf, State.atBoundary_buf]

@[simp] theorem opLocalArm_buf (slot : Slot) (v : Nat) (s : State) : (opLocalArm slot v s).2.sbuf = s.sbuf :=
  rwsGuard_buf rfl

@[simp] theorem State.localMoved_buf (s : State) : s.localMoved.sbuf = s.sbuf := by simp [State.localMoved]

@[simp] theorem State.localChange_buf (s : State) : s.localChange.sbuf = s.sbuf := by simp [State.localChange]

@[simp] theorem opCancelLocal_buf (_slot : Slot) (s : State) : (opCancelLocal _slot s).2.sbuf = s.sbuf := by simp [opCancelLocal]

@[simp] theorem State.almFire_buf (s : State) (n : Nat) : (s.almFire n).sbuf = s.sbuf := by
  unfold State.almFire
  dsimp only
  split <;> simp

@[simp] theorem opAlmCtrlWrite_buf (_slot : Slot) (n v : Nat) (s : State) : (opAlmCtrlWrite _slot n v s).2.sbuf = s.sbuf := by
  simp [opAlmCtrlWrite]

@[simp] theorem State.setAlmNext_buf (s : State) (n t : Nat) : (s.setAlmNext n t).sbuf = s.sbuf := rfl

@[simp] theorem State.almDone_buf (s : State) (n t : Nat) : (s.almDone n t).sbuf = s.sbuf := by
  unfold State.almDone
  dsimp only
  split <;> simp

@[simp] theorem State.ppsPulse_buf (s : State) : s.ppsPulse.sbuf = s.sbuf := rfl

@[simp] theorem State.clkEdge_buf (s : State) (n : Nat) : (s.clkEdge n).sbuf = s.sbuf := by simp [State.clkEdge]

@[simp] theorem opHpNsWrite_buf (slot : Slot) (n v : Nat) (s : State) : (opHpNsWrite slot n v s).2.sbuf = s.sbuf := by
  refine rwsGuard_buf ?_
  extract_lets ns s1
  split
  · rfl
  · have hedge : s1.sbuf = s.sbuf := by simp [s1]
    rw [State.setClk_buf, State.wr_sbuf, hedge]

@[simp] theorem opClkResync_buf (_slot : Slot) (s : State) : (opClkResync _slot s).2.sbuf = s.sbuf := rfl

@[simp] theorem State.irigElement_buf (s : State) : s.irigElement.sbuf = s.sbuf := rfl

@[simp] theorem State.irigFrame_bufOk (s : State) (l : List Nat) (h : BufOk s.sbuf) : BufOk (s.irigFrame l).sbuf := by
  unfold State.irigFrame
  dsimp only
  repeat' split
  all_goals apply_rules [State.judgeHeld_bufOk, State.servoDue_bufOk, h]

@[simp] theorem State.setFrame_buf (s : State) (mark : Bool) (f : Option (Nat × List Nat)) : (s.setFrame mark f).sbuf = s.sbuf := rfl

@[simp] theorem State.irigOpen_bufOk (s : State) (lead : Nat) (h : BufOk s.sbuf) : BufOk (s.irigOpen lead).sbuf := by
  simp [State.irigOpen, h]

@[simp] theorem State.irigIn_bufOk (s : State) (lead w : Nat) (h : BufOk s.sbuf) : BufOk (s.irigIn lead w).sbuf := by
  unfold State.irigIn
  dsimp only
  repeat' split
  all_goals apply_rules [State.irigFrame_bufOk, State.irigOpen_bufOk, h]

@[simp] theorem State.calThaw_buf (s : State) (was : Nat) : (s.calThaw was).sbuf = s.sbuf := by simp [State.calThaw]

/-! ### The Backup Store -/

@[simp] theorem State.loadFlds_buf (s : State) (regs : List (Nat × Nat)) (l : List Fld) : (s.loadFlds regs l).sbuf = s.sbuf := by
  induction l generalizing s with
  | nil => rfl
  | cons f t ih => simp [State.loadFlds, ih]

@[simp] theorem State.loadFlags_buf (s : State) (regs : List (Nat × Nat)) (l : List Fld) : (s.loadFlags regs l).sbuf = s.sbuf := by
  simp [State.loadFlags]

@[simp] theorem State.defaultRing_buf (s : State) (r : Nat) : (s.defaultRing r).sbuf = s.sbuf := rfl

@[simp] theorem State.startRing_buf (s : State) (r : Nat) : (s.startRing r).sbuf = s.sbuf := rfl

@[simp] theorem State.loadCmps_buf (s : State) (regs : List (Nat × Nat)) : (s.loadCmps regs).sbuf = s.sbuf := by simp [State.loadCmps]

@[simp] theorem State.factorySlots_buf (s : State) : s.factorySlots.sbuf = s.sbuf := by simp [State.factorySlots]

@[simp] theorem State.loadBind_buf (s : State) (c : Nat) : (s.loadBind c).sbuf = s.sbuf := by simp [State.loadBind]

@[simp] theorem State.loadStarts_buf (s : State) : s.loadStarts.sbuf = s.sbuf := by simp [State.loadStarts]

@[simp] theorem State.keepLoad_buf (s : State) (regs : List (Nat × Nat)) : (s.keepLoad regs).sbuf = s.sbuf := by simp [State.keepLoad]

@[simp] theorem State.configLoad_buf (s : State) : s.configLoad.sbuf = s.sbuf := by
  simp only [State.configLoad]
  split <;> simp

@[simp] theorem State.islandLoad_buf (s : State) : s.islandLoad.sbuf = s.sbuf := by
  unfold State.islandLoad
  split <;> simp

/-! ### Sweeps -/

@[simp] theorem State.openRun_buf (s : State) (n run trig : Nat) : (s.openRun n run trig).sbuf = s.sbuf := by simp [State.openRun]

@[simp] theorem State.nextRun_buf (s : State) (n : Nat) (aborted : Bool) : (s.nextRun n aborted).sbuf = s.sbuf := by simp [State.nextRun]

@[simp] theorem State.outcomeItems_bufOk (s : State) (n run : Nat) (bad : List (Nat × Nat)) (fuel : Nat) (h : BufOk s.sbuf) :
    BufOk (s.outcomeItems n run bad fuel).sbuf := by
  induction fuel generalizing s bad with
  | zero => exact h
  | succ fuel ih =>
    unfold State.outcomeItems
    split
    · exact h
    · exact ih _ _ (State.give_bufOk _ _ _ h)

@[simp] theorem State.closeRun_bufOk (s : State) (n : Nat) (x : Run) (why : Option Nat) (h : BufOk s.sbuf) :
    BufOk (s.closeRun n x why).sbuf := by
  simp [State.closeRun, h]

@[simp] theorem State.sweepDue_bufOk (s : State) (n : Nat) (h : BufOk s.sbuf) : BufOk (s.sweepDue n).sbuf := by
  unfold State.sweepDue
  split <;> simp [h]

theorem sweepAccess_buf {slot : Slot} {n : Nat} {s : State} {k : State → Res} (hk : ∀ u, (k u).2.sbuf = u.sbuf) :
    (sweepAccess slot n s k).2.sbuf = s.sbuf :=
  leased_buf hk

theorem sweepAccess_bufOk {slot : Slot} {n : Nat} {s : State} {k : State → Res} (hk : ∀ u, BufOk u.sbuf → BufOk (k u).2.sbuf)
    (h : BufOk s.sbuf) : BufOk (sweepAccess slot n s k).2.sbuf :=
  leased_bufOk hk h

@[simp] theorem opSweepArm_buf (slot : Slot) (n : Nat) (s : State) : (opSweepArm slot n s).2.sbuf = s.sbuf := by
  unfold opSweepArm
  refine sweepAccess_buf (fun u => ?_)
  simp

@[simp] theorem opSweepDisarm_buf (slot : Slot) (n : Nat) (s : State) : (opSweepDisarm slot n s).2.sbuf = s.sbuf := by
  unfold opSweepDisarm
  refine sweepAccess_buf (fun u => ?_)
  split <;> simp

@[simp] theorem State.dropReqs_buf (s : State) (n run : Nat) : (s.dropReqs n run).sbuf = s.sbuf := by simp [State.dropReqs]

@[simp] theorem opSweepAbort_bufOk (slot : Slot) (n : Nat) (s : State) (h : BufOk s.sbuf) : BufOk (opSweepAbort slot n s).2.sbuf := by
  unfold opSweepAbort
  refine sweepAccess_bufOk (fun u hu => ?_) h
  dsimp only
  repeat' split
  all_goals simp [hu]

@[simp] theorem opSweepApply_buf (slot : Slot) (n : Nat) (s : State) : (opSweepApply slot n s).2.sbuf = s.sbuf := by
  unfold opSweepApply
  refine sweepAccess_buf (fun u => ?_)
  simp

@[simp] theorem opSweepDiscard_buf (slot : Slot) (n : Nat) (s : State) : (opSweepDiscard slot n s).2.sbuf = s.sbuf := by
  refine sweepAccess_buf fun u => ?_
  exact (State.leaseBroken_buf _).trans (State.copyFrom_buf _ _ _)

@[simp] theorem opSwpCmd_bufOk (slot : Slot) (n w : Nat) (s : State) (h : BufOk s.sbuf) : BufOk (opSwpCmd slot n w s).2.sbuf := by
  refine sweepAccess_bufOk (fun u hu => ?_) h
  split
  · simpa using hu
  · simpa using hu
  · exact opSweepAbort_bufOk _ _ _ hu
  · simpa using hu
  · simpa using hu
  · exact hu

@[simp] theorem State.sendReqs_buf (s : State) (n : Nat) (x : Run) : (s.sendReqs n x).sbuf = s.sbuf := by simp [State.sendReqs]

@[simp] theorem State.request_buf (s : State) (n t : Nat) (l : List Nat) (x : Run) : (s.request n t l x).sbuf = s.sbuf := by
  simp [State.request]

@[simp] theorem State.sweepDecide_bufOk (s : State) (n tb : Nat) (h : BufOk s.sbuf) : BufOk (s.sweepDecide n tb).sbuf := by
  unfold State.sweepDecide
  split
  · split
    · exact h
    · split
      · exact h
      · split
        extract_lets s1 d lead x
        have hskipped : BufOk s1.sbuf := by simpa [s1] using h
        split
        · exact State.closeRun_bufOk _ _ _ _ hskipped
        · split
          · rwa [State.request_buf]
          · rwa [State.setSweep_sbuf]
  · exact h

@[simp] theorem State.decideAll_bufOk (s : State) (tb : Nat) (h : BufOk s.sbuf) : BufOk (s.decideAll tb).sbuf := by
  refine foldl_bufOk (fun u n hu => ?_) _ h
  split
  · exact State.sweepDecide_bufOk _ _ _ hu
  · exact hu

@[simp] theorem State.sampleTo_bufOk (s : State) (p a : Nat) (y : SampleBody) (h : BufOk s.sbuf) : BufOk (s.sampleTo p a y).sbuf := by
  unfold State.sampleTo
  dsimp only
  repeat' split
  all_goals apply_rules [State.give_bufOk, State.closeRun_bufOk, h]

theorem State.sweepPassed_bufOk {s t : State} {n : Nat} (ht : s.sweepPassed n = some t) (h : BufOk s.sbuf) : BufOk t.sbuf := by
  unfold State.sweepPassed at ht
  split at ht
  · split at ht
    · nomatch ht
    · split at ht
      · split at ht
        · cases ht
          exact State.closeRun_bufOk _ _ _ _ h
        · nomatch ht
      · split at ht
        · cases ht
          exact State.closeRun_bufOk _ _ _ _ h
        · nomatch ht
  · nomatch ht

@[simp] theorem State.sweepFire_bufOk (s : State) (n fuel : Nat) (h : BufOk s.sbuf) : BufOk (s.sweepFire n fuel).sbuf := by
  induction fuel generalizing s with
  | zero => exact h
  | succ fuel ih =>
    unfold State.sweepFire
    split
    · exact ih _ (State.sweepPassed_bufOk ‹_› h)
    · exact h

@[simp] theorem State.sweepThaw_bufOk (s : State) (n : Nat) (h : BufOk s.sbuf) : BufOk (s.sweepThaw n).sbuf := by simp [State.sweepThaw, h]

@[simp] theorem State.sweepsThaw_bufOk (s : State) (h : BufOk s.sbuf) : BufOk s.sweepsThaw.sbuf :=
  foldl_bufOk (fun (u : State) n hu => State.sweepThaw_bufOk u n hu) _ h

/-! ### Timers -/

@[simp] theorem State.setGtCmp_buf (s : State) (n k v : Nat) : (s.setGtCmp n k v).sbuf = s.sbuf := by simp [State.setGtCmp]

@[simp] theorem State.gtFlag_buf (s : State) (n i : Nat) : (s.gtFlag n i).sbuf = s.sbuf := by simp [State.gtFlag]

@[simp] theorem State.gtRaise_buf (s : State) (m at_ : Nat) : (s.gtRaise m at_).sbuf = s.sbuf := rfl

@[simp] theorem State.gtPulse_buf (s : State) (n e at_ : Nat) : (s.gtPulse n e at_).sbuf = s.sbuf := by simp [State.gtPulse]

@[simp] theorem State.gateOne_buf (s : State) (m : Nat) : (s.gateOne m).sbuf = s.sbuf := by simp [State.gateOne]

@[simp] theorem State.gates_buf (s : State) (fuel : Nat) : (s.gates fuel).sbuf = s.sbuf := by
  induction fuel generalizing s with
  | zero => rfl
  | succ fuel ih =>
    unfold State.gates
    rw [ih, foldl_buf (f := State.gateOne) State.gateOne_buf]

@[simp] theorem State.setGtState_buf (s : State) (n st : Nat) : (s.setGtState n st).sbuf = s.sbuf := by simp [State.setGtState]

@[simp] theorem State.gtStart_buf (s : State) (n at_ : Nat) : (s.gtStart n at_).sbuf = s.sbuf := by simp [State.gtStart]

@[simp] theorem State.gtArrive_buf (s : State) (n : Nat) : (s.gtArrive n).sbuf = s.sbuf := by simp [State.gtArrive]

@[simp] theorem State.gtPinAct_buf (s : State) (n k c want : Nat) : (s.gtPinAct n k c want).sbuf = s.sbuf := by simp [State.gtPinAct]

@[simp] theorem State.gtTouAct_buf (s : State) (n k o want : Nat) : (s.gtTouAct n k o want).sbuf = s.sbuf := by simp [State.gtTouAct]

@[simp] theorem State.gtAct_buf (s : State) (n k at_ : Nat) : (s.gtAct n k at_).sbuf = s.sbuf := by
  unfold State.gtAct
  split
  · rfl
  · split
    · rfl
    · exact State.gtTouAct_buf _ _ _ _ _
    · split
      · exact State.gtPinAct_buf _ _ _ _ _
      · rfl

@[simp] theorem State.gtMatch_buf (s : State) (n k : Nat) (up : Bool) (at_ : Nat) : (s.gtMatch n k up at_).sbuf = s.sbuf := by
  simp [State.gtMatch]

@[simp] theorem State.gtCompares_buf (s : State) (n c : Nat) (up : Bool) (at_ : Nat) : (s.gtCompares n c up at_).sbuf = s.sbuf := by
  simp [State.gtCompares]

@[simp] theorem State.gtExpire_buf (s : State) (n at_ : Nat) : (s.gtExpire n at_).sbuf = s.sbuf := by simp [State.gtExpire]

@[simp] theorem State.gtTook_buf (s : State) (n at_ : Nat) : (s.gtTook n at_).sbuf = s.sbuf := by simp [State.gtTook]

@[simp] theorem State.gtTick_buf (s : State) (n at_ : Nat) : (s.gtTick n at_).sbuf = s.sbuf := by simp [State.gtTick]

@[simp] theorem State.gtCatch_buf (s : State) (n : Nat) : (s.gtCatch n).sbuf = s.sbuf := by
  unfold State.gtCatch
  split <;> simp

@[simp] theorem State.gtClkPass_buf (s : State) (n : Nat) (e : PinEdge) : (s.gtClkPass n e).sbuf = s.sbuf := by simp [State.gtClkPass]

@[simp] theorem State.gtPinIn_buf (s : State) (n c : Nat) (high : Bool) : (s.gtPinIn n c high).sbuf = s.sbuf := rfl

@[simp] theorem State.gtClkEdge_buf (s : State) (n : Nat) (rising : Bool) (crossing : Nat) :
    (s.gtClkEdge n rising crossing).sbuf = s.sbuf := by
  simp [State.gtClkEdge]

@[simp] theorem State.gtPulseEnd_buf (s : State) (n c : Nat) : (s.gtPulseEnd n c).sbuf = s.sbuf := by
  unfold State.gtPulseEnd
  split <;> simp

@[simp] theorem State.gtCapture_bufOk (s : State) (n c t count : Nat) (uncal : Bool) (h : BufOk s.sbuf) :
    BufOk (s.gtCapture n c t count uncal).sbuf := by
  unfold State.gtCapture
  dsimp only
  repeat' split
  all_goals simp [h]
  all_goals apply_rules [State.give_bufOk, h]

@[simp] theorem State.gtCapPass_bufOk (s : State) (n c : Nat) (e : PinEdge) (h : BufOk s.sbuf) : BufOk (s.gtCapPass n c e).sbuf := by
  unfold State.gtCapPass
  dsimp only
  repeat' split
  all_goals apply_rules [State.gtCapture_bufOk, h]

@[simp] theorem State.gtClkSettle_buf (s : State) (n : Nat) : (s.gtClkSettle n).sbuf = s.sbuf := by simp [State.gtClkSettle]

@[simp] theorem State.gtCapSettle_bufOk (s : State) (n : Nat) (h : BufOk s.sbuf) : BufOk (s.gtCapSettle n).sbuf := by
  refine foldl_bufOk (fun (t : State) c ht => ?_) _ h
  exact foldl_bufOk (fun (u : State) (e : PinEdge) hu => State.gtCapPass_bufOk u n c e hu) _ (by rwa [State.setGt_sbuf])

@[simp] theorem State.gtTicks_buf (s : State) (n : Nat) : (s.gtTicks n).sbuf = s.sbuf := by simp [State.gtTicks]

@[simp] theorem State.gtCapEdge_bufOk (s : State) (n c : Nat) (rising : Bool) (crossing : Nat) (h : BufOk s.sbuf) :
    BufOk (s.gtCapEdge n c rising crossing).sbuf := by
  unfold State.gtCapEdge
  split
  · exact h
  · extract_lets s1 s2 r
    have hpin : BufOk s1.sbuf := by simpa [s1] using h
    split
    · refine foldl_bufOk (fun (u : State) (e : PinEdge) hu => State.gtCapPass_bufOk u n c e hu) _ ?_
      rw [State.setGt_sbuf, State.gtTicks_buf]
      exact hpin
    · exact hpin

@[simp] theorem State.gtsCycle_buf (s : State) : s.gtsCycle.sbuf = s.sbuf := by simp [State.gtsCycle]

@[simp] theorem State.capPop_buf (s : State) (n c : Nat) : (s.capPop n c).2.sbuf = s.sbuf := by
  unfold State.capPop
  dsimp only
  split <;> simp

@[simp] theorem State.gtPut_buf (s : State) (n v : Nat) (reset : Bool) : (s.gtPut n v reset).sbuf = s.sbuf := by simp [State.gtPut]

@[simp] theorem State.gtTrigger_bufOk (s : State) (n : Nat) (h : BufOk s.sbuf) : BufOk (s.gtTrigger n).sbuf := by
  unfold State.gtTrigger
  split
  · exact h
  · extract_lets x s1 s2
    have hcaptured : BufOk s2.sbuf := by
      refine foldl_bufOk (fun (u : State) c hu => ?_) _ h
      split
      · exact State.gtCapture_bufOk _ _ _ _ _ _ hu
      · exact hu
    split
    · rwa [State.gtStart_buf]
    · rwa [State.gtPut_buf]
    · split
      · rwa [State.gtTick_buf]
      · exact hcaptured
    · exact hcaptured

@[simp] theorem State.gtPinGate_buf (s : State) (n : Nat) (high : Bool) : (s.gtPinGate n high).sbuf = s.sbuf := by simp [State.gtPinGate]

@[simp] theorem State.gtExpiryFirst_buf (s : State) (n : Nat) : (s.gtExpiryFirst n).sbuf = s.sbuf := by simp [State.gtExpiryFirst]

@[simp] theorem State.gtMatchFirst_buf (s : State) (n k : Nat) : (s.gtMatchFirst n k).sbuf = s.sbuf := by simp [State.gtMatchFirst]

@[simp] theorem opGtStart_buf (slot : Slot) (n : Nat) (s : State) : (opGtStart slot n s).2.sbuf = s.sbuf := by
  unfold opGtStart
  refine leased_buf (fun u => ?_)
  simp

@[simp] theorem opGtStop_buf (slot : Slot) (n : Nat) (s : State) : (opGtStop slot n s).2.sbuf = s.sbuf := by
  unfold opGtStop
  refine leased_buf (fun u => ?_)
  simp

@[simp] theorem opGtLoad_buf (slot : Slot) (n : Nat) (s : State) : (opGtLoad slot n s).2.sbuf = s.sbuf := by
  unfold opGtLoad
  refine leased_buf (fun u => ?_)
  simp

@[simp] theorem opGtDiscard_buf (slot : Slot) (n : Nat) (s : State) : (opGtDiscard slot n s).2.sbuf = s.sbuf := by
  refine leased_buf fun u => ?_
  exact (State.leaseBroken_buf _).trans (State.copyFrom_buf _ _ _)

@[simp] theorem opCapFlush_buf (slot : Slot) (n : Nat) (s : State) : (opCapFlush slot n s).2.sbuf = s.sbuf := by
  unfold opCapFlush
  refine leased_buf (fun u => ?_)
  simp

@[simp] theorem State.gtPinApply_buf (s : State) (n c : Nat) (changed : Bool) : (s.gtPinApply n c changed).sbuf = s.sbuf := by
  simp [State.gtPinApply]

@[simp] theorem State.gtApply_buf (s : State) (n : Nat) : (s.gtApply n).sbuf = s.sbuf := by
  unfold State.gtApply
  extract_lets core ch c0 c1 s1 x s2
  have hrestarted : s2.sbuf = s1.sbuf := by
    simp only [s2]
    split
    · rw [State.wr_sbuf, State.setGt_sbuf]
    · rfl
  rw [State.gates_buf, State.gtPinApply_buf, State.gtPinApply_buf, hrestarted, State.copyTo_buf]

@[simp] theorem opGtApply_bufOk (slot : Slot) (n : Nat) (s : State) (h : BufOk s.sbuf) : BufOk (opGtApply slot n s).2.sbuf := by
  refine leased_bufOk (fun u hu => ?_) h
  split
  · exact hu
  · split
    · exact hu
    · rw [State.gtApply_buf]
      exact State.gtCapSettle_bufOk _ _ (by simpa using hu)

@[simp] theorem opGtCmpHi_buf (slot : Slot) (n k v : Nat) (s : State) : (opGtCmpHi slot n k v s).2.sbuf = s.sbuf := by
  unfold opGtCmpHi
  refine leased_buf (fun u => ?_)
  simp

@[simp] theorem opGtCmpLo_buf (slot : Slot) (n k v : Nat) (s : State) : (opGtCmpLo slot n k v s).2.sbuf = s.sbuf := by
  unfold opGtCmpLo
  refine leased_buf (fun u => ?_)
  simp

@[simp] theorem State.gtSkip_buf (s : State) (n k new : Nat) : (s.gtSkip n k new).sbuf = s.sbuf := by simp [State.gtSkip]

@[simp] theorem State.gtFreeMakeup_buf (s : State) (n a : Nat) : (s.gtFreeMakeup n a).sbuf = s.sbuf := by simp [State.gtFreeMakeup]

@[simp] theorem State.gtShotMakeup_buf (s : State) (n a : Nat) : (s.gtShotMakeup n a).sbuf = s.sbuf := by
  unfold State.gtShotMakeup
  extract_lets c lim out reload new hit x s1 s2 s3
  have hmatched : s2.sbuf = s.sbuf := by
    rw [foldl_buf, State.setGt_sbuf]
    intro u k
    dsimp only
    split
    · rw [State.gtSkip_buf]
    · rfl
  have hflags : s3.sbuf = s.sbuf := by rw [State.gtFlag_buf, State.gtFlag_buf, hmatched]
  split
  · split
    · exact hflags
    · rw [State.wr_sbuf, hflags]
  · exact hmatched

@[simp] theorem State.gtThaw_buf (d ht : Nat) (s : State) (n : Nat) : (State.gtThaw d ht s n).sbuf = s.sbuf := by simp [State.gtThaw]

@[simp] theorem State.gtsThaw_buf (s : State) (d ht : Nat) : (s.gtsThaw d ht).sbuf = s.sbuf := by simp [State.gtsThaw]

/-! ### Timed outputs -/

@[simp] theorem opTouEntryWrite_buf (slot : Slot) (n e w v : Nat) (s : State) : (opTouEntryWrite slot n e w v s).2.sbuf = s.sbuf := by
  unfold opTouEntryWrite
  refine leased_buf (fun u => ?_)
  repeat' split
  all_goals simp

@[simp] theorem State.touNew_buf (s : State) (n e : Nat) : (s.touNew n e).sbuf = s.sbuf := rfl

@[simp] theorem opTouArm_buf (slot : Slot) (n mask : Nat) (s : State) : (opTouArm slot n mask s).2.sbuf = s.sbuf := by
  unfold opTouArm
  refine leased_buf (fun u => ?_)
  simp

@[simp] theorem State.touCancelEntry_buf (s : State) (n e : Nat) : (s.touCancelEntry n e).sbuf = s.sbuf := by
  unfold State.touCancelEntry
  split <;> simp

@[simp] theorem opTouCancel_buf (slot : Slot) (n mask : Nat) (s : State) : (opTouCancel slot n mask s).2.sbuf = s.sbuf := by
  unfold opTouCancel
  refine leased_buf (fun u => ?_)
  simp

@[simp] theorem State.touCancelAll_buf (s : State) (n : Nat) : (s.touCancelAll n).sbuf = s.sbuf := by simp [State.touCancelAll]

@[simp] theorem opTouCtrlWrite_buf (slot : Slot) (n v : Nat) (s : State) : (opTouCtrlWrite slot n v s).2.sbuf = s.sbuf := by
  unfold opTouCtrlWrite
  refine leased_buf (fun u => ?_)
  simp

@[simp] theorem State.touTrailing_buf (s : State) (n : Nat) : (s.touTrailing n).sbuf = s.sbuf := by
  unfold State.touTrailing
  split <;> simp

@[simp] theorem State.touLock_buf (s : State) (n e : Nat) : (s.touLock n e).sbuf = s.sbuf := by
  unfold State.touLock
  split <;> simp

end Sys2Proof.Machine
end

section
/-! SUPPORT. The Shared Buffer under modes, hosts, CAN control, registers, the clock's cycle and frames. -/

namespace Sys2Proof.Machine

open F

/-! ### Modes and wake -/

@[simp] theorem State.vmainArrival_buf (s : State) (boot : Nat) : (s.vmainArrival boot).sbuf = s.sbuf := by simp [State.vmainArrival]

@[simp] theorem opNap_buf (slot : Slot) (s : State) : (opNap slot s).2.sbuf = s.sbuf := by
  unfold opNap
  rw [secureOnly_buf]
  simp

@[simp] theorem opServiceEnter_buf (slot : Slot) (s : State) : (opServiceEnter slot s).2.sbuf = s.sbuf := by
  unfold opServiceEnter
  rw [secureOnly_buf]
  simp

@[simp] theorem opServiceExit_buf (slot : Slot) (s : State) : (opServiceExit slot s).2.sbuf = s.sbuf := by
  unfold opServiceExit
  rw [secureOnly_buf]
  simp

@[simp] theorem State.freezeGo_bufOk (s : State) (why : FreezeFor) (h : BufOk s.sbuf) : BufOk (s.freezeGo why).sbuf := by
  unfold State.freezeGo
  dsimp only
  repeat' split
  all_goals simp [h]

@[simp] theorem State.pllUnlock_bufOk (s : State) (h : BufOk s.sbuf) : BufOk s.pllUnlock.sbuf := by simp [State.pllUnlock, h]

@[simp] theorem State.planFail_buf (s : State) : s.planFail.sbuf = s.sbuf := by
  unfold State.planFail
  split <;> simp

@[simp] theorem State.coldIncr_buf (s : State) : s.coldIncr.sbuf = s.sbuf := by simp [State.coldIncr]

@[simp] theorem State.thawRegs_buf (s : State) (p : TickPair) (e : Int) : (s.thawRegs p e).sbuf = s.sbuf := by simp [State.thawRegs]

@[simp] theorem State.thawInfo_buf (s : State) (phi : Nat) (lost : Bool) : (s.thawInfo phi lost).sbuf = s.sbuf :=
  State.wr_sbuf _ _ _

@[simp] theorem State.touUntrail_buf (s : State) (n : Nat) : (s.touUntrail n).sbuf = s.sbuf := by simp [State.touUntrail]

@[simp] theorem State.gtUntrail_buf (s : State) (n : Nat) : (s.gtUntrail n).sbuf = s.sbuf := by simp [State.gtUntrail]

@[simp] theorem State.forget_buf (s : State) : s.forget.sbuf = s.sbuf := by simp [State.forget]

@[simp] theorem State.thawTime_buf (s : State) (phi : Nat) : (s.thawTime phi).1.sbuf = s.sbuf := by
  unfold State.thawTime
  split <;> simp

@[simp] theorem State.wakeQuill_bufOk (s : State) (h : BufOk s.sbuf) : BufOk s.wakeQuill.sbuf := by
  unfold State.wakeQuill
  dsimp only
  repeat' split
  all_goals simp [h]
  all_goals apply_rules [State.give_bufOk, h]

@[simp] theorem State.planDone_buf (s : State) : s.planDone.sbuf = s.sbuf := by
  unfold State.planDone
  split
  · exact (State.latch_buf _ _).trans ((State.wr_sbuf _ _ _).trans (State.wr_sbuf _ _ _))
  · exact (State.latch_buf _ _).trans ((State.wr_sbuf _ _ _).trans (State.wr_sbuf _ _ _))
  · rfl

@[simp] theorem State.thawLock_buf (s : State) (m lost next : Nat) : (s.thawLock m lost next).sbuf = s.sbuf := by simp [State.thawLock]

@[simp] theorem State.flushLatches_buf (s : State) : s.flushLatches.sbuf = s.sbuf := by simp [State.flushLatches]

@[simp] theorem State.flushRecs_bufOk (s : State) (h : BufOk s.sbuf) : BufOk s.flushRecs.sbuf :=
  foldl_bufOk (fun (u : State) ws hu => State.keepRecWords_bufOk u ws hu) _ h

@[simp] theorem State.thawBlocks_bufOk (s : State) (d ht was : Nat) (h : BufOk s.sbuf) : BufOk (s.thawBlocks d ht was).sbuf := by
  simp [State.thawBlocks, h]

/-- Source 503, when it waits for the end of the wake, leaves the Shared Buffer alone (R255). -/
theorem State.late503_buf (s : State) :
    (if s.glb.pend503 then State.latch { s with glb := { s.glb with pend503 := false } } 503 else s).sbuf = s.sbuf := by
  simp

theorem State.setModeUnless_buf (s : State) (m next : Nat) : (if m = 8 then s else s.setMode next).sbuf = s.sbuf := by
  simp

@[simp] theorem State.thaw_bufOk (s : State) (phi : Nat) (h : BufOk s.sbuf) : BufOk (s.thaw phi).sbuf := by
  have htime : BufOk (s.coldIncr.thawTime phi).1.sbuf := by
    rw [State.thawTime_buf, State.coldIncr_buf]
    exact h
  unfold State.thaw
  dsimp only
  generalize s.coldIncr.thawTime phi = r at htime
  obtain ⟨s1, d, at_⟩ := r
  dsimp only at htime ⊢
  refine State.settle_bufOk _ ?_
  rw [State.setModeUnless_buf, State.thawLock_buf, State.planDone_buf]
  refine State.thawBlocks_bufOk _ _ _ _ (State.flushRecs_bufOk _ ?_)
  rw [State.flushLatches_buf, State.late503_buf, State.latch_buf]
  exact htime

@[simp] theorem State.trialDone_buf (s : State) : s.trialDone.sbuf = s.sbuf := by simp [State.trialDone]

@[simp] theorem State.stewardReady_buf (s : State) : s.stewardReady.sbuf = s.sbuf := by simp [State.stewardReady]

@[simp] theorem State.trialRevert_bufOk (s : State) : BufOk s.trialRevert.sbuf := by simp [State.trialRevert]

/-! ### Slot words, pins and firmware -/

@[simp] theorem State.holdSlot_buf (s : State) (k key w : Nat) : (s.holdSlot k key w).sbuf = s.sbuf := by simp [State.holdSlot]

@[simp] theorem opSlotWrite_buf (slot : Slot) (k v : Nat) (s : State) : (opSlotWrite slot k v s).2.sbuf = s.sbuf := by simp [opSlotWrite]

@[simp] theorem opSlotXWrite_buf (slot : Slot) (k v : Nat) (s : State) : (opSlotXWrite slot k v s).2.sbuf = s.sbuf := by simp [opSlotXWrite]

@[simp] theorem State.grantLease_buf (s : State) (slot id d : Nat) : (s.grantLease slot id d).sbuf = s.sbuf := rfl

@[simp] theorem opLease_buf (slot : Slot) (id d : Nat) (s : State) : (opLease slot id d s).2.sbuf = s.sbuf := by simp [opLease]

@[simp] theorem State.leaseOut_buf (s : State) (id : Nat) : (s.leaseOut id).sbuf = s.sbuf := by simp [State.leaseOut]

@[simp] theorem State.leaseMs_buf (s : State) (id : Nat) : (s.leaseMs id).sbuf = s.sbuf := by simp [State.leaseMs]

@[simp] theorem opPinWrite_buf (slot : Slot) (p v : Nat) (s : State) : (opPinWrite slot p v s).2.sbuf = s.sbuf := by simp [opPinWrite]

@[simp] theorem State.pinSync_buf (s : State) : s.pinSync.sbuf = s.sbuf := rfl

@[simp] theorem State.secEvt_buf (s : State) (i : Nat) : (s.secEvt i).sbuf = s.sbuf := by simp [State.secEvt]

@[simp] theorem opKeyhashWrite_buf (slot : Slot) (i v : Nat) (s : State) : (opKeyhashWrite slot i v s).2.sbuf = s.sbuf := by
  simp [opKeyhashWrite]

@[simp] theorem opLock_buf (slot : Slot) (v : Nat) (s : State) : (opLock slot v s).2.sbuf = s.sbuf := by simp [opLock]

@[simp] theorem opFw_buf (slot : Slot) (op : Nat) (s : State) : (opFw slot op s).2.sbuf = s.sbuf := by simp [opFw]

@[simp] theorem State.setBank_buf (s : State) (b : Nat) (img : BankImg) : (s.setBank b img).sbuf = s.sbuf := rfl

@[simp] theorem State.fwOpDone_buf (s : State) : s.fwOpDone.sbuf = s.sbuf := by
  unfold State.fwOpDone
  dsimp only
  split <;> simp

@[simp] theorem State.seclockSample_buf (s : State) (high : Bool) : (s.seclockSample high).sbuf = s.sbuf := by simp [State.seclockSample]

/-! ### CAN control -/

@[simp] theorem State.canEvt_buf (s : State) (p i : Nat) : (s.canEvt p i).sbuf = s.sbuf := by simp [State.canEvt]

@[simp] theorem State.setEstate_buf (s : State) (p e : Nat) : (s.setEstate p e).sbuf = s.sbuf := by simp [State.setEstate]

@[simp] theorem State.canDiscard_buf (s : State) (p : Nat) : (s.canDiscard p).sbuf = s.sbuf := by simp [State.canDiscard]

@[simp] theorem State.canQuit_buf (s : State) (p : Nat) : (s.canQuit p).sbuf = s.sbuf := by simp [State.canQuit]

@[simp] theorem State.canSwitch_buf (s : State) (p : Nat) (was : Bool) : (s.canSwitch p was).sbuf = s.sbuf := by simp [State.canSwitch]

@[simp] theorem opCanCtrl_buf (slot : Slot) (p v : Nat) (s : State) : (opCanCtrl slot p v s).2.sbuf = s.sbuf := by
  unfold opCanCtrl
  split <;> simp

@[simp] theorem opRecover_buf (_slot : Slot) (p : Nat) (s : State) : (opRecover _slot p s).2.sbuf = s.sbuf := by simp [opRecover]

@[simp] theorem State.timemark_buf (s : State) (p : Nat) : (s.timemark p).sbuf = s.sbuf := by simp [State.timemark]

@[simp] theorem opTmNow_buf (_slot : Slot) (p : Nat) (s : State) : (opTmNow _slot p s).2.sbuf = s.sbuf := by simp [opTmNow]

@[simp] theorem opCanCmd_buf (slot : Slot) (p v : Nat) (s : State) : (opCanCmd slot p v s).2.sbuf = s.sbuf := by
  unfold opCanCmd
  split <;> simp

theorem lastSofWords_buf (s : State) (p seq : Nat) (ws : List Nat) (x : State → CanPort) :
    (State.setCanPort (ws.zipIdx.foldl (fun s wi => s.wr (nLastSof p wi.2) wi.1) (s.wr (nLastSeq p) seq)) p
      (x (ws.zipIdx.foldl (fun s wi => s.wr (nLastSof p wi.2) wi.1) (s.wr (nLastSeq p) seq)))).sbuf = s.sbuf := by
  simp

@[simp] theorem State.timemarkFu_buf (s : State) (p seq sof : Nat) : (s.timemarkFu p seq sof).sbuf = s.sbuf := by
  unfold State.timemarkFu
  generalize time96 (ofStamp (sof - s.rd (nRxDly p))) (s.qual false) = ws
  exact (State.canPost_buf _ _ _ _ _ _).trans
    (lastSofWords_buf s p seq ws fun s => { s.canPort p with tmWait := (s.canPort p).tmWait.tail })

@[simp] theorem State.heartbeat_buf (s : State) (p : Nat) : (s.heartbeat p).sbuf = s.sbuf := by simp [State.heartbeat]

@[simp] theorem State.canTxItem_bufOk (s : State) (p sof : Nat) (h : BufOk s.sbuf) : BufOk (s.canTxItem p sof).sbuf := by
  simp [State.canTxItem, h]

/-! ### Register reads -/

@[simp] theorem State.keepRead_buf (s : State) (a : Nat) : (s.keepRead a).sbuf = s.sbuf := by simp [State.keepRead]

@[simp] theorem State.clearRc_buf (s : State) (l : List Fld) : (s.clearRc l).sbuf = s.sbuf := by
  induction l generalizing s with
  | nil => rfl
  | cons f t ih => simp [State.clearRc, ih]

@[simp] theorem State.readTouch_buf (s : State) (a : Nat) : (s.readTouch a).sbuf = s.sbuf := by simp [State.readTouch]

@[simp] theorem State.pinRead_buf (s : State) (p a : Nat) : (s.pinRead p a).2.sbuf = s.sbuf := by
  unfold State.pinRead
  split <;> simp

@[simp] theorem State.touchAddr_buf (s : State) (slot a : Nat) : (s.touchAddr slot a).sbuf = s.sbuf := by
  unfold State.touchAddr
  split <;> simp

@[simp] theorem readReg_buf (slot : Slot) (a : Nat) (s0 : State) : (readReg slot a s0).2.1.sbuf = s0.sbuf := by
  unfold readReg
  extract_lets o s r
  have hseen : s.sbuf = s0.sbuf := State.touchAddr_buf _ _ _
  clear_value s
  split
  · rfl
  split
  · simp [hseen]
  split
  · split <;> simp [hseen]
  split
  · exact hseen
  split
  · exact hseen
  split
  · simp [r, hseen]
  split
  · simp [hseen]
  split
  · have hpop := State.capPop_buf s (o / 0x100) (o % 0x100 / 0x20 - 4)
    split <;> simp_all
  split
  · simp [hseen]
  · simp [hseen]

/-! ### Register writes -/

@[simp] theorem writePlain_buf (slot : Slot) (a v : Nat) (s : State) : (writePlain slot a v s).2.sbuf = s.sbuf := by
  unfold writePlain
  dsimp only
  repeat' split
  all_goals simp

theorem oneOf_buf {v mask : Nat} {s : State} {k : Nat → Res} (hk : ∀ c, (k c).2.sbuf = s.sbuf) : (oneOf v mask s k).2.sbuf = s.sbuf := by
  simp [oneOf, hk]

theorem oneOf_bufOk {v mask : Nat} {s : State} {k : Nat → Res} (h : BufOk s.sbuf) (hk : ∀ c, BufOk (k c).2.sbuf) :
    BufOk (oneOf v mask s k).2.sbuf := by
  simp [oneOf, h, hk]

@[simp] theorem writeGlb_buf (slot : Slot) (a v : Nat) (s : State) : (writeGlb slot a v s).2.sbuf = s.sbuf := by
  unfold writeGlb
  split
  · refine oneOf_buf fun c => ?_
    split
    · simp
    · split <;> simp
  · simp

@[simp] theorem writeKeep_buf (slot : Slot) (a v : Nat) (s : State) : (writeKeep slot a v s).2.sbuf = s.sbuf := by simp [writeKeep]

@[simp] theorem htmCommand_bufOk (slot : Slot) (c : Nat) (s : State) (h : BufOk s.sbuf) : BufOk (htmCommand slot c s).2.sbuf := by
  simp [htmCommand, h]

@[simp] theorem discCommand_buf (slot : Slot) (c : Nat) (s : State) : (discCommand slot c s).2.sbuf = s.sbuf := by simp [discCommand]

@[simp] theorem writeDctrl_bufOk (src : Bool) (slot : Slot) (v : Nat) (s : State) (h : BufOk s.sbuf) :
    BufOk (writeDctrl src slot v s).2.sbuf := by
  simp [writeDctrl, h]

@[simp] theorem writeHtm_bufOk (slot : Slot) (a v : Nat) (s : State) (h : BufOk s.sbuf) : BufOk (writeHtm slot a v s).2.sbuf := by
  unfold writeHtm
  split
  · simpa using h
  split
  · simpa using h
  split
  · exact oneOf_bufOk h fun c => htmCommand_bufOk _ _ _ h
  split
  · exact oneOf_bufOk h fun c => by simpa using h
  split
  · exact h
  split
  · exact writeDctrl_bufOk _ _ _ _ h
  · simpa using h

@[simp] theorem writeCal_buf (slot : Slot) (a v : Nat) (s : State) : (writeCal slot a v s).2.sbuf = s.sbuf := by
  unfold writeCal
  extract_lets o r
  split
  · refine oneOf_buf fun c => ?_
    split <;> simp
  split
  · simp
  split
  · simp
  split
  · simp
  split
  · simp
  · have hplain : r.2.sbuf = s.sbuf := writePlain_buf _ _ _ _
    simp [hplain]

@[simp] theorem writeTrm_buf (slot : Slot) (a v : Nat) (s : State) : (writeTrm slot a v s).2.sbuf = s.sbuf := by
  unfold writeTrm
  extract_lets r
  split
  · refine oneOf_buf fun c => ?_
    split
    · simp
    · split <;> simp
  · have hplain : r.2.sbuf = s.sbuf := writePlain_buf _ _ _ _
    simp [hplain]

@[simp] theorem writeStp_buf (slot : Slot) (a v : Nat) (s : State) : (writeStp slot a v s).2.sbuf = s.sbuf := by simp [writeStp]

@[simp] theorem opTouCmd_buf (slot : Slot) (n v : Nat) (s : State) : (opTouCmd slot n v s).2.sbuf = s.sbuf := by simp [opTouCmd]

@[simp] theorem writeTou_buf (slot : Slot) (a v : Nat) (s : State) : (writeTou slot a v s).2.sbuf = s.sbuf := by
  unfold writeTou
  split <;> simp

@[simp] theorem opGtCmd_bufOk (slot : Slot) (n v : Nat) (s : State) (h : BufOk s.sbuf) : BufOk (opGtCmd slot n v s).2.sbuf := by
  simp [opGtCmd, h]

@[simp] theorem opGtForce_buf (slot : Slot) (n a v : Nat) (s : State) : (opGtForce slot n a v s).2.sbuf = s.sbuf := by
  unfold opGtForce
  refine leased_buf (fun u => ?_)
  simp

@[simp] theorem writeGtm_bufOk (slot : Slot) (a v : Nat) (s : State) (h : BufOk s.sbuf) : BufOk (writeGtm slot a v s).2.sbuf := by
  unfold writeGtm
  split <;> simp [h]

@[simp] theorem opMilCmd_buf (slot : Slot) (m v : Nat) (s : State) : (opMilCmd slot m v s).2.sbuf = s.sbuf := by simp [opMilCmd]

@[simp] theorem writeMil_buf (slot : Slot) (a v : Nat) (s : State) : (writeMil slot a v s).2.sbuf = s.sbuf := by simp [writeMil]

@[simp] theorem opSeqCmd_bufOk (slot : Slot) (v : Nat) (s : State) (h : BufOk s.sbuf) : BufOk (opSeqCmd slot v s).2.sbuf := by
  refine oneOf_bufOk h fun c => ?_
  split
  · simpa using h
  split
  · simpa using h
  split
  · simpa using h
  split
  · exact opForceOff_bufOk _ _ _ (by simpa using h)
  split
  · exact opCommit_bufOk _ _ h
  split
  · simpa using h
  split
  · simpa using h
  · exact opGroupDown_bufOk _ _ _ h

@[simp] theorem State.shortClear_bufOk (s : State) (v : Nat) (h : BufOk s.sbuf) : BufOk (s.shortClear v).sbuf := by
  simp [State.shortClear, h]

@[simp] theorem writeSeq_bufOk (slot : Slot) (a v : Nat) (s : State) (h : BufOk s.sbuf) : BufOk (writeSeq slot a v s).2.sbuf := by
  simp [writeSeq, h]

@[simp] theorem writeMon_buf (slot : Slot) (a v : Nat) (s : State) : (writeMon slot a v s).2.sbuf = s.sbuf := by
  unfold writeMon
  extract_lets r
  split
  · refine oneOf_buf fun c => ?_
    split
    · simp
    · split <;> simp
  · have hplain : r.2.sbuf = s.sbuf := writePlain_buf _ _ _ _
    split
    · simp [hplain]
    · split <;> simp [hplain]

@[simp] theorem writeIcu_bufOk (slot : Slot) (a v : Nat) (s : State) (h : BufOk s.sbuf) : BufOk (writeIcu slot a v s).2.sbuf := by
  unfold writeIcu
  dsimp only
  repeat' split
  all_goals simp [h]

@[simp] theorem writeMbx_buf (slot : Slot) (a v : Nat) (s : State) : (writeMbx slot a v s).2.sbuf = s.sbuf := by
  unfold writeMbx
  dsimp only
  repeat' split
  all_goals simp

@[simp] theorem writeRng_bufOk (slot : Slot) (a v : Nat) (s : State) (h : BufOk s.sbuf) : BufOk (writeRng slot a v s).2.sbuf := by
  unfold writeRng
  dsimp only
  repeat' split
  all_goals simp [h]

@[simp] theorem writePtn_bufOk (slot : Slot) (a v : Nat) (s : State) (h : BufOk s.sbuf) : BufOk (writePtn slot a v s).2.sbuf := by
  simp [writePtn, h]

@[simp] theorem writeRad_bufOk (slot : Slot) (a v : Nat) (s : State) (h : BufOk s.sbuf) : BufOk (writeRad slot a v s).2.sbuf := by
  unfold writeRad
  split <;> simp [h]

@[simp] theorem writeHst_buf (slot : Slot) (a v : Nat) (s : State) : (writeHst slot a v s).2.sbuf = s.sbuf := by simp [writeHst]

@[simp] theorem writeCan_buf (slot : Slot) (a v : Nat) (s : State) : (writeCan slot a v s).2.sbuf = s.sbuf := by simp [writeCan]

@[simp] theorem writePin_buf (slot : Slot) (a v : Nat) (s : State) : (writePin slot a v s).2.sbuf = s.sbuf := by simp [writePin]

@[simp] theorem writeSec_buf (slot : Slot) (a v : Nat) (s : State) : (writeSec slot a v s).2.sbuf = s.sbuf := by simp [writeSec]

@[simp] theorem writeSbuf_bufOk (slot : Slot) (ofs v : Nat) (s : State) (h : BufOk s.sbuf) : BufOk (writeSbuf slot ofs v s).2.sbuf := by
  unfold writeSbuf
  split <;> simp [h]

@[simp] theorem writeBlock_bufOk (slot : Slot) (a v : Nat) (s : State) (h : BufOk s.sbuf) : BufOk (writeBlock slot a v s).2.sbuf := by
  unfold writeBlock
  split <;> simp [h]

@[simp] theorem writeReg_bufOk (slot : Slot) (a v : Nat) (s : State) (h : BufOk s.sbuf) : BufOk (writeReg slot a v s).2.sbuf := by
  simp [writeReg, h]

/-! ### One cycle -/

@[simp] theorem State.phaseStep_buf (s : State) (n : Nat) : (s.phaseStep n).sbuf = s.sbuf := by
  unfold State.phaseStep
  split
  · split
    · exact State.wr_sbuf _ _ _
    · exact State.wr_sbuf _ _ _
    · rfl
  · rfl

@[simp] theorem State.msStep_buf (s : State) (was : Nat) : (s.msStep was).sbuf = s.sbuf := by simp [State.msStep]

@[simp] theorem State.timeStep_buf (s : State) : s.timeStep.sbuf = s.sbuf := by simp [State.timeStep]

@[simp] theorem State.edgesDecide_bufOk (s : State) (h : BufOk s.sbuf) : BufOk s.edgesDecide.sbuf := by
  unfold State.edgesDecide
  split
  · extract_lets s1 s2 s3
    have hstamps : BufOk s1.sbuf := by
      have hkept : s1.sbuf = s.sbuf := foldl_buf (f := State.stSettle) State.stSettle_buf _ s
      rwa [hkept]
    have htimers : BufOk s2.sbuf :=
      foldl_bufOk (fun (u : State) (n : Nat) hu => State.gtCapSettle_bufOk _ n (by rwa [State.gtClkSettle_buf])) _ hstamps
    have hmills : s3.sbuf = s2.sbuf := foldl_buf (f := State.milSettle) State.milSettle_buf _ s2
    rw [foldl_buf, hmills]
    · exact htimers
    · intro u n
      dsimp only
      split
      · exact State.gtCatch_buf _ _
      · rfl
  · exact h

@[simp] theorem State.tick_bufOk (s : State) (h : BufOk s.sbuf) : BufOk s.tick.sbuf := by
  unfold State.tick
  extract_lets s1 q s2 s3 s4 s5 s6 s7
  have hdecided : BufOk s1.sbuf := by
    rw [State.ringRises_buf]
    exact State.edgesDecide_bufOk _ h
  have hserved : BufOk s3.sbuf := by
    rw [State.kcalDrop_buf]
    exact State.servoDue_bufOk _ (by simpa using hdecided)
  split
  · have htou : s5.sbuf = s3.sbuf := by
      rw [foldl_buf (f := State.touArrive) State.touArrive_buf, State.timeStep_buf]
    have hphase : s6.sbuf = s3.sbuf := by
      rw [foldl_buf (f := State.phaseStep) State.phaseStep_buf, htou]
    have hport : BufOk s7.sbuf := State.portCycle_bufOk _ (by
      rw [State.gtsCycle_buf, State.milsCycle_buf, State.pinSync_buf, State.layoutCycle_buf, hphase]
      exact hserved)
    rw [State.pendingNotes_buf, State.canNotes_buf, State.refsCheck_buf]
    exact hport
  · exact hserved

@[simp] theorem State.cycle_bufOk (s : State) (h : BufOk s.sbuf) : BufOk s.cycle.sbuf := by simp [State.cycle, h]

/-! ### Frames -/

@[simp] theorem reachRead_buf (slot : Slot) (a : Nat) (s : State) : (reachRead slot a s).2.1.sbuf = s.sbuf := by simp [reachRead]

@[simp] theorem reachWrite_bufOk (slot : Slot) (a v : Nat) (s : State) (h : BufOk s.sbuf) : BufOk (reachWrite slot a v s).2.sbuf := by
  simp [reachWrite, h]

@[simp] theorem readBurst_bufOk (slot : Slot) (stride n a : Nat) (s : State) (h : BufOk s.sbuf) :
    BufOk (readBurst slot stride n a s).2.1.sbuf := by
  induction n generalizing a s with
  | zero => exact h
  | succ n ih =>
    have hread : BufOk (reachRead slot a s).2.1.sbuf := by simpa using h
    refine ih _ _ ?_
    split
    · exact hread
    · exact State.tick_bufOk _ hread

@[simp] theorem writeBurst_bufOk (slot : Slot) (i a : Nat) (s : State) (vs : List Nat) (h : BufOk s.sbuf) :
    BufOk (writeBurst slot i a s vs).2.sbuf := by
  induction vs generalizing i a s with
  | nil => exact h
  | cons v t ih =>
    have hwritten : BufOk (reachWrite slot a v s).2.sbuf := reachWrite_bufOk _ _ _ _ h
    unfold writeBurst
    dsimp only
    split
    · exact hwritten
    · split
      · exact hwritten
      · exact ih _ _ _ (State.tick_bufOk _ hwritten)

@[simp] theorem State.touchIndex_buf (s : State) (slot i sub : Nat) : (s.touchIndex slot i sub).sbuf = s.sbuf := by
  unfold State.touchIndex
  split <;> simp

@[simp] theorem State.touchBody_buf (s : State) (slot : Nat) (ws : List Nat) : (s.touchBody slot ws).sbuf = s.sbuf := by
  simp [State.touchBody]

@[simp] theorem State.enqueue_buf (s : State) (key : Nat) (j : DictJob) : (s.enqueue key j).sbuf = s.sbuf := rfl

@[simp] theorem opDictReq_buf (slot : Slot) (field : Nat) (ws : List Nat) (s : State) : (opDictReq slot field ws s).2.sbuf = s.sbuf := by
  simp [opDictReq]

@[simp] theorem opDictResp_buf (slot : Slot) (words : Nat) (s : State) : (opDictResp slot words s).2.1.sbuf = s.sbuf := by
  unfold opDictResp
  dsimp only
  repeat' split
  all_goals simp

theorem quietFrame_outOk {p : Port} {w : Wire} {sh : Shape} {refused : Option Code} {s : State} {data : State → Option Slot → List Nat}
    (h : BufOk s.sbuf) : OutOk (quietFrame p w sh refused s data) := by
  have hopen : BufOk (s.open_ p.val w.high).2.sbuf := by simpa using h
  unfold quietFrame
  rw [outOk_next]
  split
  · simpa using h
  · dsimp only
    split
    · simpa using hopen
    · cases (s.open_ p.val w.high).1 <;> simpa using hopen

end Sys2Proof.Machine
end

section
/-! SUPPORT. The Shared Buffer under dictionary entries: every entry's reading and writing keep its form, so every index's do. -/

namespace Sys2Proof.Machine

open F

/-! ### Entries -/

@[simp] theorem putFlds_bufOk (slot : Slot) (a : Nat) (l : List (Fld × Nat)) (s : State) (h : BufOk s.sbuf) :
    BufOk (putFlds slot a l s).2.sbuf := by
  simp [putFlds, h]

@[simp] theorem putFld_bufOk (f : Fld) (v : Nat) (slot : Slot) (s : State) (h : BufOk s.sbuf) : BufOk (putFld f v slot s).2.sbuf := by
  simp [putFld, h]

theorem writeAll_bufOk {slot : Slot} {w : Slot → Nat → Nat → State → Res} (hw : ∀ a v u, BufOk u.sbuf → BufOk (w slot a v u).2.sbuf)
    (l : List (Nat × Nat)) {s : State} (h : BufOk s.sbuf) : BufOk (writeAll slot w l s).2.sbuf := by
  induction l generalizing s with
  | nil => exact h
  | cons av t ih =>
    have hwritten : BufOk (w slot av.1 av.2 s).2.sbuf := hw _ _ _ h
    unfold writeAll
    dsimp only
    split
    · exact hwritten
    · exact ih (State.tick_bufOk _ hwritten)

@[simp] theorem writeAll_writeReg_bufOk (slot : Slot) (l : List (Nat × Nat)) (s : State) (h : BufOk s.sbuf) :
    BufOk (writeAll slot writeReg l s).2.sbuf :=
  writeAll_bufOk (fun a v u hu => writeReg_bufOk slot a v u hu) l h

@[simp] theorem keepNow_buf (slot : Slot) (a v : Nat) (s : State) : (keepNow slot a v s).2.sbuf = s.sbuf := by simp [keepNow]

@[simp] theorem keepPut_buf (f : Fld) (v : Nat) (slot : Slot) (s : State) : (keepPut f v slot s).2.sbuf = s.sbuf := by simp [keepPut]

@[simp] theorem slotPut_bufOk (k : Nat) (f : Fld) (v : Nat) (slot : Slot) (s : State) (h : BufOk s.sbuf) :
    BufOk (slotPut k f v slot s).2.sbuf := by
  simp [slotPut, h]

/-- A way to a field whose write keeps the canonical form. -/
def ViaOk (via : Via) : Prop := ∀ f v k s, BufOk s.sbuf → BufOk (via.1 f v k s).2.sbuf

@[simp] theorem viaReg_ok : ViaOk viaReg := fun f v k s h => putFld_bufOk f v k s h

@[simp] theorem viaKeep_ok : ViaOk viaKeep := fun f v k s h => by
  rw [viaKeep, keepPut_buf]
  exact h

@[simp] theorem viaSlot_ok (k : Nat) : ViaOk (viaSlot k) := fun f v slot s h => slotPut_bufOk k f v slot s h

/-- An entry whose reading and whose writing keep the canonical form. -/
def Ent.Ok (e : Ent) : Prop :=
  (∀ k s, BufOk s.sbuf → BufOk (e.read k s).2.1.sbuf) ∧ ∀ k bs s, BufOk s.sbuf → BufOk (e.write k bs s).2.sbuf

theorem Ent.sized_ok {size : Nat} {acc : Acc} {read : Slot → State → Code × State × Nat} {write : Slot → Nat → State → Res}
    (hread : ∀ k s, BufOk s.sbuf → BufOk (read k s).2.1.sbuf) (hwrite : ∀ k v s, BufOk s.sbuf → BufOk (write k v s).2.sbuf) :
    (Ent.sized size acc read write).Ok := by
  refine ⟨hread, fun k bs s h => ?_⟩
  dsimp only [Ent.sized]
  split
  · exact h
  · exact hwrite _ _ _ h

@[simp] theorem ro_ok (size : Nat) (f : State → Nat) : (ro size f).Ok := Ent.sized_ok (fun _ _ h => h) fun _ _ _ h => h

theorem wo_ok {size : Nat} {w : Slot → Nat → State → Res} (hw : ∀ k v s, BufOk s.sbuf → BufOk (w k v s).2.sbuf) : (wo size w).Ok :=
  Ent.sized_ok (fun _ _ h => h) hw

theorem cmd_ok {l : List (Nat × (Slot → State → Res))} (hl : ∀ p ∈ l, ∀ k s, BufOk s.sbuf → BufOk (p.2 k s).2.sbuf) : (cmd l).Ok := by
  refine wo_ok fun k v s h => ?_
  split
  next p hp => exact hl p (List.mem_of_find?_eq_some hp) k s h
  · exact h

theorem Ent.plain_ok {size : Nat} {acc : Acc} {get : State → Nat} {put : Slot → Nat → State → Res}
    (hput : ∀ k v s, BufOk s.sbuf → BufOk (put k v s).2.sbuf) : (Ent.plain size acc get put).Ok :=
  Ent.sized_ok (fun _ _ h => h) hput

@[simp] theorem Ent.num_ok {via : Via} (hvia : ViaOk via) (size : Nat) (acc : Acc) (f : Fld) (vs fs : Bool) (lo hi : Int) (num den : Nat) :
    (Ent.num via size acc f vs fs lo hi num den).Ok := by
  refine Ent.plain_ok fun k v s h => ?_
  extract_lets x y
  split
  · exact h
  · split
    · split
      · exact hvia _ _ _ _ h
      · exact h
    · split
      · exact hvia _ _ _ _ h
      · exact h

@[simp] theorem uf_ok {via : Via} (hvia : ViaOk via) (size : Nat) (acc : Acc) (f : Fld) : (uf size acc f via).Ok :=
  Ent.num_ok hvia _ _ _ _ _ _ _ _ _

@[simp] theorem sf_ok {via : Via} (hvia : ViaOk via) (size : Nat) (acc : Acc) (f : Fld) : (sf size acc f via).Ok :=
  Ent.num_ok hvia _ _ _ _ _ _ _ _ _

@[simp] theorem us_ok (size : Nat) (acc : Acc) (f : Fld) (num den hi lo : Nat) : (us size acc f num den hi lo).Ok :=
  Ent.num_ok viaReg_ok _ _ _ _ _ _ _ _ _

@[simp] theorem ss_ok {via : Via} (hvia : ViaOk via) (acc : Acc) (f : Fld) (num den mag : Nat) : (ss acc f num den mag via).Ok :=
  Ent.num_ok hvia _ _ _ _ _ _ _ _ _

@[simp] theorem ps_ok (acc : Acc) (f : Fld) (mag : Nat) : (ps acc f mag).Ok := ss_ok viaReg_ok _ _ _ _ _

@[simp] theorem rs_ok (f : Fld) (num den : Nat) : (rs f num den).Ok := ro_ok _ _

@[simp] theorem rf_ok (size : Nat) (f : Fld) : (rf size f).Ok := ro_ok _ _

@[simp] theorem coded_ok {via : Via} (hvia : ViaOk via) (size : Nat) (acc : Acc) (f : Fld) (l : List Nat) :
    (coded size acc f l via).Ok := by
  refine Ent.plain_ok fun k v s h => ?_
  split
  · exact hvia _ _ _ _ h
  · exact h

@[simp] theorem regEnt_ok (acc : Acc) (a : Nat) : (regEnt acc a).Ok := Ent.sized_ok (fun _ _ h => h) fun _ _ _ h => writeReg_bufOk _ _ _ _ h

@[simp] theorem pairEnt_ok (acc : Acc) (aLo aHi hiBits : Nat) : (pairEnt acc aLo aHi hiBits).Ok := by
  refine Ent.sized_ok (fun _ _ h => h) fun k v s h => ?_
  split
  · exact h
  · exact writeAll_writeReg_bufOk _ _ _ h

@[simp] theorem clear1_ok (size : Nat) (acc : Acc) (f : Fld) :
    (clear1 size acc f).Ok := Ent.plain_ok fun _ _ _ h => writeReg_bufOk _ _ _ _ h

/-- An index whose entries keep the canonical form. -/
def AreaOk (a : Nat → Option Ent) : Prop := ∀ k e, a k = some e → e.Ok

@[simp] theorem areaOk_subs (l : List Ent) : AreaOk (subs l) ↔ ∀ e ∈ l, e.Ok := by
  constructor
  · intro h e he
    obtain ⟨n, hn⟩ := List.mem_iff_getElem?.1 he
    exact h (n + 1) e (by simpa [subs] using hn)
  · intro h k e he
    unfold subs at he
    split at he
    · nomatch he
    · exact h e (List.mem_of_getElem? he)

@[simp] theorem areaOk_sub0 (e : Ent) : AreaOk (sub0 e) ↔ e.Ok := by
  constructor
  · exact fun h => h 0 e rfl
  · intro h k e' he
    unfold sub0 at he
    split at he
    · cases he
      exact h
    · nomatch he

/-- A block of indexes, likewise. -/
def AreasOk (a : Option (Nat → Option Ent)) : Prop := ∀ f, a = some f → AreaOk f

@[simp] theorem areasOk_some (f : Nat → Option Ent) : AreasOk (some f) ↔ AreaOk f :=
  ⟨fun h => h f rfl, fun h _ hg => by cases hg; exact h⟩

@[simp] theorem areasOk_none : AreasOk none := fun _ h => nomatch h

@[simp] theorem areasOk_ite (c : Prop) [Decidable c] (a b : Option (Nat → Option Ent)) :
    AreasOk (if c then a else b) ↔ if c then AreasOk a else AreasOk b := by
  split <;> rfl

/-! ### Entries from 0x1000 -/

theorem putAll_go_bufOk (slot : Slot) (l : List (Nat × List (Fld × Nat))) (s : State) (h : BufOk s.sbuf) :
    BufOk (putAll.go slot l s).2.sbuf := by
  induction l generalizing s with
  | nil => exact h
  | cons af t ih =>
    have hput : BufOk (putFlds slot af.1 af.2 s).2.sbuf := putFlds_bufOk _ _ _ _ h
    unfold putAll.go
    dsimp only
    split
    · exact hput
    · exact ih _ (State.tick_bufOk _ hput)

@[simp] theorem putAll_bufOk (slot : Slot) (l : List (Nat × List (Fld × Nat))) (s : State) (h : BufOk s.sbuf) :
    BufOk (putAll slot l s).2.sbuf := by
  unfold putAll
  split
  · exact h
  · exact putAll_go_bufOk _ _ _ h

@[simp] theorem setTiming_bufOk (p rate : Nat) (nom dat : List (Fld × Nat)) (tdco : Nat) (slot : Slot) (s : State) (h : BufOk s.sbuf) :
    BufOk (setTiming p rate nom dat tdco slot s).2.sbuf :=
  putAll_bufOk _ _ _ h

@[simp] theorem keepAll_bufOk (k : Slot) (l : List (Nat × Nat)) (s : State) (h : BufOk s.sbuf) : BufOk (keepAll k l s).2.sbuf :=
  writeAll_bufOk (fun a v u hu => by rwa [keepNow_buf]) l h

@[simp] theorem viaDctrl_ok : ViaOk viaDctrl := fun _ _ _ _ h => writeDctrl_bufOk _ _ _ _ h

@[simp] theorem touRecWrite_bufOk (n e : Nat) (k : Slot) (bs : List Nat) (s : State) (h : BufOk s.sbuf) :
    BufOk (touRecWrite n e k bs s).2.sbuf := by
  unfold touRecWrite
  extract_lets b kind t width w0 target
  generalize (if kind = 0 then 19 else 15) = size
  split
  · exact h
  · split
    · exact h
    · exact writeAll_writeReg_bufOk _ _ _ h

/-! ### Entries from 0x2000 -/

theorem area1000_ok : AreaOk area1000 := by
  simp [area1000, str]

theorem areaCan_ok (p : Nat) : AreaOk (areaCan p) := by
  simp only [areaCan, areaOk_subs]
  simp [cmd_ok]
  refine ⟨Ent.plain_ok fun k v s h => ?_, Ent.plain_ok fun k v s h => ?_, Ent.plain_ok fun k v s h => ?_⟩
  all_goals
    repeat' split
    all_goals simp [h]

@[simp] theorem groupEnt_ok (k : Nat) : (groupEnt k).Ok := by
  refine Ent.plain_ok fun k v s h => ?_
  extract_lets cur w
  split
  · exact h
  · exact writeReg_bufOk _ _ _ _ h

theorem areaSlot_ok (k : Nat) : AreaOk (areaSlot k) := by
  simp [areaSlot]

@[simp] theorem seenEnt_ok (c : Nat) : (seenEnt c).Ok := Ent.plain_ok fun _ _ _ h => writeAll_writeReg_bufOk _ _ _ h

theorem area1200_ok : AreaOk area1200 := by simp [area1200]

/-- A command of the value written: stated over the command, so that the kernel compares values and not what the command does with them. -/
theorem wo_map_ok {size : Nat} {g : Nat → Nat} {w : Slot → Nat → State → Res} (hw : ∀ k v s, BufOk s.sbuf → BufOk (w k v s).2.sbuf) :
    (wo size fun k v s => w k (g v) s).Ok :=
  wo_ok fun k v s h => hw k (g v) s h

theorem area1201_ok : AreaOk area1201 := by
  simp only [area1201, areaOk_subs, List.forall_mem_cons]
  exact ⟨Ent.plain_ok fun _ _ _ h => writeAll_writeReg_bufOk _ _ _ h, wo_map_ok (w := opLock) fun k v s h => by rwa [opLock_buf], List.forall_mem_nil _⟩

theorem area1202_ok : AreaOk area1202 := by simp +contextual [area1202, cmd_ok]

theorem areaLease_ok (id : Nat) : AreaOk (areaLease id) := by simp +contextual [areaLease, wo_ok]

theorem areas1_ok (i : Nat) : AreasOk (areas1 i) := by
  unfold areas1
  simp [Ent.sized_ok, area1000_ok, areaCan_ok, areaSlot_ok, area1200_ok, area1201_ok, area1202_ok, areaLease_ok]

@[simp] theorem stagedEnt_ok : stagedEnt.Ok := by
  refine Ent.plain_ok fun k v s h => ?_
  split
  · exact h
  · exact writeAll_writeReg_bufOk _ _ _ h

@[simp] theorem refOfsEnt_ok : refOfsEnt.Ok := by
  refine Ent.plain_ok fun k v s h => ?_
  extract_lets x i
  split
  · exact h
  · exact writeAll_writeReg_bufOk _ _ _ h

@[simp] theorem stepEnt_ok : stepEnt.Ok := by
  refine Ent.plain_ok fun k v s h => ?_
  extract_lets x sec
  split
  · exact h
  · exact writeAll_writeReg_bufOk _ _ _ h

theorem areas20_ok (i : Nat) : AreasOk (areas20 i) := by
  unfold areas20
  split
  all_goals simp +contextual [cmd_ok]
  case h_2 =>
    intro k e he
    dsimp only at he
    split at he
    · cases he
      simp
    · split at he
      · cases he
        simp
      · nomatch he
  case h_4 =>
    refine ⟨Ent.plain_ok fun k v s h => ?_, Ent.plain_ok fun k v s h => ?_⟩
    all_goals
      split
      all_goals simp [h]
  case h_7 =>
    refine Ent.plain_ok fun k v s h => ?_
    split
    all_goals simp [h]

@[simp] theorem backupEnt_ok (acc : Acc) (from_ : Nat) : (backupEnt acc from_).Ok := Ent.plain_ok fun _ _ _ h => keepAll_bufOk _ _ _ h

theorem areaKalm_ok (n : Nat) : AreaOk (areaKalm n) := by
  simp only [areaKalm, areaOk_subs, List.forall_mem_cons]
  refine ⟨Ent.plain_ok fun _ _ _ h => keepAll_bufOk _ _ _ h, uf_ok viaKeep_ok _ _ _, Ent.plain_ok fun k v s h => ?_,
    Ent.plain_ok fun k v s h => ?_, List.forall_mem_nil _⟩
  all_goals
    split
    all_goals simp [h]

@[simp] theorem swrecEnt_ok (n : Nat) : (swrecEnt n).Ok := ro_ok _ _

@[simp] theorem keepPpb_ok (acc : Acc) (f : Fld) (mag : Nat) (yearly : Bool) : (keepPpb acc f mag yearly).Ok := by
  unfold keepPpb
  split <;> simp

theorem areas21_ok (i : Nat) : AreasOk (areas21 i) := by
  unfold areas21
  split
  · simp [areaKalm_ok]
  · split
    all_goals simp +contextual [cmd_ok, or_imp]

@[simp] theorem ppb_ok (acc : Acc) (f : Fld) (mag : Nat) : (ppb acc f mag).Ok := ss_ok viaReg_ok _ _ _ _ _

@[simp] theorem mppb_ok (acc : Acc) (f : Fld) (mul div : Nat) : (mppb acc f mul div).Ok := ss_ok viaReg_ok _ _ _ _ _

theorem areas22_ok (i : Nat) : AreasOk (areas22 i) := by
  unfold areas22
  split
  all_goals simp +contextual [cmd_ok]

theorem areaAlm_ok (n : Nat) : AreaOk (areaAlm n) := by
  simp [areaAlm]
  refine ⟨Ent.plain_ok fun k v s h => ?_, Ent.plain_ok fun k v s h => ?_⟩
  · split
    all_goals simp [h]
  · exact writeReg_bufOk _ _ _ _ h

theorem areaClk_ok (n : Nat) : AreaOk (areaClk n) := by
  simp [areaClk]
  refine Ent.plain_ok fun k v s h => ?_
  split
  all_goals simp [h]

theorem areas23_ok (i : Nat) : AreasOk (areas23 i) := by
  unfold areas23
  split
  · simp [areaAlm_ok]
  · split
    · simp [areaClk_ok]
    · split
      all_goals simp +contextual [cmd_ok]

@[simp] theorem dglEnt_ok (f : Fld) : (dglEnt f).Ok := by
  refine Ent.plain_ok fun k v s h => ?_
  split
  · exact h
  · exact viaReg_ok _ _ _ _ h

theorem areaStp_ok (n : Nat) : AreaOk (areaStp n) := by
  simp [areaStp]
  exact Ent.sized_ok (fun _ _ h => h) fun _ _ _ h => h

@[simp] theorem touRecEnt_ok (s : State) (n e : Nat) : (touRecEnt s n e).Ok :=
  ⟨fun _ _ h => h, fun _ _ _ h => touRecWrite_bufOk _ _ _ _ _ h⟩

theorem areas24_ok (s : State) (i : Nat) : AreasOk (areas24 s i) := by
  unfold areas24
  split
  · simp [areaStp_ok]
  · split
    · simp
    · split
      · simp
      · split
        · simp +contextual [wo_ok, or_imp]
        · simp

@[simp] theorem uv_ok (f : Fld) : (uv f).Ok := us_ok _ _ _ _ _ _ _

@[simp] theorem pct_ok (f : Fld) : (pct f).Ok := us_ok _ _ _ _ _ _ _

@[simp] theorem railFlags_ok (n : Nat) : (railFlags n).Ok := by
  refine Ent.plain_ok fun k v s h => ?_
  split
  · exact h
  · exact putFlds_bufOk _ _ _ _ h

theorem areaRail_ok (n : Nat) : AreaOk (areaRail n) := by
  simp [areaRail]
  refine Ent.plain_ok fun k v s h => ?_
  split
  · exact putFld_bufOk _ _ _ _ h
  · split
    · exact h
    · exact putFld_bufOk _ _ _ _ h

theorem areas28_ok (i : Nat) : AreasOk (areas28 i) := by
  unfold areas28
  split
  · simp
  split
  · simp
  split
  · simp
  split
  · simp [areaRail_ok]
  · split
    all_goals simp +contextual [wo_ok]
    refine cmd_ok ?_
    simp +contextual
    exact fun k s h => opForceOff_bufOk _ _ _ (by rwa [State.draw_buf])

@[simp] theorem tempEnt_ok (k : Nat) : (tempEnt k).Ok := ro_ok _ _

@[simp] theorem ratio_ok (f : Fld) : (ratio f).Ok := us_ok _ _ _ _ _ _ _

theorem areas29_ok (i : Nat) : AreasOk (areas29 i) := by
  unfold areas29
  split
  · rw [areasOk_some]
    intro k e he
    dsimp only at he
    split at he
    · cases he
      simp
    · split at he
      · cases he
        simp
      · split at he
        · cases he
          simp
        · nomatch he
  · split
    all_goals simp +contextual [cmd_ok, or_imp]

@[simp] theorem gtPinsEnt_ok (n : Nat) : (gtPinsEnt n).Ok := by
  refine Ent.plain_ok fun k v s h => ?_
  split
  · exact h
  · have hput := putFlds_bufOk k (gBase n + 0x10) [(gPdir n 0, v % 2), (gPdir n 1, v / 2 % 2), (gIdle n 0, v / 4 % 2), (gIdle n 1, v / 8 % 2)] s h
    dsimp only
    split
    · exact writeReg_bufOk _ _ _ _ (State.tick_bufOk _ hput)
    · exact hput

theorem areaGt_ok (n : Nat) : AreaOk (areaGt n) := by
  simp +contextual [areaGt, cmd_ok]
  refine Ent.plain_ok fun k v s h => ?_
  split
  · exact h
  · exact writeAll_writeReg_bufOk _ _ _ h

theorem Ent.orReg_ok {e : Ent} {p : State → Nat → Bool} {put : Slot → Nat → State → Res} (he : e.Ok)
    (hput : ∀ k v s, BufOk s.sbuf → BufOk (put k v s).2.sbuf) : (e.orReg p put).Ok := by
  refine ⟨he.1, fun k bs s h => ?_⟩
  dsimp only [Ent.orReg]
  split
  · exact hput _ _ _ h
  · exact he.2 _ _ _ h

theorem areaCmp_ok (n k : Nat) : AreaOk (areaCmp n k) := by
  simp [areaCmp]
  exact ⟨Ent.orReg_ok (us_ok _ _ _ _ _ _ _) fun _ _ _ h => putFld_bufOk _ _ _ _ h, Ent.plain_ok fun _ _ _ h => writeAll_writeReg_bufOk _ _ _ h⟩

@[simp] theorem capHeadEnt_ok (n c : Nat) : (capHeadEnt n c).Ok := by
  refine Ent.sized_ok (fun k s h => ?_) fun _ _ _ h => h
  have hpop := State.capPop_buf s n c
  dsimp only
  split <;> simp_all

theorem areaCap_ok (n c : Nat) : AreaOk (areaCap n c) := by simp [areaCap]

theorem areas26_ok (i : Nat) : AreasOk (areas26 i) := by
  simp [areas26, areaGt_ok, areaCmp_ok, areaCap_ok]

@[simp] theorem murev_ok (f : Fld) : (murev f).Ok := us_ok _ _ _ _ _ _ _

@[simp] theorem injectEnt_ok (m : Nat) : (injectEnt m).Ok := by
  refine Ent.plain_ok fun k v s h => ?_
  extract_lets at_
  split
  · split
    · exact h
    · exact writeAll_writeReg_bufOk _ _ _ h
  · exact h

theorem areaMil_ok (m : Nat) : AreaOk (areaMil m) := by
  simp +contextual [areaMil, cmd_ok]
  refine Ent.plain_ok fun k v s h => ?_
  split
  · exact h
  · exact putFlds_bufOk _ _ _ _ h

theorem areas27_ok (i : Nat) : AreasOk (areas27 i) := by simp [areas27, areaMil_ok]

@[simp] theorem sourceEnt_ok (n : Nat) : (sourceEnt n).Ok := Ent.plain_ok fun _ _ _ h => writeReg_bufOk _ _ _ _ h

@[simp] theorem maskEnt_ok (p : State → Nat → Bool) : (maskEnt p).Ok := ro_ok _ _

@[simp] theorem latchedEnt_ok : latchedEnt.Ok := Ent.plain_ok fun _ _ _ h => writeAll_writeReg_bufOk _ _ _ h

theorem sources_ok (n : Nat) : AreaOk fun k => if k < 256 then some (sourceEnt (n + k)) else none := by
  intro k e he
  dsimp only at he
  split at he
  · cases he
    simp
  · nomatch he

theorem areas2A_ok (i : Nat) : AreasOk (areas2A i) := by
  unfold areas2A
  split
  · simp +contextual [cmd_ok]
  · split
    all_goals simp [sources_ok]
    all_goals simpa using sources_ok 0

@[simp] theorem postEnt_ok (s : State) (c : Nat) : (postEnt s c).Ok := by
  unfold postEnt
  split <;> simp +contextual [wo_ok]

@[simp] theorem takeEnt_ok (c : Nat) : (takeEnt c).Ok := by
  refine Ent.sized_ok (fun _ _ h => ?_) fun _ _ _ h => h
  simpa using h

theorem areaMbx_ok (s : State) (c : Nat) : AreaOk (areaMbx s c) := by
  simp +contextual [areaMbx, wo_ok]
  refine Ent.plain_ok fun k v s h => ?_
  split
  · exact h
  · exact putFlds_bufOk _ _ _ _ h

theorem areas2B_ok (slot : Nat) (s : State) (i : Nat) : AreasOk (areas2B slot s i) := by
  simp [areas2B, areaMbx_ok, Ent.sized_ok]

@[simp] theorem ringSizeEnt_ok (r : Nat) : (ringSizeEnt r).Ok := by
  refine Ent.plain_ok fun k v s h => ?_
  split
  · exact putFld_bufOk _ _ _ _ h
  · exact h

@[simp] theorem ringItemEnt_ok (r : Nat) : (ringItemEnt r).Ok := by
  refine Ent.plain_ok fun k v s h => ?_
  split
  · exact putFld_bufOk _ _ _ _ h
  · split
    · exact putFlds_bufOk _ _ _ _ h
    · exact h

theorem areaRing_ok (r : Nat) : AreaOk (areaRing r) := by
  simp +contextual [areaRing, cmd_ok]
  refine Ent.plain_ok fun k v s h => ?_
  split
  · exact h
  · exact putFld_bufOk _ _ _ _ h

theorem areas2C_ok (i : Nat) : AreasOk (areas2C i) := by simp [areas2C, areaRing_ok]

@[simp] theorem us100_ok (f : Fld) : (us100 f).Ok := us_ok _ _ _ _ _ _ _

theorem area2D02_ok : AreaOk area2D02 := by simp +contextual [area2D02, cmd_ok]

theorem areaPtn_ok (a : Nat) : AreaOk (areaPtn a) := by simp [areaPtn]

theorem areas2D_ok (i : Nat) : AreasOk (areas2D i) := by
  unfold areas2D
  split
  · simp
  · split
    · simp [areaPtn_ok]
    · split
      all_goals simp +contextual [area2D02_ok, wo_ok]

@[simp] theorem wordsEnt_ok (acc : Acc) (a n : Nat) : (wordsEnt acc a n).Ok := Ent.plain_ok fun _ _ _ h => writeAll_writeReg_bufOk _ _ _ h

theorem areaRad_ok (p : Nat) : AreaOk (areaRad p) := by
  simp +contextual [areaRad, cmd_ok, or_imp, forall_and]
  refine ⟨Ent.plain_ok fun k v s h => ?_, Ent.plain_ok fun k v s h => ?_⟩
  all_goals
    split
    all_goals simp [h]

theorem areaSwp_ok (n : Nat) : AreaOk (areaSwp n) := by
  simp +contextual [areaSwp, cmd_ok]
  refine ⟨Ent.plain_ok fun k v s h => ?_, Ent.plain_ok fun _ _ _ h => writeAll_writeReg_bufOk _ _ _ h⟩
  split
  · exact h
  · exact writeAll_writeReg_bufOk _ _ _ h

theorem areas2E_ok (i : Nat) : AreasOk (areas2E i) := by simp [areas2E, areaRad_ok, areaSwp_ok]

@[simp] theorem expertEnt_ok (slot : Nat) (s : State) (a : Nat) : (expertEnt slot s a).Ok := by
  unfold expertEnt
  split
  · exact Ent.sized_ok (fun _ _ h => by simpa using h) fun _ _ _ h => writeReg_bufOk _ _ _ _ h
  · split
    · exact wo_ok fun _ _ _ h => writeReg_bufOk _ _ _ _ h
    · exact Ent.sized_ok (fun _ _ h => by simpa using h) fun _ _ _ h => writeReg_bufOk _ _ _ _ h

theorem areas6_ok (slot : Nat) (s : State) (i : Nat) : AreasOk (areas6 slot s i) := by
  unfold areas6
  split
  · rw [areasOk_some]
    intro k e he
    dsimp only at he
    split at he
    · cases he
      simp
    · nomatch he
  · split
    · simp [Ent.plain_ok]
    · simp

theorem area1010_ok : AreaOk area1010 := by
  simp [area1010, Ent.plain_ok]

theorem entsAt_ok (slot : Nat) (s : State) (i : Nat) : AreasOk (entsAt slot s i) := by
  unfold entsAt
  split
  all_goals simp [area1010_ok, areas1_ok, areas20_ok, areas21_ok, areas22_ok, areas23_ok, areas24_ok, areas26_ok, areas27_ok, areas28_ok, areas29_ok,
    areas2A_ok, areas2B_ok, areas2C_ok, areas2D_ok, areas2E_ok, areas6_ok]

theorem entFor_ok {slot : Nat} {s : State} {i sub : Nat} {write : Bool} {e : Ent} (he : entFor slot s i sub write = .ok e) : e.Ok := by
  unfold entFor at he
  split at he
  · nomatch he
  · split at he
    · nomatch he
    · next l hl =>
      split at he
      · nomatch he
      · next e' he' =>
        have hok : e'.Ok := entsAt_ok _ _ _ l hl _ _ he'
        have hsame : e' = e ∨ ∃ c : Code, (.error c : Except Code Ent) = .ok e := by
          split at he
          · split at he
            · exact .inr ⟨_, he⟩
            · split at he
              · exact .inr ⟨_, he⟩
              · exact .inl (Except.ok.inj he)
          · split at he
            · exact .inr ⟨_, he⟩
            · exact .inl (Except.ok.inj he)
        obtain rfl | ⟨c, hc⟩ := hsame
        · exact hok
        · nomatch hc

end Sys2Proof.Machine
end

section
/-! SUPPORT. The Shared Buffer under dictionary requests and received CAN frames. -/

namespace Sys2Proof.Machine

open F

/-! ### Requests and transfers -/

@[simp] theorem opDtpRead_bufOk (slot : Slot) (i sub : Nat) (s : State) (h : BufOk s.sbuf) : BufOk (opDtpRead slot i sub s).2.1.sbuf := by
  have hs : BufOk ((s.abortXfer slot.val).touchIndex slot.val i sub).sbuf := by simpa using h
  unfold opDtpRead
  extract_lets s1
  split
  · exact hs
  · next e he =>
    split
    · exact hs
    · exact (entFor_ok he).1 _ _ hs

@[simp] theorem opDtpWrite_bufOk (slot : Slot) (i sub : Nat) (bs : List Nat) (s : State) (h : BufOk s.sbuf) :
    BufOk (opDtpWrite slot i sub bs s).2.sbuf := by
  have hs : BufOk ((s.abortXfer slot.val).touchIndex slot.val i sub).sbuf := by simpa using h
  unfold opDtpWrite
  extract_lets s1
  split
  · exact hs
  · next e he =>
    split
    · exact hs
    · exact (entFor_ok he).2 _ _ _ hs

@[simp] theorem State.setXfer_buf (s : State) (slot : Nat) (x : Transfer) : (s.setXfer slot x).sbuf = s.sbuf := rfl

@[simp] theorem opSegWriteInit_buf (slot : Slot) (port : Option Nat) (i sub total : Nat) (s : State) :
    (opSegWriteInit slot port i sub total s).2.sbuf = s.sbuf := by
  unfold opSegWriteInit
  dsimp only
  split <;> simp

theorem segData_bufOk {slot : Slot} {write toggle : Bool} {i sub : Nat} {s : State} {k : Transfer → State → Code × State × List Nat}
    (hk : ∀ x u, BufOk u.sbuf → BufOk (k x u).2.1.sbuf) (h : BufOk s.sbuf) : BufOk (segData slot write toggle i sub s k).2.1.sbuf := by
  unfold segData
  extract_lets s1
  have hs : BufOk s1.sbuf := by simpa [s1] using h
  split
  · exact hs
  · split
    · simpa using hs
    · split
      · exact hk _ _ hs
      · split
        · exact hs
        · simpa using hs

@[simp] theorem opSegWriteData_bufOk (slot : Slot) (toggle : Bool) (i sub : Nat) (seg : List Nat) (s : State) (h : BufOk s.sbuf) :
    BufOk (opSegWriteData slot toggle i sub seg s).2.1.sbuf := by
  refine segData_bufOk (fun x u hu => ?_) h
  extract_lets bs s1
  have hended : BufOk s1.sbuf := by simpa [s1] using hu
  split
  · exact hu
  · split
    · exact hended
    · split
      · split
        · exact hended
        · next e he => exact (entFor_ok he).2 _ _ _ hended
      · simpa using hu

@[simp] theorem opSegReadInit_bufOk (slot : Slot) (port : Option Nat) (i sub : Nat) (s : State) (h : BufOk s.sbuf) :
    BufOk (opSegReadInit slot port i sub s).2.1.sbuf := by
  have hs : BufOk ((s.abortXfer slot.val).touchIndex slot.val i sub).sbuf := by simpa using h
  unfold opSegReadInit
  extract_lets s1
  split
  · exact hs
  · next e he =>
    have hread := (entFor_ok he).1 slot s1 hs
    split
    · exact hs
    · dsimp only
      split
      · exact hread
      · simpa using hread

@[simp] theorem opSegReadData_bufOk (slot : Slot) (toggle : Bool) (i sub : Nat) (s : State) (h : BufOk s.sbuf) :
    BufOk (opSegReadData slot toggle i sub s).2.1.sbuf := by
  refine segData_bufOk (fun x u hu => ?_) h
  dsimp only
  split <;> simpa using hu

@[simp] theorem opDtpAbort_buf (slot : Slot) (code : Nat) (s : State) : (opDtpAbort slot code s).2.sbuf = s.sbuf := by simp [opDtpAbort]

@[simp] theorem opUndefinedCmd_buf (port : Option Nat) (s : State) : (opUndefinedCmd port s).2.sbuf = s.sbuf := by
  unfold opUndefinedCmd
  split <;> simp

@[simp] theorem State.dropJob_buf (s : State) (key : Nat) : (s.dropJob key).sbuf = s.sbuf := rfl

@[simp] theorem State.canAnswer_buf (s : State) (ref : CanNodeRef) (fn : Nat) (ws short : List Nat) :
    (s.canAnswer ref fn ws short).sbuf = s.sbuf := by
  simp [State.canAnswer]

@[simp] theorem State.respond_buf (s : State) (key : Nat) (j : DictJob) (c : Code) (bs : List Nat) :
    (s.respond key j c bs).sbuf = s.sbuf := by
  unfold State.respond
  dsimp only
  split <;> simp

@[simp] theorem State.queue_buf (s : State) (slot : Slot) (ws : List Nat) : (s.queue slot ws).2.sbuf = s.sbuf := by simp [State.queue]

theorem dtpFrame_bufOk {slot : Slot} {ws : List Nat} {s : State} {op : State → Code × State × List Nat}
    (hop : ∀ u, BufOk u.sbuf → BufOk (op u).2.1.sbuf) (h : BufOk s.sbuf) : BufOk (dtpFrame slot ws s op).sbuf :=
  served_bufOk hop (fun u hu => by simpa using hu) h

theorem steward_outOk {slot : Slot} {p : List Nat → Bool} {ws : List Nat} {s : State} {op : Option Nat → State → Code × State × List Nat}
    (hop : ∀ c u, BufOk u.sbuf → BufOk (op c u).2.1.sbuf) (h : BufOk s.sbuf) : OutOk (steward slot p ws s op) := by
  unfold steward
  rw [outOk_next]
  split
  · split
    · simpa using hop _ _ h
    · exact h
  · refine dtpFrame_bufOk (fun u hu => ?_) h
    split
    · simpa using hu
    · exact hop _ _ hu

theorem stewardW_outOk {slot : Slot} {p : List Nat → Bool} {ws : List Nat} {s : State} {op : Option Nat → State → Res}
    (hop : ∀ c u, BufOk u.sbuf → BufOk (op c u).2.sbuf) (h : BufOk s.sbuf) : OutOk (stewardW slot p ws s op) :=
  steward_outOk hop h

@[simp] theorem State.nvResult_buf (s : State) (c : Code) : (s.nvResult c).sbuf = s.sbuf := rfl

@[simp] theorem State.storeStart_buf (s : State) (slot : Nat) : (s.storeStart slot).sbuf = s.sbuf := by simp [State.storeStart]

@[simp] theorem State.restoreStart_buf (s : State) (slot : Nat) : (s.restoreStart slot).sbuf = s.sbuf := rfl

@[simp] theorem opNv_buf (slot : Slot) (v : Nat) (s : State) : (opNv slot v s).2.sbuf = s.sbuf := by
  unfold opNv
  dsimp only
  split <;> simp

theorem stewardNv_outOk {slot : Slot} {p : List Nat → Bool} {ws : List Nat} {v : Nat} {s : State} {op : State → State}
    (hop : ∀ u, BufOk u.sbuf → BufOk (op u).sbuf) (h : BufOk s.sbuf) : OutOk (stewardNv slot p ws v s op) := by
  have hnv : ∀ u, BufOk u.sbuf → BufOk (opNv slot v (op u)).2.sbuf := fun u hu => by simpa using hop u hu
  unfold stewardNv
  rw [outOk_next]
  split
  · split
    · have hdone := hnv _ h
      split
      · next heq => simpa [heq] using hdone
      · next heq => simpa [heq] using hdone
    · exact h
  · refine dtpFrame_bufOk (fun u hu => ?_) h
    have hdone := hnv _ hu
    split
    · simpa using hu
    · split
      · next heq => simpa [heq] using hdone
      · next heq => simpa [heq] using hdone

@[simp] theorem State.nvEnd_buf (s : State) : s.nvEnd.sbuf = s.sbuf := by
  unfold State.nvEnd
  dsimp only
  split <;> simp

@[simp] theorem State.storeEnd_buf (s : State) : s.storeEnd.sbuf = s.sbuf := by simp [State.storeEnd]

@[simp] theorem State.restoreEnd_buf (s : State) : s.restoreEnd.sbuf = s.sbuf := by simp [State.restoreEnd]

theorem dtpRow_outOk {slot : Slot} {i : Instr} {s : State} {op : Option Nat → State → Code × State × List Nat}
    (hop : ∀ c u, BufOk u.sbuf → BufOk (op c u).2.1.sbuf) (h : BufOk s.sbuf) : OutOk (dtpRow slot i s op) :=
  steward_outOk hop h

theorem dtpRowW_outOk {slot : Slot} {i : Instr} {s : State} {op : Option Nat → State → Res}
    (hop : ∀ c u, BufOk u.sbuf → BufOk (op c u).2.sbuf) (h : BufOk s.sbuf) : OutOk (dtpRowW slot i s op) :=
  stewardW_outOk hop h

/-! ### Received frames -/

@[simp] theorem State.canRxItem_bufOk (s : State) (p : Nat) (f : CanFrame) (h : BufOk s.sbuf) : BufOk (s.canRxItem p f).sbuf := by
  simp [State.canRxItem, h]

@[simp] theorem State.seeNode_buf (s : State) (p n : Nat) : (s.seeNode p n).sbuf = s.sbuf := by simp [State.seeNode]

@[simp] theorem State.nodeIn_buf (s : State) (p n : Nat) : (s.nodeIn p n).2.sbuf = s.sbuf := by
  unfold State.nodeIn
  split <;> simp

@[simp] theorem State.canResult_buf (s : State) (p k : Nat) (c : Code) : (s.canResult p k c).sbuf = s.sbuf := by simp [State.canResult]

@[simp] theorem State.canDictReq_buf (s : State) (p : Nat) (k : Slot) (f : CanFrame) (ref : CanNodeRef) :
    (s.canDictReq p k f ref).sbuf = s.sbuf := by
  simp [State.canDictReq]

@[simp] theorem State.canNoteAnswer_buf (s : State) (p k : Nat) (ref : CanNodeRef) (fn q0 : Nat) (c : Code) (d : List Nat) :
    (s.canNoteAnswer p k ref fn q0 c d).sbuf = s.sbuf := by
  simp [State.canNoteAnswer]

@[simp] theorem badOp_buf (p : Nat) (s : State) : (badOp p s).2.1.sbuf = s.sbuf := by simp [badOp]

@[simp] theorem opEventNote_buf (p : Nat) (slot : Slot) (q0 : Nat) (s : State) : (opEventNote p slot q0 s).2.1.sbuf = s.sbuf := by
  unfold opEventNote
  split <;> simp

@[simp] theorem opMbxPost_buf (slot : Slot) (c : Nat) (ws : List Nat) (s : State) : (opMbxPost slot c ws s).2.sbuf = s.sbuf := by
  simp [opMbxPost]

@[simp] theorem opMbxNote_buf (p : Nat) (slot : Slot) (ws : List Nat) (s : State) : (opMbxNote p slot ws s).2.1.sbuf = s.sbuf := by
  unfold opMbxNote
  dsimp only
  split <;> simp

@[simp] theorem State.canNoteIn_buf (s : State) (p : Nat) (k : Slot) (f : CanFrame) (ref : CanNodeRef) :
    (s.canNoteIn p k f ref).sbuf = s.sbuf := by
  simp [State.canNoteIn]

@[simp] theorem State.canRequest_buf (s : State) (p : Nat) (k : Slot) (f : CanFrame) : (s.canRequest p k f).sbuf = s.sbuf := by
  unfold State.canRequest
  split <;> simp

@[simp] theorem State.canHw_bufOk (s : State) (p : Nat) (k : Option Slot) (f : CanFrame) (h : BufOk s.sbuf) :
    BufOk (s.canHw p k f).sbuf := by
  unfold State.canHw
  repeat' split
  all_goals simp [h]

@[simp] theorem State.canReceive_bufOk (s : State) (p : Nat) (f : CanFrame) (h : BufOk s.sbuf) : BufOk (s.canReceive p f).sbuf := by
  simp [State.canReceive, h]

end Sys2Proof.Machine
end

section
/-! SUPPORT. The Shared Buffer under the commands of the hub's blocks. -/

namespace Sys2Proof.Machine

open F

@[simp] theorem execKeepTick_outOk (tick : KeepEdge) (s : State) (h : BufOk s.sbuf) : OutOk (execKeepTick tick s) := by
  simp [execKeepTick, h]

@[simp] theorem execKeepPowerOn_outOk (vmainMv vbatMv : Nat) (s : State) (h : BufOk s.sbuf) : OutOk (execKeepPowerOn vmainMv vbatMv s) := by
  simp [execKeepPowerOn, h]

@[simp] theorem execKeepReset_outOk (s : State) (h : BufOk s.sbuf) : OutOk (execKeepReset s) := by simp [execKeepReset, h]

@[simp] theorem execKeepTempSample_outOk (temp : BitVec 12) (vbatMv : Nat) (s : State) (h : BufOk s.sbuf) :
    OutOk (execKeepTempSample temp vbatMv s) := by
  simp [execKeepTempSample, h]

@[simp] theorem execKeepAgeDay_outOk (s : State) (h : BufOk s.sbuf) : OutOk (execKeepAgeDay s) := by simp [execKeepAgeDay, h]

@[simp] theorem execKeepAlarmFire_outOk (n : Fin 4) (s : State) (h : BufOk s.sbuf) : OutOk (execKeepAlarmFire n s) := by
  simp [execKeepAlarmFire, h]

@[simp] theorem execKstampEdge_outOk (n : Fin 4) (rising : Bool) (s : State) (h : BufOk s.sbuf) : OutOk (execKstampEdge n rising s) := by
  simp [execKstampEdge, h]

@[simp] theorem execKoscFail_outOk (s : State) (h : BufOk s.sbuf) : OutOk (execKoscFail s) := by simp [execKoscFail, h]

@[simp] theorem execOscRunning_outOk (s : State) (h : BufOk s.sbuf) : OutOk (execOscRunning s) := by simp [execOscRunning, h]

@[simp] theorem execSwitchToVbat_outOk (s : State) (h : BufOk s.sbuf) : OutOk (execSwitchToVbat s) := by simp [execSwitchToVbat, h]

@[simp] theorem execSwitchToVmain_outOk (s : State) (h : BufOk s.sbuf) : OutOk (execSwitchToVmain s) := by simp [execSwitchToVmain, h]

@[simp] theorem execSwitchRecordEmit_outOk (s : State) (h : BufOk s.sbuf) : OutOk (execSwitchRecordEmit s) := by
  refine (outOk_event _).2 ?_
  split
  · split
    · rw [State.latch_buf, State.wr_sbuf]
      exact State.keepRec_bufOk _ _ _ _ h
    · exact h
  · exact h

@[simp] theorem execCollapseOrder_outOk (s : State) (h : BufOk s.sbuf) : OutOk (execCollapseOrder s) := by simp [execCollapseOrder, h]

@[simp] theorem execChargerLimit_outOk (s : State) (h : BufOk s.sbuf) : OutOk (execChargerLimit s) := by simp [execChargerLimit, h]

@[simp] theorem execKeepWriteApply_outOk (s : State) (h : BufOk s.sbuf) : OutOk (execKeepWriteApply s) := by simp [execKeepWriteApply, h]

@[simp] theorem execKeepWindowWrite_outOk (slot : Slot) (addr : Addr) (v : Word) (s : State) (h : BufOk s.sbuf) :
    OutOk (execKeepWindowWrite slot addr v s) := by
  unfold execKeepWindowWrite
  refine hostReg_outOk (fun u hu => ?_) (fun _ hu => hu) h
  simp [hu]

@[simp] theorem execKeepChgWrite_outOk (slot : Slot) (v : Word) (s : State) (h : BufOk s.sbuf) : OutOk (execKeepChgWrite slot v s) := by
  unfold execKeepChgWrite
  refine host_outOk (fun u hu => ?_) h
  simp [hu]

@[simp] theorem execKeepAlmHiWrite_outOk (slot : Slot) (n : Fin 4) (v : Word) (s : State) (h : BufOk s.sbuf) :
    OutOk (execKeepAlmHiWrite slot n v s) := by
  unfold execKeepAlmHiWrite
  refine host_outOk (fun u hu => ?_) h
  simp [hu]

@[simp] theorem execFifoFlush_outOk (slot : Slot) (s : State) (h : BufOk s.sbuf) : OutOk (execFifoFlush slot s) := by
  unfold execFifoFlush
  refine host_outOk (fun u hu => ?_) h
  simp [hu]

@[simp] theorem execAgeRestart_outOk (slot : Slot) (s : State) (h : BufOk s.sbuf) : OutOk (execAgeRestart slot s) := by
  unfold execAgeRestart
  refine host_outOk (fun u hu => ?_) h
  simp [hu]

@[simp] theorem execShelfArm_outOk (slot : Slot) (s : State) (h : BufOk s.sbuf) : OutOk (execShelfArm slot s) := by
  unfold execShelfArm
  refine host_outOk (fun u hu => ?_) h
  simp [hu]

@[simp] theorem execShelfDisarm_outOk (slot : Slot) (s : State) (h : BufOk s.sbuf) : OutOk (execShelfDisarm slot s) := by
  unfold execShelfDisarm
  refine host_outOk (fun u hu => ?_) h
  simp [hu]

@[simp] theorem execRailNotUp_outOk (n : Fin 24) (s : State) (h : BufOk s.sbuf) : OutOk (execRailNotUp n s) := by simp [execRailNotUp, h]

@[simp] theorem execRailShort_outOk (short : RailShort) (s : State) (h : BufOk s.sbuf) : OutOk (execRailShort short s) := by
  simp [execRailShort, h]

@[simp] theorem execRailNotDown_outOk (n : Fin 24) (s : State) (h : BufOk s.sbuf) : OutOk (execRailNotDown n s) := by
  simp [execRailNotDown, h]

@[simp] theorem execMinOffEnd_outOk (n : Fin 24) (s : State) (h : BufOk s.sbuf) : OutOk (execMinOffEnd n s) := by
  refine (outOk_event _).2 ?_
  split
  · exact State.settle_bufOk _ (by rwa [State.wr_sbuf])
  · exact h

@[simp] theorem execRailFault_outOk (n : Fin 24) (ov : Bool) (beyond : BitVec 24) (s : State) (h : BufOk s.sbuf) :
    OutOk (execRailFault n ov beyond s) := by
  simp [execRailFault, h]

@[simp] theorem execSeqstepRise_outOk (downHigh : Bool) (s : State) (h : BufOk s.sbuf) : OutOk (execSeqstepRise downHigh s) := by
  simp [execSeqstepRise, h]

@[simp] theorem execStageStart_outOk (s : State) (h : BufOk s.sbuf) : OutOk (execStageStart s) := by
  unfold execStageStart
  split <;> simp [h]

@[simp] theorem execStageDone_outOk (s : State) (h : BufOk s.sbuf) : OutOk (execStageDone s) := by simp [execStageDone, h]

@[simp] theorem execSeqdownChange_outOk (high : Bool) (s : State) (h : BufOk s.sbuf) : OutOk (execSeqdownChange high s) := by
  unfold execSeqdownChange
  dsimp only
  repeat' split
  all_goals simp [h]

@[simp] theorem execRemoteAllOff_outOk (beyond : BitVec 24) (s : State) (h : BufOk s.sbuf) : OutOk (execRemoteAllOff beyond s) := by
  simp [execRemoteAllOff, h]

@[simp] theorem execRemoteAllOffEnd_outOk (s : State) (h : BufOk s.sbuf) : OutOk (execRemoteAllOffEnd s) := by
  refine (outOk_event _).2 ?_
  split
  · exact State.offRest_bufOk _ (by rwa [State.wr_sbuf])
  · rwa [State.wr_sbuf]

@[simp] theorem execLineWatchEnd_outOk (saw : LineView) (s : State) (h : BufOk s.sbuf) : OutOk (execLineWatchEnd saw s) := by
  unfold execLineWatchEnd
  dsimp only
  repeat' split
  all_goals simp [h]

@[simp] theorem execPbShort_outOk (s : State) (h : BufOk s.sbuf) : OutOk (execPbShort s) := by simp [execPbShort, h]

@[simp] theorem execPbLong_outOk (beyond : BitVec 24) (s : State) (h : BufOk s.sbuf) : OutOk (execPbLong beyond s) := by
  simp [execPbLong, h]

@[simp] theorem execMrAssert_outOk (beyond : BitVec 24) (s : State) (h : BufOk s.sbuf) : OutOk (execMrAssert beyond s) := by
  simp [execMrAssert, h]

@[simp] theorem execMrRelease_outOk (s : State) (h : BufOk s.sbuf) : OutOk (execMrRelease s) := by simp [execMrRelease, h]

@[simp] theorem execFaultRetry_outOk (s : State) (h : BufOk s.sbuf) : OutOk (execFaultRetry s) := by simp [execFaultRetry, h]

@[simp] theorem execAutoStart_outOk (s : State) (h : BufOk s.sbuf) : OutOk (execAutoStart s) := by simp [execAutoStart, h]

@[simp] theorem execVinWarn_outOk (s : State) (h : BufOk s.sbuf) : OutOk (execVinWarn s) := by simp [execVinWarn, h]

@[simp] theorem execVinRecover_outOk (s : State) (h : BufOk s.sbuf) : OutOk (execVinRecover s) := by simp [execVinRecover, h]

@[simp] theorem execVinFault_outOk (beyond : BitVec 24) (s : State) (h : BufOk s.sbuf) : OutOk (execVinFault beyond s) := by
  simp [execVinFault, h]

@[simp] theorem execBrownOut_outOk (s : State) (h : BufOk s.sbuf) : OutOk (execBrownOut s) := by simp [execBrownOut, h]

@[simp] theorem execGroupUp_outOk (slot : Slot) (g : Fin 8) (s : State) (h : BufOk s.sbuf) : OutOk (execGroupUp slot g s) := by
  unfold execGroupUp
  refine host_outOk (fun u hu => ?_) h
  simp [hu]

@[simp] theorem execGroupDown_outOk (slot : Slot) (g : Fin 8) (s : State) (h : BufOk s.sbuf) : OutOk (execGroupDown slot g s) := by
  unfold execGroupDown
  refine host_outOk (fun u hu => ?_) h
  simp [hu]

@[simp] theorem execWakein_outOk (k : Fin 4) (s : State) (h : BufOk s.sbuf) : OutOk (execWakein k s) := by simp [execWakein, h]

@[simp] theorem execGroupDemandServe_outOk (g : Fin 8) (s : State) (h : BufOk s.sbuf) : OutOk (execGroupDemandServe g s) := by
  simp [execGroupDemandServe, h]

@[simp] theorem execHrstRelease_outOk (k : Fin 4) (s : State) (h : BufOk s.sbuf) : OutOk (execHrstRelease k s) := by
  simp [execHrstRelease, h]

@[simp] theorem execWakeOutputTimeout_outOk (k : Fin 16) (s : State) (h : BufOk s.sbuf) : OutOk (execWakeOutputTimeout k s) := by
  simp [execWakeOutputTimeout, h]

@[simp] theorem execRelease_outOk (slot : Slot) (stage : Fin 16) (s : State) (h : BufOk s.sbuf) : OutOk (execRelease slot stage s) := by
  unfold execRelease
  refine host_outOk (fun u hu => ?_) h
  simp [hu]

@[simp] theorem execGateTimeout_outOk (s : State) (h : BufOk s.sbuf) : OutOk (execGateTimeout s) := by simp [execGateTimeout, h]

@[simp] theorem execCommit_outOk (slot : Slot) (s : State) (h : BufOk s.sbuf) : OutOk (execCommit slot s) := by
  unfold execCommit
  refine hostOwned_outOk (fun u hu => ?_) h
  simp [hu]

@[simp] theorem execPlanDiscard_outOk (slot : Slot) (s : State) (h : BufOk s.sbuf) : OutOk (execPlanDiscard slot s) := by
  unfold execPlanDiscard
  refine hostOwned_outOk (fun u hu => ?_) h
  simp [hu]

@[simp] theorem execForceOff_outOk (slot : Slot) (beyond : BitVec 24) (s : State) (h : BufOk s.sbuf) :
    OutOk (execForceOff slot beyond s) := by
  unfold execForceOff
  refine host_outOk (fun u hu => ?_) h
  simp [hu]

@[simp] theorem execUp_outOk (slot : Slot) (s : State) (h : BufOk s.sbuf) : OutOk (execUp slot s) := by
  unfold execUp
  refine late_outOk (host_outOk (fun u hu => ?_) h) h
  simp [hu]

@[simp] theorem execDown_outOk (slot : Slot) (s : State) (h : BufOk s.sbuf) : OutOk (execDown slot s) := by
  unfold execDown
  refine host_outOk (fun u hu => ?_) h
  simp [hu]

@[simp] theorem execSeqLineStall_outOk (s : State) (h : BufOk s.sbuf) : OutOk (execSeqLineStall s) := by simp [execSeqLineStall, h]

@[simp] theorem execScanConversion_outOk (code : BitVec 12) (pg : Bool) (s : State) (h : BufOk s.sbuf) :
    OutOk (execScanConversion code pg s) := by
  simp [execScanConversion, h]

@[simp] theorem execAdcRefConversion_outOk (deviation : Nat) (s : State) (h : BufOk s.sbuf) : OutOk (execAdcRefConversion deviation s) := by
  simp [execAdcRefConversion, h]

@[simp] theorem execScanNow_outOk (slot : Slot) (s : State) (h : BufOk s.sbuf) : OutOk (execScanNow slot s) := by
  unfold execScanNow
  refine host_outOk (fun u hu => ?_) h
  simp [hu]

@[simp] theorem execSnap_outOk (slot : Slot) (s : State) (h : BufOk s.sbuf) : OutOk (execSnap slot s) := by
  unfold execSnap
  refine host_outOk (fun u hu => ?_) h
  simp [hu]

@[simp] theorem execClear_outOk (slot : Slot) (s : State) (h : BufOk s.sbuf) : OutOk (execClear slot s) := by
  unfold execClear
  refine host_outOk (fun u hu => ?_) h
  simp [hu]

@[simp] theorem execPeriodicSnap_outOk (s : State) (h : BufOk s.sbuf) : OutOk (execPeriodicSnap s) := by simp [execPeriodicSnap, h]

@[simp] theorem execMortarEntryWrite_outOk (s : State) (h : BufOk s.sbuf) : OutOk (execMortarEntryWrite s) := by
  simp [execMortarEntryWrite, h]

@[simp] theorem execClearDone_outOk (s : State) (h : BufOk s.sbuf) : OutOk (execClearDone s) := by simp [execClearDone, h]

@[simp] theorem execLogScan_outOk (s : State) (h : BufOk s.sbuf) : OutOk (execLogScan s) := by simp [execLogScan, h]

@[simp] theorem execHostItemTake_outOk (s : State) (h : BufOk s.sbuf) : OutOk (execHostItemTake s) := by simp [execHostItemTake, h]

@[simp] theorem execTrimUpdate_outOk (s : State) (h : BufOk s.sbuf) : OutOk (execTrimUpdate s) := by simp [execTrimUpdate, h]

@[simp] theorem execKeepGUpdate_outOk (s : State) (h : BufOk s.sbuf) : OutOk (execKeepGUpdate s) := by simp [execKeepGUpdate, h]

@[simp] theorem execKcalDone_outOk (s : State) (h : BufOk s.sbuf) : OutOk (execKcalDone s) := by simp [execKcalDone, h]

@[simp] theorem execKcalAuto_outOk (s : State) (h : BufOk s.sbuf) : OutOk (execKcalAuto s) := by simp [execKcalAuto, h]

@[simp] theorem execGlearnSample_outOk (s : State) (h : BufOk s.sbuf) : OutOk (execGlearnSample s) := by simp [execGlearnSample, h]

@[simp] theorem execGlearnWindowEnd_outOk (s : State) (h : BufOk s.sbuf) : OutOk (execGlearnWindowEnd s) := by
  unfold execGlearnWindowEnd
  split <;> simp [h]

@[simp] theorem execKcalMeasure_outOk (slot : Slot) (s : State) (h : BufOk s.sbuf) : OutOk (execKcalMeasure slot s) := by
  unfold execKcalMeasure
  refine host_outOk (fun u hu => ?_) h
  simp [hu]

@[simp] theorem execGlRestart_outOk (slot : Slot) (s : State) (h : BufOk s.sbuf) : OutOk (execGlRestart slot s) := by
  unfold execGlRestart
  refine hostReg_outOk (fun u hu => ?_) (fun _ hu => hu) h
  simp [hu]

@[simp] theorem execFold_outOk (slot : Slot) (s : State) (h : BufOk s.sbuf) : OutOk (execFold slot s) := by
  unfold execFold
  refine host_outOk (fun u hu => ?_) h
  simp [hu]

@[simp] theorem execPpsinEdge_outOk (stamp : Stamp) (s : State) (h : BufOk s.sbuf) : OutOk (execPpsinEdge stamp s) := by
  simp [execPpsinEdge, h]

@[simp] theorem execMissingSecond_outOk (s : State) (h : BufOk s.sbuf) : OutOk (execMissingSecond s) := by simp [execMissingSecond, h]

@[simp] theorem execZdaSentence_outOk (text : List Byte) (s : State) (h : BufOk s.sbuf) : OutOk (execZdaSentence text s) := by
  simp [execZdaSentence, h]

@[simp] theorem execDeclareLock_outOk (slot : Slot) (s : State) (h : BufOk s.sbuf) : OutOk (execDeclareLock slot s) := by
  unfold execDeclareLock
  refine host_outOk (fun u hu => ?_) h
  simp [hu]

@[simp] theorem execDeclareUnlock_outOk (slot : Slot) (s : State) (h : BufOk s.sbuf) : OutOk (execDeclareUnlock slot s) := by
  unfold execDeclareUnlock
  refine host_outOk (fun u hu => ?_) h
  simp [hu]

@[simp] theorem execIntegClear_outOk (slot : Slot) (s : State) (h : BufOk s.sbuf) : OutOk (execIntegClear slot s) := by
  unfold execIntegClear
  refine host_outOk (fun u hu => ?_) h
  simp [hu]

@[simp] theorem execHoldoverSecond_outOk (s : State) (h : BufOk s.sbuf) : OutOk (execHoldoverSecond s) := by simp [execHoldoverSecond, h]

@[simp] theorem execIcuRound_outOk (s : State) (h : BufOk s.sbuf) : OutOk (execIcuRound s) := by simp [execIcuRound, h]

@[simp] theorem execIcuRecordPublish_outOk (t : Fin 8) (s : State) (h : BufOk s.sbuf) : OutOk (execIcuRecordPublish t s) := by
  simp [execIcuRecordPublish, h]

@[simp] theorem execEventClaim_outOk (way : Way) (s : State) (h : BufOk s.sbuf) : OutOk (execEventClaim way s) := by
  unfold execEventClaim
  refine fixedRead_outOk (fun k u hu => ?_) h
  simp [hu]

@[simp] theorem execEventEoi_outOk (way : Way) (src : BitVec 10) (s : State) (h : BufOk s.sbuf) : OutOk (execEventEoi way src s) := by
  unfold execEventEoi
  refine fixedWrite_outOk (fun k u hu => ?_) h
  simp [hu]

@[simp] theorem execLatchClear_outOk (slot : Slot) (w : Fin 16) (value : Word) (s : State) (h : BufOk s.sbuf) :
    OutOk (execLatchClear slot w value s) := by
  unfold execLatchClear
  refine host_outOk (fun u hu => ?_) h
  simp [hu]

@[simp] theorem execLbrkClear_outOk (slot : Slot) (value : Word) (s : State) (h : BufOk s.sbuf) : OutOk (execLbrkClear slot value s) := by
  unfold execLbrkClear
  refine host_outOk (fun u hu => ?_) h
  simp [hu]

@[simp] theorem execTargetReset_outOk (slot : Slot) (t : Fin 8) (s : State) (h : BufOk s.sbuf) : OutOk (execTargetReset slot t s) := by
  unfold execTargetReset
  refine host_outOk (fun u hu => ?_) h
  simp [hu]

@[simp] theorem execPrigrpWrite_outOk (slot : Slot) (value : Word) (s : State) (h : BufOk s.sbuf) :
    OutOk (execPrigrpWrite slot value s) := by
  unfold execPrigrpWrite
  refine host_outOk (fun u hu => ?_) h
  simp [hu]

@[simp] theorem execSrccfgWrite_outOk (slot : Slot) (src : Fin 512) (value : Word) (s : State) (h : BufOk s.sbuf) :
    OutOk (execSrccfgWrite slot src value s) := by
  unfold execSrccfgWrite
  refine host_outOk (fun u hu => ?_) h
  simp [hu]

@[simp] theorem execTgtcfgWrite_outOk (slot : Slot) (t : Fin 8) (value : Word) (s : State) (h : BufOk s.sbuf) :
    OutOk (execTgtcfgWrite slot t value s) := by
  unfold execTgtcfgWrite
  refine host_outOk (fun u hu => ?_) h
  simp [hu]

@[simp] theorem execRingRead_outOk (way : Way) (r : Fin 64) (peek : Bool) (words : Nat) (complete : Bool) (s : State) (h : BufOk s.sbuf) :
    OutOk (execRingRead way r peek words complete s) := by
  unfold execRingRead
  split
  · exact byWire_outOk (hostData_outOk (fun u hu => by simpa using hu) h) fun p w => readFrame_outOk (fun k u hu => by simpa using hu) h
  · rw [outOk_next]
    split
    · split <;> simpa using h
    · simpa using h

@[simp] theorem execRingWrite_outOk (slot : Slot) (r : Fin 64) (payload : List Word) (wire : Option Wire) (s : State) (h : BufOk s.sbuf) :
    OutOk (execRingWrite slot r payload wire s) :=
  byWire_outOk (hostFree_outOk (fun u hu => opRingWrite_bufOk _ _ _ u hu) h) fun _ _ =>
    writeFrame_outOk (fun _ u hu => opRingWrite_bufOk _ _ _ u hu) (fun _ _ hu => hu) h

@[simp] theorem execWidxWrite_outOk (slot : Slot) (r : Fin 48) (value : Word) (s : State) (h : BufOk s.sbuf) :
    OutOk (execWidxWrite slot r value s) := by
  unfold execWidxWrite
  refine hostReg_outOk (fun u hu => ?_) (fun _ hu => hu) h
  simp [hu]

@[simp] theorem execRidxWrite_outOk (slot : Slot) (r : Fin 48) (value : Word) (s : State) (h : BufOk s.sbuf) :
    OutOk (execRidxWrite slot r value s) := by
  unfold execRidxWrite
  refine hostReg_outOk (fun u hu => ?_) (fun _ hu => hu) h
  simp [hu]

@[simp] theorem execFlush_outOk (slot : Slot) (r : Fin 48) (s : State) (h : BufOk s.sbuf) : OutOk (execFlush slot r s) := by
  unfold execFlush
  refine host_outOk (fun u hu => ?_) h
  simp [hu]

@[simp] theorem execRngCfgWrite_outOk (slot : Slot) (r : Fin 48) (value : Word) (s : State) (h : BufOk s.sbuf) :
    OutOk (execRngCfgWrite slot r value s) := by
  unfold execRngCfgWrite
  refine host_outOk (fun u hu => ?_) h
  simp [hu]

@[simp] theorem execPinchPost_outOk (way : Way) (c : Fin 64) (word : Word) (s : State) (h : BufOk s.sbuf) :
    OutOk (execPinchPost way c word s) := by
  unfold execPinchPost
  refine fixedWrite_outOk (fun k u hu => ?_) h
  simp [hu]

@[simp] theorem execSachetPost_outOk (way : Way) (c : Fin 64) (tx0 tx1 : Word) (s : State) (h : BufOk s.sbuf) :
    OutOk (execSachetPost way c tx0 tx1 s) := by
  unfold execSachetPost
  refine fixedWrite_outOk (fun k u hu => ?_) h
  simp [hu]

@[simp] theorem execPinchTake_outOk (way : Way) (c : Fin 64) (s : State) (h : BufOk s.sbuf) : OutOk (execPinchTake way c s) := by
  unfold execPinchTake
  refine fixedRead_outOk (fun k u hu => ?_) h
  simp [hu]

@[simp] theorem execSachetTake_outOk (way : Way) (c : Fin 64) (s : State) (h : BufOk s.sbuf) : OutOk (execSachetTake way c s) := by
  unfold execSachetTake
  refine fixedRead_outOk (fun k u hu => ?_) h
  simp [hu]

@[simp] theorem execMbxAck_outOk (way : Way) (c : Fin 64) (code : BitVec 16) (s : State) (h : BufOk s.sbuf) :
    OutOk (execMbxAck way c code s) := by
  unfold execMbxAck
  refine fixedWrite_outOk (fun k u hu => ?_) h
  simp [hu]

@[simp] theorem execRetract_outOk (slot : Slot) (c : Fin 64) (s : State) (h : BufOk s.sbuf) : OutOk (execRetract slot c s) := by
  unfold execRetract
  refine host_outOk (fun u hu => ?_) h
  simp [hu]

@[simp] theorem execAckedClear_outOk (slot : Slot) (c : Fin 64) (s : State) (h : BufOk s.sbuf) : OutOk (execAckedClear slot c s) := by
  unfold execAckedClear
  refine hostReg_outOk (fun u hu => ?_) (fun _ hu => hu) h
  simp [hu]

@[simp] theorem execMbxBindWrite_outOk (slot : Slot) (c : Fin 64) (value : Word) (s : State) (h : BufOk s.sbuf) :
    OutOk (execMbxBindWrite slot c value s) := by
  unfold execMbxBindWrite
  refine host_outOk (fun u hu => ?_) h
  simp [hu]

@[simp] theorem execMillEdge_outOk (m : Fin 16) (a b z : Bool) (stamp : Stamp) (s : State) (h : BufOk s.sbuf) :
    OutOk (execMillEdge m a b z stamp s) := by
  simp [execMillEdge, h]

@[simp] theorem execMillStall_outOk (m : Fin 16) (s : State) (h : BufOk s.sbuf) : OutOk (execMillStall m s) := by simp [execMillStall, h]

@[simp] theorem execMillApply_outOk (slot : Slot) (m : Fin 16) (s : State) (h : BufOk s.sbuf) : OutOk (execMillApply slot m s) := by
  unfold execMillApply
  refine hostOwned_outOk (fun u hu => ?_) h
  simp [hu]

@[simp] theorem execMillDiscard_outOk (slot : Slot) (m : Fin 16) (s : State) (h : BufOk s.sbuf) : OutOk (execMillDiscard slot m s) := by
  unfold execMillDiscard
  refine hostOwned_outOk (fun u hu => ?_) h
  simp [hu]

@[simp] theorem execEval_outOk (slot : Slot) (m : Fin 16) (s : State) (h : BufOk s.sbuf) : OutOk (execEval slot m s) :=
  hostReg_outOk (fun u hu => by rwa [opEval_buf]) (fun u hu => by simpa using hu) h

@[simp] theorem execInject_outOk (slot : Slot) (m : Fin 16) (s : State) (h : BufOk s.sbuf) : OutOk (execInject slot m s) := by
  unfold execInject
  refine hostOwned_outOk (fun u hu => ?_) h
  simp [hu]

@[simp] theorem execInjHoldExpiry_outOk (m : Fin 16) (s : State) (h : BufOk s.sbuf) : OutOk (execInjHoldExpiry m s) := by
  simp [execInjHoldExpiry, h]

@[simp] theorem execMillRingOffer_outOk (s : State) (h : BufOk s.sbuf) : OutOk (execMillRingOffer s) := by simp [execMillRingOffer, h]

@[simp] theorem execLayoutApply_outOk (slot : Slot) (s : State) (h : BufOk s.sbuf) : OutOk (execLayoutApply slot s) := by
  unfold execLayoutApply
  refine host_outOk (fun u hu => ?_) h
  simp [hu]

@[simp] theorem execLayoutDiscard_outOk (slot : Slot) (s : State) (h : BufOk s.sbuf) : OutOk (execLayoutDiscard slot s) := by
  unfold execLayoutDiscard
  refine host_outOk (fun u hu => ?_) h
  simp [hu]

@[simp] theorem execJoinReq_outOk (port : Fin 8) (req : JoinReq) (s : State) (h : BufOk s.sbuf) : OutOk (execJoinReq port req s) := by
  simp [execJoinReq, h]

@[simp] theorem execJoinAnswer_outOk (port : Fin 8) (s : State) (h : BufOk s.sbuf) : OutOk (execJoinAnswer port s) := by
  simp [execJoinAnswer, h]

@[simp] theorem execApprove_outOk (slot : Slot) (ticket : Byte) (s : State) (h : BufOk s.sbuf) : OutOk (execApprove slot ticket s) := by
  unfold execApprove
  refine host_outOk (fun u hu => ?_) h
  simp [hu]

@[simp] theorem execDeny_outOk (slot : Slot) (ticket retry : Byte) (s : State) (h : BufOk s.sbuf) :
    OutOk (execDeny slot ticket retry s) := by
  unfold execDeny
  refine host_outOk (fun u hu => ?_) h
  simp [hu]

@[simp] theorem execTicketTimeout_outOk (ticket : Byte) (s : State) (h : BufOk s.sbuf) : OutOk (execTicketTimeout ticket s) := by
  refine (outOk_event _).2 ?_
  split
  · have htaken : BufOk (s.takeTicket ticket.toNat).2.sbuf := by simpa using h
    split
    · next heq =>
      rw [heq] at htaken
      rwa [State.denyJoin_buf]
    · exact h
  · exact h

@[simp] theorem execSyncReport_outOk (port : Fin 8) (addr : BitVec 12) (body : SyncBody) (s : State) (h : BufOk s.sbuf) :
    OutOk (execSyncReport port addr body s) :=
  (outOk_event _).2 (State.uplink_bufOk (fun hs => by simp [hs]) h)

@[simp] theorem execKeepalive_outOk (port : Fin 8) (addr : BitVec 12) (flags lqi : Byte) (batt : BitVec 16) (rx : Stamp) (s : State)
    (h : BufOk s.sbuf) : OutOk (execKeepalive port addr flags lqi batt rx s) :=
  (outOk_event _).2 (State.uplink_bufOk (fun hs => by simp [hs]) h)

@[simp] theorem execLeave_outOk (port : Fin 8) (addr : BitVec 12) (reason : Byte) (s : State) (h : BufOk s.sbuf) :
    OutOk (execLeave port addr reason s) :=
  (outOk_event _).2 (State.uplink_bufOk (fun hs => by simp [hs]) h)

@[simp] theorem execPtlUndefinedType_outOk (port : Fin 8) (type : Byte) (s : State) (h : BufOk s.sbuf) :
    OutOk (execPtlUndefinedType port type s) := by
  simp [execPtlUndefinedType, h]

@[simp] theorem execReportJudgement_outOk (addr : BitVec 12) (s : State) (h : BufOk s.sbuf) : OutOk (execReportJudgement addr s) := by
  simp [execReportJudgement, h]

@[simp] theorem execAbsentTimeout_outOk (addr : BitVec 12) (s : State) (h : BufOk s.sbuf) : OutOk (execAbsentTimeout addr s) := by
  unfold execAbsentTimeout
  dsimp only
  repeat' split
  all_goals simp [h]
  all_goals apply_rules [State.evict_bufOk, State.judgeHeard_bufOk, h]

@[simp] theorem execQuarantineEnd_outOk (addr : BitVec 12) (s : State) (h : BufOk s.sbuf) : OutOk (execQuarantineEnd addr s) := by
  simp [execQuarantineEnd, h]

@[simp] theorem execEvict_outOk (slot : Slot) (addr : BitVec 12) (retry : Byte) (s : State) (h : BufOk s.sbuf) :
    OutOk (execEvict slot addr retry s) := by
  unfold execEvict
  refine host_outOk (fun u hu => ?_) h
  simp [hu]

@[simp] theorem execQuarClear_outOk (slot : Slot) (s : State) (h : BufOk s.sbuf) : OutOk (execQuarClear slot s) := by
  unfold execQuarClear
  refine host_outOk (fun u hu => ?_) h
  simp [hu]

@[simp] theorem execRadioTxLoad_outOk (p : Fin 8) (s : State) (h : BufOk s.sbuf) : OutOk (execRadioTxLoad p s) := by
  simp [execRadioTxLoad, h]

@[simp] theorem execRadioTxCommit_outOk (p : Fin 8) (s : State) (h : BufOk s.sbuf) : OutOk (execRadioTxCommit p s) := by
  simp [execRadioTxCommit, h]

@[simp] theorem execRadioSfd_outOk (p : Fin 8) (stamp : Stamp) (s : State) (h : BufOk s.sbuf) : OutOk (execRadioSfd p stamp s) := by
  simp [execRadioSfd, h]

@[simp] theorem execSfdMiss_outOk (p : Fin 8) (s : State) (h : BufOk s.sbuf) : OutOk (execSfdMiss p s) := by simp [execSfdMiss, h]

@[simp] theorem execRadioIrq_outOk (p : Fin 8) (s : State) (h : BufOk s.sbuf) : OutOk (execRadioIrq p s) := by simp [execRadioIrq, h]

@[simp] theorem execRadioTick_outOk (p : Fin 8) (s : State) (h : BufOk s.sbuf) : OutOk (execRadioTick p s) := by simp [execRadioTick, h]

@[simp] theorem execRadioTxItem_outOk (p : Fin 8) (s : State) (h : BufOk s.sbuf) : OutOk (execRadioTxItem p s) := by
  simp [execRadioTxItem, h]

@[simp] theorem execRadioRestart_outOk (slot : Slot) (p : Fin 8) (s : State) (h : BufOk s.sbuf) : OutOk (execRadioRestart slot p s) := by
  unfold execRadioRestart
  refine hostOwned_outOk (fun u hu => ?_) h
  simp [hu]

@[simp] theorem execRadioApply_outOk (slot : Slot) (p : Fin 8) (s : State) (h : BufOk s.sbuf) : OutOk (execRadioApply slot p s) := by
  unfold execRadioApply
  refine hostOwned_outOk (fun u hu => ?_) h
  simp [hu]

@[simp] theorem execRadioDiscard_outOk (slot : Slot) (p : Fin 8) (s : State) (h : BufOk s.sbuf) : OutOk (execRadioDiscard slot p s) := by
  unfold execRadioDiscard
  refine hostOwned_outOk (fun u hu => ?_) h
  simp [hu]

@[simp] theorem execRunSlot_outOk (slot : Slot) (p k : Fin 8) (s : State) (h : BufOk s.sbuf) : OutOk (execRunSlot slot p k s) := by
  unfold execRunSlot
  refine hostOwned_outOk (fun u hu => ?_) h
  simp [hu]

@[simp] theorem execScriptEnd_outOk (p : Fin 8) (s : State) (h : BufOk s.sbuf) : OutOk (execScriptEnd p s) := by
  unfold execScriptEnd
  refine State.script_outOk (fun k u hu => ?_) h
  simp [hu]

@[simp] theorem execScriptXfer_outOk (p : Fin 8) (miso : Byte) (s : State) (h : BufOk s.sbuf) : OutOk (execScriptXfer p miso s) := by
  unfold execScriptXfer
  refine State.script_outOk (fun k u hu => ?_) h
  simp [hu]

@[simp] theorem execScriptXferA_outOk (p : Fin 8) (miso : Byte) (s : State) (h : BufOk s.sbuf) : OutOk (execScriptXferA p miso s) := by
  unfold execScriptXferA
  refine State.script_outOk (fun k u hu => ?_) h
  simp [hu]

@[simp] theorem execScriptSendFrame_outOk (p : Fin 8) (s : State) (h : BufOk s.sbuf) : OutOk (execScriptSendFrame p s) := by
  unfold execScriptSendFrame
  refine State.script_outOk (fun k u hu => ?_) h
  simp [hu]

@[simp] theorem execScriptRecvFrame_outOk (p : Fin 8) (bytes : List Byte) (lqi rssi : Byte) (s : State) (h : BufOk s.sbuf) :
    OutOk (execScriptRecvFrame p bytes lqi rssi s) := by
  unfold execScriptRecvFrame
  split
  · exact State.script_outOk (fun w u hu => by simpa using hu) h
  · simpa using h

@[simp] theorem execScriptPost_outOk (p : Fin 8) (s : State) (h : BufOk s.sbuf) : OutOk (execScriptPost p s) := by
  unfold execScriptPost
  refine State.script_outOk (fun k u hu => ?_) h
  simp [hu]

@[simp] theorem execScriptLoada_outOk (p : Fin 8) (s : State) (h : BufOk s.sbuf) : OutOk (execScriptLoada p s) := by
  unfold execScriptLoada
  refine State.script_outOk (fun k u hu => ?_) h
  simp [hu]

@[simp] theorem execScriptAnda_outOk (p : Fin 8) (s : State) (h : BufOk s.sbuf) : OutOk (execScriptAnda p s) := by
  unfold execScriptAnda
  refine State.script_outOk (fun k u hu => ?_) h
  simp [hu]

@[simp] theorem execScriptJump_outOk (p : Fin 8) (s : State) (h : BufOk s.sbuf) : OutOk (execScriptJump p s) := by
  unfold execScriptJump
  refine State.script_outOk (fun k u hu => ?_) h
  simp [hu]

@[simp] theorem execScriptWaitIrq_outOk (p : Fin 8) (s : State) (h : BufOk s.sbuf) : OutOk (execScriptWaitIrq p s) := by
  unfold execScriptWaitIrq
  refine State.script_outOk (fun k u hu => ?_) h
  simp [hu]

@[simp] theorem execScriptWaitEnd_outOk (p : Fin 8) (irq : Bool) (s : State) (h : BufOk s.sbuf) : OutOk (execScriptWaitEnd p irq s) := by
  simp [execScriptWaitEnd, h]

@[simp] theorem execScriptDelay_outOk (p : Fin 8) (s : State) (h : BufOk s.sbuf) : OutOk (execScriptDelay p s) := by
  unfold execScriptDelay
  refine State.script_outOk (fun k u hu => ?_) h
  simp [hu]

@[simp] theorem execScriptDelayEnd_outOk (p : Fin 8) (s : State) (h : BufOk s.sbuf) : OutOk (execScriptDelayEnd p s) := by
  simp [execScriptDelayEnd, h]

@[simp] theorem execScriptReset_outOk (p : Fin 8) (s : State) (h : BufOk s.sbuf) : OutOk (execScriptReset p s) := by
  unfold execScriptReset
  refine State.script_outOk (fun k u hu => ?_) h
  simp [hu]

@[simp] theorem execScriptArmTxt_outOk (p : Fin 8) (s : State) (h : BufOk s.sbuf) : OutOk (execScriptArmTxt p s) := by
  unfold execScriptArmTxt
  refine State.script_outOk (fun k u hu => ?_) h
  simp [hu]

@[simp] theorem execScriptHalt_outOk (p : Fin 8) (s : State) (h : BufOk s.sbuf) : OutOk (execScriptHalt p s) := by
  refine State.script_outOk (fun w u hu => ?_) h
  exact State.radioHalt_bufOk _ _ (by simpa using hu)

@[simp] theorem execScriptBadOp_outOk (p : Fin 8) (s : State) (h : BufOk s.sbuf) : OutOk (execScriptBadOp p s) := by
  refine (outOk_event _).2 ?_
  split
  · exact State.radioHalt_bufOk _ _ (by simpa using h)
  · exact h

@[simp] theorem execStinEdge_outOk (n : Fin 64) (rising : Bool) (stamp : Stamp) (s : State) (h : BufOk s.sbuf) :
    OutOk (execStinEdge n rising stamp s) := by
  simp [execStinEdge, h]

@[simp] theorem execStampDrain_outOk (s : State) (h : BufOk s.sbuf) : OutOk (execStampDrain s) := by simp [execStampDrain, h]

@[simp] theorem execInterpCal_outOk (n : Fin 154) (pass : Bool) (s : State) (h : BufOk s.sbuf) : OutOk (execInterpCal n pass s) := by
  simp [execInterpCal, h]

@[simp] theorem execCalSecondBoundary_outOk (s : State) (h : BufOk s.sbuf) : OutOk (execCalSecondBoundary s) := by
  simp [execCalSecondBoundary, h]

@[simp] theorem execLeapWrite_outOk (slot : Slot) (k : Fin 32) (v : Word) (s : State) (h : BufOk s.sbuf) :
    OutOk (execLeapWrite slot k v s) := by
  unfold execLeapWrite
  refine host_outOk (fun u hu => ?_) h
  simp [hu]

@[simp] theorem execLocalArm_outOk (slot : Slot) (v : Word) (s : State) (h : BufOk s.sbuf) : OutOk (execLocalArm slot v s) := by
  unfold execLocalArm
  refine host_outOk (fun u hu => ?_) h
  simp [hu]

@[simp] theorem execLocalChange_outOk (s : State) (h : BufOk s.sbuf) : OutOk (execLocalChange s) := by simp [execLocalChange, h]

@[simp] theorem execCancelLocal_outOk (slot : Slot) (s : State) (h : BufOk s.sbuf) : OutOk (execCancelLocal slot s) := by
  unfold execCancelLocal
  refine host_outOk (fun u hu => ?_) h
  simp [hu]

@[simp] theorem execCalAlarmFire_outOk (n : Fin 8) (s : State) (h : BufOk s.sbuf) : OutOk (execCalAlarmFire n s) := by
  simp [execCalAlarmFire, h]

@[simp] theorem execCalAlmCtrlWrite_outOk (slot : Slot) (n : Fin 8) (v : Word) (s : State) (h : BufOk s.sbuf) :
    OutOk (execCalAlmCtrlWrite slot n v s) := by
  unfold execCalAlmCtrlWrite
  refine host_outOk (fun u hu => ?_) h
  simp [hu]

@[simp] theorem execAlarmSearchDone_outOk (n : Fin 8) (s : State) (h : BufOk s.sbuf) : OutOk (execAlarmSearchDone n s) := by
  refine (outOk_event _).2 ?_
  split
  · split
    · rwa [State.almDone_buf]
    · exact h
  · exact h

@[simp] theorem execPpsoutPulse_outOk (s : State) (h : BufOk s.sbuf) : OutOk (execPpsoutPulse s) := by simp [execPpsoutPulse, h]

@[simp] theorem execPpsoutPulseEnd_outOk (s : State) (h : BufOk s.sbuf) : OutOk (execPpsoutPulseEnd s) := by simp [execPpsoutPulseEnd, h]

@[simp] theorem execClkoutEdge_outOk (n : Fin 4) (s : State) (h : BufOk s.sbuf) : OutOk (execClkoutEdge n s) := by simp [execClkoutEdge, h]

@[simp] theorem execHpNsWrite_outOk (slot : Slot) (n : Fin 4) (v : Word) (s : State) (h : BufOk s.sbuf) :
    OutOk (execHpNsWrite slot n v s) := by
  unfold execHpNsWrite
  refine host_outOk (fun u hu => ?_) h
  simp [hu]

@[simp] theorem execClkResync_outOk (slot : Slot) (s : State) (h : BufOk s.sbuf) : OutOk (execClkResync slot s) := by
  unfold execClkResync
  refine host_outOk (fun u hu => ?_) h
  simp [hu]

@[simp] theorem execIrigoutElement_outOk (s : State) (h : BufOk s.sbuf) : OutOk (execIrigoutElement s) := by simp [execIrigoutElement, h]

@[simp] theorem execIriginElement_outOk (lead : Stamp) (widthNs : Nat) (s : State) (h : BufOk s.sbuf) :
    OutOk (execIriginElement lead widthNs s) := by
  simp [execIriginElement, h]

@[simp] theorem execSweepArm_outOk (slot : Slot) (n : Fin 64) (s : State) (h : BufOk s.sbuf) : OutOk (execSweepArm slot n s) := by
  unfold execSweepArm
  refine hostOwned_outOk (fun u hu => ?_) h
  simp [hu]

@[simp] theorem execSweepDisarm_outOk (slot : Slot) (n : Fin 64) (s : State) (h : BufOk s.sbuf) : OutOk (execSweepDisarm slot n s) := by
  unfold execSweepDisarm
  refine hostOwned_outOk (fun u hu => ?_) h
  simp [hu]

end Sys2Proof.Machine
end

section
/-! SUPPORT. The Shared Buffer under the commands of hosts and ports, and the statement on every step. -/

namespace Sys2Proof.Machine

open F

@[simp] theorem execSweepAbort_outOk (slot : Slot) (n : Fin 64) (s : State) (h : BufOk s.sbuf) : OutOk (execSweepAbort slot n s) := by
  unfold execSweepAbort
  refine hostOwned_outOk (fun u hu => ?_) h
  simp [hu]

@[simp] theorem execSweepApply_outOk (slot : Slot) (n : Fin 64) (s : State) (h : BufOk s.sbuf) : OutOk (execSweepApply slot n s) := by
  unfold execSweepApply
  refine hostOwned_outOk (fun u hu => ?_) h
  simp [hu]

@[simp] theorem execSweepDiscard_outOk (slot : Slot) (n : Fin 64) (s : State) (h : BufOk s.sbuf) : OutOk (execSweepDiscard slot n s) := by
  unfold execSweepDiscard
  refine hostOwned_outOk (fun u hu => ?_) h
  simp [hu]

@[simp] theorem execBeacon_outOk (canSend : BitVec 8) (s : State) (h : BufOk s.sbuf) : OutOk (execBeacon canSend s) := by
  unfold execBeacon
  split <;> simp [h]

@[simp] theorem execSweepRequestWindow_outOk (n : Fin 64) (s : State) (h : BufOk s.sbuf) : OutOk (execSweepRequestWindow n s) := by
  unfold execSweepRequestWindow
  split <;> simp [h]

@[simp] theorem execSampleReport_outOk (port : Fin 8) (addr : BitVec 12) (body : SampleBody) (s : State) (h : BufOk s.sbuf) :
    OutOk (execSampleReport port addr body s) :=
  (outOk_event _).2 (State.uplink_bufOk (fun hs => State.sampleTo_bufOk _ _ _ _ (by simpa using hs)) h)

@[simp] theorem execSweepDeadline_outOk (n : Fin 64) (s : State) (h : BufOk s.sbuf) : OutOk (execSweepDeadline n s) := by
  simp [execSweepDeadline, h]

@[simp] theorem execGtTick_outOk (n : Fin 16) (rising : Bool) (at_ : Stamp) (s : State) (h : BufOk s.sbuf) :
    OutOk (execGtTick n rising at_ s) := by
  simp [execGtTick, h]

@[simp] theorem execGtCompareMatch_outOk (n : Fin 16) (k : Fin 4) (rising : Bool) (at_ : Stamp) (s : State) (h : BufOk s.sbuf) :
    OutOk (execGtCompareMatch n k rising at_ s) := by
  simp [execGtCompareMatch, h]

@[simp] theorem execGtExpiry_outOk (n : Fin 16) (rising : Bool) (at_ : Stamp) (s : State) (h : BufOk s.sbuf) :
    OutOk (execGtExpiry n rising at_ s) := by
  simp [execGtExpiry, h]

@[simp] theorem execGtPulseEnd_outOk (n : Fin 16) (pin : Fin 2) (s : State) (h : BufOk s.sbuf) : OutOk (execGtPulseEnd n pin s) := by
  simp [execGtPulseEnd, h]

@[simp] theorem execGtCapture_outOk (n : Fin 16) (c : Fin 2) (rising : Bool) (stamp : Stamp) (s : State) (h : BufOk s.sbuf) :
    OutOk (execGtCapture n c rising stamp s) := by
  simp [execGtCapture, h]

@[simp] theorem execGtCapPop_outOk (slot : Slot) (n : Fin 16) (c : Fin 2) (s : State) (h : BufOk s.sbuf) :
    OutOk (execGtCapPop slot n c s) := by
  refine hostRead_outOk (fun u hu => ?_) h
  split
  · exact hu
  · have hpop : BufOk ((u.touch slot.val (idTimer n.val)).capPop n c).2.sbuf := by simpa using hu
    split
    · next heq => rwa [heq] at hpop
    · next heq => rwa [heq] at hpop

@[simp] theorem execGtTrigger_outOk (n : Fin 16) (s : State) (h : BufOk s.sbuf) : OutOk (execGtTrigger n s) := by simp [execGtTrigger, h]

@[simp] theorem execGtPinGate_outOk (n : Fin 16) (high : Bool) (s : State) (h : BufOk s.sbuf) : OutOk (execGtPinGate n high s) := by
  simp [execGtPinGate, h]

@[simp] theorem execGtStart_outOk (slot : Slot) (n : Fin 16) (s : State) (h : BufOk s.sbuf) : OutOk (execGtStart slot n s) := by
  unfold execGtStart
  refine hostOwned_outOk (fun u hu => ?_) h
  simp [hu]

@[simp] theorem execGtStop_outOk (slot : Slot) (n : Fin 16) (s : State) (h : BufOk s.sbuf) : OutOk (execGtStop slot n s) := by
  unfold execGtStop
  refine hostOwned_outOk (fun u hu => ?_) h
  simp [hu]

@[simp] theorem execGtLoad_outOk (slot : Slot) (n : Fin 16) (s : State) (h : BufOk s.sbuf) : OutOk (execGtLoad slot n s) := by
  unfold execGtLoad
  refine hostOwned_outOk (fun u hu => ?_) h
  simp [hu]

@[simp] theorem execGtApply_outOk (slot : Slot) (n : Fin 16) (s : State) (h : BufOk s.sbuf) : OutOk (execGtApply slot n s) := by
  unfold execGtApply
  refine hostOwned_outOk (fun u hu => ?_) h
  simp [hu]

@[simp] theorem execGtDiscard_outOk (slot : Slot) (n : Fin 16) (s : State) (h : BufOk s.sbuf) : OutOk (execGtDiscard slot n s) := by
  unfold execGtDiscard
  refine hostOwned_outOk (fun u hu => ?_) h
  simp [hu]

@[simp] theorem execCapFlush_outOk (slot : Slot) (n : Fin 16) (s : State) (h : BufOk s.sbuf) : OutOk (execCapFlush slot n s) := by
  unfold execCapFlush
  refine hostOwned_outOk (fun u hu => ?_) h
  simp [hu]

@[simp] theorem execGtCmpHiWrite_outOk (slot : Slot) (n : Fin 16) (k : Fin 4) (v : Word) (s : State) (h : BufOk s.sbuf) :
    OutOk (execGtCmpHiWrite slot n k v s) := by
  unfold execGtCmpHiWrite
  refine hostOwned_outOk (fun u hu => ?_) h
  simp [hu]

@[simp] theorem execTouEntryWrite_outOk (slot : Slot) (n : Fin 32) (e w : Fin 8) (v : Word) (s : State) (h : BufOk s.sbuf) :
    OutOk (execTouEntryWrite slot n e w v s) := by
  unfold execTouEntryWrite
  refine hostOwned_outOk (fun u hu => ?_) h
  simp [hu]

@[simp] theorem execTouArm_outOk (slot : Slot) (n : Fin 32) (mask : BitVec 8) (s : State) (h : BufOk s.sbuf) :
    OutOk (execTouArm slot n mask s) := by
  unfold execTouArm
  refine hostOwned_outOk (fun u hu => ?_) h
  simp [hu]

@[simp] theorem execTouCancel_outOk (slot : Slot) (n : Fin 32) (mask : BitVec 8) (s : State) (h : BufOk s.sbuf) :
    OutOk (execTouCancel slot n mask s) := by
  unfold execTouCancel
  refine hostOwned_outOk (fun u hu => ?_) h
  simp [hu]

@[simp] theorem execTouCtrlWrite_outOk (slot : Slot) (n : Fin 32) (v : Word) (s : State) (h : BufOk s.sbuf) :
    OutOk (execTouCtrlWrite slot n v s) := by
  unfold execTouCtrlWrite
  refine hostOwned_outOk (fun u hu => ?_) h
  simp [hu]

@[simp] theorem execTouCommit_outOk (n : Fin 32) (e : Fin 8) (s : State) (h : BufOk s.sbuf) : OutOk (execTouCommit n e s) := by
  simp [execTouCommit, h]

@[simp] theorem execTouTrailingEdge_outOk (n : Fin 32) (s : State) (h : BufOk s.sbuf) : OutOk (execTouTrailingEdge n s) := by
  simp [execTouTrailingEdge, h]

@[simp] theorem execTouLock_outOk (n : Fin 32) (e : Fin 8) (s : State) (h : BufOk s.sbuf) : OutOk (execTouLock n e s) := by
  simp [execTouLock, h]

@[simp] theorem execVmainArrival_outOk (boot : BitVec 3) (s : State) (h : BufOk s.sbuf) : OutOk (execVmainArrival boot s) := by
  simp [execVmainArrival, h]

@[simp] theorem execNap_outOk (slot : Slot) (s : State) (h : BufOk s.sbuf) : OutOk (execNap slot s) := by
  unfold execNap
  refine hostReg_outOk (fun u hu => ?_) (fun _ hu => hu) h
  simp [hu]

@[simp] theorem execServiceEnter_outOk (slot : Slot) (s : State) (h : BufOk s.sbuf) : OutOk (execServiceEnter slot s) := by
  unfold execServiceEnter
  refine hostReg_outOk (fun u hu => ?_) (fun _ hu => hu) h
  simp [hu]

@[simp] theorem execServiceExit_outOk (slot : Slot) (s : State) (h : BufOk s.sbuf) : OutOk (execServiceExit slot s) := by
  unfold execServiceExit
  refine hostReg_outOk (fun u hu => ?_) (fun _ hu => hu) h
  simp [hu]

@[simp] theorem execFreeze_outOk (s : State) (h : BufOk s.sbuf) : OutOk (execFreeze s) := by
  unfold execFreeze
  split <;> simp [h]

@[simp] theorem execPllLock_outOk (s : State) (h : BufOk s.sbuf) : OutOk (execPllLock s) := by simp [execPllLock, h]

@[simp] theorem execIslandToMclk_outOk (s : State) (h : BufOk s.sbuf) : OutOk (execIslandToMclk s) := by simp [execIslandToMclk, h]

@[simp] theorem execPllUnlock_outOk (s : State) (h : BufOk s.sbuf) : OutOk (execPllUnlock s) := by simp [execPllUnlock, h]

@[simp] theorem execPllRetry_outOk (s : State) (h : BufOk s.sbuf) : OutOk (execPllRetry s) := by simp [execPllRetry, h]

@[simp] theorem execPlanFail_outOk (s : State) (h : BufOk s.sbuf) : OutOk (execPlanFail s) := by simp [execPlanFail, h]

@[simp] theorem execThaw_outOk (phi : BitVec 6) (s : State) (h : BufOk s.sbuf) : OutOk (execThaw phi s) := by simp [execThaw, h]

@[simp] theorem execStewardReady_outOk (s : State) (h : BufOk s.sbuf) : OutOk (execStewardReady s) := by simp [execStewardReady, h]

@[simp] theorem execTrialRevert_outOk (s : State) (h : BufOk s.sbuf) : OutOk (execTrialRevert s) := by simp [execTrialRevert, h]

@[simp] theorem execStewardHalt_outOk (s : State) (h : BufOk s.sbuf) : OutOk (execStewardHalt s) := by simp [execStewardHalt, h]

@[simp] theorem execDebugHaltEnd_outOk (s : State) (h : BufOk s.sbuf) : OutOk (execDebugHaltEnd s) := by simp [execDebugHaltEnd, h]

@[simp] theorem execHostCsWake_outOk (n : Fin 4) (s : State) (h : BufOk s.sbuf) : OutOk (execHostCsWake n s) := by simp [execHostCsWake, h]

@[simp] theorem execI2cStartWake_outOk (n : Fin 2) (s : State) (h : BufOk s.sbuf) : OutOk (execI2cStartWake n s) := by
  simp [execI2cStartWake, h]

@[simp] theorem execCanRxdWake_outOk (n : Fin 2) (s : State) (h : BufOk s.sbuf) : OutOk (execCanRxdWake n s) := by simp [execCanRxdWake, h]

@[simp] theorem execStinWakeEdge_outOk (n : Fin 64) (rising : Bool) (s : State) (h : BufOk s.sbuf) :
    OutOk (execStinWakeEdge n rising s) := by
  simp [execStinWakeEdge, h]

@[simp] theorem execAsleepFrame_outOk (n : Fin 4) (s : State) (h : BufOk s.sbuf) : OutOk (execAsleepFrame n s) := by
  simp [execAsleepFrame, h]

@[simp] theorem execSlotWrite_outOk (slot : Slot) (k : Fin 16) (value : Word) (s : State) (h : BufOk s.sbuf) :
    OutOk (execSlotWrite slot k value s) := by
  unfold execSlotWrite
  refine host_outOk (fun u hu => ?_) h
  simp [hu]

@[simp] theorem execLeaseClaim_outOk (slot : Slot) (id : Fin 160) (duration : Word) (s : State) (h : BufOk s.sbuf) :
    OutOk (execLeaseClaim slot id duration s) := by
  unfold execLeaseClaim
  refine hostDict_outOk (fun u hu => ?_) h
  simp [hu]

@[simp] theorem execLeaseRelease_outOk (slot : Slot) (id : Fin 160) (s : State) (h : BufOk s.sbuf) :
    OutOk (execLeaseRelease slot id s) := by
  unfold execLeaseRelease
  refine hostDict_outOk (fun u hu => ?_) h
  simp [hu]

@[simp] theorem execLeaseBreak_outOk (slot : Slot) (id : Fin 160) (s : State) (h : BufOk s.sbuf) : OutOk (execLeaseBreak slot id s) := by
  unfold execLeaseBreak
  refine hostDict_outOk (fun u hu => ?_) h
  simp [hu]

@[simp] theorem execLeaseExpiry_outOk (id : Fin 160) (s : State) (h : BufOk s.sbuf) : OutOk (execLeaseExpiry id s) := by
  simp [execLeaseExpiry, h]

@[simp] theorem execPinClaim_outOk (slot : Slot) (p : Fin 176) (value : Word) (s : State) (h : BufOk s.sbuf) :
    OutOk (execPinClaim slot p value s) := by
  unfold execPinClaim
  refine hostReg_outOk (fun u hu => ?_) (fun _ hu => hu) h
  simp [hu]

@[simp] theorem execPinRelease_outOk (slot : Slot) (p : Fin 176) (value : Word) (s : State) (h : BufOk s.sbuf) :
    OutOk (execPinRelease slot p value s) := by
  unfold execPinRelease
  refine hostReg_outOk (fun u hu => ?_) (fun _ hu => hu) h
  simp [hu]

@[simp] theorem execKeyhashWrite_outOk (slot : Slot) (i : Fin 8) (value : Word) (s : State) (h : BufOk s.sbuf) :
    OutOk (execKeyhashWrite slot i value s) := by
  unfold execKeyhashWrite
  refine host_outOk (fun u hu => ?_) h
  simp [hu]

@[simp] theorem execLock_outOk (slot : Slot) (value : Word) (s : State) (h : BufOk s.sbuf) : OutOk (execLock slot value s) := by
  unfold execLock
  refine host_outOk (fun u hu => ?_) h
  simp [hu]

@[simp] theorem execVerify_outOk (slot : Slot) (s : State) (h : BufOk s.sbuf) : OutOk (execVerify slot s) := by
  unfold execVerify
  refine host_outOk (fun u hu => ?_) h
  simp [hu]

@[simp] theorem execInstall_outOk (slot : Slot) (s : State) (h : BufOk s.sbuf) : OutOk (execInstall slot s) := by
  unfold execInstall
  refine host_outOk (fun u hu => ?_) h
  simp [hu]

@[simp] theorem execActivate_outOk (slot : Slot) (s : State) (h : BufOk s.sbuf) : OutOk (execActivate slot s) := by
  unfold execActivate
  refine host_outOk (fun u hu => ?_) h
  simp [hu]

@[simp] theorem execFwOpDone_outOk (_row : Unit) (s : State) (h : BufOk s.sbuf) : OutOk (execFwOpDone _row s) := by simp [execFwOpDone, h]

@[simp] theorem execSeclockSample_outOk (high : Bool) (s : State) (h : BufOk s.sbuf) : OutOk (execSeclockSample high s) := by
  simp [execSeclockSample, h]

@[simp] theorem execCanEnable_outOk (slot : Slot) (p : Fin 2) (value : Word) (s : State) (h : BufOk s.sbuf) :
    OutOk (execCanEnable slot p value s) := by
  unfold execCanEnable
  refine host_outOk (fun u hu => ?_) h
  simp [hu]

@[simp] theorem execRecover_outOk (slot : Slot) (p : Fin 2) (s : State) (h : BufOk s.sbuf) : OutOk (execRecover slot p s) := by
  unfold execRecover
  refine host_outOk (fun u hu => ?_) h
  simp [hu]

@[simp] theorem execTmNow_outOk (slot : Slot) (p : Fin 2) (s : State) (h : BufOk s.sbuf) : OutOk (execTmNow slot p s) := by
  unfold execTmNow
  refine host_outOk (fun u hu => ?_) h
  simp [hu]

@[simp] theorem execTimemark_outOk (p : Fin 2) (s : State) (h : BufOk s.sbuf) : OutOk (execTimemark p s) := by simp [execTimemark, h]

@[simp] theorem execTimemarkFu_outOk (p : Fin 2) (sof : Stamp) (s : State) (h : BufOk s.sbuf) : OutOk (execTimemarkFu p sof s) := by
  unfold execTimemarkFu
  split <;> simp [h]

@[simp] theorem execHeartbeat_outOk (p : Fin 2) (s : State) (h : BufOk s.sbuf) : OutOk (execHeartbeat p s) := by simp [execHeartbeat, h]

@[simp] theorem execBusOff_outOk (p : Fin 2) (s : State) (h : BufOk s.sbuf) : OutOk (execBusOff p s) := by simp [execBusOff, h]

@[simp] theorem execBusOffRecovery_outOk (p : Fin 2) (s : State) (h : BufOk s.sbuf) : OutOk (execBusOffRecovery p s) := by
  simp [execBusOffRecovery, h]

@[simp] theorem execEstateChg_outOk (p : Fin 2) (tec rec_ : Byte) (estate : Fin 3) (s : State) (h : BufOk s.sbuf) :
    OutOk (execEstateChg p tec rec_ estate s) := by
  simp [execEstateChg, h]

@[simp] theorem execCanTxItem_outOk (p : Fin 2) (sof : Stamp) (s : State) (h : BufOk s.sbuf) : OutOk (execCanTxItem p sof s) := by
  simp [execCanTxItem, h]

@[simp] theorem execSlewDone_outOk (s : State) (h : BufOk s.sbuf) : OutOk (execSlewDone s) := by simp [execSlewDone, h]

@[simp] theorem execRegisterWrite_outOk (slot : Slot) (addr : Addr) (value : Word) (s : State) (h : BufOk s.sbuf) :
    OutOk (execRegisterWrite slot addr value s) := by
  unfold execRegisterWrite
  refine late_outOk (hostFree_outOk (fun u hu => ?_) h) h
  simp [hu]

@[simp] theorem execReadReg_outOk (p : Port) (addr : Addr) (words : Nat) (wire : Wire) (s : State) (h : BufOk s.sbuf) :
    OutOk (execReadReg p addr words wire s) := by
  unfold execReadReg
  refine readFrame_outOk (fun k u hu => ?_) h
  simp [hu]

@[simp] theorem execReadSame_outOk (p : Port) (addr : Addr) (words : Nat) (wire : Wire) (s : State) (h : BufOk s.sbuf) :
    OutOk (execReadSame p addr words wire s) := by
  unfold execReadSame
  refine readFrame_outOk (fun k u hu => ?_) h
  simp [hu]

@[simp] theorem execWriteReg_outOk (p : Port) (addr : Addr) (payload : List Word) (wire : Wire) (s : State) (h : BufOk s.sbuf) :
    OutOk (execWriteReg p addr payload wire s) := by
  unfold execWriteReg
  extract_lets ws
  split
  · simpa using h
  · refine writeFrame_outOk (fun k u hu => writeBurst_bufOk _ _ _ _ _ hu) (fun k u hu => ?_) h
    rwa [foldl_buf fun s i => State.touchAddr_buf s _ _]

@[simp] theorem execDictReq_outOk (p : Port) (field : BitVec 24) (body : List Word) (wire : Wire) (s : State) (h : BufOk s.sbuf) :
    OutOk (execDictReq p field body wire s) :=
  writeFrame_outOk (fun k u hu => by simpa using hu) (fun k u hu => by simpa using hu) h

@[simp] theorem execDictResp_outOk (p : Port) (words : Nat) (wire : Wire) (s : State) (h : BufOk s.sbuf) :
    OutOk (execDictResp p words wire s) := by
  unfold execDictResp
  refine readFrame_outOk (fun k u hu => ?_) h
  simp [hu]

@[simp] theorem execStatus_outOk (p : Port) (wire : Wire) (s : State) (h : BufOk s.sbuf) : OutOk (execStatus p wire s) :=
  quietFrame_outOk h

@[simp] theorem execNop_outOk (f : OnPort) (s : State) (h : BufOk s.sbuf) : OutOk (execNop f s) :=
  quietFrame_outOk h

@[simp] theorem execBadOpcode_outOk (f : OnPort) (opcode : Byte) (s : State) (h : BufOk s.sbuf) : OutOk (execBadOpcode f opcode s) := by
  unfold execBadOpcode
  extract_lets op bad n
  split
  · exact frame_outOk (fun _ _ hu => hu) (fun _ _ hu => hu) h
  · split
    · exact frame_outOk (fun _ _ hu => hu) (fun _ _ hu => hu) h
    · simpa using h

@[simp] theorem execShortFrame_outOk (f : OnPort) (sck : Bool) (s : State) (h : BufOk s.sbuf) : OutOk (execShortFrame f sck s) := by
  simp [execShortFrame, h]

@[simp] theorem execI2cStatusRead_outOk (n : Fin 2) (s : State) (h : BufOk s.sbuf) : OutOk (execI2cStatusRead n s) := by
  simp [execI2cStatusRead, h]

@[simp] theorem execHostReset_outOk (p : Port) (s : State) (h : BufOk s.sbuf) : OutOk (execHostReset p s) := by
  unfold execHostReset
  dsimp only
  repeat' split
  all_goals simp [h]

@[simp] theorem execNodeSilence_outOk (k : Fin 16) (s : State) (h : BufOk s.sbuf) : OutOk (execNodeSilence k s) := by
  simp [execNodeSilence, h]

@[simp] theorem execDtpRead_outOk (slot : Slot) (index : BitVec 16) (sub : Byte) (s : State) (h : BufOk s.sbuf) :
    OutOk (execDtpRead slot index sub s) := by
  unfold execDtpRead
  refine dtpRow_outOk (fun k u hu => ?_) h
  simp [hu]

@[simp] theorem execDtpWrite_outOk (slot : Slot) (index : BitVec 16) (sub : Byte) (value : List Byte) (s : State) (h : BufOk s.sbuf) :
    OutOk (execDtpWrite slot index sub value s) := by
  unfold execDtpWrite
  extract_lets i
  split
  · exact stewardNv_outOk (fun _ hu => hu) h
  · exact dtpRowW_outOk (fun _ u hu => opDtpWrite_bufOk _ _ _ _ u hu) h

@[simp] theorem execSegWriteInit_outOk (slot : Slot) (index : BitVec 16) (sub : Byte) (total : Nat) (s : State) (h : BufOk s.sbuf) :
    OutOk (execSegWriteInit slot index sub total s) := by
  unfold execSegWriteInit
  refine dtpRowW_outOk (fun k u hu => ?_) h
  simp [hu]

@[simp] theorem execSegWriteData_outOk (slot : Slot) (toggle : Bool) (index : BitVec 16) (sub : Byte) (segment : List Byte) (s : State)
    (h : BufOk s.sbuf) : OutOk (execSegWriteData slot toggle index sub segment s) := by
  unfold execSegWriteData
  extract_lets i
  split
  · exact stewardNv_outOk (fun u hu => by simpa using hu) h
  · exact dtpRow_outOk (fun _ u hu => opSegWriteData_bufOk _ _ _ _ _ u hu) h

@[simp] theorem execSegReadInit_outOk (slot : Slot) (index : BitVec 16) (sub : Byte) (s : State) (h : BufOk s.sbuf) :
    OutOk (execSegReadInit slot index sub s) := by
  unfold execSegReadInit
  refine dtpRow_outOk (fun k u hu => ?_) h
  simp [hu]

@[simp] theorem execSegReadData_outOk (slot : Slot) (toggle : Bool) (index : BitVec 16) (sub : Byte) (s : State) (h : BufOk s.sbuf) :
    OutOk (execSegReadData slot toggle index sub s) := by
  unfold execSegReadData
  refine dtpRow_outOk (fun k u hu => ?_) h
  simp [hu]

@[simp] theorem execDtpAbort_outOk (slot : Slot) (code : BitVec 16) (s : State) (h : BufOk s.sbuf) : OutOk (execDtpAbort slot code s) := by
  unfold execDtpAbort
  refine dtpRowW_outOk (fun k u hu => ?_) h
  simp [hu]

@[simp] theorem execDtpUndefinedCmd_outOk (slot : Slot) (q0 : Word) (s : State) (h : BufOk s.sbuf) :
    OutOk (execDtpUndefinedCmd slot q0 s) := by
  unfold execDtpUndefinedCmd
  refine stewardW_outOk (fun k u hu => ?_) h
  simp [hu]

@[simp] theorem execTransferLeaseExpiry_outOk (slot : Slot) (s : State) (h : BufOk s.sbuf) : OutOk (execTransferLeaseExpiry slot s) := by
  simp [execTransferLeaseExpiry, h]

@[simp] theorem execStore_outOk (slot : Slot) (s : State) (h : BufOk s.sbuf) : OutOk (execStore slot s) := by
  unfold execStore
  refine stewardNv_outOk (fun u hu => ?_) h
  simp [hu]

@[simp] theorem execRestore_outOk (slot : Slot) (s : State) (h : BufOk s.sbuf) : OutOk (execRestore slot s) := by
  unfold execRestore
  refine stewardNv_outOk (fun u hu => ?_) h
  simp [hu]

@[simp] theorem execStoreComplete_outOk (s : State) (h : BufOk s.sbuf) : OutOk (execStoreComplete s) := by simp [execStoreComplete, h]

@[simp] theorem execRestoreComplete_outOk (s : State) (h : BufOk s.sbuf) : OutOk (execRestoreComplete s) := by simp [execRestoreComplete, h]

@[simp] theorem execCanFrameReceive_outOk (p : Fin 2) (f : CanFrame) (s : State) (h : BufOk s.sbuf) :
    OutOk (execCanFrameReceive p f s) := by
  simp [execCanFrameReceive, h]

@[simp] theorem execSet_outOk (slot : Slot) (s : State) (h : BufOk s.sbuf) : OutOk (execSet slot s) := by
  unfold execSet
  refine host_outOk (fun u hu => ?_) h
  simp [hu]

@[simp] theorem execCancelSet_outOk (slot : Slot) (s : State) (h : BufOk s.sbuf) : OutOk (execCancelSet slot s) := by
  unfold execCancelSet
  refine host_outOk (fun u hu => ?_) h
  simp [hu]

@[simp] theorem execStep_outOk (slot : Slot) (s : State) (h : BufOk s.sbuf) : OutOk (execStep slot s) := by
  unfold execStep
  refine host_outOk (fun u hu => ?_) h
  simp [hu]

@[simp] theorem execSlewStart_outOk (slot : Slot) (s : State) (h : BufOk s.sbuf) : OutOk (execSlewStart slot s) := by
  unfold execSlewStart
  refine host_outOk (fun u hu => ?_) h
  simp [hu]

@[simp] theorem execSlewAbort_outOk (slot : Slot) (s : State) (h : BufOk s.sbuf) : OutOk (execSlewAbort slot s) := by
  unfold execSlewAbort
  refine host_outOk (fun u hu => ?_) h
  simp [hu]

@[simp] theorem execSelfCapture_outOk (slot : Slot) (s : State) (h : BufOk s.sbuf) : OutOk (execSelfCapture slot s) := by
  unfold execSelfCapture
  refine hostReg_outOk (fun u hu => ?_) (fun _ hu => hu) h
  simp [hu]

@[simp] theorem execPlanSwitch_outOk (slot : Slot) (s : State) (h : BufOk s.sbuf) : OutOk (execPlanSwitch slot s) := by
  unfold execPlanSwitch
  refine host_outOk (fun u hu => ?_) h
  simp [hu]

@[simp] theorem execHtmIncrHiWrite_outOk (slot : Slot) (v : Word) (s : State) (h : BufOk s.sbuf) : OutOk (execHtmIncrHiWrite slot v s) := by
  unfold execHtmIncrHiWrite
  refine host_outOk (fun u hu => ?_) h
  simp [hu]

@[simp] theorem execHtmIncrLoWrite_outOk (slot : Slot) (v : Word) (s : State) (h : BufOk s.sbuf) : OutOk (execHtmIncrLoWrite slot v s) := by
  unfold execHtmIncrLoWrite
  refine host_outOk (fun u hu => ?_) h
  simp [hu]

@[simp] theorem execBankRise_outOk (b : Fin 5) (is33 : Bool) (s : State) (h : BufOk s.sbuf) : OutOk (execBankRise b is33 s) := by
  simp [execBankRise, h]

@[simp] theorem execHostBankLost_outOk (b : BankCut) (s : State) (h : BufOk s.sbuf) : OutOk (execHostBankLost b s) := by
  unfold execHostBankLost
  split <;> simp [h]

/-! ### Every step -/

/-- Each arm of `exec` is one of the commands above. -/
theorem exec_outOk (i : Instr) (s : State) (h : BufOk s.sbuf) : OutOk (exec i s) := by
  unfold exec
  cases i <;> simp [h]

theorem step_outOk (s : State) (h : BufOk s.sbuf) : OutOk (step s) := by
  unfold step
  split
  · exact (outOk_next _).2 (State.cycle_bufOk s h)
  · exact exec_outOk _ _ h

/-- Settles O59: whatever a command does, it writes the buffer only by `setByte` or leaves it alone, and both keep the canonical form. -/
theorem sharedBufferStaysCanonical : Obligations.SharedBufferStaysCanonical := by
  intro s t hs ht
  exact (State.memOk_iff t).2 (step_outOk s ((State.memOk_iff s).1 hs) t ht)

end Sys2Proof.Machine
end

section
/-! SUPPORT. The statement on joining fails. -/

namespace Sys2Proof.Machine

open F

/-- The link hears on port 0, where join requests are open. Address 5, on port 2 behind the relay 1, is listed before the relay, so that 1
counts as free though it is PRESENT. No write of the table leaves it so (`Assoc.put` keeps addresses rising), but the statement speaks of
every `State`. -/
def relayListedLast : State :=
  { (((runningInM4.wr pEn 1).wr pPorts 1).wr pJoinOpen 1) with
    ptn := { PtnS.init with
      table := [(5, { Partner.init with state := 3, port := 2, parent := 1 }), (1, { Partner.init with state := 3 })] } }

/-- A request to join under the hub, of EUI-64 9. -/
def joinUnderHub : JoinReq := { eui := 9, depth := 1, parent := 0, caps := 0, lqi := 0, cls := 0, nonce := 0, rx := 0 }

theorem joinReq_flagsPort2 (t : State) (ht : exec (.joinReq 0 joinUnderHub) relayListedLast = .next t) : t.rd (pEvt 2) = 0x80 := by
  simpa using of_shows (p := fun t => t.rd (pEvt 2) == 0x80) (by decide +kernel) ht

/-- Refutes O52: a joiner that gets the address of a PRESENT relay leaves the partner behind it UNREACHABLE, with a flag of that partner's
port, which the statement does not let change. -/
theorem not_partnersJoin : ¬ Obligations.PartnersJoin := by
  unfold Obligations.PartnersJoin
  intro h
  obtain ⟨-, -, -, -, -, hjoin⟩ := h 0 0 joinUnderHub 0 0 0 relayListedLast
  obtain ⟨-, -, hnew⟩ := hjoin (by decide)
  obtain ⟨-, -, -, -, hgrant⟩ := hnew (by decide) (by decide) (by decide) (by decide)
  obtain ⟨t, ht, hframe, -⟩ := hgrant (by decide) (by decide) (by decide)
  have hkept : t.rd (pEvt 2) = relayListedLast.rd (pEvt 2) := hframe.regs (pEvt 2) (by decide) (by decide) (by simp [Fld.outside, State.giveTouch, Touch.and])
  rw [joinReq_flagsPort2 t ht] at hkept
  exact absurd hkept (by decide)

end Sys2Proof.Machine
end
